-- ==== Sys2Proof/Word.lean ====
section
/-!
DEFINITION. Sys2Proof/Word.lean: the word types and their plainest arithmetic (R8, R9, R13). Everything a test could
show wrong stands in the files under Sys2Proof/Machine or in Sys2Proof/Decode.lean.
-/

namespace Sys2Proof

/-- A 32-bit lane register (R109). -/
abbrev Word := BitVec 32

/-- A 64-bit value: a register pair, an address, a package time. -/
abbrev DWord := BitVec 64

abbrev Byte := BitVec 8

/-- `trunc32` of R13. -/
abbrev trunc32 (x : Int) : Word := BitVec.ofInt 32 x

/-- `trunc64` of R13. -/
abbrev trunc64 (x : Int) : DWord := BitVec.ofInt 64 x

end Sys2Proof
end

