-- ==== Sys2Proof/Machine/Flags.lean ====
section
/-!
DEFINITION. Sys2Proof/Machine/Flags.lean: the rules of R236 and R246 that other machines keep in flags. The TQ3240 has no
status flags: a compare writes a predicate, and an overflow is either wrapped or saturated into the result.
-/

namespace Sys2Proof.Machine

/-- The two views of an integer operand of `w` bits (R236). -/
def viewOf {w : Nat} (u : Bool) (x : BitVec w) : Int := if u then (x.toNat : Int) else x.toInt

/-- The least and the greatest value of a view. -/
def viewMin (w : Nat) (u : Bool) : Int := if u then 0 else -(2 : Int) ^ (w - 1)
def viewMax (w : Nat) (u : Bool) : Int := if u then (2 : Int) ^ w - 1 else (2 : Int) ^ (w - 1) - 1

/-- `v` held to the range of a view. -/
def clampView (w : Nat) (u : Bool) (v : Int) : Int := min (max v (viewMin w u)) (viewMax w u)

/-- The integer result rule of R236: saturate in the view when asked, then keep the low `w` bits. -/
def intResult (w : Nat) (sat u : Bool) (v : Int) : BitVec w :=
  BitVec.ofInt w (if sat then clampView w u v else v)

/-- The conditions of ICMP and VCMP: 0 eq, 1 ne, 2 lt, 3 le, 4 gt, 5 ge (R246, R308). -/
def condInt (code : Nat) (a b : Int) : Bool :=
  match code with
  | 0 => a == b
  | 1 => a != b
  | 2 => decide (a < b)
  | 3 => decide (a ≤ b)
  | 4 => decide (b < a)
  | _ => decide (b ≤ a)

/-- The combining operation of ICMP: 0 none, 1 and, 2 or, 3 xor (R246). -/
def combine (op : Nat) (t p : Bool) : Bool :=
  match op with
  | 0 => t
  | 1 => t && p
  | 2 => t || p
  | _ => t != p

/-- A two-input function given by its 4-bit table (R242, R247). -/
def tableBit (f : Nat) (a b : Bool) : Bool := f.testBit ((if a then 2 else 0) + (if b then 1 else 0))

end Sys2Proof.Machine
end

