-- ==== Sys2Proof/Syntax.lean ====
section
/-!
DEFINITION. Sys2Proof/Syntax.lean: the instructions and steps of the TQ3240, one constructor per row of
spec/opcode_table.json.

A row that is an instruction word carries the fields of its format (R203, R205 to R210), each at the width the format
gives it. The fields stay as the word holds them: an illegal value of a field is no undecodable word, it raises cause
0x03 at check 5 of R219 when the word issues, so a term must be able to hold it. What a field means (a register, a
predicate, a scope) is read once, in Sys2Proof/Machine/Operands.lean. A row that is no word is a step of a frame, the
hub, the reckoner, a home slice or the outside world (spec/95): it carries the names of what it acts on.
-/

namespace Sys2Proof

/-- The guard of a word (R203): the lane's guard is `p[pred] XOR neg`. -/
structure Guard where
  /-- Bit 53. -/
  neg : Bool
  /-- Bits 52:50. -/
  pred : BitVec 3
  deriving DecidableEq, Repr

/-- Format R (R205), and format S (R210), which has the same layout. -/
structure RWord where
  g : Guard
  dst : BitVec 8
  a : BitVec 8
  b : BitVec 8
  c : BitVec 8
  mod : BitVec 18
  deriving DecidableEq, Repr

/-- Format I (R206). -/
structure IWord where
  g : Guard
  dst : BitVec 8
  a : BitVec 8
  imm : BitVec 34
  deriving DecidableEq, Repr

/-- Format M (R207). -/
structure MWord where
  g : Guard
  d : BitVec 8
  base : BitVec 8
  idx : BitVec 8
  off : BitVec 18
  size : BitVec 3
  scope : BitVec 3
  idxv : Bool
  nt : Bool
  deriving DecidableEq, Repr

/-- Format B (R208). -/
structure BWord where
  g : Guard
  tgt : BitVec 32
  a : BitVec 8
  mod : BitVec 10
  deriving DecidableEq, Repr

/-- Format E (R209). -/
structure EWord where
  g : Guard
  e0 : BitVec 8
  e1 : BitVec 8
  e2 : BitVec 8
  con0 : BitVec 4
  con1 : BitVec 4
  con2 : BitVec 4
  conv : BitVec 3
  prod : BitVec 4
  prodv : Bool
  j : Bool
  cmod : BitVec 5
  deriving DecidableEq, Repr

/-- A frame of the package (R17): its die and its number on the die. -/
structure FrameId where
  die : Nat
  frame : Nat
  deriving DecidableEq, Repr

/-- Where a rod stands: a rod slot of a frame (R361), or the frame's firmware context (R357). -/
inductive Slot where
  | rod (n : Nat)
  | firmware
  deriving DecidableEq, Repr

/-- A resident rod, or a firmware context, by its place. -/
structure RodKey where
  frame : FrameId
  slot : Slot
  deriving DecidableEq, Repr

/-- The three engines of a frame (R18), in the numbering of R376. -/
inductive EngineId where
  | ve
  | ce
  | me
  deriving DecidableEq, Repr

/-- The snoops the home sends (R429 to R431). -/
inductive SnoopKind where
  | share
  | invalidate
  | clean
  deriving DecidableEq, Repr

/-- The operations of atomics (R283, R285 to R287). -/
inductive AtomOp where
  /-- Integer add: saturating or not, unsigned view or not. -/
  | add (sat u : Bool)
  | min (u : Bool)
  | max (u : Bool)
  | and
  | or
  | xor
  | exch
  /-- FP32 or FP64 add (`.f`). -/
  | fadd
  | cas
  /-- One half of a packed add (R286), in BF16 or else FP16. -/
  | halfAdd (bf : Bool)
  deriving DecidableEq, Repr

/-- A partition descriptor (R471). -/
structure PartDesc where
  dieMask : BitVec 32
  netMask : BitVec 4
  isDefined : Bool
  isolated : Bool
  quota : Nat
  firstAsid : Nat
  asidCount : Nat
  sliceUs : Nat
  queueWdogMs : Nat
  /-- Memory ranges 0 to 3: physical base and length. -/
  ranges : List (Nat × Nat)
  saveBase : Nat
  saveSize : Nat
  deriving DecidableEq, Repr

/-- What a re-plan of one die comes to (R478): supply steps of 5 mV, or clusters disabled. -/
inductive ReplanResult where
  | raise (steps : Nat)
  | disable (clusters : List Nat)
  deriving DecidableEq, Repr

/-- An 8-byte signal write (R394): its address, value and operation. -/
structure SignalWrite where
  addr : Nat
  value : BitVec 64
  isAdd : Bool
  deriving DecidableEq, Repr

/-- What the power controller wakes (R432). -/
inductive GateTarget where
  | frame (p : FrameId)
  | slice (die slice : Nat)
  deriving DecidableEq, Repr

/-- One constructor per row of spec/opcode_table.json, in the table's order. -/
inductive Instr where
  /-- `IADD` (R239): Adds two integer registers per enabled lane, wrapping or saturating. -/
  | iadd (w : RWord)
  /-- `ISUB` (R239): Subtracts two integer registers per enabled lane, wrapping or saturating. -/
  | isub (w : RWord)
  /-- `IMUL` (R239): Multiplies two integer registers and keeps the low W bits or the saturated product. -/
  | imul (w : RWord)
  /-- `IMULH` (R239): Writes the high W bits of the exact integer product. -/
  | imulh (w : RWord)
  /-- `IMAD` (R239): Computes a times b plus c on integers, wrapping or saturating. -/
  | imad (w : RWord)
  /-- `IDIV` (R240): Integer division toward zero that never faults for its operand values. -/
  | idiv (w : RWord)
  /-- `IREM` (R240): Integer remainder with the sign of the dividend that never faults for its operand values. -/
  | irem (w : RWord)
  /-- `IMIN` (R239): Writes the smaller of two integers, in the signed or unsigned view. -/
  | imin (w : RWord)
  /-- `IMAX` (R239): Writes the larger of two integers, in the signed or unsigned view. -/
  | imax (w : RWord)
  /-- `IABS` (R239): Writes the absolute value of a signed integer. -/
  | iabs (w : RWord)
  /-- `INEG` (R239): Writes the negation of a signed integer. -/
  | ineg (w : RWord)
  /-- `LEA` (R241): Forms a 64-bit address from a base pair and a shifted offset. -/
  | lea (w : RWord)
  /-- `AND` (R242): Bitwise AND of two registers. -/
  | and (w : RWord)
  /-- `OR` (R242): Bitwise OR of two registers. -/
  | or (w : RWord)
  /-- `XOR` (R242): Bitwise XOR of two registers. -/
  | xor (w : RWord)
  /-- `ANDN` (R242): Bitwise a AND NOT b. -/
  | andn (w : RWord)
  /-- `LMUX` (R242): Applies one of two two-input bit functions per bit, chosen by the bit of c. -/
  | lmux (w : RWord)
  /-- `SHL` (R242): Shifts left by b mod W. -/
  | shl (w : RWord)
  /-- `SHR` (R242): Logical shift right by b mod W. -/
  | shr (w : RWord)
  /-- `SAR` (R242): Arithmetic shift right by b mod W. -/
  | sar (w : RWord)
  /-- `ROL` (R242): Rotates left by b mod W. -/
  | rol (w : RWord)
  /-- `SHF` (R242): Funnel shift of a 64-bit concatenation left or right, keeping 32 bits. -/
  | shf (w : RWord)
  /-- `BFX` (R243): Extracts a bit field, sign- or zero-extended. -/
  | bfx (w : RWord)
  /-- `BFI` (R243): Inserts the low bits of a into c at a position. -/
  | bfi (w : RWord)
  /-- `POPC` (R244): Counts the set bits of a. -/
  | popc (w : RWord)
  /-- `CLZ` (R244): Counts the leading zeros of a. -/
  | clz (w : RWord)
  /-- `CTZ` (R244): Counts the trailing zeros of a. -/
  | ctz (w : RWord)
  /-- `BREV` (R244): Reverses the bit order of a. -/
  | brev (w : RWord)
  /-- `BPERM` (R245): Builds each output byte from a selected source byte or its sign fill. -/
  | bperm (w : RWord)
  /-- `ICMP` (R246): Compares two integers and writes a predicate, optionally combined with another. -/
  | icmp (w : RWord)
  /-- `PLOP` (R247): Computes a predicate from three predicates through two function tables. -/
  | plop (w : RWord)
  /-- `SEL` (R247): Selects a or b under a predicate. -/
  | sel (w : RWord)
  /-- `PMOV_GET` (R247): Packs p0 to p6 into a register. -/
  | pmovGet (w : RWord)
  /-- `PMOV_SET` (R247): Sets the masked predicates from register bits. -/
  | pmovSet (w : RWord)
  /-- `MOV` (R247): Copies a register or pair. -/
  | mov (w : RWord)
  /-- `LXCH` (R248): Reads a register from another participating lane by pick, shift, rotate or mirror. -/
  | lxch (w : RWord)
  /-- `PAGG` (R248): Aggregates a predicate over participating lanes as mask, count, all, any or same. -/
  | pagg (w : RWord)
  /-- `PFX` (R248): Sets a predicate on lanes below a register value. -/
  | pfx (w : RWord)
  /-- `RRED` (R249): Reduces a value across the participating lanes of one rod in ascending lane order. -/
  | rred (w : RWord)
  /-- `RRED_JOINED` (R250): Signs a partial reduction on a join register for reduction across member rods. -/
  | rredJoined (w : RWord)
  /-- `XSET` (R251): Writes the index and bound of an index register. -/
  | xset (w : RWord)
  /-- `XADD` (R251): Adds to the index of an index register. -/
  | xadd (w : RWord)
  /-- `IADD_IMM` (R252): Immediate form of IADD. -/
  | iaddImm (w : IWord)
  /-- `ISUB_IMM` (R252): Immediate form of ISUB. -/
  | isubImm (w : IWord)
  /-- `IMUL_IMM` (R252): Immediate form of IMUL. -/
  | imulImm (w : IWord)
  /-- `IMIN_IMM` (R252): Immediate form of IMIN, signed. -/
  | iminImm (w : IWord)
  /-- `IMAX_IMM` (R252): Immediate form of IMAX, signed. -/
  | imaxImm (w : IWord)
  /-- `LEA_IMM` (R252): Immediate form of LEA with a sign-extended offset. -/
  | leaImm (w : IWord)
  /-- `AND_IMM` (R252): Immediate form of AND. -/
  | andImm (w : IWord)
  /-- `OR_IMM` (R252): Immediate form of OR. -/
  | orImm (w : IWord)
  /-- `XOR_IMM` (R252): Immediate form of XOR. -/
  | xorImm (w : IWord)
  /-- `ANDN_IMM` (R252): Immediate form of ANDN. -/
  | andnImm (w : IWord)
  /-- `SHL_IMM` (R252): Immediate form of SHL. -/
  | shlImm (w : IWord)
  /-- `SHR_IMM` (R252): Immediate form of SHR. -/
  | shrImm (w : IWord)
  /-- `SAR_IMM` (R252): Immediate form of SAR. -/
  | sarImm (w : IWord)
  /-- `ROL_IMM` (R252): Immediate form of ROL. -/
  | rolImm (w : IWord)
  /-- `BFX_IMM` (R252): Short immediate form of BFX with position and length in the immediate. -/
  | bfxImm (w : IWord)
  /-- `BPERM_IMM` (R252): Short immediate form of BPERM with bytes 4 to 7 reading zero. -/
  | bpermImm (w : IWord)
  /-- `ICMP_IMM` (R252): Short immediate form of ICMP without a combining operation. -/
  | icmpImm (w : IWord)
  /-- `MOVI` (R252): Writes a 32-bit immediate into a register. -/
  | movi (w : IWord)
  /-- `MOVHI` (R252): Writes a 32-bit immediate into the odd register of a pair. -/
  | movhi (w : IWord)
  /-- `XADD_IMM` (R252): Immediate form of XADD. -/
  | xaddImm (w : IWord)
  /-- `FADD` (R253): FP32 addition rounded once. -/
  | fadd (w : RWord)
  /-- `FSUB` (R253): FP32 subtraction rounded once. -/
  | fsub (w : RWord)
  /-- `FMUL` (R253): FP32 multiplication rounded once. -/
  | fmul (w : RWord)
  /-- `FFMA` (R253): FP32 fused multiply-add rounded once. -/
  | ffma (w : RWord)
  /-- `FMIN` (R157): IEEE minimum of two FP32 values. -/
  | fmin (w : RWord)
  /-- `FMAX` (R157): IEEE maximum of two FP32 values. -/
  | fmax (w : RWord)
  /-- `FMINN` (R157): minimumNumber of two FP32 values. -/
  | fminn (w : RWord)
  /-- `FMAXN` (R157): maximumNumber of two FP32 values. -/
  | fmaxn (w : RWord)
  /-- `FRND` (R254): Rounds an FP32 value to an integer value under the rounding mode. -/
  | frnd (w : RWord)
  /-- `FDIV` (R254): FP32 division rounded once. -/
  | fdiv (w : RWord)
  /-- `FSQRT` (R254): FP32 square root rounded once. -/
  | fsqrt (w : RWord)
  /-- `FRCP` (R254): FP32 reciprocal rounded once. -/
  | frcp (w : RWord)
  /-- `FRSQ` (R254): FP32 reciprocal square root rounded once. -/
  | frsq (w : RWord)
  /-- `FCMP` (R255): Compares two FP32 values and writes a predicate. -/
  | fcmp (w : RWord)
  /-- `FCLASS` (R256): Writes a one-hot class mask of an FP32 encoding. -/
  | fclass (w : RWord)
  /-- `HADD2` (R257): Adds two packed FP16 or BF16 pairs. -/
  | hadd2 (w : RWord)
  /-- `HMUL2` (R257): Multiplies two packed FP16 or BF16 pairs. -/
  | hmul2 (w : RWord)
  /-- `HFMA2` (R257): Fused multiply-add on packed FP16 or BF16 pairs. -/
  | hfma2 (w : RWord)
  /-- `HMIN2` (R257): Per-half IEEE minimum of packed pairs. -/
  | hmin2 (w : RWord)
  /-- `HMAX2` (R257): Per-half IEEE maximum of packed pairs. -/
  | hmax2 (w : RWord)
  /-- `CVT` (R258): Converts between lane formats under the rounding, .nan and .sat rules. -/
  | cvt (w : RWord)
  /-- `LOGC` (R149): Converts FP32 to the L32 log-domain format. -/
  | logc (w : RWord)
  /-- `EXPC` (R149): Converts L32 to FP32. -/
  | expc (w : RWord)
  /-- `LMUL` (R148): Multiplies two L32 values by adding exponents. -/
  | lmul (w : RWord)
  /-- `LDIV` (R148): Divides two L32 values by subtracting exponents. -/
  | ldiv (w : RWord)
  /-- `LPOW` (R148): Raises an L32 value to a signed integer power. -/
  | lpow (w : RWord)
  /-- `LROOT` (R148): Takes the 2^q-th root of an L32 value. -/
  | lroot (w : RWord)
  /-- `FEX2` (R260): Computes 2^a in FP32, rounded once. -/
  | fex2 (w : RWord)
  /-- `FLG2` (R260): Computes log2 a in FP32, rounded once. -/
  | flg2 (w : RWord)
  /-- `FSIN` (R260): Computes sine with exact argument reduction. -/
  | fsin (w : RWord)
  /-- `FCOS` (R260): Computes cosine with exact argument reduction. -/
  | fcos (w : RWord)
  /-- `FTANH` (R260): Computes tanh in FP32, rounded once. -/
  | ftanh (w : RWord)
  /-- `FSIGM` (R260): Computes the logistic sigmoid in FP32, rounded once. -/
  | fsigm (w : RWord)
  /-- `LD` (R276): Weak global load that takes a load-queue entry and writes its register when data returns. -/
  | ld (w : MWord)
  /-- `LDS` (R275): Strong global load at a scope. -/
  | lds (w : MWord)
  /-- `LDA` (R275): Acquire global load at a scope. -/
  | lda (w : MWord)
  /-- `LDFF` (R278): First-fault load that clears the guard predicate from the first failing lane upward. -/
  | ldff (w : MWord)
  /-- `ST` (R277): Weak global store. -/
  | st (w : MWord)
  /-- `STS` (R275): Strong global store at a scope. -/
  | sts (w : MWord)
  /-- `STL` (R275): Release global store at a scope. -/
  | stl (w : MWord)
  /-- `LDF` (R281): Loads from the team's frame store at fixed latency. -/
  | ldf (w : MWord)
  /-- `STF` (R281): Stores into the team's frame store. -/
  | stf (w : MWord)
  /-- `WAITQ` (R280): Waits until each enabled item has at most n load-queue entries. -/
  | waitq (w : RWord)
  /-- `ATOM` (R283): Atomic read-modify-write on global memory returning the old value. -/
  | atom (w : RWord)
  /-- `RED` (R284): Atomic read-modify-write on global memory without a returned value. -/
  | red (w : RWord)
  /-- `CAS` (R285): Atomic compare-and-swap on global memory. -/
  | cas (w : RWord)
  /-- `ATADD2` (R286): Atomically adds a packed FP16 or BF16 pair, each half separately. -/
  | atadd2 (w : RWord)
  /-- `ATOMF` (R287): Atomic operation on the team's frame store. -/
  | atomf (w : RWord)
  /-- `FENCE` (R288): Orders the item's accesses at a scope as acquire, release, both or sequentially consistent. -/
  | fence (w : RWord)
  /-- `CFLUSH` (R289): Writes back the dirty bytes of a range to the level of its scope. -/
  | cflush (w : MWord)
  /-- `CINV` (R289): Writes back and discards the sectors of a range up to the level of its scope. -/
  | cinv (w : MWord)
  /-- `PREF` (R290): Prefetches a sector into the frame or die cache without faulting. -/
  | pref (w : MWord)
  /-- `TKPUT` (R292): Places one token in a team queue or raises token overflow. -/
  | tkput (w : RWord)
  /-- `TKGET` (R293): Removes the oldest token of a queue or blocks until one is available. -/
  | tkget (w : RWord)
  /-- `TKTRY` (R294): Removes a token if available and sets a predicate, never blocking. -/
  | tktry (w : RWord)
  /-- `TKSET` (R291): Sets the producer and consumer bindings of a token queue. -/
  | tkset (w : RWord)
  /-- `BAR_MEET` (R296): The rod arrives at a frame barrier and its enabled items wait for the generation. -/
  | barMeet (w : RWord)
  /-- `BAR_PASS` (R296): The rod arrives at a frame barrier without waiting. -/
  | barPass (w : RWord)
  /-- `BAR_SIZE` (R296): Sets the expected rod count of a frame barrier. -/
  | barSize (w : RWord)
  /-- `BRA` (R262): Branches enabled lanes to a relative target. -/
  | bra (w : BWord)
  /-- `BRX` (R262): Branches each enabled lane to the address in its register pair. -/
  | brx (w : RWord)
  /-- `CALL` (R262): Writes the return address into a pair and branches. -/
  | call (w : BWord)
  /-- `RET` (R262): Returns to the address in a pair, as BRX. -/
  | ret (w : RWord)
  /-- `EXIT` (R263): Retires each enabled item and closes its carry slots. -/
  | exit (w : RWord)
  /-- `RCV` (R264): Pushes a reconvergence mark naming an RSYNC onto enabled items. -/
  | rcv (w : BWord)
  /-- `RSYNC` (R45): Enters sync-wait on a matching mark or completes as a no-operation. -/
  | rsync (w : RWord)
  /-- `SYNC_RELEASE` (R45): A satisfied mark releases its waiting items as one runnable sub-rod. -/
  | syncRelease (k : RodKey) (lane : Nat)
  /-- `NOP` (R264): Has no effect. -/
  | nop (w : RWord)
  /-- `YIELD` (R264): Makes the rod not ready in the next cycle. -/
  | yield (w : RWord)
  /-- `GROW` (R54): Asks that the rod hold at least the given register block counts, blocking if not free. -/
  | grow (w : RWord)
  /-- `SHRINK` (R54): Releases the rod's register blocks above the given counts. -/
  | shrink (w : RWord)
  /-- `JSET` (R59): Sets the member set of a join register. -/
  | jset (w : RWord)
  /-- `JWAIT` (R62): Blocks until every instance the rod signed has entered its engine queue. -/
  | jwait (w : RWord)
  /-- `CSTAT` (R266): Reports the buffered count, closure and read count of a carry slot. -/
  | cstat (w : RWord)
  /-- `CDONE` (R81): Closes a carry slot towards the item's consumer. -/
  | cdone (w : RWord)
  /-- `VALID` (R98): Sets the item's validity bit from a predicate in phase 1. -/
  | valid (w : RWord)
  /-- `SLACK` (R266): Returns the launch's slack. -/
  | slack (w : RWord)
  /-- `SRD` (R266): Reads a special register. -/
  | srd (w : RWord)
  /-- `RNGC` (R267): Computes the counter-based random generator for each enabled lane. -/
  | rngc (w : RWord)
  /-- `CARRY_WAIT_RELEASE` (R75): A lane in carry-wait becomes able to read or publish and re-executes the instruction. -/
  | carryWaitRelease (k : RodKey) (lane : Nat)
  /-- `VADD` (R308): Issues element-wise FP32 addition on frame-store regions to the vector engine. -/
  | vadd (w : EWord)
  /-- `VSUB` (R308): Issues element-wise FP32 subtraction to the vector engine. -/
  | vsub (w : EWord)
  /-- `VMUL` (R308): Issues element-wise FP32 multiplication to the vector engine. -/
  | vmul (w : EWord)
  /-- `VFMA` (R308): Issues element-wise fused multiply-add into the destination region. -/
  | vfma (w : EWord)
  /-- `VMIN` (R308): Issues element-wise minimum to the vector engine. -/
  | vmin (w : EWord)
  /-- `VMAX` (R308): Issues element-wise maximum to the vector engine. -/
  | vmax (w : EWord)
  /-- `VSCL` (R308): Issues scaling of a region by a captured FP32 scalar. -/
  | vscl (w : EWord)
  /-- `VCVT` (R309): Issues element-wise format conversion between regions. -/
  | vcvt (w : EWord)
  /-- `VMOV` (R308): Issues a raw copy of region elements. -/
  | vmov (w : EWord)
  /-- `VFILL` (R308): Issues a fill of a region with a 32-bit value. -/
  | vfill (w : EWord)
  /-- `VCMP` (R308): Issues element-wise comparison writing 0 or 1. -/
  | vcmp (w : EWord)
  /-- `VSEL` (R308): Issues element-wise selection under a mask region. -/
  | vsel (w : EWord)
  /-- `VSUM` (R310): Issues an exact sum of a region rounded once, delivered as payload. -/
  | vsum (w : EWord)
  /-- `VMAXR` (R310): Issues a maximum reduction of a region delivered as payload. -/
  | vmaxr (w : EWord)
  /-- `VLOGC` (R311): Issues element-wise LOGC on a region. -/
  | vlogc (w : EWord)
  /-- `VEXPC` (R311): Issues element-wise EXPC on a region. -/
  | vexpc (w : EWord)
  /-- `VEX2` (R311): Issues element-wise 2^x on a region. -/
  | vex2 (w : EWord)
  /-- `VSIGM` (R311): Issues element-wise sigmoid on a region. -/
  | vsigm (w : EWord)
  /-- `VTANH` (R311): Issues element-wise tanh on a region. -/
  | vtanh (w : EWord)
  /-- `CPIN` (R313): Issues a copy of global bytes into the frame store. -/
  | cpin (w : EWord)
  /-- `CPOUT` (R313): Issues a copy of frame-store bytes to global memory. -/
  | cpout (w : EWord)
  /-- `CPFF` (R314): Issues a first-fault element copy from global memory that stops at the first failing element. -/
  | cpff (w : EWord)
  /-- `CP2D` (R315): Issues a pitched block copy of rows in or out. -/
  | cp2d (w : EWord)
  /-- `CPPL` (R316): Issues a copy of row-major data into a window's plane layout. -/
  | cppl (w : EWord)
  /-- `CPACC` (R318): Issues a copy of accumulator elements into the frame store with conversion. -/
  | cpacc (w : EWord)
  /-- `CPACI` (R318): Issues a copy of frame-store words into accumulator elements. -/
  | cpaci (w : EWord)
  /-- `CPPEER` (R319): Issues a copy into a peer team's frame store with an optional remote token. -/
  | cppeer (w : EWord)
  /-- `WINDEF` (R322): Issues a write of an operand window record. -/
  | windef (w : EWord)
  /-- `WINREL` (R322): Issues the invalidation of an operand window record. -/
  | winrel (w : EWord)
  /-- `ACRES` (R323): Reserves accumulator rows to the rod or blocks until they are free. -/
  | acres (w : EWord)
  /-- `ACREL` (R323): Releases the rod's rows once earlier commands naming them are done. -/
  | acrel (w : EWord)
  /-- `ACZERO` (R325): Issues zeroing of an accumulator block. -/
  | aczero (w : EWord)
  /-- `MMA` (R326): Issues a tile multiply-accumulate of two windows into the accumulator. -/
  | mma (w : EWord)
  /-- `MSCL` (R328): Issues scaling of an FP32 accumulator block. -/
  | mscl (w : EWord)
  /-- `MCHK` (R329): Issues a check of an accumulator block whose status is the token payload. -/
  | mchk (w : EWord)
  /-- `ENGINE_COMMAND_START` (R302): A queued command whose tokens, queue order and produce room hold passes its start checks and starts. -/
  | engineCommandStart (p : FrameId) (e : EngineId)
  /-- `ENGINE_COMMAND_FINISH` (R302): A running command completes its effects and writes its token into its reserved slot. -/
  | engineCommandFinish (p : FrameId) (e : EngineId) (pos : Nat)
  /-- `COMMAND_RUN_FAULT` (R304): A running command stops on a translation, permission, poison or link fault with a progress count. -/
  | commandRunFault (p : FrameId) (e : EngineId) (pos : Nat)
  /-- `ENGINE_FAULT_DELIVERY` (R303): An engine command fault is delivered to a rod at its next instruction boundary, parking its sub-rods. -/
  | engineFaultDelivery (k : RodKey)
  /-- `TRAP_HALT` (R374): Halts a rod at its next boundary with a debug-halt record. -/
  | trapHalt (w : RWord)
  /-- `TRAP_SLICE` (R374): Stops a rod for a time slice at its next boundary. -/
  | trapSlice (w : RWord)
  /-- `TRAP_WDOG` (R374): Parks every runnable sub-rod of a rod with a watchdog record. -/
  | trapWdog (w : RWord)
  /-- `RETT` (R371): Returns from the firmware handler to sys.epc. -/
  | rett (w : RWord)
  /-- `SYSRD` (R370): Reads a system register of the frame. -/
  | sysrd (w : RWord)
  /-- `SYSWR` (R370): Writes a system register that has no behaviour of its own. -/
  | syswr (w : RWord)
  /-- `ENGINE_ISSUE_STOP` (R361): Setting a sys.engctl bit makes an engine stop issue at its next command boundary. -/
  | engineIssueStop (p : FrameId) (e : EngineId)
  /-- `ENGINE_ISSUE_RESUME` (R361): Clearing a sys.engctl bit lets an engine resume issue. -/
  | engineIssueResume (p : FrameId) (e : EngineId)
  /-- `ENGINE_STOPPED` (R361): An engine with issue stopped reports stopped once no command runs. -/
  | engineStopped (p : FrameId) (e : EngineId)
  /-- `EVENT_CLEAR` (R364): A write-one-to-clear of sys.event bits. -/
  | eventClear (w : RWord)
  /-- `ROD_WINDOW_WRITE` (R362): Writes a register, predicate, index or program counter of a parked or stopped lane. -/
  | rodWindowWrite (w : RWord)
  /-- `ENGRD` (R376): Reads an engine queue entry, window, token queue, join or barrier image. -/
  | engrd (w : RWord)
  /-- `ENGWR` (R376): Writes an engine or team state image, appending or clearing queue entries. -/
  | engwr (w : RWord)
  /-- `CTXSV` (R377): Saves a halted or sliced rod to memory and frees its slot. -/
  | ctxsv (w : RWord)
  /-- `CTXSV_TEAM` (R377): Saves a team's state and unstarted queue entries and frees its resources. -/
  | ctxsvTeam (w : RWord)
  /-- `CTXLD` (R454): Loads a saved rod image into a free slot. -/
  | ctxld (w : RWord)
  /-- `CTXLD_TEAM` (R454): Loads a saved team image and restores its queue entries in save order. -/
  | ctxldTeam (w : RWord)
  /-- `TLBI_VA` (R378): Removes the die's cached translations of one page in an ASID. -/
  | tlbiVa (w : RWord)
  /-- `TLBI_ASID` (R378): Removes the die's cached translations of an ASID. -/
  | tlbiAsid (w : RWord)
  /-- `TLBI_ALL` (R378): Removes every cached translation of the die. -/
  | tlbiAll (w : RWord)
  /-- `TLBI_COMPLETE` (R423): A TLBI completes and sends its report to the hub. -/
  | tlbiComplete (p : FrameId)
  /-- `BKPT` (R379): Stops the firmware context and signals the hub's debug agent. -/
  | bkpt (w : RWord)
  /-- `FWCALL` (R380): Sends a service request to the hub management cores and waits. -/
  | fwcall (w : RWord)
  /-- `FWCALL_REPLY` (R380): The hub's reply replaces the request registers and writes the status. -/
  | fwcallReply (p : FrameId) (status : BitVec 32) (reply : List (BitVec 32))
  /-- `PARKQ` (R372): Removes the oldest fault record of the park queue into registers. -/
  | parkq (w : RWord)
  /-- `RESUME_RETRY` (R375): Re-executes the faulting instruction or restarts a stopped command. -/
  | resumeRetry (w : RWord)
  /-- `RESUME_SKIP` (R375): Continues the record's sub-rods past the faulting instruction. -/
  | resumeSkip (w : RWord)
  /-- `RESUME_ABORT` (R375): Retires the record's lanes as killed, or cancels a stopped command. -/
  | resumeAbort (w : RWord)
  /-- `RESUME_RUN` (R375): Releases a halt or slice stop of a rod. -/
  | resumeRun (w : RWord)
  /-- `IDLE` (R373): Waits for an enabled event or a package time. -/
  | idle (w : RWord)
  /-- `IDLE_WAKE` (R373): An IDLE completes on an event or its time limit. -/
  | idleWake (p : FrameId)
  /-- `HANDLER_ENTRY` (R364): An enabled pending event enters the firmware handler at an instruction boundary. -/
  | handlerEntry (p : FrameId)
  /-- `DADD` (R268): FP64 addition, trapping for emulation on an M-die. -/
  | dadd (w : RWord)
  /-- `DMUL` (R268): FP64 multiplication. -/
  | dmul (w : RWord)
  /-- `DFMA` (R268): FP64 fused multiply-add rounded once. -/
  | dfma (w : RWord)
  /-- `DDIV` (R268): FP64 division. -/
  | ddiv (w : RWord)
  /-- `DSQRT` (R268): FP64 square root. -/
  | dsqrt (w : RWord)
  /-- `DCVT` (R269): Converts between FP64 and FP32, INT32, UINT32 or INT64. -/
  | dcvt (w : RWord)
  /-- `LOAD_RETURN` (R276): Returned load data writes the destination register, or marks it for poison or link down. -/
  | loadReturn (k : RodKey) (lane : Nat) (pos : Nat)
  /-- `FENCE_COMPLETE` (R288): A FENCE's conditions hold and it completes, reporting deferred write errors. -/
  | fenceComplete (k : RodKey) (lane : Nat)
  /-- `TEAM_START` (R40): A team's resources are allocated and its first rod becomes resident after an acquire. -/
  | teamStart (p : FrameId)
  /-- `REQUEST_SERVE` (R55): The oldest waiting request for register blocks or rows is granted, including rod reload and rod start. -/
  | requestServe (p : FrameId)
  /-- `ROD_EVICTION` (R56): With every resident rod stuck, the youngest rod is saved and its blocks released. -/
  | rodEviction (p : FrameId)
  /-- `TEAM_RETIRE` (R37): A team whose rods retired and commands finished releases its resources. -/
  | teamRetire (p : FrameId) (ts : Nat)
  /-- `WRAP_UP_THRESHOLD` (R93): At T_w the launch stops starting teams, closes slots and cancels pending commands. -/
  | wrapUpThreshold (seq : Nat)
  /-- `ITEM_DIVERT` (R94): A live item is diverted to the wrap-up entry at an instruction boundary. -/
  | itemDivert (k : RodKey)
  /-- `DEADLINE_KILL` (R99): At D every unretired item of the launch is killed with validity 0. -/
  | deadlineKill (seq : Nat)
  /-- `LAUNCH_COMPLETION` (R200): After the last team retires the reckoner releases and writes map, record and signal. -/
  | launchCompletion (seq : Nat)
  /-- `STUCK_FRAME_WATCHDOG` (R442): Expiry parks the oldest resident rod's live sub-rods with a cause 0x17 record. -/
  | stuckFrameWatchdog (p : FrameId)
  /-- `ENGINE_WATCHDOG` (R442): Expiry cancels the stalled team's unstarted entries and delivers cause 0x17. -/
  | engineWatchdog (p : FrameId) (e : EngineId)
  /-- `PARTITION_WATCHDOG` (R442): Expiry reports an unresolved fault record to the driver. -/
  | partitionWatchdog (p : FrameId) (recSeq : BitVec 16)
  /-- `SLICE_TIME_REACHED` (R410): Package time reaches sys.slice and sets the slice event. -/
  | sliceTimeReached (p : FrameId)
  /-- `TIMER_REACHED` (R364): Package time reaches sys.timer and sets the timer event. -/
  | timerReached (p : FrameId)
  /-- `HUB_DOORBELL` (R364): The hub writes the frame's doorbell and sets event bit 3. -/
  | hubDoorbell (p : FrameId)
  /-- `DEBUG_REQUEST` (R364): The hub's debug agent asks and sets event bit 5. -/
  | debugRequest (p : FrameId)
  /-- `PREEMPTION` (R449): Firmware stops, saves and releases the frame's launch for a waiting launch. -/
  | preemption (p : FrameId)
  /-- `SCHEDULER_CHOICE` (R408): A frame that can take a next launch is given the launch of highest key. -/
  | schedulerChoice (p : FrameId)
  /-- `LAUNCH_KILL` (R442): Hub firmware kills a launch at firmware request. -/
  | launchKill (seq : Nat)
  /-- `QUEUE_REGISTER` (R383): Hub firmware registers a queue in a partition, stopped. -/
  | queueRegister (q desc part asid : Nat)
  /-- `QUEUE_TAIL_WRITE` (R387): A store to a watched tail line notifies the reckoner, which reads the tail. -/
  | queueTailWrite (q : Nat)
  /-- `QUEUE_STOP_REQUEST` (R390): A stop request drains the queue's started packets and frees its slot. -/
  | queueStopRequest (q : Nat)
  /-- `QUEUE_START_REQUEST` (R390): A start request checks line 0 and makes the queue resident. -/
  | queueStartRequest (q : Nat)
  /-- `QUEUE_RESTART` (R388): Hub firmware resumes an errored queue at its read index. -/
  | queueRestart (q : Nat)
  /-- `QUEUE_SWAP_IN` (R391): A swapped queue takes a slot, swapping out an idle or waiting queue if needed. -/
  | queueSwapIn (q : Nat)
  /-- `QUEUE_WATCHDOG` (R391): A queue waiting longer than the queue watchdog interval is reported. -/
  | queueWatchdog (q : Nat)
  /-- `LAUNCH` (R406): A LAUNCH packet's launch is read, tested, admitted to the pool with a frame list, or refused. -/
  | launch (q : Nat)
  /-- `SIGNAL` (R394): A SIGNAL packet performs a store or atomic add at its scope. -/
  | signal (q : Nat)
  /-- `WAIT` (R395): A WAIT packet starts reading its word and holds its queue. -/
  | wait (q : Nat)
  /-- `WAIT_COMPLETE` (R395): A WAIT read returns a value at least v and the WAIT completes. -/
  | waitComplete (q : Nat)
  /-- `WAIT_TIMEOUT` (R395): A WAIT's timeout passes and it completes as timed out. -/
  | waitTimeout (q : Nat)
  /-- `CALLQ` (R396): Expands a packet buffer in place in the queue. -/
  | callq (q : Nat)
  /-- `JOINQ` (R399): Stops the look-ahead and completes at start. -/
  | joinq (q : Nat)
  /-- `FENCE_PACKET` (R397): Performs a release and acquire at its scope and asks dies to write back. -/
  | fencePacket (q : Nat)
  /-- `NOP_PACKET` (R392): Completes at start. -/
  | nopPacket (q : Nat)
  /-- `TIMESTAMP` (R397): Writes the package time of its start as a release store. -/
  | timestamp (q : Nat)
  /-- `READ_SHARED` (R429): A P agent's read miss is served by the home with snoops as needed. -/
  | readShared (agent sector : Nat)
  /-- `READ_UNIQUE` (R429): A P agent obtains a sector exclusive, invalidating others. -/
  | readUnique (agent sector : Nat)
  /-- `UPGRADE` (R429): A sharer upgrades a sector to modified. -/
  | upgrade (agent sector : Nat)
  /-- `WRITE_BACK` (R429): An evicted M or O sector's dirty bytes are merged at the home. -/
  | writeBack (agent sector : Nat)
  /-- `WRITE_BACK_KEEP` (R429): A CFLUSH writes back an owned sector while keeping a copy. -/
  | writeBackKeep (agent sector : Nat)
  /-- `SNOOP` (R430): An agent answers a snoop with a miss, clean acknowledgement or dirty bytes. -/
  | snoop (agent sector : Nat) (kind : SnoopKind)
  /-- `UNTRACKED_READ` (R431): An untracked agent reads at the home after cleaning the owner. -/
  | untrackedRead (sector : Nat)
  /-- `UNTRACKED_WRITE` (R431): An untracked write invalidates holders and merges bytes at the home. -/
  | untrackedWrite (sector : Nat) (mask : BitVec 64) (data : BitVec 512)
  /-- `HOME_ATOMIC` (R431): An atomic is performed at the home slice's atomic unit. -/
  | homeAtomic (op : AtomOp) (addr size : Nat) (operand compare : BitVec 64)
  /-- `U_CLASS_ACCESS` (R431): A U-class read or write is served at the home without directory action. -/
  | uClassAccess (sector : Nat) (mask : BitVec 64) (data : BitVec 512)
  /-- `PREDICTOR_DECAY` (R434): Every 100 µs each predictor count decreases by one. -/
  | predictorDecay
  /-- `UNMAP_REQUEST` (R424): Writing go to xl.umctl starts an unmap of a range. -/
  | unmapRequest (part : Nat) (value : BitVec 32)
  /-- `UNMAP_COMPLETE` (R424): The unmap completes when every holder is clear and reclaim write-backs are acknowledged. -/
  | unmapComplete (part : Nat)
  /-- `LEASE_WRITE` (R425): A write of xl.lease sets lease durations or is ineffective and flags a bad request. -/
  | leaseWrite (part : Nat) (value : BitVec 64)
  /-- `UNMAP_STATUS_CLEAR` (R425): A write-one-to-clear of xl.umstat bits. -/
  | unmapStatusClear (part : Nat) (value : BitVec 32)
  /-- `MIGRATION_REQUEST` (R435): Writing go to xl.mgctl starts a page-home migration. -/
  | migrationRequest (part : Nat) (value : BitVec 64)
  /-- `MIGRATION_SWITCH` (R435): After the copy the override table names the new home and held requests are redirected. -/
  | migrationSwitch (part : Nat)
  /-- `MIGRATION_RETIRE` (R435): The old home drops the page's redirect after 20 µs and 40 ns. -/
  | migrationRetire (page : Nat)
  /-- `FRAME_POWER_GATE` (R432): A frame writes back its dirty sectors and gates. -/
  | framePowerGate (p : FrameId)
  /-- `SLICE_POWER_GATE` (R432): A die-cache slice writes back, invalidates and hands its hash share before gating. -/
  | slicePowerGate (die slice : Nat)
  /-- `DRAINED_ISOLATION` (R433): An agent writes back its dirty sectors and is isolated. -/
  | drainedIsolation (agent : Nat)
  /-- `FORCED_ISOLATION` (R433): An agent is isolated at once and its owned sectors are poisoned. -/
  | forcedIsolation (agent : Nat)
  /-- `RESET_REQUEST` (R468): A driver's request starts draining a chiplet, by agent number, for reset or is refused. -/
  | resetRequest (die : Nat)
  /-- `DRAIN_FORWARD` (R468): Once its frames are empty the die forwards traffic while routes are rewritten. -/
  | drainForward (die : Nat)
  /-- `DIE_RESET` (R468): After isolation the die resets and is re-enumerated. -/
  | dieReset (die : Nat)
  /-- `FORCED_RESET` (R469): A forced reset isolates the die at once and kills its teams. -/
  | forcedReset (die : Nat)
  /-- `LINK_DOWN` (R469): A link goes down and undelivered messages complete with link-down poison. -/
  | linkDown (a b : Nat)
  /-- `POWER_ON_RESET` (R461): Power-on or package reset runs the bring-up steps to package ready. -/
  | powerOnReset (failed : List Nat) (source : Nat)
  /-- `PARTITION_CHANGE` (R470): Hub firmware forms, changes or removes partitions on request: one, and more with it, each by
  its number and new descriptor. -/
  | partitionChange (first : Nat × PartDesc) (more : List (Nat × PartDesc))
  /-- `TIME_SOURCE_SELECT` (R474): A write of the time page selects the package time source. -/
  | timeSourceSelect (source : BitVec 3)
  /-- `TIME_STATUS_READ` (R475): Reading the time status clears its stepped bit. -/
  | timeStatusRead
  /-- `TIME_SOURCE_LOSS` (R474): Loss of the source puts the hub clock into holdover. -/
  | timeSourceLoss
  /-- `TIME_STEP` (R475): A forward step of package time takes effect for deadlines and leases. -/
  | timeStep (ns : Nat)
  /-- `ATTESTATION_REQUEST` (R477): An attestation request with a nonce returns a signed report. -/
  | attestationRequest (nonce : BitVec 256)
  /-- `MAINTENANCE_REPLAN` (R478): At a maintenance window the hub raises supply or disables clusters. -/
  | maintenanceReplan (dies : List Nat) (results : List ReplanResult)
  /-- `COUNTER_FLUSH` (R479): Every 60 s the lifetime counters are written to non-volatile storage. -/
  | counterFlush
  /-- `HUB_LINK_FRAME` (R473): A hub-link frame carries a SIGNAL write or a copy to another package. -/
  | hubLinkFrame (asid addr : Nat) (bytes : List (BitVec 8)) (signal : Option SignalWrite)
  /-- `FIRMWARE_CONTEXT_RESTART` (R367): The hub restarts a frame's firmware context that stopped on its own fault, so that pending events can enter the handler again. -/
  | firmwareContextRestart (p : FrameId) (addr : BitVec 64)
  /-- `DEBUG_AGENT_RELEASE` (R379): The hub's debug agent releases a firmware context stopped by BKPT, which resumes at the next word. -/
  | debugAgentRelease (p : FrameId)
  /-- `POWER_GATE_WAKE` (R432): A gated frame or die-cache slice wakes, and the slice takes back its share of the die's address hash from slice s XOR 8. -/
  | powerGateWake (t : GateTarget)
  /-- `LINK_RETRAIN` (R479): A UCIe link that was down or changing route is retrained and carries traffic again, and routes through it may be restored. -/
  | linkRetrain (a b : Nat)
  /-- `OFFSET_MEASUREMENT` (R474): A measurement from the selected time source updates the measured offset, corrects it by rate or by a backward hold, and sets locked or leaves holdover. -/
  | offsetMeasurement (offset : BitVec 64)
  /-- `ROLLBACK_COUNT_RAISE` (R476): On a firmware service request, hub firmware raises the rollback count held in one-time fuses. -/
  | rollbackCountRaise (count : Nat)
  /-- `ORDERLY_SHUTDOWN` (R479): At an orderly shutdown the hub writes the lifetime counters to non-volatile storage. -/
  | orderlyShutdown
  /-- `POWER_LOSS` (R479): A loss of package power ends all activity and loses at most the last 60 s of lifetime counts. -/
  | powerLoss
  deriving DecidableEq, Repr

/-- What comes from outside the compute dies: accesses of core chiplets, network chiplets, management contexts and hosts (R22),
a driver's traffic with the hub, and what non-volatile storage and the agents' capability entries hold. -/
inductive OutsideAccess where
  /-- A core chiplet (agent 8 or 9 of the directory, R427) stores bytes at a physical address. -/
  | coreStore (agent addr : Nat) (bytes : List (BitVec 8))
  /-- A core chiplet drops a sector that it holds S or E (R429). -/
  | coreDrop (agent sector : Nat)
  /-- A host's store to device memory, or to its own through a window, untracked (R431, R472). -/
  | hostStore (addr : Nat) (bytes : List (BitVec 8))
  /-- A network chiplet (holders 32 to 35 of R423) or a management context (36 to 51) reads bytes of an address space. -/
  | agentLoad (holder asid va len : Nat)
  /-- The same writes bytes. -/
  | agentStore (holder asid va : Nat) (bytes : List (BitVec 8))
  /-- A driver's write of 4 or 8 bytes of a translation control page (R425). -/
  | xlWrite (part off size : Nat) (value : BitVec 64)
  /-- Hub firmware writes an entry of the ASID table (R413). -/
  | asidWrite (asid root part : Nat) (valid : Bool)
  /-- A driver reads bytes of the package information page (R464). -/
  | infoRead (off len : Nat)
  /-- A copy to a range of another package is requested, with the signal to follow it (R473). -/
  | copyOut (asid addr len farAsid farAddr : Nat) (signal : Option SignalWrite)
  /-- A firmware image is written to non-volatile storage: that of an agent, or of the hub (54) (R476). -/
  | imageWrite (agent version : Nat) (digest : BitVec 256) (signature : List (BitVec 8))
  /-- What enumeration will read in an agent's capability entry: its kind and its reserved fields (R463). -/
  | entrySet (agent kind : Nat) (reserved : BitVec 64)
  /-- An agent has used so many joules (R479). -/
  | energyUsed (agent joules : Nat)
  /-- An agent's temperature is taken, in °C (R479). -/
  | temperatureTaken (agent degrees : Nat)
  /-- A soft error of an agent, corrected or not (R479). -/
  | softError (agent : Nat) (corrected : Bool)
  deriving DecidableEq, Repr

/-- What moves next. The manual orders the agents of the package only where a rule says so; which of them acts next is
an input (log entry 3). -/
inductive Turn where
  /-- Issue port `port` of a frame makes its selection for the cycle (R50). -/
  | issue (p : FrameId) (port : Nat)
  /-- The firmware context of a frame issues (R359). -/
  | firmware (p : FrameId)
  /-- A cycle of a frame ends (R50: the ready rods not issued count it) and the next begins. `late` names, by rod slot
  and lowest lane, the sub-rods whose register operands or execution resource are not there in the new cycle (R49): timing, so
  an input. -/
  | cycle (p : FrameId) (late : List (Nat × BitVec 32))
  /-- A frame cache gives up a sector: dirty bytes reach the die cache (R169, R170). -/
  | evictFrame (p : FrameId) (sector : Nat) (untracked : Bool)
  /-- A die cache gives up a sector: dirty bytes reach the home (R169, R429). -/
  | evictDie (die sector : Nat) (untracked : Bool)
  /-- A running command's part reaches its place before the command finishes (R305): `n` more units of a copy that reaches beyond
  the team, or the `n`th write of another command. -/
  | land (p : FrameId) (e : EngineId) (pos n : Nat)
  /-- The `n`th byte still to come of a running CPIN, CPOUT or CPPEER reaches its place before others do (R305). -/
  | landByte (p : FrameId) (e : EngineId) (pos n : Nat)
  /-- A frame reads a word of its launch's code ahead, which a later fetch may still use after the word has been rewritten
  (R234). -/
  | codeAhead (p : FrameId) (pc : DWord)
  /-- The load at a position of a lane's queue is to return within the next packed atomics, after `n` of their halves (R286). -/
  | between (k : RodKey) (lane pos n : Nat)
  /-- A step that is no instruction word. -/
  | event (i : Instr)
  /-- The reckoner's look-ahead in a queue reads one packet more (R399). -/
  | lookAhead (q : Nat)
  /-- Package time advances by so much, or to the next moment at which something must happen. -/
  | tick (ns : Nat)
  | outside (a : OutsideAccess)
  deriving DecidableEq, Repr, Inhabited

end Sys2Proof
end

