-- ==== Sys2Proof/Machine/Shape.lean ====
section
/-!
DEFINITION. Sys2Proof/Machine/Shape.lean: what each field of a word names, and check 5 of R219: reserved field bits or
values, register numbers 240 to 247, a field outside its name space. The check depends on the word alone.
-/

namespace Sys2Proof.Machine

/-- What a field of a word names (R109, R111, R211, R212). -/
inductive FieldUse where
  /-- The entry does not use the field: it must be 0 (R211). -/
  | zero
  /-- A single 32-bit register, or a carry where R77 allows one. -/
  | reg
  /-- An even register and its partner (R111). -/
  | pair
  /-- `g(4n)` to `g(4n+3)` (R207). -/
  | quad
  | pred
  | xreg
  | join
  | queue
  | window
  | barrier
  /-- Sixteen registers from a multiple of 16 up to 48 (R369). -/
  | block
  /-- A number the entry checks itself, or any value. -/
  | raw
  deriving DecidableEq, Repr

/-- Check 5 on one field. A carry name in a register field passes here: it is check 6. -/
def FieldUse.ok (u : FieldUse) (v : BitVec 8) : Bool :=
  let n := v.toNat
  match u with
  | .zero => n == 0
  | .reg => !(240 ≤ n && n ≤ 247)
  | .pair => n % 2 == 0 && !(240 ≤ n && n ≤ 247)
  | .quad => n % 4 == 0 && !(240 ≤ n && n ≤ 247)
  | .pred => n < 8
  | .xreg => n < 4
  | .join => n < 16
  | .queue => n < 16
  | .window => n < 16
  | .barrier => n < 8
  | .block => n % 16 == 0 && n ≤ 48
  | .raw => true

/-- The registers a field names, when it names any. -/
def FieldUse.regs (u : FieldUse) (v : BitVec 8) : List Nat :=
  let n := v.toNat
  match u with
  | .reg => [n]
  | .pair => [n, n + 1]
  | .quad => [n, n + 1, n + 2, n + 3]
  | .block => List.range' n 16
  | .zero | .pred | .xreg | .join | .queue | .window | .barrier | .raw => []

/-- A carry name where a register stands: 248 to 255 (R109). -/
def isCarry (n : Nat) : Bool := 248 ≤ n && n ≤ 255

/-- Check 6 on one field: a carry where R77 forbids it, or an undeclared slot. `allowed` says whether R77 lets a
carry stand in this field as a single register. -/
def FieldUse.carryMisuse (u : FieldUse) (v : BitVec 8) (allowed : Bool) (declared : BitVec 8) : Bool :=
  match u with
  | .reg => isCarry v.toNat && !(allowed && declared.getLsbD (v.toNat - 248))
  | .pair | .quad => isCarry v.toNat
  | .zero | .pred | .xreg | .join | .queue | .window | .barrier | .block | .raw => false

/-- How a format R word reads its fields, and which modifier values its entry allows. -/
structure Shape where
  dst : FieldUse
  a : FieldUse
  b : FieldUse
  c : FieldUse
  /-- Bits of `mod` the entry defines; indirect selection apart. -/
  mask : BitVec 18
  /-- The constraints on the values of those bits. -/
  ok : Bool
  /-- Carries allowed in dst, a, b, c (R77). -/
  carryDst : Bool
  carryA : Bool
  carryBC : Bool
  /-- Whether the format offers indirect selection (R213, R214). -/
  indirect : Bool
  deriving DecidableEq, Repr

/-! ## Modifier fields of format R (R214) -/

namespace RMod

def sat (m : BitVec 18) : Bool := m.getLsbD 7
def u (m : BitVec 18) : Bool := m.getLsbD 6
def w (m : BitVec 18) : Bool := m.getLsbD 5
def j (m : BitVec 18) : Bool := m.getLsbD 4
/-- Class 3: the floating-point operation `.f`. -/
def f (m : BitVec 18) : Bool := m.getLsbD 5
def ftz (m : BitVec 18) : Bool := m.getLsbD 7
def nan (m : BitVec 18) : Bool := m.getLsbD 8
def bf (m : BitVec 18) : Bool := m.getLsbD 9
/-- Rounding mode of classes 2 and 7. -/
def rm (m : BitVec 18) : Nat := (m.extractLsb' 4 3).toNat
def indDst (m : BitVec 18) : Bool := m.getLsbD 3
def indA (m : BitVec 18) : Bool := m.getLsbD 2
def indX (m : BitVec 18) : Nat := (m.extractLsb' 0 2).toNat
/-- `mod[lo+len-1:lo]` as a number. -/
def bits (m : BitVec 18) (lo len : Nat) : Nat := (m.extractLsb' lo len).toNat

end RMod

/-- `mod[hi:lo]` as a mask. -/
def maskBits (hi lo : Nat) : BitVec 18 := BitVec.ofNat 18 ((2 ^ (hi - lo + 1) - 1) * 2 ^ lo)

def maskSat : BitVec 18 := maskBits 7 7
def maskU : BitVec 18 := maskBits 6 6
def maskW : BitVec 18 := maskBits 5 5
def maskRm : BitVec 18 := maskBits 6 4
def maskFtz : BitVec 18 := maskBits 7 7

/-- A shape of classes 0, 2 and 7: carries may stand in every single-register field (R77). -/
def laneShape (dst a b c : FieldUse) (mask : BitVec 18) (ok : Bool := true) : Shape :=
  { dst, a, b, c, mask, ok, carryDst := true, carryA := true, carryBC := true, indirect := true }

/-- XSET and XADD: a carry is no source of an index register (R77). -/
def indexShape (a : FieldUse) : Shape := { laneShape .xreg a .reg .zero 0 with carryA := false, carryBC := false }

/-- A shape of classes 3, 4 and 6: no carry unless the entry says so. -/
def plainShape (dst a b c : FieldUse) (mask : BitVec 18) (ok : Bool := true) : Shape :=
  { dst, a, b, c, mask, ok, carryDst := false, carryA := false, carryBC := false, indirect := false }

/-- Class 3 R forms offer indirect selection on single registers (R214, R271). -/
def memShape (dst a b c : FieldUse) (mask : BitVec 18) (ok : Bool := true) : Shape :=
  { plainShape dst a b c mask ok with indirect := true }

/-- Under `.w` a field is a pair, else a single register. -/
def wide (m : BitVec 18) : FieldUse := if RMod.w m then .pair else .reg

/-- `.u` only together with `.sat` (R239). -/
def uWithSat (m : BitVec 18) : Bool := !RMod.u m || RMod.sat m

def rmOk (m : BitVec 18) : Bool := RMod.rm m ≤ 5

/-! ## Format codes (R133, R134) -/

def isFloatCode (n : Nat) : Bool := n ≤ 10
/-- Integer formats of lanes: 11 to 19, INT64 (30) and UINT32 (31). -/
def isIntCode (n : Nat) : Bool := (11 ≤ n && n ≤ 19) || n == 30 || n == 31
/-- Targets that accept `.nan` (R155). -/
def nanTarget (n : Nat) : Bool := n == 2 || n == 3 || n == 4 || n == 5 || n == 6 || n == 7

/-- CVT's code constraints (R258); its entry lists .ftz, which between integer formats changes nothing (R138). -/
def cvtOk (w : RWord) : Bool :=
  let d := RMod.bits w.mod 13 5
  let s := w.b.toNat
  let code (n : Nat) : Bool := (1 ≤ n && n ≤ 19) || n == 31
  code d && code s && rmOk w.mod
    && (!RMod.nan w.mod || nanTarget d)
    && (!w.mod.getLsbD 12 || (isIntCode d && isIntCode s))

/-- DCVT's code constraints (R269). -/
def dcvtOk (w : RWord) : Bool :=
  let d := RMod.bits w.mod 13 5
  let s := w.b.toNat
  let code (n : Nat) : Bool := n == 1 || n == 11 || n == 31 || n == 30
  ((d == 0 && code s) || (s == 0 && code d)) && rmOk w.mod

/-- The field a format of DCVT takes: a pair for 64 bits (R269). -/
def dcvtUse (code : Nat) : FieldUse := if code == 0 || code == 30 then .pair else .reg

/-- Operation, flag and size constraints of ATOM and RED (R283); `cas` for ATOMF's code 7 (R287). -/
def atomOk (m : BitVec 18) (fs : Bool) : Bool :=
  let op := RMod.bits m 14 4
  let size := RMod.bits m 11 3
  (size == 2 || size == 3)
    && (op ≤ 6 || (fs && op == 7))
    && (!RMod.f m || (op == 0 && !RMod.sat m && !RMod.u m && (!fs || size == 2)))
    && (!RMod.sat m || op == 0)
    && (!RMod.u m || op == 1 || op == 2 || (op == 0 && RMod.sat m))

/-- Width of an atomic's data fields: a pair under size 3 (R271). -/
def sized (m : BitVec 18) : FieldUse := if RMod.bits m 11 3 == 3 then .pair else .reg

def scopeOk (n : Nat) : Bool := n ≤ 4

/-- 64-bit special registers (R116). -/
def srWide (n : Nat) : Bool :=
  n == 0 || n == 3 || n == 6 || n == 7 || n == 8 || n == 10 || n == 11

/-- Width of a system register, where the number is assigned (R361, R362): `some true` for 64 bits. -/
def sysWide (n : Nat) : Option Bool :=
  if n == 0x000 || n == 0x005 || n == 0x006 || n == 0x009 || n == 0x00A || n == 0x00D || n == 0x00F then some true
  else if n ≤ 0x00E then some false
  else if 0x010 ≤ n && n ≤ 0x013 then some true
  else if 0x018 ≤ n && n ≤ 0x01A then some true
  else if 0x100 ≤ n && n ≤ 0x1EF then some false
  else if n == 0x1F0 || (0x1F4 ≤ n && n ≤ 0x1F9) || n == 0x1FA || n == 0x1FB then some false
  else none

/-- Whether SYSWR may name the register: assigned and not read-only (R360 to R362). -/
def sysWritable (n : Nat) : Bool :=
  (sysWide n).isSome && !(n == 0x000 || n == 0x001 || n == 0x00D || n == 0x00F
    || (0x018 ≤ n && n ≤ 0x01A) || n == 0x1FA || n == 0x1FB)

def sysUse (n : Nat) : FieldUse := if sysWide n == some true then .pair else .reg

/-- The shape of a format R or S word (R239 to R269, R271, R261, R369); `none` for the other formats. -/
def rShape : Instr → Option (RWord × Shape)
  | .iadd w | .isub w | .imul w =>
    some (w, laneShape (wide w.mod) (wide w.mod) (wide w.mod) .zero (maskSat ||| maskU ||| maskW) (uWithSat w.mod))
  | .imad w =>
    some (w, laneShape (wide w.mod) (wide w.mod) (wide w.mod) (wide w.mod) (maskSat ||| maskU ||| maskW)
      (uWithSat w.mod))
  | .idiv w => some (w, laneShape (wide w.mod) (wide w.mod) (wide w.mod) .zero (maskSat ||| maskU ||| maskW))
  | .imulh w | .irem w | .imin w | .imax w =>
    some (w, laneShape (wide w.mod) (wide w.mod) (wide w.mod) .zero (maskU ||| maskW))
  | .iabs w | .ineg w => some (w, laneShape (wide w.mod) (wide w.mod) .zero .zero (maskSat ||| maskW))
  | .lea w => some (w, laneShape .pair .pair .reg .zero (maskU ||| maskBits 10 8))
  | .and w | .or w | .xor w | .andn w =>
    some (w, laneShape (wide w.mod) (wide w.mod) (wide w.mod) .zero maskW)
  | .lmux w =>
    some (w, laneShape (wide w.mod) (wide w.mod) (wide w.mod) (wide w.mod) (maskW ||| maskBits 15 8))
  | .shl w | .shr w | .sar w | .rol w => some (w, laneShape (wide w.mod) (wide w.mod) .reg .zero maskW)
  | .shf w => some (w, laneShape .reg .reg .reg .reg (maskBits 8 8))
  | .bfx w => some (w, laneShape .reg .reg .reg .zero maskU)
  | .bfi w => some (w, laneShape .reg .reg .reg .reg 0)
  | .popc w | .clz w | .ctz w => some (w, laneShape .reg (wide w.mod) .zero .zero maskW)
  | .brev w => some (w, laneShape (wide w.mod) (wide w.mod) .zero .zero maskW)
  | .bperm w => some (w, laneShape .reg .reg .reg .reg 0)
  | .icmp w =>
    some (w, laneShape .pred (wide w.mod) (wide w.mod) (if RMod.bits w.mod 11 2 == 0 then .zero else .pred)
      (maskW ||| maskBits 13 8) (RMod.bits w.mod 8 3 ≤ 5))
  | .plop w => some (w, laneShape .pred .pred .pred .pred (maskBits 15 8))
  | .sel w => some (w, laneShape (wide w.mod) (wide w.mod) (wide w.mod) .pred maskW)
  | .pmovGet w => some (w, laneShape .reg .zero .zero .zero (maskBits 8 8) (!w.mod.getLsbD 8))
  | .pmovSet w => some (w, laneShape .zero .reg .zero .zero (maskBits 15 8) (w.mod.getLsbD 8))
  | .mov w => some (w, laneShape (wide w.mod) (wide w.mod) .zero .zero maskW)
  | .lxch w => some (w, laneShape (wide w.mod) (wide w.mod) .reg .zero (maskW ||| maskBits 9 8))
  | .pagg w =>
    some (w, laneShape (if RMod.bits w.mod 8 3 ≤ 1 then .reg else .pred) .pred .zero .zero (maskBits 10 8)
      (RMod.bits w.mod 8 3 ≤ 4))
  | .pfx w => some (w, laneShape .pred .reg .zero .zero 0)
  | .rred w | .rredJoined w =>
    let op := RMod.bits w.mod 12 3
    some (w, laneShape (wide w.mod) (wide w.mod) .zero .zero (maskBits 14 12 ||| maskBits 11 4)
      (op ≤ 6 && (RMod.j w.mod || RMod.bits w.mod 8 4 == 0)
        && (!RMod.sat w.mod || op == 0)
        && (!RMod.u w.mod || op == 1 || op == 2 || (op == 0 && RMod.sat w.mod))
        && (!RMod.w w.mod || op ≤ 5)))
  | .xset w => some (w, indexShape .reg)
  | .xadd w => some (w, indexShape .zero)
  | .fadd w | .fsub w | .fmul w | .fdiv w =>
    some (w, laneShape .reg .reg .reg .zero (maskRm ||| maskFtz) (rmOk w.mod))
  | .ffma w => some (w, laneShape .reg .reg .reg .reg (maskRm ||| maskFtz) (rmOk w.mod))
  | .fmin w | .fmax w | .fminn w | .fmaxn w => some (w, laneShape .reg .reg .reg .zero maskFtz)
  | .frnd w | .fsqrt w | .frcp w | .frsq w =>
    some (w, laneShape .reg .reg .zero .zero (maskRm ||| maskFtz) (rmOk w.mod))
  | .fcmp w => some (w, laneShape .pred .reg .reg .zero (maskFtz ||| maskBits 12 10))
  | .fclass w => some (w, laneShape .reg .reg .zero .zero 0)
  | .hadd2 w | .hmul2 w =>
    some (w, laneShape .reg .reg .reg .zero (maskRm ||| maskFtz ||| maskBits 9 9) (rmOk w.mod))
  | .hfma2 w => some (w, laneShape .reg .reg .reg .reg (maskRm ||| maskFtz ||| maskBits 9 9) (rmOk w.mod))
  | .hmin2 w | .hmax2 w => some (w, laneShape .reg .reg .reg .zero (maskFtz ||| maskBits 9 9))
  | .cvt w =>
    some (w, laneShape .reg .reg .raw .zero (maskRm ||| maskFtz ||| maskBits 8 8 ||| maskBits 17 12) (cvtOk w))
  | .logc w | .expc w | .fex2 w | .flg2 w | .fsin w | .fcos w | .ftanh w | .fsigm w =>
    some (w, laneShape .reg .reg .zero .zero (maskRm ||| maskFtz) (rmOk w.mod))
  | .lmul w | .ldiv w => some (w, laneShape .reg .reg .reg .zero 0)
  | .lpow w => some (w, laneShape .reg .reg .raw .raw 0)
  | .lroot w => some (w, laneShape .reg .reg .zero .zero (maskBits 12 10))
  | .waitq w => some (w, memShape .zero .zero .zero .zero (maskBits 17 14))
  | .atom w =>
    some (w, memShape (sized w.mod) .pair (sized w.mod) .zero (maskBits 17 5)
      (atomOk w.mod false && scopeOk (RMod.bits w.mod 8 3)))
  | .red w =>
    some (w, memShape .zero .pair (sized w.mod) .zero (maskBits 17 5)
      (atomOk w.mod false && scopeOk (RMod.bits w.mod 8 3)))
  | .cas w =>
    some (w, memShape (sized w.mod) .pair (sized w.mod) (sized w.mod) (maskBits 13 8)
      ((RMod.bits w.mod 11 3 == 2 || RMod.bits w.mod 11 3 == 3) && scopeOk (RMod.bits w.mod 8 3)))
  | .atadd2 w =>
    some (w, memShape .reg .pair .reg .zero (maskBits 17 8)
      (RMod.bits w.mod 14 4 ≤ 1 && RMod.bits w.mod 11 3 == 2 && scopeOk (RMod.bits w.mod 8 3)))
  | .atomf w =>
    some (w, memShape (sized w.mod) .reg (sized w.mod)
      (if RMod.bits w.mod 14 4 == 7 then sized w.mod else .zero) (maskBits 17 11 ||| maskBits 7 5)
      (atomOk w.mod true))
  | .fence w =>
    some (w, memShape .zero .zero .zero .zero (maskBits 17 14 ||| maskBits 10 8)
      (RMod.bits w.mod 14 4 ≤ 3 && scopeOk (RMod.bits w.mod 8 3)))
  | .tkput w => some (w, memShape .zero .reg .queue .zero 0)
  | .tkget w => some (w, memShape .reg .zero .queue .zero 0)
  | .tktry w => some (w, memShape .reg .zero .queue .pred 0)
  | .tkset w =>
    some (w, memShape .zero .zero .queue .zero (maskBits 17 11)
      (RMod.bits w.mod 14 4 ≤ 4 && RMod.bits w.mod 11 3 ≤ 4))
  | .barMeet w => some (w, memShape .zero .zero .barrier .zero (maskBits 17 14) (RMod.bits w.mod 14 4 == 0))
  | .barPass w => some (w, memShape .zero .zero .barrier .zero (maskBits 17 14) (RMod.bits w.mod 14 4 == 1))
  | .barSize w => some (w, memShape .zero .reg .barrier .zero (maskBits 17 14) (RMod.bits w.mod 14 4 == 2))
  | .brx w | .ret w => some (w, plainShape .zero .pair .zero .zero 0)
  | .exit w | .rsync w | .nop w | .yield w => some (w, plainShape .zero .zero .zero .zero 0)
  | .grow w => some (w, plainShape .zero .zero .zero .zero (maskBits 14 8) (RMod.bits w.mod 8 4 ≤ 8))
  | .shrink w =>
    some (w, plainShape .zero .zero .zero .zero (maskBits 14 8)
      (1 ≤ RMod.bits w.mod 8 4 && RMod.bits w.mod 8 4 ≤ 8))
  | .jset w => some (w, { plainShape .join .reg .zero .zero 0 with carryA := true })
  | .jwait w => some (w, plainShape .join .zero .zero .zero 0)
  | .cstat w => some (w, plainShape .pair .zero .zero .zero (maskBits 10 8))
  | .cdone w => some (w, plainShape .zero .zero .zero .zero (maskBits 10 8))
  | .valid w => some (w, plainShape .zero .pred .zero .zero 0)
  | .slack w => some (w, plainShape .pair .zero .zero .zero 0)
  | .srd w =>
    some (w, { plainShape (if srWide w.a.toNat then .pair else .reg) .raw .zero .zero 0 (w.a.toNat ≤ 0x0D) with
      carryDst := !srWide w.a.toNat })
  | .rngc w =>
    some (w, plainShape (if RMod.bits w.mod 8 2 == 1 then .pair else .reg) .pair .reg .zero (maskBits 9 8)
      (RMod.bits w.mod 8 2 ≤ 2))
  | .trapHalt w => some (w, plainShape .zero .reg .zero .zero (maskBits 9 8) (RMod.bits w.mod 8 2 == 0))
  | .trapSlice w => some (w, plainShape .zero .reg .zero .zero (maskBits 9 8) (RMod.bits w.mod 8 2 == 1))
  | .trapWdog w => some (w, plainShape .zero .reg .zero .zero (maskBits 9 8) (RMod.bits w.mod 8 2 == 2))
  | .rett w | .bkpt w => some (w, plainShape .zero .zero .zero .zero 0)
  | .sysrd w =>
    let n := RMod.bits w.mod 8 10
    some (w, plainShape (sysUse n) .zero .zero .zero (maskBits 17 8) (sysWide n).isSome)
  | .syswr w =>
    let n := RMod.bits w.mod 8 10
    some (w, plainShape .zero (sysUse n) .zero .zero (maskBits 17 8)
      (sysWritable n && n != 0x003 && !(0x100 ≤ n && n ≤ 0x1FF)))
  | .eventClear w =>
    some (w, plainShape .zero .reg .zero .zero (maskBits 17 8) (RMod.bits w.mod 8 10 == 0x003))
  | .rodWindowWrite w =>
    let n := RMod.bits w.mod 8 10
    some (w, plainShape .zero .reg .zero .zero (maskBits 17 8) (sysWritable n && 0x100 ≤ n && n ≤ 0x1FF))
  | .engrd w => some (w, plainShape .block .reg .zero .zero 0)
  | .engwr w => some (w, plainShape .zero .reg .block .zero 0)
  | .ctxsv w | .ctxld w => some (w, plainShape .zero .pair .reg .zero (maskBits 8 8) (!w.mod.getLsbD 8))
  | .ctxsvTeam w | .ctxldTeam w => some (w, plainShape .zero .pair .reg .zero (maskBits 8 8) (w.mod.getLsbD 8))
  | .tlbiVa w => some (w, plainShape .zero .pair .reg .zero (maskBits 9 8) (RMod.bits w.mod 8 2 == 0))
  | .tlbiAsid w => some (w, plainShape .zero .zero .reg .zero (maskBits 9 8) (RMod.bits w.mod 8 2 == 1))
  | .tlbiAll w => some (w, plainShape .zero .zero .zero .zero (maskBits 9 8) (RMod.bits w.mod 8 2 == 2))
  | .fwcall w => some (w, plainShape .reg .block .zero .zero (maskBits 17 8))
  | .parkq w => some (w, plainShape .block .zero .zero .pred 0)
  | .resumeRetry w => some (w, plainShape .zero .reg .zero .zero (maskBits 9 8) (RMod.bits w.mod 8 2 == 0))
  | .resumeSkip w => some (w, plainShape .zero .reg .zero .zero (maskBits 9 8) (RMod.bits w.mod 8 2 == 1))
  | .resumeAbort w => some (w, plainShape .zero .reg .reg .zero (maskBits 9 8) (RMod.bits w.mod 8 2 == 2))
  | .resumeRun w => some (w, plainShape .zero .reg .zero .zero (maskBits 9 8) (RMod.bits w.mod 8 2 == 3))
  | .idle w => some (w, plainShape .zero .pair .zero .zero 0)
  | .dadd w | .dmul w | .ddiv w =>
    some (w, laneShape .pair .pair .pair .zero (maskRm ||| maskFtz) (rmOk w.mod))
  | .dfma w => some (w, laneShape .pair .pair .pair .pair (maskRm ||| maskFtz) (rmOk w.mod))
  | .dsqrt w => some (w, laneShape .pair .pair .zero .zero (maskRm ||| maskFtz) (rmOk w.mod))
  | .dcvt w =>
    some (w, { laneShape (dcvtUse (RMod.bits w.mod 13 5)) (dcvtUse w.b.toNat) .raw .zero
      (maskRm ||| maskFtz ||| maskBits 17 13) (dcvtOk w) with indirect := false })
  | _ => none

/-- Check 5 on a format R or S word: fields, reserved modifier bits, modifier values, indirect selection (R213). -/
def rOk (w : RWord) (s : Shape) : Bool :=
  let m := w.mod
  let ind : BitVec 18 := if s.indirect then maskBits 3 0 else 0
  s.dst.ok w.dst && s.a.ok w.a && s.b.ok w.b && s.c.ok w.c
    && (m &&& ~~~(s.mask ||| ind)) == 0 && s.ok
    && (!s.indirect
      || ((!RMod.indDst m || s.dst == .reg) && (!RMod.indA m || s.a == .reg)
        && (RMod.indDst m || RMod.indA m || RMod.indX m == 0)))

/-- The immediate forms (R215, R252): dst, a, and whether the immediate's reserved bits are clear. -/
def iShape : Instr → Option (IWord × FieldUse × FieldUse × Bool)
  | .iaddImm w | .isubImm w | .imulImm w | .iminImm w | .imaxImm w | .andImm w | .orImm w | .xorImm w | .andnImm w
  | .shlImm w | .shrImm w | .sarImm w | .rolImm w => some (w, .reg, .reg, w.imm.extractLsb' 32 2 == 0#2)
  | .leaImm w => some (w, .pair, .pair, w.imm.extractLsb' 32 2 == 0#2)
  | .movi w => some (w, .reg, .zero, w.imm.extractLsb' 32 2 == 0#2)
  | .movhi w => some (w, .pair, .zero, w.imm.extractLsb' 32 2 == 0#2)
  | .xaddImm w => some (w, .xreg, .zero, w.imm.extractLsb' 32 2 == 0#2)
  | .bfxImm w | .bpermImm w => some (w, .reg, .reg, w.imm.extractLsb' 24 10 == 0#10)
  | .icmpImm w =>
    some (w, .pred, .reg, (w.imm.extractLsb' 24 3).toNat ≤ 5 && w.imm.extractLsb' 27 2 == 0#2
      && w.imm.extractLsb' 30 4 == 0#4)
  | _ => none

/-- Width in bytes of a size code (R207); `none` for codes 5 to 7. -/
def sizeBytes (n : Nat) : Option Nat :=
  match n with
  | 0 => some 1
  | 1 => some 2
  | 2 => some 4
  | 3 => some 8
  | 4 => some 16
  | _ => none

/-- The data field of a size (R207). -/
def sizeUse (n : Nat) : FieldUse := if n == 3 then .pair else if n == 4 then .quad else .reg

/-- Format M (R207, R270): d, base, whether the scope and size fields hold what the entry takes. -/
def mShape : Instr → Option (MWord × FieldUse × FieldUse × Bool)
  | .ld w | .st w => some (w, sizeUse w.size.toNat, .pair, (sizeBytes w.size.toNat).isSome && w.scope == 0#3)
  | .ldff w =>
    some (w, sizeUse w.size.toNat, .pair,
      (sizeBytes w.size.toNat).isSome && w.scope == 0#3 && w.g.pred != 7#3 && !w.g.neg)
  | .lds w | .lda w | .sts w | .stl w =>
    some (w, sizeUse w.size.toNat, .pair, (sizeBytes w.size.toNat).isSome && scopeOk w.scope.toNat)
  | .ldf w | .stf w => some (w, sizeUse w.size.toNat, .reg, (sizeBytes w.size.toNat).isSome && w.scope == 0#3)
  | .cflush w | .cinv w => some (w, .reg, .pair, w.size == 0#3 && scopeOk w.scope.toNat)
  | .pref w => some (w, .zero, .pair, w.size == 0#3 && w.scope == 0#3)
  | _ => none

/-- The index field of format M: a register when `idxv` is set, else 0 (R207). -/
def idxUse (w : MWord) : FieldUse := if w.idxv then .reg else .zero

/-- Format B (R208, R261). -/
def bShape : Instr → Option (BWord × FieldUse)
  | .bra w | .rcv w => some (w, .zero)
  | .call w => some (w, .pair)
  | _ => none

/-- Format E (R209, R331): e0, e1, e2, whether joinable, whether tokens are allowed, whether a token must be produced,
and whether cmod holds a value its entry allows (R306). -/
structure EShape where
  e0 : FieldUse
  e1 : FieldUse
  e2 : FieldUse
  joinable : Bool
  tokens : Bool
  mustProduce : Bool
  cmodOk : Bool
  deriving DecidableEq, Repr

def eRmOk (w : EWord) : Bool := (w.cmod.extractLsb' 0 3).toNat ≤ 5

/-- A vector command of three pairs (R307, R308). -/
def veShape (e1 e2 : FieldUse) (cmodOk : Bool) : EShape :=
  { e0 := .pair, e1, e2, joinable := false, tokens := true, mustProduce := false, cmodOk }

def eShape : Instr → Option (EWord × EShape)
  | .vadd w | .vsub w | .vmul w | .vfma w => some (w, veShape .pair .pair (eRmOk w && !w.cmod.getLsbD 4))
  | .vmin w | .vmax w => some (w, veShape .pair .pair (w.cmod.extractLsb' 0 3 == 0#3))
  | .vscl w => some (w, veShape .pair .reg (eRmOk w && !w.cmod.getLsbD 4))
  | .vcvt w => some (w, veShape .pair .reg (eRmOk w))
  | .vmov w => some (w, veShape .pair .zero (w.cmod == 0#5))
  | .vfill w => some (w, veShape .reg .zero (w.cmod == 0#5))
  | .vcmp w => some (w, veShape .pair .pair (!w.cmod.getLsbD 4))
  | .vsel w => some (w, veShape .pair .pair (w.cmod == 0#5))
  | .vsum w => some (w, veShape .pair .zero (eRmOk w && !w.cmod.getLsbD 4))
  | .vmaxr w => some (w, veShape .pair .zero (w.cmod.extractLsb' 0 3 == 0#3))
  | .vlogc w | .vexpc w | .vex2 w | .vsigm w | .vtanh w =>
    some (w, veShape .pair .zero (eRmOk w && !w.cmod.getLsbD 4))
  | .cpin w | .cpout w =>
    some (w, { e0 := .pair, e1 := .pair, e2 := .zero, joinable := true, tokens := true, mustProduce := false,
               cmodOk := w.cmod == 0#5 })
  | .cpff w =>
    some (w, { e0 := .pair, e1 := .pair, e2 := .zero, joinable := false, tokens := true, mustProduce := true,
               cmodOk := (w.cmod.extractLsb' 0 3).toNat ≤ 4 && w.cmod.extractLsb' 3 2 == 0#2 })
  | .cp2d w =>
    some (w, { e0 := .pair, e1 := .pair, e2 := .reg, joinable := false, tokens := true, mustProduce := false,
               cmodOk := w.cmod.extractLsb' 1 4 == 0#4 })
  | .cppl w =>
    some (w, { e0 := .window, e1 := .pair, e2 := .reg, joinable := true, tokens := true, mustProduce := false,
               cmodOk := eRmOk w && w.cmod.extractLsb' 3 2 == 0#2 })
  | .cpacc w =>
    some (w, { e0 := .reg, e1 := .pair, e2 := .reg, joinable := false, tokens := true, mustProduce := false,
               cmodOk := eRmOk w })
  | .cpaci w =>
    some (w, { e0 := .reg, e1 := .pair, e2 := .reg, joinable := false, tokens := true, mustProduce := false,
               cmodOk := w.cmod == 0#5 })
  | .cppeer w =>
    some (w, { e0 := .pair, e1 := .pair, e2 := .reg, joinable := false, tokens := true, mustProduce := false,
               cmodOk := w.cmod == 0#5 })
  | .windef w =>
    some (w, { e0 := .window, e1 := .pair, e2 := .pair, joinable := false, tokens := true, mustProduce := false,
               cmodOk := w.cmod == 0#5 })
  | .winrel w =>
    some (w, { e0 := .window, e1 := .zero, e2 := .zero, joinable := false, tokens := true, mustProduce := false,
               cmodOk := w.cmod == 0#5 })
  | .acres w | .acrel w =>
    some (w, { e0 := .reg, e1 := .reg, e2 := .zero, joinable := false, tokens := false, mustProduce := false,
               cmodOk := w.cmod == 0#5 })
  | .aczero w =>
    some (w, { e0 := .pair, e1 := .reg, e2 := .zero, joinable := false, tokens := true, mustProduce := false,
               cmodOk := w.cmod == 0#5 })
  | .mma w =>
    some (w, { e0 := .pair, e1 := .pair, e2 := .zero, joinable := true, tokens := true, mustProduce := false,
               cmodOk := eRmOk w })
  | .mscl w =>
    some (w, { e0 := .pair, e1 := .reg, e2 := .reg, joinable := false, tokens := true, mustProduce := false,
               cmodOk := eRmOk w && !w.cmod.getLsbD 4 })
  | .mchk w =>
    some (w, { e0 := .pair, e1 := .reg, e2 := .zero, joinable := false, tokens := true, mustProduce := true,
               cmodOk := w.cmod.extractLsb' 1 4 == 0#4 })
  | _ => none

/-- The queues a command consumes from, in field order (R209). -/
def EWord.consumes (w : EWord) : List Nat :=
  (if w.conv.getLsbD 0 then [w.con0.toNat] else []) ++ (if w.conv.getLsbD 1 then [w.con1.toNat] else [])
    ++ (if w.conv.getLsbD 2 then [w.con2.toNat] else [])

/-- The register field e2 of a command: the join register stands there when the command is joined (R216). -/
def EShape.e2Use (s : EShape) (w : EWord) : FieldUse := if w.j then .join else s.e2

/-- Check 5 on a format E word (R216, R306, R331). -/
def eOk (w : EWord) (s : EShape) : Bool :=
  s.e0.ok w.e0 && s.e1.ok w.e1 && (s.e2Use w).ok w.e2 && s.cmodOk
    && (!w.j || s.joinable)
    && (s.tokens || (w.conv == 0#3 && !w.prodv && !w.j))
    && (!s.mustProduce || w.prodv)
    && (w.conv.getLsbD 0 || w.con0 == 0#4) && (w.conv.getLsbD 1 || w.con1 == 0#4)
    && (w.conv.getLsbD 2 || w.con2 == 0#4) && (w.prodv || w.prod == 0#4)
    && (EWord.consumes w).Nodup

/-- Check 5 of R219 for every word; a row that is no word has none. -/
def check5 (i : Instr) : Bool :=
  match rShape i with
  | some (w, s) => rOk w s
  | none =>
    match iShape i with
    | some (w, d, a, ok) => d.ok w.dst && a.ok w.a && ok
    | none =>
      match mShape i with
      | some (w, d, base, ok) => d.ok w.d && base.ok w.base && (idxUse w).ok w.idx && ok
      | none =>
        match bShape i with
        | some (w, a) => a.ok w.a && w.mod == 0#10
        | none =>
          match eShape i with
          | some (w, s) => eOk w s
          | none => true

/-- The guard of a word; the rows that are no words have none. -/
def guardOf (i : Instr) : Option Guard :=
  match rShape i with
  | some (w, _) => some w.g
  | none =>
    match iShape i with
    | some (w, _, _, _) => some w.g
    | none =>
      match mShape i with
      | some (w, _, _, _) => some w.g
      | none =>
        match bShape i with
        | some (w, _) => some w.g
        | none => (eShape i).map (fun x => x.1.g)

/-- Check 6 of R219: a carry where R77 forbids it, or an undeclared slot. -/
def check6 (declared : BitVec 8) (i : Instr) : Bool :=
  match rShape i with
  | some (w, s) =>
    let indD := s.indirect && RMod.indDst w.mod
    let indA := s.indirect && RMod.indA w.mod
    !(s.dst.carryMisuse w.dst (s.carryDst && !indD) declared || s.a.carryMisuse w.a (s.carryA && !indA) declared
      || s.b.carryMisuse w.b s.carryBC declared || s.c.carryMisuse w.c s.carryBC declared)
  | none =>
    match iShape i with
    | some (w, d, a, _) => !(d.carryMisuse w.dst true declared || a.carryMisuse w.a true declared)
    | none =>
      match mShape i with
      | some (w, d, base, _) =>
        !(d.carryMisuse w.d false declared || base.carryMisuse w.base false declared
          || (idxUse w).carryMisuse w.idx false declared)
      | none =>
        match bShape i with
        | some (w, a) => !(a.carryMisuse w.a false declared)
        | none =>
          match eShape i with
          | some (w, s) =>
            !(s.e0.carryMisuse w.e0 false declared || s.e1.carryMisuse w.e1 false declared
              || (s.e2Use w).carryMisuse w.e2 false declared)
          | none => true

/-- Every g register a word names, for the load interlock (R237, R279). -/
def namedRegs (i : Instr) : List Nat :=
  match rShape i with
  | some (w, s) => s.dst.regs w.dst ++ s.a.regs w.a ++ s.b.regs w.b ++ s.c.regs w.c
  | none =>
    match iShape i with
    | some (w, d, a, _) => d.regs w.dst ++ a.regs w.a
    | none =>
      match mShape i with
      | some (w, d, base, _) => d.regs w.d ++ base.regs w.base ++ (idxUse w).regs w.idx
      | none =>
        match bShape i with
        | some (w, a) => a.regs w.a
        | none =>
          match eShape i with
          | some (w, s) => s.e0.regs w.e0 ++ s.e1.regs w.e1 ++ (s.e2Use w).regs w.e2
          | none => []

end Sys2Proof.Machine
end

