-- ==== Sys2Proof/WellFormed.lean ====
section
/-!
DEFINITION. Sys2Proof/WellFormed.lean: which instructions are well formed. A word is well formed when its guard is one
(R203) and every field, modifier and value is one its entry allows (check 5 of R219). A row that is no word has no
encoding, and nothing of it to check.
-/

namespace Sys2Proof

/-- The guard p7 with neg = 1 is not an instruction (R203). -/
def Guard.legal (g : Guard) : Bool := !(g.neg && g.pred == 7#3)

/-- Well-formedness of an instruction word: the guard and check 5 of R219. -/
def Instr.wellFormed (i : Instr) : Bool :=
  (match Machine.guardOf i with
    | some g => g.legal
    | none => true)
    && Machine.check5 i

end Sys2Proof
end

