-- ==== Sys2Proof/Decode.lean ====
section
/-!
DEFINITION. Sys2Proof/Decode.lean: from a word to an instruction or a named refusal, and back (R202 to R218).
The decoder is total: a word with an assigned index decodes whatever its operand fields hold (check 5 of R219 belongs to
the issue of the word); every other word is rejected by the name of its fate in R218.
-/

namespace Sys2Proof

open Machine (RMod.bits)

/-- Why a word is no instruction (R218). -/
inductive Reject where
  /-- Fewer than eight bytes. -/
  | truncated
  /-- An index outside R217 in classes 0 to 6, or pred = 7 with neg = 1: undefined instruction, cause 0x01. -/
  | undefinedInstruction
  /-- A class 7 index 0x06 to 0x7F: extension-emulation trap, cause 0x02. -/
  | extension
  /-- An operation code its entry does not assign (BAR 3 to 15, TRAP 3, TLBI 3): illegal operand, cause 0x03. -/
  | reservedOperation
  deriving DecidableEq, Repr

/-! ## Fields of the formats -/

def fieldClass (w : BitVec 64) : Nat := (w.extractLsb' 61 3).toNat
def fieldIndex (w : BitVec 64) : Nat := (w.extractLsb' 54 7).toNat
def fieldGuard (w : BitVec 64) : Guard := { neg := w.getLsbD 53, pred := w.extractLsb' 50 3 }

/-- Formats R and S (R205, R210). -/
def rword (w : BitVec 64) : RWord :=
  { g := fieldGuard w, dst := w.extractLsb' 42 8, a := w.extractLsb' 34 8, b := w.extractLsb' 26 8,
    c := w.extractLsb' 18 8, mod := w.extractLsb' 0 18 }

/-- Format I (R206). -/
def iword (w : BitVec 64) : IWord :=
  { g := fieldGuard w, dst := w.extractLsb' 42 8, a := w.extractLsb' 34 8, imm := w.extractLsb' 0 34 }

/-- Format M (R207). -/
def mword (w : BitVec 64) : MWord :=
  { g := fieldGuard w, d := w.extractLsb' 42 8, base := w.extractLsb' 34 8, idx := w.extractLsb' 26 8,
    off := w.extractLsb' 8 18, size := w.extractLsb' 5 3, scope := w.extractLsb' 2 3, idxv := w.getLsbD 1,
    nt := w.getLsbD 0 }

/-- Format B (R208). -/
def bword (w : BitVec 64) : BWord :=
  { g := fieldGuard w, tgt := w.extractLsb' 18 32, a := w.extractLsb' 10 8, mod := w.extractLsb' 0 10 }

/-- Format E (R209). -/
def eword (w : BitVec 64) : EWord :=
  { g := fieldGuard w, e0 := w.extractLsb' 42 8, e1 := w.extractLsb' 34 8, e2 := w.extractLsb' 26 8,
    con0 := w.extractLsb' 22 4, con1 := w.extractLsb' 18 4, con2 := w.extractLsb' 14 4, conv := w.extractLsb' 11 3,
    prod := w.extractLsb' 7 4, prodv := w.getLsbD 6, j := w.getLsbD 5, cmod := w.extractLsb' 0 5 }

/-! ## The opcode map (R217) -/

/-- Class 0, format R (R217). -/
def opcodes0A : List (Nat × (BitVec 64 → Except Reject Instr)) := [
  (0x00, fun w => .ok (.iadd (rword w))),
  (0x01, fun w => .ok (.isub (rword w))),
  (0x02, fun w => .ok (.imul (rword w))),
  (0x03, fun w => .ok (.imulh (rword w))),
  (0x04, fun w => .ok (.imad (rword w))),
  (0x05, fun w => .ok (.idiv (rword w))),
  (0x06, fun w => .ok (.irem (rword w))),
  (0x07, fun w => .ok (.imin (rword w))),
  (0x08, fun w => .ok (.imax (rword w))),
  (0x09, fun w => .ok (.iabs (rword w))),
  (0x0A, fun w => .ok (.ineg (rword w))),
  (0x0B, fun w => .ok (.lea (rword w))),
  (0x0C, fun w => .ok (.and (rword w))),
  (0x0D, fun w => .ok (.or (rword w))),
  (0x0E, fun w => .ok (.xor (rword w))),
  (0x0F, fun w => .ok (.andn (rword w))),
  (0x10, fun w => .ok (.lmux (rword w))),
  (0x11, fun w => .ok (.shl (rword w))),
  (0x12, fun w => .ok (.shr (rword w))),
  (0x13, fun w => .ok (.sar (rword w))),
  (0x14, fun w => .ok (.rol (rword w))),
  (0x15, fun w => .ok (.shf (rword w))),
  (0x16, fun w => .ok (.bfx (rword w))),
  (0x17, fun w => .ok (.bfi (rword w)))]

/-- Class 0, format R (R217). -/
def opcodes0B : List (Nat × (BitVec 64 → Except Reject Instr)) := [
  (0x18, fun w => .ok (.popc (rword w))),
  (0x19, fun w => .ok (.clz (rword w))),
  (0x1A, fun w => .ok (.ctz (rword w))),
  (0x1B, fun w => .ok (.brev (rword w))),
  (0x1C, fun w => .ok (.bperm (rword w))),
  (0x1D, fun w => .ok (.icmp (rword w))),
  (0x1E, fun w => .ok (.plop (rword w))),
  (0x1F, fun w => .ok (.sel (rword w))),
  (0x20, fun w => if RMod.bits (rword w).mod 8 1 == 0 then .ok (.pmovGet (rword w)) else if RMod.bits (rword w).mod 8 1 == 1 then .ok (.pmovSet (rword w)) else .error .reservedOperation),
  (0x21, fun w => .ok (.mov (rword w))),
  (0x24, fun w => .ok (.lxch (rword w))),
  (0x25, fun w => .ok (.pagg (rword w))),
  (0x26, fun w => if RMod.bits (rword w).mod 4 1 == 0 then .ok (.rred (rword w)) else if RMod.bits (rword w).mod 4 1 == 1 then .ok (.rredJoined (rword w)) else .error .reservedOperation),
  (0x27, fun w => .ok (.pfx (rword w))),
  (0x28, fun w => .ok (.xset (rword w))),
  (0x29, fun w => .ok (.xadd (rword w)))]

/-- Class 0, format R (R217). -/
def opcodes0 : List (Nat × (BitVec 64 → Except Reject Instr)) := opcodes0A ++ opcodes0B

/-- Class 1, format I (R217). -/
def opcodes1 : List (Nat × (BitVec 64 → Except Reject Instr)) := [
  (0x00, fun w => .ok (.iaddImm (iword w))),
  (0x01, fun w => .ok (.isubImm (iword w))),
  (0x02, fun w => .ok (.imulImm (iword w))),
  (0x07, fun w => .ok (.iminImm (iword w))),
  (0x08, fun w => .ok (.imaxImm (iword w))),
  (0x0B, fun w => .ok (.leaImm (iword w))),
  (0x0C, fun w => .ok (.andImm (iword w))),
  (0x0D, fun w => .ok (.orImm (iword w))),
  (0x0E, fun w => .ok (.xorImm (iword w))),
  (0x0F, fun w => .ok (.andnImm (iword w))),
  (0x11, fun w => .ok (.shlImm (iword w))),
  (0x12, fun w => .ok (.shrImm (iword w))),
  (0x13, fun w => .ok (.sarImm (iword w))),
  (0x14, fun w => .ok (.rolImm (iword w))),
  (0x16, fun w => .ok (.bfxImm (iword w))),
  (0x1C, fun w => .ok (.bpermImm (iword w))),
  (0x1D, fun w => .ok (.icmpImm (iword w))),
  (0x22, fun w => .ok (.movi (iword w))),
  (0x23, fun w => .ok (.movhi (iword w))),
  (0x29, fun w => .ok (.xaddImm (iword w)))]

/-- Class 2, format R (R217). -/
def opcodes2A : List (Nat × (BitVec 64 → Except Reject Instr)) := [
  (0x00, fun w => .ok (.fadd (rword w))),
  (0x01, fun w => .ok (.fsub (rword w))),
  (0x02, fun w => .ok (.fmul (rword w))),
  (0x03, fun w => .ok (.ffma (rword w))),
  (0x04, fun w => .ok (.fmin (rword w))),
  (0x05, fun w => .ok (.fmax (rword w))),
  (0x06, fun w => .ok (.fminn (rword w))),
  (0x07, fun w => .ok (.fmaxn (rword w))),
  (0x08, fun w => .ok (.frnd (rword w))),
  (0x09, fun w => .ok (.fdiv (rword w))),
  (0x0A, fun w => .ok (.fsqrt (rword w))),
  (0x0B, fun w => .ok (.frcp (rword w))),
  (0x0C, fun w => .ok (.frsq (rword w))),
  (0x0D, fun w => .ok (.fcmp (rword w))),
  (0x0E, fun w => .ok (.fclass (rword w))),
  (0x0F, fun w => .ok (.hadd2 (rword w))),
  (0x10, fun w => .ok (.hmul2 (rword w))),
  (0x11, fun w => .ok (.hfma2 (rword w))),
  (0x12, fun w => .ok (.hmin2 (rword w))),
  (0x13, fun w => .ok (.hmax2 (rword w))),
  (0x14, fun w => .ok (.cvt (rword w))),
  (0x15, fun w => .ok (.logc (rword w))),
  (0x16, fun w => .ok (.expc (rword w))),
  (0x17, fun w => .ok (.lmul (rword w)))]

/-- Class 2, format R (R217). -/
def opcodes2B : List (Nat × (BitVec 64 → Except Reject Instr)) := [
  (0x18, fun w => .ok (.ldiv (rword w))),
  (0x19, fun w => .ok (.lpow (rword w))),
  (0x1A, fun w => .ok (.lroot (rword w))),
  (0x1B, fun w => .ok (.fex2 (rword w))),
  (0x1C, fun w => .ok (.flg2 (rword w))),
  (0x1D, fun w => .ok (.fsin (rword w))),
  (0x1E, fun w => .ok (.fcos (rword w))),
  (0x1F, fun w => .ok (.ftanh (rword w))),
  (0x20, fun w => .ok (.fsigm (rword w)))]

/-- Class 2, format R (R217). -/
def opcodes2 : List (Nat × (BitVec 64 → Except Reject Instr)) := opcodes2A ++ opcodes2B

/-- Class 3, formats M and R (R217). -/
def opcodes3 : List (Nat × (BitVec 64 → Except Reject Instr)) := [
  (0x00, fun w => .ok (.ld (mword w))),
  (0x01, fun w => .ok (.lds (mword w))),
  (0x02, fun w => .ok (.lda (mword w))),
  (0x03, fun w => .ok (.ldff (mword w))),
  (0x04, fun w => .ok (.st (mword w))),
  (0x05, fun w => .ok (.sts (mword w))),
  (0x06, fun w => .ok (.stl (mword w))),
  (0x07, fun w => .ok (.ldf (mword w))),
  (0x08, fun w => .ok (.stf (mword w))),
  (0x09, fun w => .ok (.waitq (rword w))),
  (0x0A, fun w => .ok (.atom (rword w))),
  (0x0B, fun w => .ok (.red (rword w))),
  (0x0C, fun w => .ok (.cas (rword w))),
  (0x0D, fun w => .ok (.atadd2 (rword w))),
  (0x0E, fun w => .ok (.atomf (rword w))),
  (0x0F, fun w => .ok (.fence (rword w))),
  (0x10, fun w => .ok (.cflush (mword w))),
  (0x11, fun w => .ok (.cinv (mword w))),
  (0x12, fun w => .ok (.pref (mword w))),
  (0x13, fun w => .ok (.tkput (rword w))),
  (0x14, fun w => .ok (.tkget (rword w))),
  (0x15, fun w => .ok (.tktry (rword w))),
  (0x16, fun w => .ok (.tkset (rword w))),
  (0x17, fun w => if RMod.bits (rword w).mod 14 4 == 0 then .ok (.barMeet (rword w)) else if RMod.bits (rword w).mod 14 4 == 1 then .ok (.barPass (rword w)) else if RMod.bits (rword w).mod 14 4 == 2 then .ok (.barSize (rword w)) else .error .reservedOperation)]

/-- Class 4, formats B and R (R217). -/
def opcodes4 : List (Nat × (BitVec 64 → Except Reject Instr)) := [
  (0x00, fun w => .ok (.bra (bword w))),
  (0x01, fun w => .ok (.brx (rword w))),
  (0x02, fun w => .ok (.call (bword w))),
  (0x03, fun w => .ok (.ret (rword w))),
  (0x04, fun w => .ok (.exit (rword w))),
  (0x05, fun w => .ok (.rcv (bword w))),
  (0x06, fun w => .ok (.rsync (rword w))),
  (0x07, fun w => .ok (.nop (rword w))),
  (0x08, fun w => .ok (.yield (rword w))),
  (0x09, fun w => .ok (.grow (rword w))),
  (0x0A, fun w => .ok (.shrink (rword w))),
  (0x0B, fun w => .ok (.jset (rword w))),
  (0x0C, fun w => .ok (.jwait (rword w))),
  (0x0D, fun w => .ok (.cstat (rword w))),
  (0x0E, fun w => .ok (.cdone (rword w))),
  (0x0F, fun w => .ok (.valid (rword w))),
  (0x10, fun w => .ok (.slack (rword w))),
  (0x11, fun w => .ok (.srd (rword w))),
  (0x12, fun w => .ok (.rngc (rword w)))]

/-- Class 5, format E (R217). -/
def opcodes5A : List (Nat × (BitVec 64 → Except Reject Instr)) := [
  (0x00, fun w => .ok (.vadd (eword w))),
  (0x01, fun w => .ok (.vsub (eword w))),
  (0x02, fun w => .ok (.vmul (eword w))),
  (0x03, fun w => .ok (.vfma (eword w))),
  (0x04, fun w => .ok (.vmin (eword w))),
  (0x05, fun w => .ok (.vmax (eword w))),
  (0x06, fun w => .ok (.vscl (eword w))),
  (0x07, fun w => .ok (.vcvt (eword w))),
  (0x08, fun w => .ok (.vmov (eword w))),
  (0x09, fun w => .ok (.vfill (eword w))),
  (0x0A, fun w => .ok (.vcmp (eword w))),
  (0x0B, fun w => .ok (.vsel (eword w))),
  (0x0C, fun w => .ok (.vsum (eword w))),
  (0x0D, fun w => .ok (.vmaxr (eword w))),
  (0x0E, fun w => .ok (.vlogc (eword w))),
  (0x0F, fun w => .ok (.vexpc (eword w))),
  (0x10, fun w => .ok (.vex2 (eword w))),
  (0x11, fun w => .ok (.vsigm (eword w))),
  (0x12, fun w => .ok (.vtanh (eword w))),
  (0x20, fun w => .ok (.cpin (eword w))),
  (0x21, fun w => .ok (.cpout (eword w))),
  (0x22, fun w => .ok (.cpff (eword w))),
  (0x23, fun w => .ok (.cp2d (eword w))),
  (0x24, fun w => .ok (.cppl (eword w)))]

/-- Class 5, format E (R217). -/
def opcodes5B : List (Nat × (BitVec 64 → Except Reject Instr)) := [
  (0x25, fun w => .ok (.cpacc (eword w))),
  (0x26, fun w => .ok (.cpaci (eword w))),
  (0x27, fun w => .ok (.cppeer (eword w))),
  (0x40, fun w => .ok (.windef (eword w))),
  (0x41, fun w => .ok (.winrel (eword w))),
  (0x42, fun w => .ok (.acres (eword w))),
  (0x43, fun w => .ok (.acrel (eword w))),
  (0x44, fun w => .ok (.aczero (eword w))),
  (0x45, fun w => .ok (.mma (eword w))),
  (0x46, fun w => .ok (.mscl (eword w))),
  (0x47, fun w => .ok (.mchk (eword w)))]

/-- Class 5, format E (R217). -/
def opcodes5 : List (Nat × (BitVec 64 → Except Reject Instr)) := opcodes5A ++ opcodes5B

/-- Class 6, format S (R217, R369). -/
def opcodes6 : List (Nat × (BitVec 64 → Except Reject Instr)) := [
  (0x00, fun w => if RMod.bits (rword w).mod 8 2 == 0 then .ok (.trapHalt (rword w)) else if RMod.bits (rword w).mod 8 2 == 1 then .ok (.trapSlice (rword w)) else if RMod.bits (rword w).mod 8 2 == 2 then .ok (.trapWdog (rword w)) else .error .reservedOperation),
  (0x01, fun w => .ok (.rett (rword w))),
  (0x02, fun w => .ok (.sysrd (rword w))),
  (0x03, fun w => if RMod.bits (rword w).mod 8 10 == 0x003 then .ok (.eventClear (rword w)) else if RMod.bits (rword w).mod 16 2 == 1 then .ok (.rodWindowWrite (rword w)) else .ok (.syswr (rword w))),
  (0x04, fun w => .ok (.engrd (rword w))),
  (0x05, fun w => .ok (.engwr (rword w))),
  (0x06, fun w => if RMod.bits (rword w).mod 8 1 == 0 then .ok (.ctxsv (rword w)) else if RMod.bits (rword w).mod 8 1 == 1 then .ok (.ctxsvTeam (rword w)) else .error .reservedOperation),
  (0x07, fun w => if RMod.bits (rword w).mod 8 1 == 0 then .ok (.ctxld (rword w)) else if RMod.bits (rword w).mod 8 1 == 1 then .ok (.ctxldTeam (rword w)) else .error .reservedOperation),
  (0x08, fun w => if RMod.bits (rword w).mod 8 2 == 0 then .ok (.tlbiVa (rword w)) else if RMod.bits (rword w).mod 8 2 == 1 then .ok (.tlbiAsid (rword w)) else if RMod.bits (rword w).mod 8 2 == 2 then .ok (.tlbiAll (rword w)) else .error .reservedOperation),
  (0x09, fun w => .ok (.bkpt (rword w))),
  (0x0A, fun w => .ok (.fwcall (rword w))),
  (0x0B, fun w => .ok (.parkq (rword w))),
  (0x0C, fun w => if RMod.bits (rword w).mod 8 2 == 0 then .ok (.resumeRetry (rword w)) else if RMod.bits (rword w).mod 8 2 == 1 then .ok (.resumeSkip (rword w)) else if RMod.bits (rword w).mod 8 2 == 2 then .ok (.resumeAbort (rword w)) else if RMod.bits (rword w).mod 8 2 == 3 then .ok (.resumeRun (rword w)) else .error .reservedOperation),
  (0x0D, fun w => .ok (.idle (rword w)))]

/-- Class 7, format R (R217). -/
def opcodes7 : List (Nat × (BitVec 64 → Except Reject Instr)) := [
  (0x00, fun w => .ok (.dadd (rword w))),
  (0x01, fun w => .ok (.dmul (rword w))),
  (0x02, fun w => .ok (.dfma (rword w))),
  (0x03, fun w => .ok (.ddiv (rword w))),
  (0x04, fun w => .ok (.dsqrt (rword w))),
  (0x05, fun w => .ok (.dcvt (rword w)))]

/-- The opcode map of a class. -/
def opcodes (cls : Nat) : List (Nat × (BitVec 64 → Except Reject Instr)) :=
  match cls with
  | 0 => opcodes0
  | 1 => opcodes1
  | 2 => opcodes2
  | 3 => opcodes3
  | 4 => opcodes4
  | 5 => opcodes5
  | 6 => opcodes6
  | _ => opcodes7

/-- Decode one word. Checks 3 and 4 of R219 name what is rejected: an illegal guard in any class, an index outside the
map (in class 7, the extension space, that is the emulation trap). -/
def decode (w : BitVec 64) : Except Reject Instr :=
  if (fieldGuard w).neg && (fieldGuard w).pred == 7#3 then .error .undefinedInstruction
  else
    match (opcodes (fieldClass w)).lookup (fieldIndex w) with
    | some f => f w
    | none => if fieldClass w == 7 then .error .extension else .error .undefinedInstruction

/-- The word in eight bytes, lowest address first (R9, R202). -/
def wordOfBytes (b : List (BitVec 8)) : BitVec 64 :=
  BitVec.ofNat 64 (b.foldr (fun x acc => x.toNat + 256 * acc) 0)

/-- Decode the first instruction of a byte sequence, and give the rest. -/
def decodeBytes (bytes : List (BitVec 8)) : Except Reject (Instr × List (BitVec 8)) :=
  if bytes.length < 8 then .error .truncated
  else (decode (wordOfBytes (bytes.take 8))).map (fun i => (i, bytes.drop 8))

/-- A number's bytes, lowest first (R9). -/
def bytesOfNat (n w : Nat) : List (BitVec 8) :=
  (List.range n).map (fun k => BitVec.ofNat 8 (w / 256 ^ k))

/-- The instruction the decoder reads from the bits `w` of a table row of `nbits` bits; the bits above are 0. -/
def decodeTableWord (nbits w : Nat) : Option Instr :=
  match decodeBytes (bytesOfNat 8 (w % 2 ^ nbits)) with
  | .ok (i, _) => some i
  | .error _ => none

/-! ## The encoder -/

def encGuard (cls idx : Nat) (g : Guard) : BitVec 14 :=
  BitVec.ofNat 3 cls ++ BitVec.ofNat 7 idx ++ BitVec.ofBool g.neg ++ g.pred

def encR (cls idx : Nat) (w : RWord) : BitVec 64 :=
  encGuard cls idx w.g ++ w.dst ++ w.a ++ w.b ++ w.c ++ w.mod

def encI (cls idx : Nat) (w : IWord) : BitVec 64 :=
  encGuard cls idx w.g ++ w.dst ++ w.a ++ w.imm

def encM (cls idx : Nat) (w : MWord) : BitVec 64 :=
  encGuard cls idx w.g ++ w.d ++ w.base ++ w.idx ++ w.off ++ w.size ++ w.scope ++ BitVec.ofBool w.idxv
    ++ BitVec.ofBool w.nt

def encB (cls idx : Nat) (w : BWord) : BitVec 64 :=
  encGuard cls idx w.g ++ w.tgt ++ w.a ++ w.mod

def encE (cls idx : Nat) (w : EWord) : BitVec 64 :=
  encGuard cls idx w.g ++ w.e0 ++ w.e1 ++ w.e2 ++ w.con0 ++ w.con1 ++ w.con2 ++ w.conv ++ w.prod
    ++ BitVec.ofBool w.prodv ++ BitVec.ofBool w.j ++ w.cmod

/-- The word of an instruction, from the same maps; a row that is no word has none. -/
def encode : Instr → Option (BitVec 64)
  | .iadd w => some (encR 0 0x00 w)
  | .isub w => some (encR 0 0x01 w)
  | .imul w => some (encR 0 0x02 w)
  | .imulh w => some (encR 0 0x03 w)
  | .imad w => some (encR 0 0x04 w)
  | .idiv w => some (encR 0 0x05 w)
  | .irem w => some (encR 0 0x06 w)
  | .imin w => some (encR 0 0x07 w)
  | .imax w => some (encR 0 0x08 w)
  | .iabs w => some (encR 0 0x09 w)
  | .ineg w => some (encR 0 0x0A w)
  | .lea w => some (encR 0 0x0B w)
  | .and w => some (encR 0 0x0C w)
  | .or w => some (encR 0 0x0D w)
  | .xor w => some (encR 0 0x0E w)
  | .andn w => some (encR 0 0x0F w)
  | .lmux w => some (encR 0 0x10 w)
  | .shl w => some (encR 0 0x11 w)
  | .shr w => some (encR 0 0x12 w)
  | .sar w => some (encR 0 0x13 w)
  | .rol w => some (encR 0 0x14 w)
  | .shf w => some (encR 0 0x15 w)
  | .bfx w => some (encR 0 0x16 w)
  | .bfi w => some (encR 0 0x17 w)
  | .popc w => some (encR 0 0x18 w)
  | .clz w => some (encR 0 0x19 w)
  | .ctz w => some (encR 0 0x1A w)
  | .brev w => some (encR 0 0x1B w)
  | .bperm w => some (encR 0 0x1C w)
  | .icmp w => some (encR 0 0x1D w)
  | .plop w => some (encR 0 0x1E w)
  | .sel w => some (encR 0 0x1F w)
  | .pmovGet w => some (encR 0 0x20 w)
  | .pmovSet w => some (encR 0 0x20 w)
  | .mov w => some (encR 0 0x21 w)
  | .lxch w => some (encR 0 0x24 w)
  | .pagg w => some (encR 0 0x25 w)
  | .pfx w => some (encR 0 0x27 w)
  | .rred w => some (encR 0 0x26 w)
  | .rredJoined w => some (encR 0 0x26 w)
  | .xset w => some (encR 0 0x28 w)
  | .xadd w => some (encR 0 0x29 w)
  | .iaddImm w => some (encI 1 0x00 w)
  | .isubImm w => some (encI 1 0x01 w)
  | .imulImm w => some (encI 1 0x02 w)
  | .iminImm w => some (encI 1 0x07 w)
  | .imaxImm w => some (encI 1 0x08 w)
  | .leaImm w => some (encI 1 0x0B w)
  | .andImm w => some (encI 1 0x0C w)
  | .orImm w => some (encI 1 0x0D w)
  | .xorImm w => some (encI 1 0x0E w)
  | .andnImm w => some (encI 1 0x0F w)
  | .shlImm w => some (encI 1 0x11 w)
  | .shrImm w => some (encI 1 0x12 w)
  | .sarImm w => some (encI 1 0x13 w)
  | .rolImm w => some (encI 1 0x14 w)
  | .bfxImm w => some (encI 1 0x16 w)
  | .bpermImm w => some (encI 1 0x1C w)
  | .icmpImm w => some (encI 1 0x1D w)
  | .movi w => some (encI 1 0x22 w)
  | .movhi w => some (encI 1 0x23 w)
  | .xaddImm w => some (encI 1 0x29 w)
  | .fadd w => some (encR 2 0x00 w)
  | .fsub w => some (encR 2 0x01 w)
  | .fmul w => some (encR 2 0x02 w)
  | .ffma w => some (encR 2 0x03 w)
  | .fmin w => some (encR 2 0x04 w)
  | .fmax w => some (encR 2 0x05 w)
  | .fminn w => some (encR 2 0x06 w)
  | .fmaxn w => some (encR 2 0x07 w)
  | .frnd w => some (encR 2 0x08 w)
  | .fdiv w => some (encR 2 0x09 w)
  | .fsqrt w => some (encR 2 0x0A w)
  | .frcp w => some (encR 2 0x0B w)
  | .frsq w => some (encR 2 0x0C w)
  | .fcmp w => some (encR 2 0x0D w)
  | .fclass w => some (encR 2 0x0E w)
  | .hadd2 w => some (encR 2 0x0F w)
  | .hmul2 w => some (encR 2 0x10 w)
  | .hfma2 w => some (encR 2 0x11 w)
  | .hmin2 w => some (encR 2 0x12 w)
  | .hmax2 w => some (encR 2 0x13 w)
  | .cvt w => some (encR 2 0x14 w)
  | .logc w => some (encR 2 0x15 w)
  | .expc w => some (encR 2 0x16 w)
  | .lmul w => some (encR 2 0x17 w)
  | .ldiv w => some (encR 2 0x18 w)
  | .lpow w => some (encR 2 0x19 w)
  | .lroot w => some (encR 2 0x1A w)
  | .fex2 w => some (encR 2 0x1B w)
  | .flg2 w => some (encR 2 0x1C w)
  | .fsin w => some (encR 2 0x1D w)
  | .fcos w => some (encR 2 0x1E w)
  | .ftanh w => some (encR 2 0x1F w)
  | .fsigm w => some (encR 2 0x20 w)
  | .ld w => some (encM 3 0x00 w)
  | .lds w => some (encM 3 0x01 w)
  | .lda w => some (encM 3 0x02 w)
  | .ldff w => some (encM 3 0x03 w)
  | .st w => some (encM 3 0x04 w)
  | .sts w => some (encM 3 0x05 w)
  | .stl w => some (encM 3 0x06 w)
  | .ldf w => some (encM 3 0x07 w)
  | .stf w => some (encM 3 0x08 w)
  | .waitq w => some (encR 3 0x09 w)
  | .atom w => some (encR 3 0x0A w)
  | .red w => some (encR 3 0x0B w)
  | .cas w => some (encR 3 0x0C w)
  | .atadd2 w => some (encR 3 0x0D w)
  | .atomf w => some (encR 3 0x0E w)
  | .fence w => some (encR 3 0x0F w)
  | .cflush w => some (encM 3 0x10 w)
  | .cinv w => some (encM 3 0x11 w)
  | .pref w => some (encM 3 0x12 w)
  | .tkput w => some (encR 3 0x13 w)
  | .tkget w => some (encR 3 0x14 w)
  | .tktry w => some (encR 3 0x15 w)
  | .tkset w => some (encR 3 0x16 w)
  | .barMeet w => some (encR 3 0x17 w)
  | .barPass w => some (encR 3 0x17 w)
  | .barSize w => some (encR 3 0x17 w)
  | .bra w => some (encB 4 0x00 w)
  | .brx w => some (encR 4 0x01 w)
  | .call w => some (encB 4 0x02 w)
  | .ret w => some (encR 4 0x03 w)
  | .exit w => some (encR 4 0x04 w)
  | .rcv w => some (encB 4 0x05 w)
  | .rsync w => some (encR 4 0x06 w)
  | .syncRelease _ _ => none
  | .nop w => some (encR 4 0x07 w)
  | .yield w => some (encR 4 0x08 w)
  | .grow w => some (encR 4 0x09 w)
  | .shrink w => some (encR 4 0x0A w)
  | .jset w => some (encR 4 0x0B w)
  | .jwait w => some (encR 4 0x0C w)
  | .cstat w => some (encR 4 0x0D w)
  | .cdone w => some (encR 4 0x0E w)
  | .valid w => some (encR 4 0x0F w)
  | .slack w => some (encR 4 0x10 w)
  | .srd w => some (encR 4 0x11 w)
  | .rngc w => some (encR 4 0x12 w)
  | .carryWaitRelease _ _ => none
  | .vadd w => some (encE 5 0x00 w)
  | .vsub w => some (encE 5 0x01 w)
  | .vmul w => some (encE 5 0x02 w)
  | .vfma w => some (encE 5 0x03 w)
  | .vmin w => some (encE 5 0x04 w)
  | .vmax w => some (encE 5 0x05 w)
  | .vscl w => some (encE 5 0x06 w)
  | .vcvt w => some (encE 5 0x07 w)
  | .vmov w => some (encE 5 0x08 w)
  | .vfill w => some (encE 5 0x09 w)
  | .vcmp w => some (encE 5 0x0A w)
  | .vsel w => some (encE 5 0x0B w)
  | .vsum w => some (encE 5 0x0C w)
  | .vmaxr w => some (encE 5 0x0D w)
  | .vlogc w => some (encE 5 0x0E w)
  | .vexpc w => some (encE 5 0x0F w)
  | .vex2 w => some (encE 5 0x10 w)
  | .vsigm w => some (encE 5 0x11 w)
  | .vtanh w => some (encE 5 0x12 w)
  | .cpin w => some (encE 5 0x20 w)
  | .cpout w => some (encE 5 0x21 w)
  | .cpff w => some (encE 5 0x22 w)
  | .cp2d w => some (encE 5 0x23 w)
  | .cppl w => some (encE 5 0x24 w)
  | .cpacc w => some (encE 5 0x25 w)
  | .cpaci w => some (encE 5 0x26 w)
  | .cppeer w => some (encE 5 0x27 w)
  | .windef w => some (encE 5 0x40 w)
  | .winrel w => some (encE 5 0x41 w)
  | .acres w => some (encE 5 0x42 w)
  | .acrel w => some (encE 5 0x43 w)
  | .aczero w => some (encE 5 0x44 w)
  | .mma w => some (encE 5 0x45 w)
  | .mscl w => some (encE 5 0x46 w)
  | .mchk w => some (encE 5 0x47 w)
  | .engineCommandStart _ _ => none
  | .engineCommandFinish _ _ _ => none
  | .commandRunFault _ _ _ => none
  | .engineFaultDelivery _ => none
  | .trapHalt w => some (encR 6 0x00 w)
  | .trapSlice w => some (encR 6 0x00 w)
  | .trapWdog w => some (encR 6 0x00 w)
  | .rett w => some (encR 6 0x01 w)
  | .sysrd w => some (encR 6 0x02 w)
  | .syswr w => some (encR 6 0x03 w)
  | .engineIssueStop _ _ => none
  | .engineIssueResume _ _ => none
  | .engineStopped _ _ => none
  | .eventClear w => some (encR 6 0x03 w)
  | .rodWindowWrite w => some (encR 6 0x03 w)
  | .engrd w => some (encR 6 0x04 w)
  | .engwr w => some (encR 6 0x05 w)
  | .ctxsv w => some (encR 6 0x06 w)
  | .ctxsvTeam w => some (encR 6 0x06 w)
  | .ctxld w => some (encR 6 0x07 w)
  | .ctxldTeam w => some (encR 6 0x07 w)
  | .tlbiVa w => some (encR 6 0x08 w)
  | .tlbiAsid w => some (encR 6 0x08 w)
  | .tlbiAll w => some (encR 6 0x08 w)
  | .tlbiComplete _ => none
  | .bkpt w => some (encR 6 0x09 w)
  | .fwcall w => some (encR 6 0x0A w)
  | .fwcallReply _ _ _ => none
  | .parkq w => some (encR 6 0x0B w)
  | .resumeRetry w => some (encR 6 0x0C w)
  | .resumeSkip w => some (encR 6 0x0C w)
  | .resumeAbort w => some (encR 6 0x0C w)
  | .resumeRun w => some (encR 6 0x0C w)
  | .idle w => some (encR 6 0x0D w)
  | .idleWake _ => none
  | .handlerEntry _ => none
  | .dadd w => some (encR 7 0x00 w)
  | .dmul w => some (encR 7 0x01 w)
  | .dfma w => some (encR 7 0x02 w)
  | .ddiv w => some (encR 7 0x03 w)
  | .dsqrt w => some (encR 7 0x04 w)
  | .dcvt w => some (encR 7 0x05 w)
  | .loadReturn _ _ _ => none
  | .fenceComplete _ _ => none
  | .teamStart _ => none
  | .requestServe _ => none
  | .rodEviction _ => none
  | .teamRetire _ _ => none
  | .wrapUpThreshold _ => none
  | .itemDivert _ => none
  | .deadlineKill _ => none
  | .launchCompletion _ => none
  | .stuckFrameWatchdog _ => none
  | .engineWatchdog _ _ => none
  | .partitionWatchdog _ _ => none
  | .sliceTimeReached _ => none
  | .timerReached _ => none
  | .hubDoorbell _ => none
  | .debugRequest _ => none
  | .preemption _ => none
  | .schedulerChoice _ => none
  | .launchKill _ => none
  | .queueRegister _ _ _ _ => none
  | .queueTailWrite _ => none
  | .queueStopRequest _ => none
  | .queueStartRequest _ => none
  | .queueRestart _ => none
  | .queueSwapIn _ => none
  | .queueWatchdog _ => none
  | .launch _ => none
  | .signal _ => none
  | .wait _ => none
  | .waitComplete _ => none
  | .waitTimeout _ => none
  | .callq _ => none
  | .joinq _ => none
  | .fencePacket _ => none
  | .nopPacket _ => none
  | .timestamp _ => none
  | .readShared _ _ => none
  | .readUnique _ _ => none
  | .upgrade _ _ => none
  | .writeBack _ _ => none
  | .writeBackKeep _ _ => none
  | .snoop _ _ _ => none
  | .untrackedRead _ => none
  | .untrackedWrite _ _ _ => none
  | .homeAtomic _ _ _ _ _ => none
  | .uClassAccess _ _ _ => none
  | .predictorDecay => none
  | .unmapRequest _ _ => none
  | .unmapComplete _ => none
  | .leaseWrite _ _ => none
  | .unmapStatusClear _ _ => none
  | .migrationRequest _ _ => none
  | .migrationSwitch _ => none
  | .migrationRetire _ => none
  | .framePowerGate _ => none
  | .slicePowerGate _ _ => none
  | .drainedIsolation _ => none
  | .forcedIsolation _ => none
  | .resetRequest _ => none
  | .drainForward _ => none
  | .dieReset _ => none
  | .forcedReset _ => none
  | .linkDown _ _ => none
  | .powerOnReset _ _ => none
  | .partitionChange _ _ => none
  | .timeSourceSelect _ => none
  | .timeStatusRead => none
  | .timeSourceLoss => none
  | .timeStep _ => none
  | .attestationRequest _ => none
  | .maintenanceReplan _ _ => none
  | .counterFlush => none
  | .hubLinkFrame _ _ _ _ => none
  | .firmwareContextRestart _ _ => none
  | .debugAgentRelease _ => none
  | .powerGateWake _ => none
  | .linkRetrain _ _ => none
  | .offsetMeasurement _ => none
  | .rollbackCountRaise _ => none
  | .orderlyShutdown => none
  | .powerLoss => none

end Sys2Proof
end

