-- ==== Sys2Proof/Config.lean ====
section
/-!
DEFINITION. Sys2Proof/Config.lean: what is fixed for the package (die classes and resources, R4, R6, R14 to R19), and
the free values: opaque constants that stand for what the manual leaves open, so that no proof can lean on a number.
-/

namespace Sys2Proof.Config

/-! ## Die classes and resources -/

/-- The stream dies (R4). -/
def streamDies : List Nat := [8, 9, 13, 14, 17, 18, 22, 23]

/-- Whether a die is of class S (R4). -/
def isStream (die : Nat) : Bool := streamDies.contains die

/-- sr.class: 0 on an S-die, 1 on an M-die (R16). -/
def classOf (die : Nat) : Nat := if isStream die then 0 else 1

/-- Frames of a die (R17). -/
def framesOf (die : Nat) : Nat := if isStream die then 96 else 16

/-- Issue ports of a frame (R19). -/
def portsOf (die : Nat) : Nat := if isStream die then 8 else 4

/-- Resident rods of a frame, so rod slots and team slots (R19, R361, R363). -/
def slotsOf (die : Nat) : Nat := if isStream die then 64 else 32

/-- Rod-blocks of each register partition (R19). -/
def blocksOf (die : Nat) : Nat := if isStream die then 256 else 128

/-- Cell rows and columns of the matrix engine; also the accumulator's columns (R19). -/
def cellsOf (die : Nat) : Nat := if isStream die then 32 else 128

/-- Accumulator rows of a frame (R19). -/
def accRowsOf (die : Nat) : Nat := if isStream die then 256 else 1024

/-- Frame-store bytes of a frame (R19). -/
def frameStoreOf (die : Nat) : Nat := if isStream die then 524288 else 4194304

/-- Queue entries of each engine (R18, R63). -/
def queueEntries : EngineId → Nat
  | .ve => 32
  | .ce => 64
  | .me => 32

/-- Started commands an engine holds at once (R443). -/
def startedLimit : EngineId → Nat
  | .ve => 2
  | .ce => 4
  | .me => 2

/-- The dies that carry a tower (R5). Which of them carries tower n (agent 32 + n) the spec does not say: DESIGN CHOICE, in
ascending die order (log entry 33). -/
def towerDies : List Nat := [1, 2, 3, 4, 6, 11, 12, 15, 16, 19, 20, 25, 27, 28, 29, 30]

/-- A die's place on the 6 x 6 grid (R14): row and column. -/
def gridPos (die : Nat) : Nat × Nat :=
  if die ≤ 13 then (die / 6, die % 6)
  else if die ≤ 15 then (2, die - 10)
  else if die ≤ 17 then (3, die - 16)
  else if die ≤ 19 then (3, die - 14)
  else ((die + 4) / 6, (die + 4) % 6)

/-- Every frame of the package (R17). -/
def allFrames : List FrameId :=
  (List.range 32).flatMap (fun d => (List.range (framesOf d)).map (fun f => ⟨d, f⟩))

/-- The directory bit of an S-die (R427). -/
def agentOfDie (die : Nat) : Option Nat := streamDies.findIdx? (· == die)

/-- The die of a directory bit, for bits 0 to 7 (R427). -/
def dieOfAgent (agent : Nat) : Option Nat := streamDies[agent]?

/-- Device memory (R412). -/
def deviceBytes : Nat := 2 ^ 41

/-- The control pages: the package information page, its bytes 0x0000 to 0x4FFF (R464). -/
def controlBytes : Nat := 0x5000

/-! ## Free values

Each is a constant without a body: the manual leaves the value open, and every statement holds whatever it is. -/

/-- Bytes and words left unspecified, one fresh index per use (log entry 1). -/
opaque freeBits : Nat → BitVec 64

/-- Which agent moves next where no rule says so (log entry 3). -/
opaque nextTurn : Nat → Turn

/-- The offset of a frame's copy of package time, taken modulo 41 and less 20 (R12; log entry 5). -/
opaque clockSkew : FrameId → Nat

/-- The same for a die (0 to 31) and for a tower's home slice (32 to 47), by agent number (R12; log entry 5). -/
opaque agentSkew : Nat → Nat

/-- The fixed hash that names a physical page's home tower (R435; log entry 12). -/
opaque homeHash : Nat → Nat

/-- The hash that names a sector's slice in a die cache (R432, R434; log entry 12). -/
opaque sliceHash : Nat → Nat

/-- Which of the next nodes that still reach the destination the hub's route takes, by route epoch, node, destination and links
left (R15, R466; log entry 12). -/
opaque routeHop : Nat → Nat → Nat → Nat → Nat

/-- The set of a line in its package directory bank (R428; log entry 12). -/
opaque dirSet : Nat → Nat

/-- The set of a page in a die's translation cache (R419; log entry 12). -/
opaque tlbSet : Nat → Nat

/-- The ML-DSA-44 signature by a secret key over the SHA3-256 digest of bytes (R476, R477; log entry 13). -/
opaque signature : List (BitVec 8) → List (BitVec 8) → List (BitVec 8)

/-- The SHA3-256 digest of the root public key, in the hub's ROM (R476; log entry 13). -/
opaque rootKeyDigest : BitVec 256

/-- Whether a signature of an image's digest verifies under the root key of a digest (R476; log entry 13). -/
opaque imageVerifies : BitVec 256 → BitVec 256 → List (BitVec 8) → Bool

/-- The fused device secret (R477; log entry 13). -/
opaque deviceSecret : BitVec 256

/-- The ML-DSA-44 key pair derived from a secret: the secret key, then the public one (R477; log entry 13). -/
opaque identityKeys : BitVec 256 → List (BitVec 8) × List (BitVec 8)

/-- The certificate of a public key (R477; log entry 13). -/
opaque certificate : List (BitVec 8) → List (BitVec 8)

/-- The SHA3-256 digest of the firmware an agent is delivered with; agent 54 stands for the hub (R462, R477; log entry 13). -/
opaque firmwareDigest : Nat → BitVec 256

/-- A capability entry's maximum power, and the UCIe links of an agent that is no compute die, which the manual does not give
(R462; log entry 13). -/
opaque capability : Nat → BitVec 64

/-- Which lifetime counter, by number, a 64-bit word of their page holds (R464, R479; log entry 13). -/
opaque counterSlot : Nat → Nat

/-- Which 4 KiB page above device memory the hub gives the first control page (R412, R463; log entry 13). -/
opaque controlSlot : Nat

/-- Where the control pages start: above device memory, within 48 bits. -/
def controlBase : Nat := deviceBytes + controlSlot % (2 ^ 36 - 2 ^ 29 - 5) * 4096

/-- The address in the firmware image at which a frame's context starts (R461 step 7; log entry 10). -/
opaque firmwareEntry : FrameId → BitVec 64

/-- The rounded value of a function whose bounds stay apart after the last refinement (R158; log entry 9). -/
opaque functionRest : Nat → BitVec 32 → BitVec 32

end Sys2Proof.Config
end

