-- ==== Sys2Proof/Machine/State.lean ====
section
/-!
DEFINITION. Sys2Proof/Machine/State.lean: the state of the package as plain data, its reset, and the reasons a step
can stop. Tables of many like things (rods, teams, frames, dies) are lists of what differs from its reset value, keyed
by place; a key that is not listed stands at its reset value.
-/

namespace Sys2Proof.Machine

/-- A sparse store of `w`-bit values by number: rising keys, no entry equal to 0, an unlisted number reads 0. Global
memory, frame stores, accumulator stores and register files are such stores; for `w = 8` an entry is a `Host.Cell`. -/
abbrev Cells (w : Nat) := List (Nat × BitVec w)

/-- Memory as bytes by address. -/
abbrev Memory := List Host.Cell

/-! ## Causes (R436) -/

inductive Cause where
  | undefinedInstruction
  | extensionEmulation
  | illegalOperand
  | registerNotAllocated
  | indexBound
  | misaligned
  | notPresent
  | permission
  | orderingReserved
  | frameStoreBound
  | windowFault
  | accumulatorBound
  | carryMisuse
  | joinMismatch
  | tokenOverflow
  | engineCommandFault
  | breakpoint
  | debugHalt
  | timeSlice
  | deadlineDivert
  | deadlineKill
  | watchdog
  | poison
  | linkDown
  | privileged
  deriving DecidableEq, Repr

/-! ## Item state (R119, R452) -/

/-- The states of R42 with the two an item has before and after it runs (R452). -/
inductive LaneState where
  | noItem
  | retired
  | runnable
  | parked
  | carryWait
  | syncWait
  | blocked
  deriving DecidableEq, Repr

/-- What a waiting lane waits for (R452, offset 0x009), with the operands of the wait. -/
inductive Wait where
  | none
  | grow (f s : Nat)
  | acres (row n : Nat)
  | tkget (q dst : Nat)
  | barMeet (b : Nat) (gen : Bool)
  | jwait (j : Nat)
  | jset (j : Nat)
  | fullJoin (j : Nat)
  /-- Any of the sources still lacks a generation (R83). -/
  | carryRead (slots : List Nat)
  /-- The slot holds four unread generations (R75). -/
  | carryWrite (slot : Nat)
  deriving DecidableEq, Repr

/-- A reconvergence mark (R44). -/
structure Mark where
  addr : DWord
  seq : BitVec 32
  deriving DecidableEq, Repr

/-- A cached leaf translation (R419, R420). -/
structure Xlat where
  asid : Nat
  part : Nat
  glob : Bool
  /-- First virtual and physical address of the page, and its size. -/
  va : Nat
  pa : Nat
  bytes : Nat
  r : Bool
  w : Bool
  x : Bool
  ord : BitVec 2
  /-- Package time at which it ends; 0 in lease class 3, where it serves one access (R420). -/
  expiry : Nat
  deriving DecidableEq, Repr

/-- Kinds of load-queue entries (R279, R452); an atomic's old value is already known. -/
inductive LoadKind where
  | ld
  | lds
  | lda
  | ldff
  | atomic
  deriving DecidableEq, Repr

/-- One load-queue entry (R452). -/
structure LoadEntry where
  addr : DWord
  kind : LoadKind
  /-- Size in bytes. -/
  size : Nat
  scope : Nat
  dst : Nat
  ordinal : BitVec 16
  /-- The old value of an atomic. -/
  value : BitVec 64
  /-- The translations used at issue (R421); none for a reissued load. -/
  xlats : List Xlat
  /-- Set when the answer was lost with a link (R469). -/
  cut : Bool
  deriving DecidableEq, Repr

/-- A marked register: its next read raises the cause (R274, R421). -/
structure RegMark where
  reg : Nat
  cause : Cause
  addr : DWord
  deriving DecidableEq, Repr

/-- A register that a joined reduction will write: the join register, the order number of the signature in the team, the register
(R250). -/
structure Joined where
  j : Nat
  sig : Nat
  dst : Nat
  wide : Bool
  deriving DecidableEq, Repr

/-- A write error to be raised at the item's next FENCE, release or EXIT (R274, R421). -/
structure Deferred where
  cause : Cause
  addr : DWord
  deriving DecidableEq, Repr

/-- A FENCE under way (R288): its order code and its scope. -/
structure FenceWait where
  order : Nat
  scope : Nat
  /-- The lane's guard is true. One whose guard is false only goes on with its sub-rod (R43, R204). -/
  on : Bool
  deriving DecidableEq, Repr

/-- One lane of a rod: an item and its private state (R108, R119). -/
structure Lane where
  st : LaneState
  wait : Wait
  /-- Lanes of one rod with equal numbers form one sub-rod (R42, R43). -/
  group : Nat
  item : DWord
  pc : DWord
  regs : Cells 32
  preds : BitVec 7
  xregs : Vector Word 4
  /-- Top first, at most eight. -/
  marks : List Mark
  readCount : Vector Word 8
  writeCount : Vector Word 8
  cdone : BitVec 8
  /-- sr.carry[7:0] (R80). -/
  carryBits : BitVec 8
  valid : Bool
  /-- sr.phase (R92). -/
  phase : Bool
  /-- Stochastic-rounding count (R119). -/
  rsCount : BitVec 20
  loads : List LoadEntry
  loadOrdinal : BitVec 16
  marked : List RegMark
  /-- Registers interlocked until a joined reduction writes them (R250). -/
  joined : List Joined
  deferred : List Deferred
  /-- Writes on their way to a home that no FENCE, release or EXIT has waited for yet: physical sector and address (R274,
  R469). -/
  writes : List (Nat × DWord)
  fence : Option FenceWait
  /-- Number of the fault record that holds the lane parked. -/
  record : Option (BitVec 16)
  deriving DecidableEq, Repr

/-! ## Rods -/

/-- How a rod is stopped (R374, R451). -/
inductive Stop where
  | none
  | slice
  | halt
  | sliceUnderHalt
  deriving DecidableEq, Repr

inductive TrapForm where
  | halt
  | slice
  | wdog
  deriving DecidableEq, Repr

/-- An engine fault to be delivered to the rod at its next boundary (R303, R442). -/
structure EngineFault where
  cause : Cause
  /-- The original cause's code. -/
  orig : Option (BitVec 8)
  word : DWord
  addr : DWord
  progress : Nat
  engine : EngineId
  deriving DecidableEq, Repr

/-- A resident rod (R36, R451); also the one-lane firmware context of a frame (R357). -/
structure Rod where
  /-- Launch sequence (R48). -/
  launch : Nat
  /-- sr.team. -/
  team : Nat
  teamSlot : Nat
  /-- sr.rod. -/
  rod : Nat
  item0 : DWord
  fast : Nat
  slow : Nat
  lanes : Vector Lane 32
  /-- The next fresh sub-rod number (model bookkeeping of R43). -/
  nextGroup : Nat
  /-- Lowest lane of the sub-rod that issued last (R51, R451). -/
  lastLane : Nat
  /-- Ready-unissued cycles, capped at 4096 (R50, R451). -/
  unissued : Nat
  markSeq : BitVec 32
  stop : Stop
  traps : List TrapForm
  /-- Signature counts on j0 to j15 (R60). -/
  sigs : Vector Nat 16
  /-- Barriers arrived in their current generation (R451). -/
  arrived : BitVec 8
  /-- Accumulator rows held (R323). -/
  rows : List Nat
  engineFaults : List EngineFault
  /-- YIELD: not ready in the next cycle (R264). -/
  yielded : Bool
  /-- Whether the rod issued, or a port took it, in the current cycle (R50). -/
  taken : Bool
  /-- T_w has passed and the divert is still to be taken (R94, R104). -/
  divert : Bool
  deriving DecidableEq, Repr

/-! ## Teams (R36, R120 to R127) -/

/-- What a rod's signature brings to a joined reduction (R250). -/
structure Partial where
  rod : Nat
  value : DWord
  /-- The lanes that took part. -/
  lanes : BitVec 32
  /-- The team's order number of the signature: no other signature of the team has it. -/
  sig : Nat
  deriving DecidableEq, Repr

/-- A pending instance of a join register (R61, R120). -/
structure Instance where
  /-- The first signature's word. -/
  word : DWord
  e0 : DWord
  e1 : DWord
  e2 : DWord
  /-- The rod whose operands were captured, once the lowest-index member signed (R60). -/
  captured : Option Nat
  item : DWord
  count : BitVec 20
  signed : BitVec 32
  /-- Its order number among the team's engine commands, taken at the first signature (R323). -/
  ord : Nat
  /-- RRED.j: what each signature brought (R250). -/
  partials : List Partial
  /-- The rod that signed last: once complete, the rod whose signature completed it (R291, R303). -/
  last : Nat
  /-- The item whose operands it keeps has counted its draw, or the command draws nothing (R154). -/
  counted : Bool
  deriving DecidableEq, Repr

structure Join where
  mask : BitVec 32
  /-- Number of the oldest pending instance. -/
  base : Nat
  pending : List Instance
  deriving DecidableEq, Repr

structure TokenQueue where
  /-- Payloads, oldest first. -/
  tokens : List Word
  reserved : Nat
  producer : Nat
  consumer : Nat
  deriving DecidableEq, Repr

structure Barrier where
  expected : Nat
  arrivals : Nat
  gen : Bool
  /-- Of the arrivals, those of rods that have retired since (R297: a retired rod counts once). -/
  gone : Nat
  deriving DecidableEq, Repr

structure Window where
  w0 : DWord
  w1 : DWord
  deriving DecidableEq, Repr

/-- A frame-store byte that a lane has replaced, with the value that an engine or another item may still read there: nothing
orders the lane's write before their accesses yet (R65, R179, R196; model's own, log entry 72). -/
structure Unseen where
  item : DWord
  addr : Nat
  old : Byte
  /-- Number of the write; later ones are higher. -/
  num : Nat
  deriving DecidableEq, Repr

structure Team where
  launch : Nat
  /-- sr.team. -/
  number : Nat
  /-- Rods created (R35). -/
  rods : Nat
  /-- Rods that have been resident at least once. -/
  started : Nat
  retired : BitVec 32
  /-- Frame-store bytes A (R123). -/
  fsBytes : Nat
  fs : Cells 8
  /-- Lane writes that engines and other items need not see yet, oldest first (R65, R179). -/
  unseen : List Unseen
  /-- Accumulator rows H and columns C (R125). -/
  accRows : Nat
  accCols : Nat
  /-- Element (row, col) at row * C + col. -/
  acc : Cells 32
  joins : Vector Join 16
  queues : Vector TokenQueue 16
  windows : Vector Window 16
  bars : Vector Barrier 8
  /-- Rows whose release waits on commands (R323): the rod, the rows, and the order number below which commands count. -/
  releasing : List (Nat × List Nat × Nat)
  /-- Order number of the team's next engine command. -/
  nextOrd : Nat
  /-- Engine faults for a rod that has not started yet (R303). -/
  faults : List EngineFault
  deriving DecidableEq, Repr

/-! ## Engine queues (R376, R444, R454) -/

inductive CmdState where
  | queued
  | waiting
  | running
  | stopped
  deriving DecidableEq, Repr

/-- What a started command will have done when it finishes: writes computed at its start (log entry 6). -/
structure Effect where
  /-- Frame-store bytes of the team. -/
  fs : List (Nat × Byte)
  /-- Accumulator elements of the team. -/
  acc : List (Nat × Word)
  payload : Word
  deriving DecidableEq, Repr

structure Cmd where
  word : DWord
  e0 : DWord
  e1 : DWord
  e2 : DWord
  st : CmdState
  teamSlot : Nat
  team : Nat
  launch : Nat
  /-- Order number in the team. -/
  ord : Nat
  /-- Issuing rod in the team; for a joined command the rod whose signature completed the instance (R303). -/
  rod : Nat
  /-- The rods whose rows the command may touch (R324). -/
  members : BitVec 32
  /-- Capturing item's index and stochastic count (R154). -/
  item : DWord
  count : BitVec 20
  progress : Nat
  /-- Save epoch and saved position of a restored entry (R454). -/
  epoch : Option (Nat × Nat)
  effect : Effect
  /-- The window record read at start (R316). -/
  window : Window
  /-- RRED.j: partials as in `Instance` (R250). -/
  partials : List Partial
  /-- In state stopped: the cause, the address, and the record's number (R304). -/
  fault : Option (Cause × DWord × BitVec 16)
  deriving DecidableEq, Repr

structure Engine where
  /-- Oldest first. -/
  entries : List Cmd
  /-- The head that could not start, by launch, team and order number, and the package time since which (R442). -/
  stalledSince : Option ((Nat × Nat × Nat) × Nat)
  deriving DecidableEq, Repr

/-! ## Fault records (R366, R487) -/

structure Record where
  cause : BitVec 8
  withdrawn : Bool
  pendingUnderHalt : Bool
  engineFlag : Bool
  deferredFlag : Bool
  origKept : Bool
  orig : BitVec 8
  lanes : BitVec 32
  word : DWord
  pc : DWord
  addr : DWord
  launch : Nat
  slot : Nat
  lane : Nat
  seq : BitVec 16
  teamSlot : Nat
  asid : BitVec 16
  item0 : DWord
  progress : Word
  engine : Option EngineId
  /-- Still in the park queue. -/
  queued : Bool
  /-- Acted on by a RESUME or withdrawn with its lanes saved. -/
  resolved : Bool
  /-- An engine record of R487: a command stopped on a run fault. -/
  isEngine : Bool
  since : Nat
  deriving DecidableEq, Repr

/-! ## Memory system -/

/-- MOESI states of a sector in a cache (R429). -/
inductive Moesi where
  | m
  | o
  | e
  | s
  | i
  deriving DecidableEq, Repr

/-- A 64-byte sector of a cache: which bytes are held, which are dirty, and their values (R169). -/
structure Sector where
  /-- Physical address divided by 64. -/
  num : Nat
  valid : BitVec 64
  dirty : BitVec 64
  data : BitVec 512
  st : Moesi
  /-- Cached from a U-class page (R188). -/
  untracked : Bool
  deriving DecidableEq, Repr

/-- A waiting request for register blocks, rows or residence (R55). -/
inductive RequestKind where
  | grow (slot lane f s : Nat)
  | acres (slot lane row n : Nat)
  /-- A rod, never resident so far, of a started team of the launch (R40). -/
  | rodStart (team rod : Nat)
  /-- A saved rod of a team of the launch. -/
  | reload (team rod : Nat)
  /-- A saved team whose rods have all retired, with commands left (R409). -/
  | reloadTeam (team : Nat)
  deriving DecidableEq, Repr

structure Request where
  launch : Nat
  item0 : Nat
  kind : RequestKind
  deriving DecidableEq, Repr

/-- Where the image of a saved rod or team lies: its first byte and its bytes in the launch's context area, or the address space
and the address that firmware's CTXSV named (R377, R450). -/
inductive ImagePlace where
  | area (first bytes : Nat)
  | named (asid va : Nat)
  deriving DecidableEq, Repr

/-- A team whose state was saved off the frame (R57, R453). -/
structure SavedTeam where
  team : Team
  cmds : List (EngineId × Nat × Cmd)
  epoch : Nat
  /-- The launch had entered wrap-up when the team was saved (R93, R456). -/
  wrapped : Bool
  /-- Where its image lies; none where it lies in no memory (log entries 8 and 42). -/
  place : Option ImagePlace
  /-- Queues whose reserved slots have changed and whose image does not show it yet (R121, R330). -/
  slots : List Nat
  deriving DecidableEq, Repr

/-- A rod saved by eviction or pre-emption (R57, R449, R451): what its image holds, and what the image does not. -/
structure SavedRod where
  rod : Rod
  contents : List (Nat × Word)
  epoch : Nat
  /-- The records its parked sub-rods will make afresh on reload (R454): cause, original cause, lanes. -/
  parked : List Record
  /-- As in `SavedTeam`. -/
  wrapped : Bool
  place : Option ImagePlace
  /-- What joined reductions have written since the save, by lane, and the image does not show yet (R57, R250). -/
  landed : List (Nat × Joined)
  /-- Lanes whose draws have been counted since, where the image does not show it yet (R119, R154). -/
  drawn : List Nat
  deriving DecidableEq, Repr

/-- The launch whose parameters a bank holds (R404). -/
structure Bank where
  launch : Nat
  asid : Nat
  scope : Nat
  deriving DecidableEq, Repr

/-- A pre-emption under way on a frame (R449): the launch that takes it, none where the die drains for a reset, and
sys.share as it was before step 1. -/
structure Preempting where
  next : Option Bank
  share : Word
  deriving DecidableEq, Repr

/-- The run state of a firmware context (R357, R367, R373, R378 to R380). -/
inductive FwState where
  | stopped
  | running
  | faulted
  | idle (limit : DWord)
  | debug
  | calling (service dst arg : Nat)
  /-- CTXSV.team waits for the commands of a team: the team slot and the image's address (R377). -/
  | saving (slot : Nat) (va : DWord)
  /-- CTXSV waits for the commands that name the rod's rows: the rod slot and the image's address (R323, R377). -/
  | savingRod (slot : Nat) (va : DWord)
  /-- `running` holds the unmap requests that ran when the TLBI issued, by partition and xl.umseq (R423). -/
  | tlbi (scope : Nat) (va : DWord) (asid : Nat) (running : List (Nat × Word))
  deriving DecidableEq, Repr

/-- A frame (R18, R361). -/
structure Frame where
  status : Word
  event : Word
  evmask : Word
  vec : DWord
  epc : DWord
  share : Word
  wdog : Word
  slice : DWord
  timer : DWord
  /-- The time in sys.slice, in sys.timer, is still to be reached: each sets its event once (R361). -/
  sliceArmed : Bool
  timerArmed : Bool
  engctl : Word
  wrod : Word
  fwfault : DWord
  asid : Word
  bk : Vector DWord 4
  fw : FwState
  /-- Firmware issues in the current window of 64 cycles, and cycles of the window (R359). -/
  fwIssued : Nat
  cycle : Nat
  /-- Ports that have issued in this cycle (R50). -/
  ports : BitVec 8
  /-- Sub-rods, by rod slot and lowest lane, whose operands or execution resource are not there in this cycle (R49). -/
  late : List (Nat × BitVec 32)
  ve : Engine
  ce : Engine
  me : Engine
  /-- Entries that firmware removed and may write back (R445; model's own, log entry 22). -/
  removed : List Cmd
  records : List Record
  recSeq : BitVec 16
  active : Option Bank
  shadow : Option Bank
  requests : List Request
  savedRods : List SavedRod
  savedTeams : List SavedTeam
  saveEpoch : Nat
  preempting : Option Preempting
  cache : List Sector
  tlb : List Xlat
  gated : Bool
  /-- Package time since which every resident rod has been stuck and none can be evicted (R56, R442). -/
  stuckSince : Option Nat
  /-- Words of code read ahead, by launch and address (R234; model's own, log entry 80). -/
  codeHeld : List (Nat × DWord × DWord)
  deriving DecidableEq, Repr

/-- The states of a reset that is not forced (R468). -/
inductive ResetPhase where
  | running
  | drainingWork
  | drainForward
  | isolating
  deriving DecidableEq, Repr

structure Die where
  cache : List Sector
  tlb : List Xlat
  /-- Contention predictor: slice, 64 KiB region, count (R434), most recently used first. -/
  predictor : List (Nat × Nat × Nat)
  /-- Page-home lookups: physical page, tower, expiry (R435). -/
  homes : List (Nat × Nat × Nat)
  gatedSlices : List Nat
  phase : ResetPhase
  /-- Package time at which the die entered drain-forward (R468). -/
  forwardSince : Nat
  /-- Clusters disabled by a re-plan (R478). -/
  disabled : List Nat
  supplySteps : Nat
  deriving DecidableEq, Repr

/-- Directory states of a sector at the home (R428). -/
inductive DirState where
  | dI
  | dS
  | dX
  | dO
  deriving DecidableEq, Repr

/-- The directory's view of one sector. -/
structure DirSector where
  st : DirState
  sharers : BitVec 10
  owner : Nat
  deriving DecidableEq, Repr

/-- An entry of the package directory: one 256-byte line, with one sharer vector and one owner for its four sectors
(R428). -/
structure DirLine where
  sharers : BitVec 10
  owner : Nat
  sts : Vector DirState 4
  deriving DecidableEq, Repr

/-! ## The hub -/

/-- An entry of the ASID table (R413). -/
structure AsidEntry where
  root : Nat
  part : Nat
  valid : Bool
  deriving DecidableEq, Repr

/-- A translation control page (R425, R435). -/
structure XlPage where
  lease : DWord
  umva : DWord
  umlen : DWord
  umctl : Word
  umstat : Word
  umdone : DWord
  umholders : DWord
  umseq : Word
  mgctl : DWord
  /-- Holders already cleared by a TLBI since the request was accepted (R423). -/
  cleared : List Nat
  /-- Package time at which every holder was seen clear (R424). -/
  clearAt : Option Nat
  deriving DecidableEq, Repr

/-- The fields of a launch record the device uses (R401). -/
structure LaunchRecord where
  entry : DWord
  count : DWord
  base : DWord
  code : Nat
  teamRods : Nat
  fast : Nat
  slow : Nat
  fsKib : Nat
  accRows : Nat
  param : DWord
  deadline : DWord
  wrapOff : Word
  budget : Word
  estimate : Word
  priority : Nat
  notPreemptible : Bool
  vmap : DWord
  key : DWord
  crec : DWord
  csig : DWord
  /-- Slots c0 to c7: distance and default (R68). -/
  carry : Vector (Nat × Word) 8
  /-- The stream and matrix entries of a dispatch pair (R30). -/
  pair : DWord × DWord
  deriving DecidableEq, Repr

/-- What became of an item (R101). -/
inductive ItemOutcome where
  | normal
  | wrappedValid
  | wrappedInvalid
  | killed
  deriving DecidableEq, Repr

/-- An admitted launch. -/
structure Launch where
  seq : Nat
  record : LaunchRecord
  asid : Nat
  scope : Nat
  queue : Nat
  /-- The packet's number among the queue's started packets. -/
  packet : Nat
  priority : Nat
  signal : DWord
  signalAdd : Bool
  frames : List FrameId
  /-- Teams started; the numbers of those that have retired. -/
  nextTeam : Nat
  retired : List Nat
  outcomes : List (Nat × ItemOutcome)
  faultCount : Word
  faultSaturated : Bool
  firstStart : DWord
  lastRetire : DWord
  /-- T_w has been taken (R93). -/
  wrapped : Bool
  /-- D has been taken, or hub firmware killed the launch (R99, R442). -/
  killed : Bool
  /-- Killed by hub firmware: items that never ran count as killed (R442). -/
  killAll : Bool
  completed : Bool
  /-- The context areas, by frame: first byte in the save pool, and bytes (R450). -/
  areas : List (FrameId × Nat × Nat)
  deriving DecidableEq, Repr

/-- A generation buffer: producing item and slot (R75, R79). -/
structure CarryKey where
  launch : Nat
  item : Nat
  slot : Nat
  deriving DecidableEq, Repr

structure CarryBuf where
  /-- Published and not yet read, oldest first, at most four. -/
  gens : List Word
  /-- Last value published. -/
  last : Option Word
  closed : Bool
  deriving DecidableEq, Repr

/-- A packet of a queue that has started and not completed (R398). -/
structure Started where
  /-- Number in the expanded packet stream. -/
  num : Nat
  /-- Ring index it belongs to. -/
  ring : Nat
  deriving DecidableEq, Repr

/-- A started WAIT (R395). -/
structure WaitPacket where
  num : Nat
  addr : Nat
  value : DWord
  timeout : DWord
  goOn : Bool
  /-- The physical sector of its word, a watched line. -/
  sector : Nat
  deriving DecidableEq, Repr

/-- A queue (R384, R389). -/
structure Queue where
  desc : Nat
  part : Nat
  asid : Nat
  ring : Nat
  log2 : Nat
  host : Bool
  enabled : Bool
  prioCap : Nat
  state : Nat
  error : Nat
  errorIndex : Nat
  readIdx : Nat
  issueIdx : Nat
  tail : Nat
  waitStart : Nat
  /-- The started WAIT that holds the queue. -/
  wait : Option WaitPacket
  /-- Started and not yet complete, in order. -/
  started : List Started
  nextNum : Nat
  /-- CALLQ levels, innermost first: next packet address and packets left (R396). -/
  levels : List (Nat × Nat)
  /-- The package time at which the queue last became idle (R391). -/
  idleSince : Nat
  /-- A stop request is being served (R390). -/
  stopping : Bool
  /-- A start whose line 0 passed its checks waits for a slot (R390, R391). -/
  starting : Bool
  /-- The reckoner was notified and has not yet read the tail (R387). -/
  notified : Bool
  /-- Packets that the look-ahead has read, the next to start first (R399). -/
  ahead : List (List Byte)
  /-- Frames of completed launches for which no FENCE has released since (R397). -/
  doneFrames : List FrameId
  deriving DecidableEq, Repr

/-- Messages of hub firmware to drivers and of frames to the hub: the firmware service mailbox and the debug agent. -/
inductive Report where
  | recordUnreadable (queue packet : Nat)
  | writeFailed (launch addr : Nat)
  | contextFault (p : FrameId)
  | breakpointStop (p : FrameId)
  | partitionWatchdog (p : FrameId) (seq : BitVec 16)
  | queueWatchdog (q : Nat)
  | serviceCall (p : FrameId) (service : Nat) (args : List Word)
  | tlbiDone (p : FrameId)
  | preempted (p : FrameId)
  | resetRefused (die : Nat)
  | partitionRefused (part : Nat)
  | attestation (bytes : List Byte)
  | coreLaunch (queue record : Nat)
  | hubSignal (addr : Nat)
  /-- A driver's read of the package information page (R464). -/
  | pageRead (bytes : List Byte)
  /-- A frame sent over the hub link to another package: the bytes copied, where they go, and the signal (R473). -/
  | linkSent (asid addr : Nat) (bytes : List Byte) (signal : Option SignalWrite)
  /-- A copy for the hub link whose source could not be read. -/
  | copyFailed (addr : Nat)
  deriving DecidableEq, Repr

/-- A page migration under way (R435). -/
structure Migration where
  part : Nat
  page : Nat
  left : Nat
  tower : Nat
  deriving DecidableEq, Repr

/-- Lifetime counters (R479): name, agent and value; saturating 64-bit. -/
inductive Counter where
  | poweredHours
  | packageResets
  | energy (agent : Nat)
  | maxTemperature (agent : Nat)
  | temperature (agent bin : Nat)
  | correctedErrors (agent : Nat)
  | uncorrectedErrors (agent : Nat)
  | poisonRaised (agent : Nat)
  | linkRetrains (a b : Nat)
  | linkDowns (a b : Nat)
  | replans (die : Nat)
  | clustersDisabled (die : Nat)
  | resets (die : Nat)
  deriving DecidableEq, Repr

/-- A firmware image in non-volatile storage (R476): its version, the digest of its body and version, and its signature. -/
structure BootImage where
  version : Nat
  digest : BitVec 256
  signature : List Byte
  deriving DecidableEq, Repr

/-- The fields of an agent's capability entry that enumeration tests: its kind and the two reserved fields, bytes 0x06 and 0x1A
(R462, R463). -/
structure EntryTest where
  kind : Nat
  reserved : BitVec 64
  deriving DecidableEq, Repr

/-- What the hub last read of an agent's capability entry (R461, R464). -/
structure EntryRead where
  test : EntryTest
  digest : BitVec 256
  deriving DecidableEq, Repr

/-- The identity that the hub derived at its first boot (R477). -/
structure Identity where
  secretKey : List Byte
  publicKey : List Byte
  certificate : List Byte
  deriving DecidableEq, Repr

structure Hub where
  now : DWord
  /-- Package time held back by a backward correction: ns still to be held (R474). -/
  hold : Nat
  /-- A measured forward offset of 1 ms or more whose step is still to be made, in ns (R474). -/
  stepDue : Nat
  /-- Package time of the predictors' last decay (R434). -/
  lastDecay : Nat
  timeSource : BitVec 3
  timeOffset : DWord
  /-- [0] locked, [1] holdover, [2] stepped (R475). -/
  timeStatus : Word
  ready : Bool
  recovery : Bool
  isolated : BitVec 64
  partitions : Vector PartDesc 8
  xl : Vector XlPage 8
  asids : List (Nat × AsidEntry)
  /-- Walk cache: table entries by ASID, level and virtual-address prefix (R419). -/
  walks : List ((Nat × Nat × Nat) × DWord)
  /-- Expiries handed out: ASID or, with glob, partition; holder; latest expiry (R423). -/
  handed : List ((Bool × Nat × Nat) × Nat)
  /-- Pages handed out: ASID or, with glob, partition; virtual page, bytes, physical page (R426; model's own, log entry
  25). -/
  given : List ((Bool × Nat) × Nat × Nat × Nat)
  /-- The package directory by line number (R428). -/
  directory : List (Nat × DirLine)
  /-- The agent translation caches of the network chiplets (R419). -/
  netTlb : List (Nat × List Xlat)
  /-- Sectors marked poisoned at the home (R433). -/
  poisoned : List Nat
  /-- Migrated pages and their towers (R435). -/
  override : List (Nat × Nat)
  /-- Old homes that still answer with a redirect: page and time of the switch (R435). -/
  redirects : List (Nat × Nat)
  /-- At most one for each partition. -/
  migrations : List Migration
  /-- Caches of core chiplets 0 and 1, directory bits 8 and 9. -/
  core0 : List Sector
  core1 : List Sector
  queues : List (Nat × Queue)
  /-- Queues waiting for a slot, in request order (R391). -/
  swapRequests : List Nat
  launches : List Launch
  nextSeq : Nat
  reports : List Report
  /-- Links that are down, as die pairs; the hub is 99 (R465, R469). -/
  linksDown : List (Nat × Nat)
  routeEpoch : Nat
  /-- Resets asked for while another die is in drain-forward (R468). -/
  heldResets : List Nat
  /-- Firmware images and capability entries that differ from the defaults, by agent; agent 54 is the hub (R463, R476). -/
  images : List (Nat × BootImage)
  entries : List (Nat × EntryTest)
  /-- The capability entries as enumeration last read them, where they differ from the defaults (R464). -/
  known : List (Nat × EntryRead)
  /-- The identity key pair and its certificate, in non-volatile storage from the first boot on (R477). -/
  identity : Option Identity
  /-- Save-pool bytes in use per partition (R450). -/
  poolUsed : Vector Nat 8
  counters : List (Counter × DWord)
  stored : List (Counter × DWord)
  /-- Package time of the counters' last store, and up to which powered hours are counted (R479). -/
  lastStore : Int
  lastHour : Int
  rollback : Nat
  powered : Bool
  deriving DecidableEq, Repr

/-! ## The machine -/

/-- The sub-rod that issues: the lanes of a rod that share the named lane's sub-rod. -/
structure Issuer where
  key : RodKey
  lane : Nat
  deriving DecidableEq, Repr

structure TeamKey where
  frame : FrameId
  slot : Nat
  deriving DecidableEq, Repr

/-- A load that returns within packed atomics, after so many halves (R286; model's own, log entry 73). -/
structure MidLoad where
  key : RodKey
  lane : Nat
  pos : Nat
  after : Nat
  deriving DecidableEq, Repr

structure State where
  /-- Global memory at the home, by physical address. -/
  mem : Memory
  rods : List (RodKey × Rod)
  teams : List (TeamKey × Team)
  frames : List (FrameId × Frame)
  dies : List (Nat × Die)
  /-- Generation buffers of carry slots. -/
  carry : List (CarryKey × CarryBuf)
  hub : Hub
  /-- The sub-rod that issues the current instruction (model's own, log entry 3). -/
  cur : Option Issuer
  /-- Which agents move next (model's own, log entry 3). -/
  agenda : List Turn
  /-- A load to return within the next packed atomics (model's own, log entry 73). -/
  mid : Option MidLoad
  /-- Index of the next free value (model's own, log entry 1). -/
  free : Nat
  deriving DecidableEq, Repr

/-- Why the machine can stop. -/
inductive Fault where
  /-- Raised by a meaning when no sub-rod of a resident rod, and no firmware context, issues the word: there is nobody
  for the instruction to act for. Safe: no step of the machine runs a word without an issuer. -/
  | noIssuer
  deriving DecidableEq, Repr

/-- Why the model gives no meaning. -/
inductive Refusal where
  /-- Raised by an arm of `exec` whose instruction has no meaning yet. Safe: nothing is claimed of it. -/
  | notModelled (mnemonic : String)
  deriving DecidableEq, Repr

/-! ## Reset values -/

/-- An item at its start (R119, R132); `pc`, `item` and the lane's state are set by the team start. -/
def Lane.reset : Lane :=
  { st := .noItem, wait := .none, group := 0, item := 0, pc := 0, regs := [], preds := 0,
    xregs := Vector.replicate 4 0, marks := [], readCount := Vector.replicate 8 0,
    writeCount := Vector.replicate 8 0, cdone := 0, carryBits := 0, valid := false, phase := false, rsCount := 0,
    loads := [], loadOrdinal := 0, marked := [], joined := [], deferred := [], writes := [], fence := none, record := none }

/-- A rod without items. -/
def Rod.reset : Rod :=
  { launch := 0, team := 0, teamSlot := 0, rod := 0, item0 := 0, fast := 0, slow := 0,
    lanes := Vector.replicate 32 Lane.reset, nextGroup := 1, lastLane := 0, unissued := 0, markSeq := 0,
    stop := .none, traps := [], sigs := Vector.replicate 16 0, arrived := 0,
    rows := [], engineFaults := [], yielded := false, taken := false, divert := false }

/-- The firmware context at frame reset (R357): one lane, g0 to g63, stopped until the hub starts it. -/
def Rod.firmware : Rod :=
  { Rod.reset with
    fast := 4
    lanes := Rod.reset.lanes.set 0 { Lane.reset with st := .runnable } }

def Join.reset : Join := { mask := 0, base := 0, pending := [] }
def TokenQueue.reset : TokenQueue := { tokens := [], reserved := 0, producer := 0, consumer := 0 }
def Window.reset : Window := { w0 := 0, w1 := 0 }

/-- A team's state at team start (R120 to R127, R132). -/
def Team.reset : Team :=
  { launch := 0, number := 0, rods := 0, started := 0, retired := 0, fsBytes := 0, fs := [], unseen := [], accRows := 0,
    accCols := 0, acc := [], joins := Vector.replicate 16 Join.reset,
    queues := Vector.replicate 16 TokenQueue.reset, windows := Vector.replicate 16 Window.reset,
    bars := Vector.replicate 8 { expected := 0, arrivals := 0, gen := false, gone := 0 }, releasing := [],
    nextOrd := 0, faults := [] }

def Engine.reset : Engine := { entries := [], stalledSince := none }

/-- A frame at reset (R361). -/
def Frame.reset : Frame :=
  { status := 0, event := 0, evmask := 0x0000007F, vec := 0, epc := 0, share := 4, wdog := 0x03E803E8, slice := 0,
    timer := 0, sliceArmed := false, timerArmed := false, engctl := 0, wrod := 0, fwfault := 0, asid := 0, bk := Vector.replicate 4 0, fw := .stopped,
    fwIssued := 0, cycle := 0, ports := 0, late := [], ve := Engine.reset, ce := Engine.reset, me := Engine.reset, removed := [], records := [],
    recSeq := 0, active := none, shadow := none, requests := [], savedRods := [], savedTeams := [], saveEpoch := 0, preempting := none,
    cache := [], tlb := [], gated := false, stuckSince := none, codeHeld := [] }

/-- A die at reset: every sector in I (R433), nothing cached, running (R468). -/
def Die.reset : Die :=
  { cache := [], tlb := [], predictor := [], homes := [], gatedSlices := [], phase := .running, forwardSince := 0, disabled := [],
    supplySteps := 0 }

/-- A translation control page at reset (R425). -/
def XlPage.reset : XlPage :=
  { lease := 0x000000C800020014, umva := 0, umlen := 0, umctl := 0, umstat := 0, umdone := 0, umholders := 0,
    umseq := 0, mgctl := 0, cleared := [], clearAt := none }

/-- A partition that is not defined (R471). -/
def PartDesc.undefinedPart : PartDesc :=
  { dieMask := 0, netMask := 0, isDefined := false, isolated := false, quota := 0, firstAsid := 0, asidCount := 0,
    sliceUs := 1000, queueWdogMs := 1000, ranges := [], saveBase := 0, saveSize := 0 }

/-- Partition 0 at bring-up holds every agent (R470); its quota, ASID span, memory and save pool are the model's (log
entry 11), its intervals the defaults of R410 and R442. -/
def PartDesc.first : PartDesc :=
  { dieMask := 0xFFFFFFFF, netMask := 0xF, isDefined := true, isolated := false, quota := 1024, firstAsid := 1,
    asidCount := 4095, sliceUs := 1000, queueWdogMs := 1000, ranges := [(0, 2 ^ 41)],
    saveBase := 2 ^ 41 - 2 ^ 36, saveSize := 2 ^ 36 }

/-- The hub at power-on, before bring-up (R461). -/
def Hub.reset : Hub :=
  { now := 0, hold := 0, stepDue := 0, lastDecay := 0, timeSource := 0, timeOffset := 0, timeStatus := 0, ready := false, recovery := false,
    isolated := 0, partitions := (Vector.replicate 8 PartDesc.undefinedPart).set 0 PartDesc.first,
    xl := Vector.replicate 8 XlPage.reset, asids := [], walks := [], handed := [], given := [], directory := [], netTlb := [], poisoned := [],
    override := [], redirects := [], migrations := [], core0 := [], core1 := [], queues := [], swapRequests := [],
    launches := [], nextSeq := 1, reports := [], linksDown := [], routeEpoch := 0, heldResets := [], images := [], entries := [], known := [], identity := none,
    poolUsed := Vector.replicate 8 0, counters := [], stored := [], lastStore := 0, lastHour := 0, rollback := 0, powered := true }

/-- The machine right after reset: memory with nothing listed, every frame, die and register at its reset value. -/
def State.reset : State :=
  { mem := [], rods := [], teams := [], frames := [], dies := [], carry := [], hub := Hub.reset, cur := none,
    agenda := [], mid := none, free := 0 }

end Sys2Proof.Machine
end

