-- ==== Sys2Proof/Machine/Ops.lean ====
section
/-!
DEFINITION. Sys2Proof/Machine/Ops.lean: the named operations every meaning goes through: tables and sparse stores,
memory bytes, the places of State, lane sets, free values, taking a fault (a lane's and a firmware context's), the
return from one, and the entry and return of the firmware handler.
-/

namespace Sys2Proof.Machine

/-! ## Tables -/

def tableFind {α β : Type} [DecidableEq α] (k : α) : List (α × β) → Option β
  | [] => none
  | (k', v) :: t => if k' = k then some v else tableFind k t

/-- The entry of a key, or the value an unlisted key stands at. -/
def tableGet {α β : Type} [DecidableEq α] (d : β) (k : α) (t : List (α × β)) : β := (tableFind k t).getD d

def tableSet {α β : Type} [DecidableEq α] (k : α) (v : β) : List (α × β) → List (α × β)
  | [] => [(k, v)]
  | (k', u) :: t => if k' = k then (k, v) :: t else (k', u) :: tableSet k v t

def tableErase {α β : Type} [DecidableEq α] (k : α) (t : List (α × β)) : List (α × β) :=
  t.filter (fun e => !decide (e.1 = k))

/-! ## Sparse stores -/

/-- The value at a number; an unlisted number reads 0. -/
def cellGet {w : Nat} : Cells w → Nat → BitVec w
  | [], _ => 0
  | (a, v) :: t, n => if a = n then v else cellGet t n

/-- A value other than 0 in its place among rising numbers. -/
def cellInsert {w : Nat} (n : Nat) (v : BitVec w) : Cells w → Cells w
  | [] => [(n, v)]
  | (a, u) :: t =>
    if a < n then (a, u) :: cellInsert n v t
    else if a = n then (n, v) :: t
    else (n, v) :: (a, u) :: t

/-- A write that keeps the canonical form: rising numbers, no listed 0. -/
def cellSet {w : Nat} (n : Nat) (v : BitVec w) (m : Cells w) : Cells w :=
  if v = 0 then m.filter (fun e => e.1 != n) else cellInsert n v m

/-- Whether every listed number is above `b`. -/
def cellsAbove {w : Nat} (b : Nat) : Cells w → Bool
  | [] => true
  | (a, _) :: t => decide (b < a) && cellsAbove b t

/-- The canonical form. -/
def cellsWf {w : Nat} : Cells w → Bool
  | [] => true
  | (a, v) :: t => !decide (v = 0) && cellsAbove a t && cellsWf t

/-- Memory in its canonical form. -/
def Memory.wf (m : Memory) : Bool := cellsWf (w := 8) m

/-- `v` as `n` bytes, the lowest first (R9). -/
def leBytes (n v : Nat) : List Byte := (List.range n).map (fun k => BitVec.ofNat 8 (v >>> (8 * k)))

/-- The number that bytes, the lowest first, hold (R9). -/
def ofLe : List Byte → Nat
  | [] => 0
  | b :: t => b.toNat + 256 * ofLe t

def cellsRead (m : Cells 8) (a n : Nat) : List Byte := (List.range n).map (fun k => cellGet m (a + k))

def cellsWrite (m : Cells 8) (a : Nat) : List Byte → Cells 8
  | [] => m
  | b :: t => cellsWrite (cellSet a b m) (a + 1) t

/-- Writes at listed places, in order. -/
def cellsPut {w : Nat} (m : Cells w) (l : List (Nat × BitVec w)) : Cells w :=
  l.foldl (fun m e => cellSet e.1 e.2 m) m

/-- The bytes of a field of `n` bytes at `off` in an image, as a number. -/
def fieldOf (b : List Byte) (off n : Nat) : Nat := ofLe ((b.drop off).take n)

/-- A bit of a word set or cleared. -/
def withBit {w : Nat} (x : BitVec w) (n : Nat) (b : Bool) : BitVec w :=
  if b then x ||| (1#w <<< n) else x &&& ~~~(1#w <<< n)

/-! ## Lane sets -/

/-- The 32-bit mask of the lanes that satisfy `p`. -/
def maskOf (p : Fin 32 → Bool) : BitVec 32 := BitVec.ofFnLE p

/-- The lanes of a mask, ascending. -/
def maskLanes (m : BitVec 32) : List Nat := (List.range 32).filter (fun l => m.getLsbD l)

/-- The lowest lane of a mask; 0 when the mask is 0. -/
def lowest (m : BitVec 32) : Nat := ((List.range 32).find? (fun l => m.getLsbD l)).getD 0

def Rod.lane (r : Rod) (l : Nat) : Lane := r.lanes.toList.getD l Lane.reset

/-- The same change to every lane of a mask. -/
def Rod.mapLanes (r : Rod) (m : BitVec 32) (f : Fin 32 → Lane → Lane) : Rod :=
  { r with lanes := Vector.ofFn (fun l => if m.getLsbD l.val then f l r.lanes[l] else r.lanes[l]) }

def Rod.setLane (r : Rod) (l : Nat) (x : Lane) : Rod :=
  { r with lanes := Vector.ofFn (fun k => if k.val = l then x else r.lanes[k]) }

/-- The lanes that satisfy a condition. -/
def Rod.maskWhere (r : Rod) (p : Lane → Bool) : BitVec 32 := maskOf (fun l => p r.lanes[l])

/-- Lanes that hold an unretired item. -/
def Lane.live (x : Lane) : Bool := !(x.st == .noItem || x.st == .retired)

def Rod.liveMask (r : Rod) : BitVec 32 := r.maskWhere Lane.live

/-- The lanes of the sub-rod that lane `l` belongs to (R42). -/
def Rod.subRod (r : Rod) (l : Nat) : BitVec 32 :=
  r.maskWhere (fun x => x.live && x.group == (r.lane l).group)

/-! ## The places of State -/

def State.frame (s : State) (p : FrameId) : Frame := tableGet Frame.reset p s.frames
def State.setFrame (s : State) (p : FrameId) (f : Frame) : State := { s with frames := tableSet p f s.frames }
def State.modFrame (s : State) (p : FrameId) (g : Frame → Frame) : State := s.setFrame p (g (s.frame p))

def State.die (s : State) (d : Nat) : Die := tableGet Die.reset d s.dies
def State.setDie (s : State) (d : Nat) (x : Die) : State := { s with dies := tableSet d x s.dies }
def State.modDie (s : State) (d : Nat) (g : Die → Die) : State := s.setDie d (g (s.die d))

/-- A resident rod; a frame's firmware context is always there (R357). -/
def State.rod? (s : State) (k : RodKey) : Option Rod :=
  match k.slot with
  | .rod _ => tableFind k s.rods
  | .firmware => some (tableGet Rod.firmware k s.rods)
def State.setRod (s : State) (k : RodKey) (r : Rod) : State := { s with rods := tableSet k r s.rods }
def State.eraseRod (s : State) (k : RodKey) : State := { s with rods := tableErase k s.rods }
def State.modRod (s : State) (k : RodKey) (g : Rod → Rod) : State :=
  match s.rod? k with
  | some r => s.setRod k (g r)
  | none => s

def State.team? (s : State) (k : TeamKey) : Option Team := tableFind k s.teams
def State.setTeam (s : State) (k : TeamKey) (t : Team) : State := { s with teams := tableSet k t s.teams }
def State.eraseTeam (s : State) (k : TeamKey) : State := { s with teams := tableErase k s.teams }
def State.modTeam (s : State) (k : TeamKey) (g : Team → Team) : State :=
  match s.team? k with
  | some t => s.setTeam k (g t)
  | none => s

/-- The team of a rod. -/
def teamKeyOf (k : RodKey) (r : Rod) : TeamKey := { frame := k.frame, slot := r.teamSlot }

def State.setHub (s : State) (h : Hub) : State := { s with hub := h }
def State.modHub (s : State) (g : Hub → Hub) : State := { s with hub := g s.hub }

def State.launch? (s : State) (seq : Nat) : Option Launch := s.hub.launches.find? (fun l => l.seq == seq)
def State.modLaunch (s : State) (seq : Nat) (g : Launch → Launch) : State :=
  s.modHub (fun h => { h with launches := h.launches.map (fun l => if l.seq == seq then g l else l) })

def State.report (s : State) (r : Report) : State := s.modHub (fun h => { h with reports := h.reports ++ [r] })

/-- The rods resident on a frame with their slots, in slot order of the table. -/
def State.rodsOn (s : State) (p : FrameId) : List (Nat × Rod) :=
  s.rods.filterMap (fun e =>
    match e.1.slot with
    | .rod n => if e.1.frame = p then some (n, e.2) else none
    | .firmware => none)

def State.teamsOn (s : State) (p : FrameId) : List (Nat × Team) :=
  s.teams.filterMap (fun e => if e.1.frame = p then some (e.1.slot, e.2) else none)

def rodKey (p : FrameId) (n : Nat) : RodKey := { frame := p, slot := .rod n }
def fwKey (p : FrameId) : RodKey := { frame := p, slot := .firmware }

/-- The rod of a team by its number, where it is resident. -/
def State.memberSlot (s : State) (tk : TeamKey) (rod : Nat) : Option Nat :=
  ((s.rodsOn tk.frame).find? (fun e => e.2.teamSlot == tk.slot && e.2.rod == rod)).map Prod.fst

/-- A fresh free value (log entry 1). -/
def State.draw (s : State) : BitVec 64 × State := (Config.freeBits s.free, { s with free := s.free + 1 })

/-- `n` fresh free bytes. -/
def freeBytes (start n : Nat) : List Byte := (List.range n).map (fun k => (Config.freeBits (start + k)).extractLsb' 0 8)
def State.drawBytes (s : State) (n : Nat) : List Byte × State := (freeBytes s.free n, { s with free := s.free + n })

/-- A frame's copy of package time, within 20 ns of the source (R12; log entry 5). -/
def State.frameTime (s : State) (p : FrameId) : DWord :=
  BitVec.ofNat 64 (s.hub.now.toNat + Config.clockSkew p % 41 - 20)

/-! ## The frame store of a team (R65, R123, R196) -/

/-- The number of the latest write that some party need not see. -/
def Team.lastWrite (t : Team) : Nat := (t.unseen.map Unseen.num).foldl max 0

/-- A lane's write: engines and other items may read the old bytes until the item orders its accesses by a token, a barrier or a
release (R65, R179, R197, R198; log entry 72). -/
def Team.laneWrite (t : Team) (item : DWord) (a : Nat) (b : List Byte) : Team :=
  { t with
    fs := cellsWrite t.fs a b
    unseen := t.unseen ++ (List.range' a b.length).map
      (fun n => { item := item, addr := n, old := cellGet t.fs n, num := t.lastWrite + 1 }) }

/-- One of some items has written the byte of a replaced value, by the write that replaced it or by a later one. -/
def Team.overwrites (t : Team) (items : List DWord) (u : Unseen) : Bool :=
  t.unseen.any (fun v => v.addr == u.addr && u.num ≤ v.num && items.contains v.item)

/-- What some items have written is ordered before what follows: values that their writes replaced, or that stood before them, are
read no more (R179). -/
def Team.ordered (t : Team) (items : List DWord) : Team :=
  { t with unseen := t.unseen.filter (fun u => !t.overwrites items u) }

/-- An engine's writes, in order; every party reads them from then on. -/
def Team.engineWrite (t : Team) (l : List (Nat × Byte)) : Team :=
  { t with fs := cellsPut t.fs l, unseen := t.unseen.filter (fun u => !l.any (fun e => e.1 == u.addr)) }

/-- The frame store as an engine reads it now: of every byte whose write it need not see, an old or the new value, by a free
value each. -/
def State.engineView (s : State) (t : Team) : Cells 8 × State :=
  (cellsPut t.fs (t.unseen.zipIdx.filterMap (fun e =>
      if (Config.freeBits (s.free + e.2)).getLsbD 0 then some (e.1.addr, e.1.old) else none)),
    { s with free := s.free + t.unseen.length })

/-- The values an item may still read in place of some bytes: others have replaced them since its own last write of the byte, and
nothing orders that before the item's read (R174, R179). -/
def Team.staleFor (t : Team) (item : DWord) (a n : Nat) : List Unseen :=
  t.unseen.filter (fun u => a ≤ u.addr && u.addr < a + n && !t.overwrites [item] u)

/-- The bytes that an item's weak read of the frame store returns: as they stood before some of the writes that it need not see, by
a free value, so that it sees each of those writes whole or not at all (R173, R175, R179, R281; log entry 72). -/
def State.laneView (s : State) (t : Team) (item : DWord) (a n : Nat) : List Byte × State :=
  let l := t.staleFor item a n
  if l = [] then (cellsRead t.fs a n, s)
  else
    let (f, s1) := s.draw
    let cut := f.toNat % (t.lastWrite + 2)
    (cellsRead (cellsPut t.fs ((l.filter (fun u => cut ≤ u.num)).reverse.map (fun u => (u.addr, u.old)))) a n, s1)

/-! ## Registers and predicates of a lane -/

def Lane.reg (x : Lane) (n : Nat) : Word := cellGet x.regs n
def Lane.setReg (x : Lane) (n : Nat) (v : Word) : Lane := { x with regs := cellSet n v x.regs }

/-- `g(n):g(n+1)` as 64 bits (R111). -/
def Lane.pair (x : Lane) (n : Nat) : DWord := x.reg (n + 1) ++ x.reg n
def Lane.setPair (x : Lane) (n : Nat) (v : DWord) : Lane :=
  (x.setReg n (v.extractLsb' 0 32)).setReg (n + 1) (v.extractLsb' 32 32)

/-- p7 always reads 1 (R113). -/
def Lane.pred (x : Lane) (n : Nat) : Bool := if n < 7 then x.preds.getLsbD n else true

/-- A write of p7 is discarded (R113). -/
def Lane.setPred (x : Lane) (n : Nat) (b : Bool) : Lane :=
  if n < 7 then { x with preds := withBit x.preds n b } else x

def Lane.xreg (x : Lane) (n : Nat) : Word := x.xregs.toList.getD n 0
def Lane.setXreg (x : Lane) (n : Nat) (v : Word) : Lane :=
  { x with xregs := Vector.ofFn (fun k => if k.val = n then v else x.xregs[k]) }

/-- The guard of a lane: `p[pred] XOR neg` (R203). -/
def Lane.guard (x : Lane) (g : Guard) : Bool := x.pred g.pred.toNat != g.neg

/-- The instruction after the current one. -/
def Lane.advance (x : Lane) : Lane := { x with pc := x.pc + 8 }

/-- The registers a rod holds (R53). -/
def allocated (fast slow n : Nat) : Bool := n < 16 * fast || (128 ≤ n && n < 128 + 16 * slow)

def Rod.holds (r : Rod) (n : Nat) : Bool := allocated r.fast r.slow n

/-! ## Causes (R436) -/

def Cause.code : Cause → BitVec 8
  | .undefinedInstruction => 0x01
  | .extensionEmulation => 0x02
  | .illegalOperand => 0x03
  | .registerNotAllocated => 0x04
  | .indexBound => 0x05
  | .misaligned => 0x06
  | .notPresent => 0x07
  | .permission => 0x08
  | .orderingReserved => 0x09
  | .frameStoreBound => 0x0A
  | .windowFault => 0x0B
  | .accumulatorBound => 0x0C
  | .carryMisuse => 0x0D
  | .joinMismatch => 0x0E
  | .tokenOverflow => 0x0F
  | .engineCommandFault => 0x10
  | .breakpoint => 0x12
  | .debugHalt => 0x13
  | .timeSlice => 0x14
  | .deadlineDivert => 0x15
  | .deadlineKill => 0x16
  | .watchdog => 0x17
  | .poison => 0x18
  | .linkDown => 0x19
  | .privileged => 0x1A

/-! ## Sub-rods (R42, R43) -/

/-- What the items of one sub-rod have in common after an instruction. -/
def Lane.sameOutcome (x y : Lane) : Bool :=
  x.st == y.st && x.pc == y.pc && x.wait == y.wait && x.record == y.record

/-- The lanes of `m` part into one sub-rod for each outcome; those that share the outcome of the lowest lane keep the
sub-rod's number. -/
def Rod.regroup (r : Rod) (m : BitVec 32) : Rod :=
  let leader (l : Fin 32) : Nat :=
    ((List.range 32).find? (fun k => m.getLsbD k && (r.lane k).sameOutcome r.lanes[l])).getD l.val
  let first := lowest m
  let r' := r.mapLanes m (fun l x => if leader l = first then x else { x with group := r.nextGroup + leader l })
  if (List.finRange 32).all (fun l => !m.getLsbD l.val || leader l == first) then r
  else { r' with nextGroup := r.nextGroup + 32 }

/-! ## Taking a fault (R43, R365, R366, R367, R437) -/

/-- What a record says beside the rod it belongs to. -/
structure FaultInfo where
  cause : Cause
  word : DWord
  addr : DWord
  deferred : Bool
  orig : Option (BitVec 8)
  underHalt : Bool
  engine : Option EngineId
  progress : Nat
  deriving DecidableEq, Repr

/-- A plain lane fault. -/
def laneFault (c : Cause) (word addr : DWord) : FaultInfo :=
  { cause := c, word, addr, deferred := false, orig := none, underHalt := false, engine := none, progress := 0 }

/-- The record of a lane fault (R366, R487). -/
def recordOf (s : State) (k : RodKey) (r : Rod) (m : BitVec 32) (i : FaultInfo) : Record :=
  let f := s.frame k.frame
  { cause := i.cause.code
    withdrawn := false
    pendingUnderHalt := i.underHalt
    engineFlag := i.engine.isSome
    deferredFlag := i.deferred
    origKept := i.orig.isSome
    orig := i.orig.getD 0
    lanes := m
    word := i.word
    pc := if m == 0 then 0 else (r.lane (lowest m)).pc
    addr := i.addr
    launch := r.launch
    slot := (match k.slot with | .rod n => n | .firmware => 0)
    lane := lowest m
    seq := f.recSeq
    teamSlot := r.teamSlot
    asid := BitVec.ofNat 16 (((s.launch? r.launch).map Launch.asid).getD 0)
    item0 := r.item0
    progress := BitVec.ofNat 32 i.progress
    engine := i.engine
    queued := true
    resolved := false
    isEngine := false
    since := s.hub.now.toNat }

/-- The lanes of a mask park under the record numbered `seq`: they keep their program counters and have no effect. -/
def Rod.park (r : Rod) (m : BitVec 32) (seq : BitVec 16) : Rod :=
  r.mapLanes m (fun _ x => { x with st := .parked, wait := .none, fence := none, record := some seq })

/-- A fault of the firmware context stops it and reports to the hub; a FENCE that met the fault is over (R367). -/
def State.contextFault (s : State) (p : FrameId) (c : Cause) (pc : DWord) : State :=
  ((s.modFrame p (fun f =>
    { f with
      fw := .faulted
      status := withBit f.status 1 true
      fwfault := (pc &&& ~~~(0xFF#64)) ||| c.code.setWidth 64 })).modRod (fwKey p) (fun r =>
        r.setLane 0 { r.lane 0 with fence := none })).report (.contextFault p)

/-- TAKING A FAULT: the lanes of the mask park at the faulting instruction and a record is appended to the frame's park
queue; a fault of the firmware context stops the context. -/
def State.takeFault (s : State) (k : RodKey) (m : BitVec 32) (i : FaultInfo) : State :=
  match s.rod? k with
  | none => s
  | some r =>
    match k.slot with
    | .firmware => s.contextFault k.frame i.cause (r.lane 0).pc
    | .rod _ =>
      (s.modFrame k.frame (fun f =>
        { f with records := f.records ++ [recordOf s k r m i], recSeq := f.recSeq + 1 })).setRod k
        (r.park m (s.frame k.frame).recSeq)

/-- The lanes of one instruction that fault: one record for each cause, in the order of the lowest lane that has it;
the address is that of the lowest faulting lane of the record (R366). -/
def faultGroups : List (Nat × Cause × DWord) → List (BitVec 32 × Cause × DWord)
  | [] => []
  | (l, c, a) :: t =>
    let rest := faultGroups t
    match rest.find? (fun g => g.2.1 = c) with
    | none => (1#32 <<< l, c, a) :: rest
    | some g => (g.1 ||| (1#32 <<< l), c, a) :: rest.filter (fun x => !decide (x.2.1 = c))

/-- Takes the faults of one instruction. -/
def State.takeFaults (s : State) (k : RodKey) (word : DWord) (l : List (Nat × Cause × DWord)) : State :=
  (faultGroups l).foldl (fun s g => s.takeFault k g.1 (laneFault g.2.1 word g.2.2)) s

/-! ## The return from a fault (R375, R485) -/

/-- Records a handle can still name are kept while queued or unresolved. -/
def pruneRecords (l : List Record) : List Record := l.filter (fun r => r.queued || !(r.resolved || r.withdrawn))

/-- A divert (0x15) or a kill (0x16) withdraws a record. -/
def Record.withdraw (r : Record) (c : Cause) : Record :=
  if r.withdrawn || r.resolved then r
  else { r with withdrawn := true, orig := r.cause, origKept := true, cause := c.code }

/-- Withdraws the records of a frame that satisfy a condition; those already read are forgotten. -/
def Frame.withdrawWhere (f : Frame) (c : Cause) (p : Record → Bool) : Frame :=
  { f with records := pruneRecords (f.records.map (fun r => if p r then r.withdraw c else r)) }

/-- Marks a record of a frame resolved. -/
def Frame.resolve (f : Frame) (seq : BitVec 16) : Frame :=
  { f with records :=
      pruneRecords (f.records.map (fun r => if r.seq = seq then { r with resolved := true } else r)) }

/-- The record a handle names: slot, lane and sequence of a record that is neither withdrawn nor resolved (R375). -/
def Frame.recordOfHandle (f : Frame) (h : Word) : Option Record :=
  f.records.find? (fun r =>
    r.slot == (h.extractLsb' 0 6).toNat && r.lane == (h.extractLsb' 8 5).toNat && r.seq == h.extractLsb' 16 16
      && !r.withdrawn && !r.resolved)

/-- THE RETURN FROM A FAULT: every lane the record parked runs again, at its own program counter or, to skip, at the
one after it; lanes of one parked sub-rod that stand at different places part (R362, R485). -/
def Rod.resume (r : Rod) (seq : BitVec 16) (skip : Bool) : Rod :=
  let m := r.maskWhere (fun x => x.st == .parked && x.record == some seq)
  let r' := r.mapLanes m (fun _ x =>
    { x with st := .runnable, record := none, pc := if skip then x.pc + 8 else x.pc })
  -- sub-rods stay apart: each regroups by itself
  (maskLanes m).foldl (fun q l =>
    let g := r.subRod l &&& m
    if lowest g = l then q.regroup g else q) r'

/-! ## Firmware handler (R364, R371) -/

/-- sys.event: bits 0 and 1 report the park queue, the others are held (R364). -/
def Frame.eventBits (f : Frame) : Word :=
  withBit (withBit f.event 0 (f.records.any (fun r => r.queued))) 1
    (f.records.any (fun r => r.queued && r.engineFlag))

def Frame.raise (f : Frame) (bit : Nat) : Frame := { f with event := withBit f.event bit true }

/-- Whether an enabled event is pending. -/
def Frame.eventPending (f : Frame) : Bool := (f.eventBits &&& f.evmask) != 0

/-- Handler entry: the context's next address is saved and the handler starts (R364). -/
def State.enterHandler (s : State) (p : FrameId) : State :=
  match s.rod? (fwKey p) with
  | none => s
  | some r =>
    let x := r.lane 0
    (s.modFrame p (fun f => { f with epc := x.pc, status := withBit f.status 0 true })).setRod (fwKey p)
      (r.setLane 0 { x with pc := (s.frame p).vec })

/-- The return from the handler (R371). -/
def State.leaveHandler (s : State) (p : FrameId) : State :=
  (s.modFrame p (fun f => { f with status := withBit f.status 0 false })).modRod (fwKey p)
    (fun r => r.setLane 0 { r.lane 0 with pc := (s.frame p).epc })

/-- The handler is entered at a boundary of a running context when an enabled event is pending and it is not already
running (R364). -/
def Frame.handlerDue (f : Frame) : Bool :=
  f.eventPending && !f.status.getLsbD 0 && (match f.fw with | .running => true | _ => false)

/-! ## Launch fields an item reads -/

/-- A launch record with nothing in it: a rod that no admitted launch owns declares no carry and no deadline. -/
def LaunchRecord.empty : LaunchRecord :=
  { entry := 0, count := 0, base := 0, code := 0, teamRods := 1, fast := 1, slow := 0, fsKib := 0, accRows := 0,
    param := 0, deadline := 0, wrapOff := 0, budget := 0, estimate := 0, priority := 0, notPreemptible := false,
    vmap := 0, key := 0, crec := 0, csig := 0, carry := Vector.replicate 8 (0, 0), pair := (0, 0) }

def State.recordOfLaunch (s : State) (seq : Nat) : LaunchRecord :=
  ((s.launch? seq).map Launch.record).getD LaunchRecord.empty

/-- Teams of the launch (R34). -/
def LaunchRecord.teams (l : LaunchRecord) : Nat := (l.count.toNat + 32 * l.teamRods - 1) / (32 * l.teamRods)

/-- Distance and default of a slot (R68). -/
def LaunchRecord.slot (l : LaunchRecord) (n : Nat) : Nat × Word := l.carry.toList.getD n (0, 0)

/-- The declared slots, as a mask. -/
def LaunchRecord.declared (l : LaunchRecord) : BitVec 8 := BitVec.ofFnLE (fun k : Fin 8 => decide (l.carry[k].1 ≠ 0))

/-- The wrap-up threshold (R91). -/
def LaunchRecord.threshold (l : LaunchRecord) : Nat := l.deadline.toNat - l.budget.toNat

/-- T_w has come for a launch with a deadline, and is still to be taken (R93). -/
def Launch.wrapDue (l : Launch) (now : Nat) : Bool :=
  l.record.deadline != 0#64 && !l.wrapped && !l.killed && !l.completed && decide (l.record.threshold ≤ now)

/-- D has come, and is still to be taken (R99). -/
def Launch.killDue (l : Launch) (now : Nat) : Bool :=
  l.record.deadline != 0#64 && !l.killed && !l.completed && decide (l.record.deadline.toNat ≤ now)

/-- Nothing of the launch that has not run may start any more: T_w has passed, or it was killed (R93, R99, R105, R442). -/
def Launch.closed (l : Launch) (now : Nat) : Bool :=
  l.wrapped || l.killed || (l.record.deadline != 0#64 && decide (l.record.threshold ≤ now))

/-- The launch's items are dead: it was killed, or D has passed (R99, R456). -/
def Launch.dead (l : Launch) (now : Nat) : Bool :=
  l.killed || (l.record.deadline != 0#64 && decide (l.record.deadline.toNat ≤ now))

/-- Whether the launch has entered wrap-up (R93). -/
def State.wrapped (s : State) (seq : Nat) : Bool := ((s.launch? seq).map Launch.wrapped).getD false

/-! ## Text of the word that issues -/

/-- The word of an instruction, for its fault records. -/
def wordOf (i : Instr) : DWord := (encode i).getD 0

end Sys2Proof.Machine
end

