-- ==== Sys2Proof/Machine/Operands.lean ====
section
/-!
DEFINITION. Sys2Proof/Machine/Operands.lean: what the fields of a word name on one lane (R109, R111, R115, R207, R208),
reading an operand, writing a result, and the carry slots (R70 to R85).
-/

namespace Sys2Proof.Machine

/-- What a field names on one lane, indirect selection done. -/
inductive Operand where
  | none
  | reg (n : Nat)
  | pair (n : Nat)
  | quad (n : Nat)
  | carry (slot : Nat)
  | pred (n : Nat)
  | xreg (n : Nat)
  | number (n : Nat)
  deriving DecidableEq, Repr

/-- How a lane instruction reads its fields. -/
structure Plan where
  dst : FieldUse
  a : FieldUse
  b : FieldUse
  c : FieldUse
  vdst : BitVec 8
  va : BitVec 8
  vb : BitVec 8
  vc : BitVec 8
  indDst : Bool
  indA : Bool
  /-- The index register of indirect selection. -/
  x : Nat
  deriving DecidableEq, Repr

/-- The plan of a word of format R or I; the other formats have none. -/
def planOf (i : Instr) : Plan :=
  match rShape i with
  | some (w, s) =>
    { dst := s.dst, a := s.a, b := s.b, c := s.c, vdst := w.dst, va := w.a, vb := w.b, vc := w.c,
      indDst := s.indirect && RMod.indDst w.mod, indA := s.indirect && RMod.indA w.mod, x := RMod.indX w.mod }
  | none =>
    match iShape i with
    | some (w, d, a, _) =>
      { dst := d, a := a, b := .zero, c := .zero, vdst := w.dst, va := w.a, vb := 0, vc := 0, indDst := false,
        indA := false, x := 0 }
    | none =>
      { dst := .zero, a := .zero, b := .zero, c := .zero, vdst := 0, va := 0, vb := 0, vc := 0, indDst := false,
        indA := false, x := 0 }

/-- A field's operand, with the checks of R115 and R53 in their order: index bound, reach, allocation. -/
def fieldOperand (r : Rod) (x : Lane) (u : FieldUse) (v : BitVec 8) (ind : Bool) (xi : Nat) :
    Except Cause Operand :=
  let n := v.toNat
  let held (k : Nat) (o : Operand) : Except Cause Operand :=
    if (List.range k).all (fun j => r.holds (n + j)) then .ok o else .error .registerNotAllocated
  match u with
  | .zero | .join | .queue | .window | .barrier => .ok .none
  | .pred => .ok (.pred n)
  | .xreg => .ok (.xreg n)
  | .raw => .ok (.number n)
  | .pair => held 2 (.pair n)
  | .quad => held 4 (.quad n)
  | .block => held 16 (.number n)
  | .reg =>
    if ind then
      let idx := ((x.xreg xi).extractLsb' 0 16).toNat
      let bound := ((x.xreg xi).extractLsb' 16 16).toNat
      if bound ≤ idx then .error .indexBound
      else if 239 < n + idx then .error .illegalOperand
      else if r.holds (n + idx) then .ok (.reg (n + idx))
      else .error .registerNotAllocated
    else if isCarry n then .ok (.carry (n - 248))
    else held 1 (.reg n)

/-- The four operands of a lane instruction. -/
structure Operands where
  dst : Operand
  a : Operand
  b : Operand
  c : Operand
  deriving DecidableEq, Repr

/-- The operands on one lane: the first field that fails, in the order dst, a, b, c, decides the fault (log entry 15). -/
def laneOperands (r : Rod) (x : Lane) (p : Plan) : Except Cause Operands :=
  match fieldOperand r x p.dst p.vdst p.indDst p.x with
  | .error e => .error e
  | .ok dst =>
    match fieldOperand r x p.a p.va p.indA p.x with
    | .error e => .error e
    | .ok a =>
      match fieldOperand r x p.b p.vb false 0 with
      | .error e => .error e
      | .ok b =>
        match fieldOperand r x p.c p.vc false 0 with
        | .error e => .error e
        | .ok c => .ok { dst, a, b, c }

/-! ## Registers a word reads, for the load interlock and marked registers (R237, R274) -/

/-- The registers an operand stands for. -/
def Operand.registers : Operand → List Nat
  | .reg n => [n]
  | .pair n => [n, n + 1]
  | .quad n => [n, n + 1, n + 2, n + 3]
  | .none | .carry _ | .pred _ | .xreg _ | .number _ => []

/-- The names an operand stands for: its registers, or a carry under its register number. -/
def Operand.names : Operand → List Nat
  | .carry n => [248 + n]
  | o => o.registers

/-- Every g register and carry a word names on a lane, indirect selection done. -/
def namedOn (r : Rod) (x : Lane) (i : Instr) : List Nat :=
  let p := planOf i
  if p.indDst || p.indA then
    match laneOperands r x p with
    | .ok o => o.dst.names ++ o.a.names ++ o.b.names ++ o.c.names
    | .error _ => []
  else namedRegs i

/-- The g registers a word reads on a lane. -/
def sourcesOn (r : Rod) (x : Lane) (i : Instr) : List Nat :=
  match rShape i with
  | some (w, s) =>
    let p := planOf i
    if p.indA then
      match laneOperands r x p with
      | .ok o => o.a.registers ++ o.b.registers ++ o.c.registers
      | .error _ => []
    else s.a.regs w.a ++ s.b.regs w.b ++ s.c.regs w.c
  | none =>
    match iShape i with
    | some (w, _, a, _) => a.regs w.a
    | none =>
      match mShape i with
      | some (w, d, base, _) =>
        let data := match i with
          | .st _ | .sts _ | .stl _ | .stf _ | .cflush _ | .cinv _ => d.regs w.d
          | _ => []
        data ++ base.regs w.base ++ (idxUse w).regs w.idx
      | none =>
        match eShape i with
        | some (w, s) => s.e0.regs w.e0 ++ s.e1.regs w.e1 ++ (s.e2Use w).regs w.e2
        | none => []

/-! ## Carry slots (R68 to R85) -/

/-- What reading a slot gives an item. -/
structure CarryRead where
  value : Word
  /-- Sets the sr.carry bit (R79). -/
  sticky : Bool
  /-- Takes the oldest buffered generation. -/
  consumes : Bool
  deriving DecidableEq, Repr

def CarryBuf.empty : CarryBuf := { gens := [], last := none, closed := false }

def carryBuf (t : List (CarryKey × CarryBuf)) (launch item slot : Nat) : CarryBuf :=
  tableGet CarryBuf.empty { launch, item, slot } t

/-- What item `x.item` reads from a slot now; `none` while it must wait (R71, R72, R79). -/
def carryRead (s : State) (t : List (CarryKey × CarryBuf)) (launch : Nat) (x : Lane) (slot : Nat) :
    Option CarryRead :=
  let rec_ := s.recordOfLaunch launch
  let d := (rec_.slot slot).1
  let i := x.item.toNat
  if i < rec_.base.toNat + d then some { value := (rec_.slot slot).2, sticky := false, consumes := false }
  else
    let b := carryBuf t launch (i - d) slot
    match b.gens with
    | v :: _ => some { value := v, sticky := false, consumes := true }
    | [] =>
      if b.closed || s.wrapped launch then
        some { value := b.last.getD (rec_.slot slot).2, sticky := true, consumes := false }
      else none

/-- The read is completed: its generation is taken, the read count rises, the sticky bit is set (R71, R73, R80). -/
def takeCarry (s : State) (launch : Nat) (slot : Nat) (c : CarryRead)
    (st : Lane × List (CarryKey × CarryBuf)) : Lane × List (CarryKey × CarryBuf) :=
  let (x, t) := st
  let d := ((s.recordOfLaunch launch).slot slot).1
  let k : CarryKey := { launch, item := x.item.toNat - d, slot }
  let x' : Lane :=
    { x with
      readCount := Vector.ofFn (fun n => if n.val = slot then x.readCount[n] + 1 else x.readCount[n])
      carryBits := if c.sticky then withBit x.carryBits slot true else x.carryBits }
  if c.consumes then
    let b := tableGet CarryBuf.empty k t
    (x', tableSet k { b with gens := b.gens.drop 1 } t)
  else (x', t)

/-- What publishing on a slot comes to. -/
inductive Publish where
  | fault
  | wait
  | discard
  | store
  deriving DecidableEq, Repr

/-- Whether an item of a launch has retired, or was never in it (R76). -/
def itemGone (s : State) (launch i : Nat) : Bool :=
  let rec_ := s.recordOfLaunch launch
  rec_.base.toNat + rec_.count.toNat ≤ i
    || (match s.launch? launch with
        | some l => l.outcomes.any (fun o => o.1 == i)
        | none => true)

/-- The rules of a carry write (R70, R75, R76, R81, R82). -/
def publishKind (s : State) (t : List (CarryKey × CarryBuf)) (launch : Nat) (x : Lane) (slot : Nat) : Publish :=
  if x.phase then .discard
  else if x.cdone.getLsbD slot then .fault
  else if (x.writeCount.toList.getD slot 0) = 0xFFFFFFFF#32 then .fault
  else if itemGone s launch (x.item.toNat + ((s.recordOfLaunch launch).slot slot).1) then .discard
  else if 4 ≤ (carryBuf t launch x.item.toNat slot).gens.length then .wait
  else .store

/-- Publishes `v` (R70); a discarded generation still is the item's last one unless wrap-up drops it (R76, R82). -/
def publish (launch : Nat) (slot : Nat) (v : Word) (kind : Publish) (st : Lane × List (CarryKey × CarryBuf)) :
    Lane × List (CarryKey × CarryBuf) :=
  let (x, t) := st
  if x.phase then (x, t)
  else
    let k : CarryKey := { launch, item := x.item.toNat, slot }
    let b := tableGet CarryBuf.empty k t
    let x' : Lane :=
      { x with writeCount :=
          Vector.ofFn (fun n => if n.val = slot then x.writeCount[n] + 1 else x.writeCount[n]) }
    (x', tableSet k { b with last := some v, gens := if kind = .store then b.gens ++ [v] else b.gens } t)

/-- Closes slots of an item towards its consumer (R78, R81). -/
def closeSlots (launch item : Nat) (m : BitVec 8) (t : List (CarryKey × CarryBuf)) : List (CarryKey × CarryBuf) :=
  (List.range 8).foldl (fun t slot =>
    if m.getLsbD slot then
      let k : CarryKey := { launch, item, slot }
      tableSet k { tableGet CarryBuf.empty k t with closed := true } t
    else t) t

/-! ## One lane of a lane instruction -/

/-- The operand values of one lane. -/
structure LaneIn where
  a : DWord
  b : DWord
  c : DWord
  /-- The lane as the instruction finds it. -/
  lane : Lane
  /-- Its number. -/
  num : Nat
  /-- The launch's RNG key base. -/
  key : DWord

/-- What the instruction writes on one lane. -/
inductive LaneWrite where
  | nothing
  | reg (v : Word)
  | pair (v : DWord)
  /-- A register, or a pair under `.w`. -/
  | value (w : Bool) (v : DWord)
  | pred (b : Bool)
  | xreg (v : Word)
  /-- The predicates of a mask. -/
  | preds (mask : BitVec 7) (v : BitVec 7)
  /-- The odd register of a pair. -/
  | high (v : Word)
  deriving DecidableEq, Repr

structure LaneOut where
  write : LaneWrite
  /-- Stochastic roundings performed (R153). -/
  draws : Nat
  deriving DecidableEq, Repr

def LaneOut.of (w : LaneWrite) : LaneOut := { write := w, draws := 0 }

/-- The value of an operand; a carry reads from `c`. -/
def Operand.value (x : Lane) (c : Nat → Word) : Operand → DWord
  | .reg n => (x.reg n).setWidth 64
  | .pair n => x.pair n
  | .carry slot => (c slot).setWidth 64
  | .pred n => if x.pred n then 1 else 0
  | .xreg n => (x.xreg n).setWidth 64
  | .number n => BitVec.ofNat 64 n
  | .quad _ | .none => 0

/-- The slots a lane instruction reads. -/
def Operands.slots (o : Operands) : List Nat :=
  ([o.a, o.b, o.c].filterMap (fun x => match x with | .carry n => some n | _ => none)).eraseDups

def Operands.writeSlot (o : Operands) : Option Nat :=
  match o.dst with
  | .carry n => some n
  | _ => none

/-- The word a write puts into a single register or a carry. -/
def LaneWrite.word : LaneWrite → Word
  | .reg v => v
  | .value _ v => v.extractLsb' 0 32
  | .pair v => v.extractLsb' 0 32
  | .nothing | .pred _ | .xreg _ | .preds _ _ | .high _ => 0

/-- The write performed on the lane's own state. -/
def LaneWrite.apply (w : LaneWrite) (d : Operand) (x : Lane) : Lane :=
  match w with
  | .nothing => x
  | .reg v =>
    match d with
    | .reg n => x.setReg n v
    | _ => x
  | .pair v =>
    match d with
    | .pair n => x.setPair n v
    | _ => x
  | .value _ v =>
    match d with
    | .reg n => x.setReg n (v.extractLsb' 0 32)
    | .pair n => x.setPair n v
    | _ => x
  | .pred b =>
    match d with
    | .pred n => x.setPred n b
    | _ => x
  | .xreg v =>
    match d with
    | .xreg n => x.setXreg n v
    | _ => x
  | .preds m v => { x with preds := (x.preds &&& ~~~m) ||| (v &&& m) }
  | .high v =>
    match d with
    | .pair n => x.setReg (n + 1) v
    | _ => x

/-- A write to a marked register ends its mark: only the next read of the lost value raises the cause (R274). -/
def Lane.unmark (x : Lane) (regs : List Nat) : Lane :=
  { x with marked := x.marked.filter (fun m => !regs.contains m.reg) }

/-- The g registers a write replaces. -/
def LaneWrite.touched (w : LaneWrite) (d : Operand) : List Nat :=
  match w, d with
  | .high _, .pair n => [n + 1]
  | _, _ => d.registers

/-- The whole effect on a completing lane: the write, the stochastic count, the next instruction. -/
def Lane.complete (x : Lane) (d : Operand) (o : LaneOut) : Lane :=
  (({ (o.write.apply d x).unmark (o.write.touched d) with rsCount := x.rsCount + BitVec.ofNat 20 o.draws }).advance)

/-- No rounding uses the count 2^20 - 1 (R119). -/
def drawsFault (x : Lane) (n : Nat) : Bool := n != 0 && 2 ^ 20 - 1 < x.rsCount.toNat + n

/-! ## Effective addresses (R207, R208) -/

def MWord.index (w : MWord) (x : Lane) : Int := if w.idxv then (x.reg w.idx.toNat).toInt else 0

/-- The global effective address. -/
def MWord.globalAddr (w : MWord) (x : Lane) : DWord :=
  BitVec.ofInt 64 (((x.pair w.base.toNat).toNat : Int) + MWord.index w x + w.off.toInt)

/-- The frame-store byte offset, exact. -/
def MWord.frameAddr (w : MWord) (x : Lane) : Int :=
  ((x.reg w.base.toNat).toNat : Int) + MWord.index w x + w.off.toInt

/-- The branch target of format B. -/
def BWord.target (w : BWord) (pc : DWord) : DWord :=
  BitVec.ofInt 64 ((pc.toNat : Int) + 8 + 8 * w.tgt.toInt)

end Sys2Proof.Machine
end

