-- ==== Sys2Proof/Machine/Links.lean ====
section
/-!
DEFINITION. Sys2Proof/Machine/Links.lean: the UCIe links of R15, which of them and which dies carry traffic, the routes of the
hub (R466), and the home tower of a page (R435).
-/

namespace Sys2Proof.Machine

/-! ## Links (R14, R15, R465) -/

/-- The hub's number as a node of the link graph; a die is a node by its own number. -/
def hubNode : Nat := 99

def nodes : List Nat := List.range 32 ++ [hubNode]

def linkKey (a b : Nat) : Nat × Nat := (min a b, max a b)

def adjacent (a b : Nat) : Bool :=
  let p := Config.gridPos a
  let q := Config.gridPos b
  (p.1 == q.1 && (p.2 + 1 == q.2 || q.2 + 1 == p.2)) || (p.2 == q.2 && (p.1 + 1 == q.1 || q.1 + 1 == p.1))

/-- A UCIe link of R15. -/
def isLink (a b : Nat) : Bool :=
  let k := linkKey a b
  if k.2 = hubNode then Config.isStream k.1 else decide (k.2 < 32) && adjacent k.1 k.2

/-- The links of a node. -/
def linksOf (a : Nat) : List Nat := nodes.filter (fun b => isLink a b)

def State.linkUp (s : State) (a b : Nat) : Bool := !s.hub.linksDown.contains (linkKey a b)

/-- A die that has left the package, or whose routes have been rewritten for it to leave, carries nothing (R433, R468). -/
def State.nodeUp (s : State) (a : Nat) : Bool :=
  a == hubNode || (!s.hub.isolated.getLsbD a && (s.die a).phase != .isolating)

/-- Every link is up, every die carries traffic, and every tower is in. -/
def State.fabricWhole (s : State) : Bool :=
  s.hub.linksDown.isEmpty && s.hub.isolated.extractLsb' 0 48 == 0#48 && s.dies.all (fun e => e.2.phase != .isolating)

/-! ## Routes (R466) -/

/-- The most links of a route (R466). -/
def longestRoute : Nat := 8

/-- The nodes within so many links of a node, as a list; those of `out` are left out. -/
def State.within (s : State) (out : Nat → Bool) (dest : Nat) : Nat → List Nat
  | 0 => if s.nodeUp dest then [dest] else []
  | m + 1 =>
    let near := State.within s out dest m
    nodes.filter (fun a => near.contains a || (!out a && s.nodeUp a &&
      near.any (fun b => isLink a b && s.linkUp a b)))

/-- The hops of a route, each on a link that is up, the last one the destination. -/
def State.hops (s : State) (dest : Nat) : Nat → Nat → List Nat
  | 0, _ => []
  | m + 1, a =>
    if a = dest then []
    else
      let next := (s.within (· == dest) dest m).filter (fun b => isLink a b && s.linkUp a b)
      match next with
      | [] => []
      | b :: t =>
        let c := (b :: t).getD (Config.routeHop s.hub.routeEpoch a dest m % (t.length + 1)) b
        c :: State.hops s dest m c

/-- THE ROUTE of a message: its nodes from the sender to the destination; none where no route of R466 is left. -/
def State.route (s : State) (a dest : Nat) : Option (List Nat) :=
  if (s.within (· == dest) dest longestRoute).contains a then some (a :: s.hops dest longestRoute a) else none

/-! ## Homes (R412, R435) -/

/-- The tower that a physical page is homed on. -/
def State.homeOf (s : State) (page : Nat) : Nat := (tableFind page s.hub.override).getD (Config.homeHash page % 16)

/-- A sector of device memory; above it lie host windows and control pages, which have no home slice (R412, R463, R472). -/
def deviceSector (n : Nat) : Bool := n < Config.deviceBytes / 64

/-- The node that serves a sector: the die of its home tower, or the hub for a host window. -/
def State.homeNode (s : State) (n : Nat) : Nat :=
  if deviceSector n then Config.towerDies.getD (s.homeOf (n / 64)) 0 else hubNode

/-- The home tower of a sector has been left out of the package: it serves nothing (R461). -/
def State.towerOut (s : State) (n : Nat) : Bool := deviceSector n && s.hub.isolated.getLsbD (32 + s.homeOf (n / 64))

/-- Nobody serves a sector: its home tower has been left out (R461). -/
def State.unserved (s : State) (n : Nat) : Bool := !s.fabricWhole && s.towerOut n

/-- A message from a node to where a sector is served finds no route, or nobody there (R274, R461, R469). -/
def State.severed (s : State) (a n : Nat) : Bool :=
  if s.fabricWhole then false else s.towerOut n || (s.route a (s.homeNode n)).isNone

/-- The places a message from a node to where a sector is served passes. -/
def State.path (s : State) (a n : Nat) : List Nat := (s.route a (s.homeNode n)).getD []

/-- The path crosses a link. -/
def crossesLink (a b : Nat) : List Nat → Bool
  | x :: y :: t => linkKey x y == linkKey a b || crossesLink a b (y :: t)
  | _ => false

/-! ## Copies of package time (R12) -/

/-- A die's, or a home slice's, copy of package time by agent number (log entry 5). -/
def State.agentTime (s : State) (a : Nat) : Nat := s.hub.now.toNat + Config.agentSkew a % 41 - 20

end Sys2Proof.Machine
end

