-- ==== Sys2Proof/Machine/Cache.lean ====
section
/-!
DEFINITION. Sys2Proof/Machine/Cache.lean: where a byte of global memory can sit (R169 to R171) and how it moves: sectors of
frame caches and die caches with the die directory, the home and the package directory (R427 to R431), host windows (R412,
R472), and the accesses of each place (R182 to R190). What a rule leaves to the caches (which copy serves a weak access) is
one of the outcomes R179 allows (log entry 7).
-/

namespace Sys2Proof.Machine

/-! ## Sectors (R169) -/

/-- The bits of the bytes of a mask. -/
def spread (m : BitVec 64) : BitVec 512 := BitVec.ofFnLE (fun i : Fin 512 => m.getLsbD (i.val / 8))

/-- The bytes of `mask` from `new`, the others from `old`. -/
def mergeBytes (mask : BitVec 64) (new old : BitVec 512) : BitVec 512 :=
  let b := spread mask
  (new &&& b) ||| (old &&& ~~~b)

def allBytes : BitVec 64 := BitVec.allOnes 64

/-- The mask of `len` bytes from `off`. -/
def segMask (off len : Nat) : BitVec 64 := BitVec.ofNat 64 ((2 ^ len - 1) * 2 ^ off)
def segData (off : Nat) (b : List Byte) : BitVec 512 := BitVec.ofNat 512 (ofLe b * 2 ^ (8 * off))
def segBytes (d : BitVec 512) (off len : Nat) : List Byte :=
  (List.range len).map (fun k => d.extractLsb' (8 * (off + k)) 8)

def Sector.empty (n : Nat) (u : Bool) : Sector :=
  { num := n, valid := 0, dirty := 0, data := 0, st := .i, untracked := u }

/-- A cache holds tracked and untracked copies of one physical sector apart (R192). -/
def Sector.same (x : Sector) (n : Nat) (u : Bool) : Bool := x.num == n && x.untracked == u

def findSector (n : Nat) (u : Bool) (l : List Sector) : Option Sector := l.find? (fun x => x.same n u)
def dropSector (n : Nat) (u : Bool) (l : List Sector) : List Sector := l.filter (fun x => !x.same n u)
def putSector (x : Sector) (l : List Sector) : List Sector := x :: dropSector x.num x.untracked l

/-- Bytes that a party writes: held and dirty. -/
def Sector.write (x : Sector) (mask : BitVec 64) (d : BitVec 512) : Sector :=
  { x with valid := x.valid ||| mask, dirty := x.dirty ||| mask, data := mergeBytes mask d x.data }

/-- The bytes not held are filled. -/
def Sector.fill (x : Sector) (mask : BitVec 64) (d : BitVec 512) : Sector :=
  { x with valid := x.valid ||| mask, data := mergeBytes (mask &&& ~~~x.valid) d x.data }

def Sector.clean (x : Sector) : Sector := { x with dirty := 0 }

/-! ## The home (R169, R431) -/

def State.homeData (s : State) (n : Nat) : BitVec 512 := BitVec.ofNat 512 (ofLe (cellsRead s.mem (64 * n) 64))

/-- Watched lines: the tail line of a registered queue, and the line of its WAIT (R387, R391, R395). -/
def Queue.tailSector (q : Queue) : Nat := (q.desc + 0x100) / 64
def Queue.watches (q : Queue) (n : Nat) : Bool :=
  q.tailSector / 4 == n / 4 || (match q.wait with | some w => w.sector / 4 == n / 4 | none => false)
def State.watched (s : State) (n : Nat) : Bool := s.hub.queues.any (fun e => e.2.watches n)

/-- A store performed at the home on a watched line notifies the reckoner (R387). -/
def State.notify (s : State) (n : Nat) : State :=
  if s.watched n then
    s.modHub (fun h => { h with queues := h.queues.map (fun e =>
      if e.2.watches n then (e.1, { e.2 with notified := true }) else e) })
  else s

/-- Whether a cell lies in the masked bytes of a sector. -/
def inMask (n : Nat) (mask : BitVec 64) (a : Nat) : Bool := a / 64 == n && mask.getLsbD (a % 64)

/-- Bytes of `mask` of a sector, at the home: the old ones go, and those that are not zero are listed. -/
def mergeMem (m : Memory) (n : Nat) (mask : BitVec 64) (d : BitVec 512) : Memory :=
  (List.range 64).foldl (fun m k =>
    let v := d.extractLsb' (8 * k) 8
    if mask.getLsbD k && v != 0#8 then cellInsert (64 * n + k) v m else m) (m.filter (fun e => !inMask n mask e.1))

/-- Bytes merged at the home by mask. -/
def State.homeMerge (s : State) (n : Nat) (mask : BitVec 64) (d : BitVec 512) : State :=
  ({ s with mem := mergeMem s.mem n mask d }).notify n

def State.poisoned (s : State) (n : Nat) : Bool := s.hub.poisoned.contains n

/-! ## Frame caches of a die (R170) -/

def State.framesOfDie (s : State) (d : Nat) : List FrameId :=
  s.frames.filterMap (fun e => if e.1.die = d then some e.1 else none)

def State.frameSector (s : State) (p : FrameId) (n : Nat) (u : Bool) : Option Sector :=
  findSector n u (s.frame p).cache
def State.dieSector (s : State) (d n : Nat) (u : Bool) : Option Sector := findSector n u (s.die d).cache

/-- Another frame of the die holds the sector. -/
def State.heldElsewhere (s : State) (p : FrameId) (n : Nat) (u : Bool) : Bool :=
  (s.framesOfDie p.die).any (fun f => f != p && (s.frameSector f n u).isSome)

/-- A frame's copy is no longer the die's only one. -/
def Sector.shared (x : Sector) : Sector := { x with st := match x.st with | .e => .s | .m => .o | t => t }

/-- A frame's sector changes, and the die directory with it: the frame holds it M with dirty bytes, else E alone or S, and no
other frame still holds it E or M (R427). -/
def State.setFrameSector (s : State) (p : FrameId) (x : Sector) : State :=
  let st : Moesi := if x.dirty != 0 then .m else if s.heldElsewhere p x.num x.untracked then .s else .e
  let s1 := (s.framesOfDie p.die).foldl (fun s f =>
    if f = p then s
    else match s.frameSector f x.num x.untracked with
      | some y => s.modFrame f (fun q => { q with cache := putSector y.shared q.cache })
      | none => s) s
  s1.modFrame p (fun f => { f with cache := putSector { x with st := st } f.cache })

/-- The die directory's sharer vector of a sector: one bit for each cluster of four frames (R17, R427). -/
def State.clusterBits (s : State) (d n : Nat) (u : Bool) : BitVec 24 :=
  (s.framesOfDie d).foldl (fun m f => if (s.frameSector f n u).isSome then withBit m (f.frame / 4) true else m) 0
def State.putDieSector (s : State) (d : Nat) (x : Sector) : State :=
  s.modDie d (fun q => { q with cache := putSector x q.cache })
def State.dropFrameSector (s : State) (p : FrameId) (n : Nat) (u : Bool) : State :=
  match s.frameSector p n u with
  | none => s
  | some _ => s.modFrame p (fun f => { f with cache := dropSector n u f.cache })
def State.dropDieSector (s : State) (d n : Nat) (u : Bool) : State :=
  s.modDie d (fun q => { q with cache := dropSector n u q.cache })

/-- Dirty bytes of a frame reach the die cache, by mask; the frame keeps a clean copy. -/
def State.flushFrame (s : State) (p : FrameId) (n : Nat) (u : Bool) : State :=
  match s.frameSector p n u with
  | none => s
  | some x =>
    if x.dirty = 0 then s
    else
      let y := (s.dieSector p.die n u).getD (Sector.empty n u)
      (s.putDieSector p.die { y.write x.dirty x.data with st := .m }).setFrameSector p x.clean

def State.flushDieFrames (s : State) (d n : Nat) (u : Bool) : State :=
  (s.framesOfDie d).foldl (fun s p => s.flushFrame p n u) s
def State.dropDieFrames (s : State) (d n : Nat) (u : Bool) : State :=
  (s.framesOfDie d).foldl (fun s p => s.dropFrameSector p n u) s

/-- A frame cache drops a sector, its dirty bytes first to the die cache. -/
def State.evictFrame (s : State) (p : FrameId) (n : Nat) (u : Bool) : State :=
  (s.flushFrame p n u).dropFrameSector p n u

/-- A frame is to write: every other frame of its die gives the sector up, dirty bytes first to the die cache (R170, R427). -/
def State.claimFrame (s : State) (p : FrameId) (n : Nat) (u : Bool) : State :=
  (s.framesOfDie p.die).foldl (fun s f => if f = p then s else s.evictFrame f n u) s

/-- Lines of a frame cache: 256 KiB of 256 bytes each (R18, R19, R169). -/
def frameCacheLines : Nat := 1024

/-- The lines of which a cache holds sectors, tracked and untracked apart. -/
def cacheLines (l : List Sector) : List (Nat × Bool) := (l.map (fun x => (x.num / 4, x.untracked))).eraseDups

/-- A frame cache full of other lines gives one of them up, which is free (log entry 7). -/
def State.makeRoom (s : State) (p : FrameId) (n : Nat) (u : Bool) : State :=
  if (s.frame p).cache.length < frameCacheLines then s
  else
    let lines := cacheLines (s.frame p).cache
    if lines.contains (n / 4, u) || decide (lines.length < frameCacheLines) then s
    else
      let (v, s1) := s.draw
      match lines[v.toNat % lines.length]? with
      | some e => (List.range 4).foldl (fun s k => s.evictFrame p (4 * e.1 + k) e.2) s1
      | none => s1

/-- A sector enters a frame cache, or changes in it. -/
def State.putFrameSector (s : State) (p : FrameId) (x : Sector) : State :=
  (s.makeRoom p x.num x.untracked).setFrameSector p x

/-! ## The package directory (R427 to R431) -/

def DirSector.empty : DirSector := { st := .dI, sharers := 0, owner := 0 }
def DirLine.empty : DirLine := { sharers := 0, owner := 0, sts := Vector.replicate 4 .dI }

def DirState.owned : DirState → Bool
  | .dX | .dO => true
  | .dI | .dS => false

def DirState.shared : DirState → Bool
  | .dS | .dO => true
  | .dI | .dX => false

/-- The state of one of the four sectors. -/
def DirLine.st (l : DirLine) (k : Nat) : DirState := l.sts.toList.getD k .dI

/-- What an entry says of one of its sectors. -/
def DirLine.view (l : DirLine) (k : Nat) : DirSector :=
  { st := l.st k
    sharers := if (l.st k).shared then l.sharers else 0
    owner := if (l.st k).owned then l.owner else 0 }

def State.line (s : State) (n : Nat) : DirLine := tableGet DirLine.empty (n / 4) s.hub.directory
def State.dir (s : State) (n : Nat) : DirSector := (s.line n).view (n % 4)

/-- Another sector of the line is in a state that satisfies `p`. -/
def DirLine.other (l : DirLine) (k : Nat) (p : DirState → Bool) : Bool :=
  (List.range 4).any (fun j => j != k && p (l.st j))

/-- One sector's state changes. The vector and the owner serve the whole line: the vector keeps what the other sectors
may still need, so it may name agents that no longer hold this one (R428, R430). -/
def DirLine.put (l : DirLine) (k : Nat) (g : DirSector) : DirLine :=
  { sts := Vector.ofFn (fun j => if j.val = k then g.st else l.sts[j])
    sharers := (if l.other k DirState.shared then l.sharers else 0) ||| (if g.st.shared then g.sharers else 0)
    owner := if g.st.owned then g.owner else if l.other k DirState.owned then l.owner else 0 }

def State.putLine (s : State) (n : Nat) (l : DirLine) : State :=
  s.modHub (fun h => { h with directory := if l = DirLine.empty then tableErase n h.directory
                                           else tableSet n l h.directory })

/-- Directory bits of the agents that may hold the sector. -/
def DirSector.holders (g : DirSector) : BitVec 10 :=
  match g.st with
  | .dI => 0
  | .dS => g.sharers
  | .dX => 1#10 <<< g.owner
  | .dO => g.sharers ||| (1#10 <<< g.owner)

def agentBits (m : BitVec 10) : List Nat := (List.range 10).filter (fun a => m.getLsbD a)

/-- The sector as an agent's cache holds it. -/
def State.agentSector (s : State) (a n : Nat) : Option Sector :=
  match Config.dieOfAgent a with
  | some d => s.dieSector d n false
  | none => findSector n false (if a = 8 then s.hub.core0 else s.hub.core1)

def State.putAgentSector (s : State) (a : Nat) (x : Sector) : State :=
  match Config.dieOfAgent a with
  | some d => s.putDieSector d x
  | none =>
    s.modHub (fun h =>
      if a = 8 then { h with core0 := putSector x h.core0 } else { h with core1 := putSector x h.core1 })

/-- An agent drops a sector, its frames' copies with it. -/
def State.dropAgentSector (s : State) (a n : Nat) : State :=
  match Config.dieOfAgent a with
  | some d => (s.dropDieFrames d n false).dropDieSector d n false
  | none =>
    s.modHub (fun h =>
      if a = 8 then { h with core0 := dropSector n false h.core0 }
      else { h with core1 := dropSector n false h.core1 })

/-- The die directory gathers the dirty bytes of an agent's frames (R427). -/
def State.gather (s : State) (a n : Nat) : State :=
  match Config.dieOfAgent a with
  | some d => s.flushDieFrames d n false
  | none => s

/-- The agent's dirty bytes are merged at the home (R431). -/
def State.mergeDirty (s : State) (a n : Nat) : State :=
  let s1 := s.gather a n
  match s1.agentSector a n with
  | some x => if x.dirty = 0 then s1 else s1.homeMerge n x.dirty x.data
  | none => s1

/-- Snoop-invalidate: dirty bytes go home, the copy goes (R429, R430). -/
def State.snoopInvalidate (s : State) (a n : Nat) : State := (s.mergeDirty a n).dropAgentSector a n

/-- Snoop-clean: M and O write back and become S, E becomes S (R431). -/
def State.snoopClean (s : State) (a n : Nat) : State :=
  let s1 := s.mergeDirty a n
  match s1.agentSector a n with
  | some x => s1.putAgentSector a { x.clean with st := .s }
  | none => s1

/-- Snoop-share: M becomes O, E becomes S; an owner in O stays it (R429). -/
def State.snoopShare (s : State) (a n : Nat) : State :=
  let s1 := s.gather a n
  match s1.agentSector a n with
  | some x => s1.putAgentSector a { x with st := if x.st = .m ∨ x.st = .o then .o else .s }
  | none => s1

/-! ### Entries of the directory (R427, R428) -/

/-- The bank of a line is that of its home tower; its set in the bank is a hash (log entry 12). -/
def State.dirSetOf (s : State) (line : Nat) : Nat × Nat := (s.homeOf (line / 16), Config.dirSet line % 16384)

/-- Every agent an entry names gives the line's sectors up, and the way is free. -/
def State.evictLine (s : State) (line : Nat) (l : DirLine) : State :=
  let named := (if (List.range 4).any (fun k => (l.st k).owned) then withBit l.sharers l.owner true else l.sharers)
  ((agentBits named).foldl (fun s a =>
    (List.range 4).foldl (fun s k => s.snoopInvalidate a (4 * line + k)) s) s).putLine line DirLine.empty

/-- The entries that lie in the set of a line. -/
def State.setEntries (s : State) (line : Nat) : List (Nat × DirLine) :=
  s.hub.directory.filter (fun e => s.dirSetOf e.1 == s.dirSetOf line)

/-- One entry of the line's set is evicted, which of them is free. -/
def State.evictWay (s : State) (line : Nat) : State :=
  let (v, s1) := s.draw
  match (s.setEntries line)[v.toNat % (s.setEntries line).length]? with
  | some e => s1.evictLine e.1 e.2
  | none => s1

/-- A bank keeps sixteen lines of a set: for a further one it evicts entries until there is a way (R428). -/
def State.makeWay (s : State) (line : Nat) : State :=
  if (tableFind line s.hub.directory).isSome then s
  else (List.range ((s.setEntries line).length - 15)).foldl (fun s _ => s.evictWay line) s

/-- A directory bit's agent number (R427, R463). -/
def agentNumber (a : Nat) : Nat := (Config.dieOfAgent a).getD (40 + a)

/-- An isolated agent: the power controller answers for it, with a miss, and its bit is cleared as it is answered (R433). -/
def State.agentOut (s : State) (a : Nat) : Bool := s.hub.isolated.getLsbD (agentNumber a)

/-- Agents that still hold the sector clean, after a snoop-clean of its owner. -/
def State.keepers (s : State) (g : DirSector) : BitVec 10 :=
  if s.agentOut g.owner then withBit g.holders g.owner false else g.holders

/-- A sector that some agents hold clean, or none. -/
def DirSector.clean (m : BitVec 10) : DirSector :=
  if m = 0 then DirSector.empty else { st := .dS, sharers := m, owner := 0 }

/-- An entry has one owner: sectors of the line that another agent owns are cleaned first, and that agent keeps them as a
sharer, unless it is isolated (R428, R433; log entry 14). -/
def State.claimLine (s : State) (n a : Nat) : State :=
  (List.range 4).foldl (fun s k =>
    let l := s.line n
    if k != n % 4 && (l.st k).owned && l.owner != a then
      let s1 := s.snoopClean l.owner (4 * (n / 4) + k)
      s1.putLine (n / 4) ((s1.line n).put k (DirSector.clean (s1.keepers (l.view k))))
    else s) s

/-- The directory's state of a sector becomes `g`. -/
def State.setDir (s : State) (n : Nat) (g : DirSector) : State :=
  let s1 := if g.st.owned then s.claimLine n g.owner else s
  let s2 := if g.st = .dI then s1 else s1.makeWay (n / 4)
  s2.putLine (n / 4) ((s2.line n).put (n % 4) g)

/-- A line whose set has changed takes a way in its new one (R428, R435). -/
def State.moveLine (s : State) (line : Nat) : State :=
  match tableFind line s.hub.directory with
  | none => s
  | some l => ((s.putLine line DirLine.empty).makeWay line).putLine line l

/-- Every holder but `keep` gives the sector up. -/
def State.invalidateOthers (s : State) (n : Nat) (keep : Option Nat) : State :=
  (agentBits (s.dir n).holders).foldl (fun s a => if keep = some a then s else s.snoopInvalidate a n) s

/-- A full clean copy arrives at an agent. -/
def State.grant (s : State) (a n : Nat) (d : BitVec 512) (st : Moesi) (g : DirSector) : State :=
  (s.putAgentSector a { num := n, valid := allBytes, dirty := 0, data := d, st := st, untracked := false }).setDir n g

/-- READ-SHARED (R429). An owner that dropped its E copy answers with a miss (R430). -/
def State.readShared (s : State) (a n : Nat) : State :=
  let g := s.dir n
  let alone : DirSector := { st := .dX, sharers := 0, owner := a }
  match g.st with
  | .dI => s.grant a n (s.homeData n) .e alone
  | .dS => s.grant a n (s.homeData n) .s { g with sharers := withBit g.sharers a true }
  | .dX =>
    let s1 := s.snoopShare g.owner n
    match s1.agentSector g.owner n with
    | none => s1.grant a n (s1.homeData n) .e alone
    | some x =>
      let both : BitVec 10 := withBit (withBit 0 g.owner true) a true
      if x.st = .o then s1.grant a n x.data .s { st := .dO, sharers := withBit 0 a true, owner := g.owner }
      else s1.grant a n x.data .s { st := .dS, sharers := both, owner := 0 }
  | .dO =>
    let s1 := s.gather g.owner n
    match s1.agentSector g.owner n with
    | none => s1.grant a n (s1.homeData n) .s (DirSector.clean (withBit (withBit g.sharers g.owner false) a true))
    | some x => s1.grant a n x.data .s { g with sharers := withBit g.sharers a true }

/-- READ-UNIQUE (R429). -/
def State.readUnique (s : State) (a n : Nat) : State :=
  let s1 := s.invalidateOthers n (some a)
  s1.grant a n (s1.homeData n) .e { st := .dX, sharers := 0, owner := a }

/-- UPGRADE (R429). -/
def State.upgrade (s : State) (a n : Nat) : State :=
  if (s.dir n).holders.getLsbD a then
    let s1 := s.invalidateOthers n (some a)
    match s1.agentSector a n with
    | some x => (s1.putAgentSector a { x with st := .m }).setDir n { st := .dX, sharers := 0, owner := a }
    | none => s1.readUnique a n
  else
    let s1 := s.readUnique a n
    match s1.agentSector a n with
    | some x => s1.putAgentSector a { x with st := .m }
    | none => s1

/-- WRITE-BACK of an evicted M or O sector (R429). -/
def State.writeBack (s : State) (a n : Nat) : State :=
  let g := s.dir n
  let s1 := s.mergeDirty a n
  match s1.agentSector a n with
  | none => s
  | some x =>
    let others := withBit g.sharers a false
    match x.st with
    | .m => (s1.dropAgentSector a n).setDir n DirSector.empty
    | .o =>
      (s1.dropAgentSector a n).setDir n (DirSector.clean others)
    | .e | .s | .i => s1.dropAgentSector a n

/-- WRITE-BACK, KEEP: a CFLUSH of M leaves E, of O leaves S (R429). -/
def State.writeBackKeep (s : State) (a n : Nat) : State :=
  let g := s.dir n
  let s1 := s.mergeDirty a n
  match s1.agentSector a n with
  | none => s1
  | some x =>
    match x.st with
    | .m => s1.putAgentSector a { x.clean with st := .e }
    | .o =>
      (s1.putAgentSector a { x.clean with st := .s }).setDir n
        { st := .dS, sharers := withBit g.sharers a true, owner := 0 }
    | .e | .s | .i => s1

/-- UNTRACKED READ: the owner is cleaned first (R431). -/
def State.untrackedRead (s : State) (n : Nat) : BitVec 512 × State :=
  let g := s.dir n
  match g.st with
  | .dI | .dS => (s.homeData n, s)
  | .dX | .dO =>
    let s1 := (s.snoopClean g.owner n).setDir n (DirSector.clean (s.keepers g))
    (s1.homeData n, s1)

/-- UNTRACKED WRITE: every holder gives the sector up, then the bytes are merged (R431). -/
def State.untrackedWrite (s : State) (n : Nat) (mask : BitVec 64) (d : BitVec 512) : State :=
  ((s.invalidateOthers n none).setDir n DirSector.empty).homeMerge n mask d

/-! ## Page homes (R435) -/

/-- A die's request finds the page's home: its lookup is kept for 20 µs on the die's clock, and a stale one is replaced. -/
def State.noteHome (s : State) (d n : Nat) : State :=
  let page := n / 64
  let fresh (x : Nat × Nat × Nat) : Bool := x.1 == page && x.2.1 == s.homeOf page && decide (s.agentTime d < x.2.2)
  s.modDie d (fun q =>
    { q with homes :=
        if q.homes.any fresh then q.homes
        else (page, s.homeOf page, s.hub.now.toNat + 20000) :: q.homes.filter (fun x => x.1 != page) })

/-! ## The die cache -/

/-- Fills the die's sector; answers what is met at the home instead: a path that is cut, or poison (R274). -/
def State.dieFill (s0 : State) (d n : Nat) (u : Bool) : Option Cause × State :=
  let x := (s0.dieSector d n u).getD (Sector.empty n u)
  let s := if x.valid = allBytes then s0 else s0.noteHome d n
  if x.valid = allBytes then (none, s)
  else if s.severed d n then (some .linkDown, s)
  else if s.poisoned n then (some .poison, s)
  else if u then (none, s.putDieSector d (x.fill allBytes (s.homeData n)))
  else
    match Config.agentOfDie d with
    | some a => (none, s.readShared a n)
    | none =>
      let (v, s1) := s.untrackedRead n
      let y := (s1.dieSector d n u).getD (Sector.empty n u)
      (none, s1.putDieSector d { y.fill allBytes v with st := .s })

/-- A P die's sector is held exclusive, M or E (R184, R429); a request that goes to the home looks the page up (R435). -/
def State.dieOwn (s0 : State) (d n : Nat) : Option Cause × State :=
  match Config.agentOfDie d with
  | none => s0.dieFill d n false
  | some a =>
    match s0.dieSector d n false with
    | some x =>
      if x.st = .m || x.st = .e then (none, s0)
      else
        let s := s0.noteHome d n
        if s.severed d n then (some .linkDown, s) else (none, s.upgrade a n)
    | none =>
      let s := s0.noteHome d n
      if s.severed d n then (some .linkDown, s)
      else if s.poisoned n then (some .poison, s)
      else (none, s.readUnique a n)

/-- A sector that the die holds exclusive is written. -/
def State.dieModify (s : State) (d n : Nat) (u : Bool) : State :=
  match s.dieSector d n u with
  | some x => s.putDieSector d { x with st := .m }
  | none => s

/-- The die's dirty bytes of a sector go home, where the page's lookup sends them (R184, R185, R435). The die keeps clean
copies. -/
def State.dieToHome (s : State) (d n : Nat) (u : Bool) : State :=
  let s1 := s.flushDieFrames d n u
  match s1.dieSector d n u with
  | none => s1
  | some x =>
    if x.dirty = 0 then s1
    else
      let s2 := s1.noteHome d n
      if u then (s2.homeMerge n x.dirty x.data).putDieSector d x.clean
      else
        match Config.agentOfDie d with
        | some a => s2.writeBackKeep a n
        | none => (s2.untrackedWrite n x.dirty x.data).putDieSector d x.clean

/-- The die gives a sector up after its dirty bytes have gone home (R186). -/
def State.dieDiscard (s : State) (d n : Nat) (u : Bool) : State :=
  let s1 := s.flushDieFrames d n u
  match u, Config.agentOfDie d with
  | false, some a =>
    let owned : Bool := (s1.dieSector d n u).any (fun x => x.st == .m || x.st == .o)
    ((if owned then s1.noteHome d n else s1).writeBack a n).dropDieFrames d n u
  | _, _ => ((s1.dieToHome d n u).dropDieFrames d n u).dropDieSector d n u

/-! ## Places of access (R182 to R190) -/

/-- Where an access is performed. -/
inductive Place where
  /-- The frame's cache: weak accesses, scope T. -/
  | frame
  /-- The die cache: scopes C and D. -/
  | die
  /-- The P die's cache with the sector exclusive: V and S. -/
  | own
  /-- The home slice. -/
  | home
  deriving DecidableEq, Repr

/-- A weak access has scope T; an O-class page widens to V (R189). -/
def widen (ord : BitVec 2) (scope : Nat) : Nat := if ord = 1#2 then max scope 3 else scope

/-- Untracked: a page of class U (R188). -/
def isUntracked (ord : BitVec 2) : Bool := ord == 2#2

def placeOf (die : Nat) (ord : BitVec 2) (scope : Nat) : Place :=
  match widen ord scope with
  | 0 => .frame
  | 1 | 2 => .die
  | _ => if isUntracked ord || !Config.isStream die then .home else .own

/-- Bytes that an access which meets poison or a cut path does not deliver. -/
def noBytes (len : Nat) : List Byte := List.replicate len 0

/-- Reads `len` bytes at `off` of a sector of device memory; answers what is met instead of them. -/
def State.readTower (s : State) (p : FrameId) (pl : Place) (u : Bool) (n off len : Nat) :
    Option Cause × List Byte × State :=
  match pl with
  | .frame =>
    let m := segMask off len
    let x := (s.frameSector p n u).getD (Sector.empty n u)
    if x.valid &&& m = m then (none, segBytes x.data off len, s)
    else
      match (s.flushDieFrames p.die n u).dieFill p.die n u with
      | (some c, s1) => (some c, noBytes len, s1)
      | (none, s1) =>
        match s1.dieSector p.die n u with
        | none => (none, noBytes len, s1)
        | some y => (none, segBytes y.data off len, s1.putFrameSector p { y.clean with st := .s })
  | .die | .own =>
    let s0 := s.flushDieFrames p.die n u
    match (if pl = .own then s0.dieOwn p.die n else s0.dieFill p.die n u) with
    | (some c, s1) => (some c, noBytes len, s1)
    | (none, s1) =>
      match s1.dieSector p.die n u with
      | none => (none, noBytes len, s1)
      | some y => (none, segBytes y.data off len, s1)
  | .home =>
    if s.severed p.die n then (some .linkDown, noBytes len, s)
    else
      let s0 := (s.noteHome p.die n).dieToHome p.die n u
      if s0.poisoned n then (some .poison, noBytes len, s0)
      else if u then (none, segBytes (s0.homeData n) off len, s0)
      else
        let (v, s1) := s0.untrackedRead n
        (none, segBytes v off len, s1)

/-- Reads bytes of a sector. A host window is read through the hub, and no cache of the package keeps it (R472). -/
def State.readSeg (s : State) (p : FrameId) (pl : Place) (u : Bool) (n off len : Nat) :
    Option Cause × List Byte × State :=
  if deviceSector n then s.readTower p pl u n off len
  else if s.severed p.die n then (some .linkDown, noBytes len, s)
  else (none, segBytes (s.homeData n) off len, s)

/-- Stores to a watched line are performed at the home, but for weak ones of an NC die (R387). -/
def State.storePlace (s : State) (die n : Nat) (pl : Place) (weak : Bool) : Place :=
  if s.watched n && !(weak && pl == .frame && !Config.isStream die) then .home else pl

/-- Writes bytes at `off` of a sector of device memory; answers what is met, and then nothing is written (R274, log entry
18). -/
def State.writeTower (s : State) (p : FrameId) (pl : Place) (weak u : Bool) (n off : Nat) (b : List Byte) :
    Option Cause × State :=
  let m := segMask off b.length
  let v := segData off b
  match s.storePlace p.die n pl weak with
  | .frame =>
    match (if u || !Config.isStream p.die then (none, s) else s.dieOwn p.die n) with
    | (some c, s1) => (some c, s1)
    | (none, s1) =>
      let s2 := (if u || !Config.isStream p.die then s1 else s1.dieModify p.die n u).claimFrame p n u
      let x := (s2.frameSector p n u).getD (Sector.empty n u)
      (none, s2.putFrameSector p (x.write m v))
  | .die | .own =>
    let s0 := s.flushDieFrames p.die n u
    match (if u || !Config.isStream p.die then (none, s0) else s0.dieOwn p.die n) with
    | (some c, s1) => (some c, s1)
    | (none, s1) =>
      let y := (s1.dieSector p.die n u).getD (Sector.empty n u)
      (none, (s1.putDieSector p.die { y.write m v with st := .m }).dropDieFrames p.die n u)
  | .home =>
    if s.severed p.die n then (some .linkDown, s)
    else
      let s0 := (s.noteHome p.die n).dieToHome p.die n u
      if s0.poisoned n then (some .poison, s0)
      else
        let s1 := if u then s0.homeMerge n m v else s0.untrackedWrite n m v
        (none, (s1.dropDieFrames p.die n u).dropDieSector p.die n u)

/-- Writes bytes of a sector; those of a host window go through the hub. -/
def State.writeSeg (s : State) (p : FrameId) (pl : Place) (weak u : Bool) (n off : Nat) (b : List Byte) :
    Option Cause × State :=
  if deviceSector n then s.writeTower p pl weak u n off b
  else if s.severed p.die n then (some .linkDown, s)
  else (none, s.homeMerge n (segMask off b.length) (segData off b))

/-! ## Releases and acquires (R182, R187, R190) -/

/-- Sectors of a cache with dirty bytes. -/
def dirtySectors (l : List Sector) : List Sector := l.filter (fun x => x.dirty != 0)

/-- A release at C or wider: the frame's earlier writes reach the die cache; at V or S those to U-class pages stay (R190). -/
def State.releaseAt (s : State) (p : FrameId) (scope : Nat) : State :=
  if scope = 0 then s
  else
    let mine := (dirtySectors (s.frame p).cache).filter (fun x => decide (scope < 3) || !x.untracked)
    mine.foldl (fun s x => s.flushFrame p x.num x.untracked) s

/-- The bytes that are not dirty are no longer held. -/
def refreshed (l : List Sector) : List Sector :=
  (dirtySectors l).map (fun x => { x with valid := x.dirty })

/-- The sectors of U-class pages stay as they are, the clean ones of the others go (R190). -/
def refreshedTracked (l : List Sector) : List Sector :=
  refreshed (l.filter (fun x => !x.untracked)) ++ l.filter (fun x => x.untracked)

/-- An acquire at C or wider: the frame's view is refreshed from the die cache; at V or S on an NC die the clean R-class
sectors of the die cache, and so of its frames, go as well. An acquire at V or S leaves U-class sectors alone. -/
def State.acquireAt (s : State) (p : FrameId) (scope : Nat) : State :=
  if scope = 0 then s
  else if scope < 3 then s.modFrame p (fun f => { f with cache := refreshed f.cache })
  else
    let s1 := s.modFrame p (fun f => { f with cache := refreshedTracked f.cache })
    if Config.isStream p.die then s1
    else
      let s2 := s1.modDie p.die (fun q => { q with cache := refreshedTracked q.cache })
      (s2.framesOfDie p.die).foldl (fun s f => s.modFrame f (fun x => { x with cache := refreshedTracked x.cache })) s2

/-! ## Writing back and discarding (R185, R186, R289) -/

/-- Whether writing a sector of a die back to its home fails: dirty bytes meet poison there, or find no path (R274). -/
def State.meetsError (s : State) (d n : Nat) (u : Bool) : Option Cause :=
  let dirty := ((s.dieSector d n u).map (fun x => x.dirty != 0)).getD false
    || (s.framesOfDie d).any (fun p => ((s.frameSector p n u).map (fun x => x.dirty != 0)).getD false)
  if !dirty then none
  else if s.severed d n then some .linkDown
  else if s.poisoned n then some .poison
  else none

/-- CFLUSH of one sector at a scope. -/
def State.flushSector (s : State) (d n : Nat) (u : Bool) (scope : Nat) : State :=
  if scope = 0 then s
  else if scope < 3 then s.flushDieFrames d n u
  else s.dieToHome d n u

/-- CINV of one sector at a scope. -/
def State.discardSector (s : State) (d n : Nat) (u : Bool) (scope : Nat) : State :=
  if scope = 0 then s
  else if scope < 3 then (s.flushDieFrames d n u).dropDieFrames d n u
  else s.dieDiscard d n u

/-! ## Atomics (R193, R194) -/

/-- One read-modify-write of `len` bytes at a place: `f` gives the new bytes of the old ones, or none when nothing is
written. Answers what was met instead, and the old bytes. -/
def State.atomicSeg (s : State) (p : FrameId) (pl : Place) (u : Bool) (n off len : Nat)
    (f : Nat → Option Nat) : Option Cause × Nat × State :=
  match pl with
  | .frame | .die | .own =>
    match s.readSeg p (if u || !Config.isStream p.die then .die else .own) u n off len with
    | (some c, _, s1) => (some c, 0, s1)
    | (none, b, s1) =>
      let old := ofLe b
      match f old with
      | none => (none, old, s1)
      | some v =>
        let (e, s2) := s1.writeSeg p .die false u n off (leBytes len v)
        (e, old, s2)
  | .home =>
    if s.severed p.die n then (some .linkDown, 0, s)
    else
      let s0 := if deviceSector n then (s.noteHome p.die n).dieToHome p.die n u else s
      if s0.poisoned n then (some .poison, 0, s0)
      else
        let s1 := if u || !deviceSector n then s0 else (s0.invalidateOthers n none).setDir n DirSector.empty
        let old := ofLe (segBytes (s1.homeData n) off len)
        let s2 := (s1.dropDieFrames p.die n u).dropDieSector p.die n u
        match f old with
        | none => (none, old, s2)
        | some v => (none, old, s2.homeMerge n (segMask off len) (segData off (leBytes len v)))

/-! ## The contention predictor (R434) -/

/-- The die-cache slice of a sector; a gated slice's share is held by slice s XOR 8 (R432). -/
def State.sliceOf (s : State) (d n : Nat) : Nat :=
  let x := Config.sliceHash n % 16
  if (s.die d).gatedSlices.contains x then x ^^^ 8 else x

def State.prediction (s : State) (d n : Nat) : Nat :=
  let key := (s.sliceOf d n, n / 1024)
  (((s.die d).predictor.find? (fun e => e.1 == key.1 && e.2.1 == key.2)).map (fun e => e.2.2)).getD 0

/-- The entry becomes the slice's most recently used; the least recently used of 513 goes. -/
def State.predict (s : State) (d n c : Nat) : State :=
  let slice := s.sliceOf d n
  let region := n / 1024
  s.modDie d (fun q =>
    let mine := q.predictor.filter (fun e => e.1 == slice && e.2.1 != region)
    let others := q.predictor.filter (fun e => e.1 != slice)
    { q with predictor := (slice, region, c) :: (mine.take 511 ++ others) })

/-- Whether a local atomic finds the sector exclusive, must take it, or neither. -/
def State.contention (s : State) (p : FrameId) (n : Nat) (u : Bool) : Option Bool :=
  let otherCluster := withBit (s.clusterBits p.die n u) (p.frame / 4) false != 0
  match s.dieSector p.die n u with
  | some x =>
    if otherCluster then some true
    else if !Config.isStream p.die || u || x.st = .m || x.st = .e then some false
    else some true
  | none => if (s.dir n).holders = 0 then none else some true

/-- Where an atomic is performed, and the predictor's new count (R194, R434). -/
def State.atomicPlace (s : State) (p : FrameId) (ord : BitVec 2) (scope n : Nat) : Place × State :=
  let u := isUntracked ord
  if u || placeOf p.die ord scope = .home || s.watched n || !deviceSector n then (.home, s)
  else
    let c := s.prediction p.die n
    if 4 ≤ c then (.home, s.predict p.die n c)
    else
      match s.contention p n u with
      | some false => (.die, s.predict p.die n (c - 1))
      | some true => (.die, s.predict p.die n (min (c + 2) 7))
      | none => (.die, s.predict p.die n c)

end Sys2Proof.Machine
end

