-- ==== Sys2Proof/Machine/Xlat.lean ====
section
/-!
DEFINITION. Sys2Proof/Machine/Xlat.lean: address translation (R412 to R423): the walk, the translation caches with their
leases, the checks of an access's pages (R272, R273), and the pieces an access is performed in.
-/

namespace Sys2Proof.Machine

/-! ## The ASID table and the walk (R413 to R417) -/

def State.asidEntry (s : State) (asid : Nat) : AsidEntry :=
  tableGet { root := 0, part := 0, valid := false } asid s.hub.asids

def pteValid (e : DWord) : Bool := e.getLsbD 0
def pteLeaf (e : DWord) : Bool := e.getLsbD 1
def pteCont (e : DWord) : Bool := e.getLsbD 6
def pteAddr (e : DWord) : Nat := (e.extractLsb' 12 36).toNat * 4096

/-- Bits 63:48 and 11 of every entry, and 10:2 of a table entry, must be zero (R415). -/
def pteReserved (e : DWord) : Bool :=
  e.extractLsb' 48 16 != 0#16 || e.getLsbD 11 || (!pteLeaf e && e.extractLsb' 2 9 != 0#9)

/-- Page size of a leaf by level (R414). -/
def levelBytes : Nat → Nat
  | 1 => 2 ^ 30
  | 2 => 2 ^ 21
  | _ => 4096

/-- Whether a leaf is well formed at its level (R415); `cont` is allowed at level 3 only. -/
def leafOk (level : Nat) (e : DWord) : Bool :=
  level != 0 && !(e.getLsbD 3 && !e.getLsbD 2) && pteAddr e % levelBytes level == 0 && (level == 3 || !pteCont e)

/-- One table entry, a strong load at V by the hub (R417); one that meets poison or a cut path delivers no entry (R274, R433;
log entry 34). -/
def State.readEntry (s : State) (pa : Nat) : Except Cause DWord × State :=
  if s.severed hubNode (pa / 64) then (.error .linkDown, s)
  else
    let (v, s1) := s.untrackedRead (pa / 64)
    if s1.poisoned (pa / 64) then (.error .poison, s1)
    else (.ok (BitVec.ofNat 64 (ofLe (segBytes v (pa % 64) 8))), s1)

/-- Bits of a virtual address that index a level. -/
def levelIndex (level va : Nat) : Nat := va / 2 ^ (39 - 9 * level) % 512
def levelPrefix (level va : Nat) : Nat := va % 2 ^ 48 / 2 ^ (39 - 9 * level)

/-- The offset of an address in the control pages, which lie above device memory (R412, R463): the package information page with
the translation control pages in it (R464). -/
def controlOffset (pa : Nat) : Option Nat :=
  if pa < Config.deviceBytes then none
  else if Config.controlBase ≤ pa ∧ pa < Config.controlBase + Config.controlBytes then some (pa - Config.controlBase) else none

/-- The partition's memory ranges hold an address (R471); control pages are no memory. -/
def State.inPartition (s : State) (part pa : Nat) : Bool :=
  (controlOffset pa).isNone &&
  ((s.hub.partitions.toList.getD part PartDesc.undefinedPart).ranges).any (fun r => r.1 ≤ pa && pa < r.1 + r.2)

/-- A table entry through the walk cache, which keeps non-leaf entries only (R419). -/
def State.walkEntry (s : State) (asid level table va : Nat) : Except Cause DWord × State :=
  let key := (asid, level, levelPrefix level va)
  match tableFind key s.hub.walks with
  | some e => (.ok e, s)
  | none =>
    match s.readEntry (table + 8 * levelIndex level va) with
    | (.error c, s1) => (.error c, s1)
    | (.ok e, s1) =>
      if pteValid e && !pteReserved e && !pteLeaf e && level < 3 then
        (.ok e, s1.modHub (fun h => { h with walks := (tableSet key e h.walks).drop (h.walks.length - 4095) }))
      else (.ok e, s1)

/-- What a walk finds: a leaf, its level and its table. The walker reads in the partition's memory alone: a table outside it
ends the walk as a leaf's page there does (R417, R471; log entry 34). -/
def State.walkFrom (asid va : Nat) : Nat → Nat → State → Except Cause (Nat × DWord × Nat) × State
  | 0, _, s => (.error .notPresent, s)
  | fuel + 1, table, s =>
    let level := 3 - fuel
    if !s.inPartition (s.asidEntry asid).part table then (.error .notPresent, s)
    else
      match s.walkEntry asid level table va with
      | (.error c, s1) => (.error c, s1)
      | (.ok e, s1) =>
        if !pteValid e || pteReserved e then (.error .notPresent, s1)
        else if pteLeaf e then (if leafOk level e then .ok (level, e, table) else .error .notPresent, s1)
        else State.walkFrom asid va fuel (pteAddr e) s1

/-- The sixteen entries of a 64 KiB range; one that cannot be read counts as not valid. -/
def State.readRun (s : State) (table va : Nat) : List DWord × State :=
  (List.range 16).foldl (fun a k =>
    match a.2.readEntry (table + 8 * (levelIndex 3 va / 16 * 16 + k)) with
    | (.ok e, s1) => (a.1 ++ [e], s1)
    | (.error _, s1) => (a.1 ++ [0], s1)) ([], s)

/-- Whether sixteen entries make one 64 KiB page (R416). -/
def isRun (l : List DWord) : Bool :=
  let first := l.headD 0
  pteAddr first % 65536 == 0
    && (List.range 16).all (fun k => l.getD k 0 == first + BitVec.ofNat 64 (4096 * k))

/-- Lease duration of a class in ns (R420); class 3 has none. -/
def State.lease (s : State) (part : Nat) (cls : BitVec 2) : Nat :=
  let l := ((s.hub.xl.toList.getD part XlPage.reset).lease.extractLsb' (16 * cls.toNat) 16).toNat
  if cls = 3#2 then 0 else 1000 * l

/-- The expiry handed to a holder enters h_a (R423). -/
def State.handOut (s : State) (glob : Bool) (key holder e : Nat) : State :=
  s.modHub (fun h =>
    let k := (glob, key, holder)
    { h with handed := tableSet k (max e (tableGet 0 k h.handed)) h.handed })

/-- The page handed out is remembered for a reclaim (R426). -/
def State.giveOut (s : State) (glob : Bool) (key : Nat) (x : Xlat) : State :=
  let e := ((glob, key), x.va, x.bytes, x.pa)
  s.modHub (fun h => { h with given := if h.given.contains e then h.given else e :: h.given })

/-- The translation a leaf gives; a lease of class 3 has expiry 0 here and is not cached. -/
def State.leafXlat (s : State) (asid part va : Nat) (bytes : Nat) (e : DWord) (base : Nat) : Xlat :=
  { asid := asid, part := part, glob := e.getLsbD 5, va := va / bytes * bytes, pa := base, bytes := bytes,
    r := e.getLsbD 2, w := e.getLsbD 3, x := e.getLsbD 4, ord := e.extractLsb' 7 2,
    expiry := if e.extractLsb' 9 2 = 3#2 then 0 else s.hub.now.toNat + s.lease part (e.extractLsb' 9 2) }

/-- A 64 KiB page; where its entries differ, the access is translated by one of the sixteen, unspecified, and the
translation is not kept (R416). -/
def State.runXlat (s : State) (asid part va table : Nat) : Option Xlat × State :=
  let (l, s1) := s.readRun table va
  if isRun l then (some (s1.leafXlat asid part va 65536 (l.headD 0) (pteAddr (l.headD 0))), s1)
  else
    let (v, s2) := s1.draw
    let k := v.toNat % 16
    let e := l.getD k 0
    if !pteValid e || pteReserved e || !pteLeaf e || !leafOk 3 e then (none, s2)
    else
      (some { s2.leafXlat asid part va 4096 e (pteAddr e / 65536 * 65536 + va / 4096 % 16 * 4096) with expiry := 0 }, s2)

/-- A WALK for a holder: the translation handed out, or the cause that ends it (R415, R471). -/
def State.walk (s : State) (holder asid va : Nat) : Except Cause Xlat × State :=
  let a := s.asidEntry asid
  if !a.valid then (.error .notPresent, s)
  else
    match State.walkFrom asid va 4 a.root s with
    | (.error c, s1) => (.error c, s1)
    | (.ok (level, e, table), s1) =>
      let (x, s2) :=
        if pteCont e then s1.runXlat asid a.part va table
        else (some (s1.leafXlat asid a.part va (levelBytes level) e (pteAddr e)), s1)
      match x with
      | none => (.error .notPresent, s2)
      | some x =>
        if !s2.inPartition a.part x.pa then (.error .notPresent, s2)
        else
          let key := if x.glob then a.part else asid
          (.ok x, (s2.handOut x.glob key holder (max x.expiry s2.hub.now.toNat)).giveOut x.glob key x)

/-! ## Translation caches (R418, R419, R422) -/

/-- Whether a cached translation serves an address of an ASID. -/
def Xlat.covers (x : Xlat) (asid part va : Nat) : Bool :=
  (if x.glob then x.part == part else x.asid == asid) && x.va ≤ va && va < x.va + x.bytes

/-- A cached translation that may still be used: its expiry is at least 1 µs ahead (R422). -/
def usable (l : List Xlat) (asid part va now : Nat) : Option Xlat :=
  l.find? (fun x => x.covers asid part va && now + 1000 ≤ x.expiry)

/-- Two translations of one page in one key space. -/
def Xlat.same (x y : Xlat) : Bool := y.va == x.va && y.bytes == x.bytes && y.asid == x.asid && y.glob == x.glob

/-- A fully associative cache of `n` translations takes one; one of class 3 is not cached. -/
def keepXlat (n : Nat) (x : Xlat) (l : List Xlat) : List Xlat :=
  if x.expiry = 0 then l else x :: (l.filter (fun y => !x.same y)).take (n - 1)

/-- The set of a page in the die's translation cache: 16 slices of 64 sets of eight ways (R419). -/
def Xlat.set (x : Xlat) : Nat := Config.tlbSet (x.va / 4096) % 1024

/-- The die's translation cache takes one: its set keeps eight. -/
def keepInDie (x : Xlat) (l : List Xlat) : List Xlat :=
  if x.expiry = 0 then l
  else
    let rest := l.filter (fun y => !x.same y)
    let mine := rest.filter (fun y => y.set == x.set)
    if mine.length < 8 then x :: rest else x :: (mine.take 7 ++ rest.filter (fun y => y.set != x.set))

/-- Keys and clocks of a lookup. -/
structure Lookup where
  p : FrameId
  asid : Nat
  va : Nat
  deriving DecidableEq, Repr

/-- Discards the cached translations of an address (R418). -/
def State.forget (s : State) (q : Lookup) : State :=
  let part := (s.asidEntry q.asid).part
  let out (l : List Xlat) : List Xlat := l.filter (fun x => !x.covers q.asid part q.va)
  (s.modFrame q.p (fun f => { f with tlb := out f.tlb })).modDie q.p.die (fun d => { d with tlb := out d.tlb })

/-- A fresh translation, kept by the die and the frame. -/
def State.refill (s : State) (q : Lookup) : Except Cause Xlat × State :=
  match s.walk q.p.die q.asid q.va with
  | (.error c, s1) => (.error c, s1)
  | (.ok x, s1) =>
    (.ok x, (s1.modDie q.p.die (fun d => { d with tlb := keepInDie x d.tlb })).modFrame q.p
      (fun f => { f with tlb := keepXlat 128 x f.tlb }))

/-- A cached translation that still may start an access: the frame's on the frame's clock, the die's on the die's (R12,
R422). -/
def State.cachedXlat (s : State) (q : Lookup) : Option (Xlat × Bool) :=
  let part := (s.asidEntry q.asid).part
  match usable (s.frame q.p).tlb q.asid part q.va (s.frameTime q.p).toNat with
  | some x => some (x, true)
  | none => (usable (s.die q.p.die).tlb q.asid part q.va (s.agentTime q.p.die)).map (fun x => (x, false))

/-- A translation for an access: cached, with `true`, or fresh; one that has ended, or soon ends, is discarded first (R421,
R422). -/
def State.lookup (s : State) (q : Lookup) : Except Cause (Xlat × Bool) × State :=
  match s.cachedXlat q with
  | some (x, true) => (.ok (x, true), s)
  | some (x, false) => (.ok (x, true), s.modFrame q.p (fun f => { f with tlb := keepXlat 128 x f.tlb }))
  | none =>
    match (s.forget q).refill q with
    | (.ok x, s1) => (.ok (x, false), s1)
    | (.error c, s1) => (.error c, s1)

/-- The cached translation of the address has ended, or ends within 1 µs: the walk made in its place reports its failure as
R421 says (R422). -/
def State.leaseEnding (s : State) (q : Lookup) : Bool :=
  let part := (s.asidEntry q.asid).part
  (s.cachedXlat q).isNone && ((s.frame q.p).tlb ++ (s.die q.p.die).tlb).any (fun x => x.covers q.asid part q.va)

/-! ## Checks of a page (R272, R273, R415) -/

inductive Need where
  | read
  | write
  | both
  | execute
  deriving DecidableEq, Repr

def Xlat.permits (x : Xlat) : Need → Bool
  | .read => x.r
  | .write => x.w
  | .both => x.r && x.w
  | .execute => x.x

def Xlat.check (x : Xlat) (n : Need) : Option Cause :=
  if !x.permits n then some .permission
  else if x.ord = 3#2 then some .orderingReserved
  else none

def canonical (va : Nat) : Bool := va / 2 ^ 47 == 0 || va / 2 ^ 47 == 2 ^ 17 - 1

/-- The translation of one page, checked; a fault found through a cached translation is confirmed by a new walk (R418). -/
def State.page (s : State) (q : Lookup) (n : Need) : Except Cause Xlat × State :=
  if !canonical q.va then (.error .notPresent, s)
  else
    match s.lookup q with
    | (.error c, s1) => (.error c, s1)
    | (.ok (x, cached), s1) =>
      match x.check n with
      | none => (.ok x, s1)
      | some c =>
        if !cached then (.error c, s1)
        else
          match (s1.forget q).refill q with
          | (.error c', s2) => (.error c', s2)
          | (.ok y, s2) =>
            match y.check n with
            | none => (.ok y, s2)
            | some c' => (.error c', s2)

/-- First bytes of the 4 KiB pages that `n` bytes from `va` touch, ascending; addresses wrap at 2^64 (log entry 19). -/
def pageStarts (va n : Nat) : List Nat :=
  if n = 0 then []
  else (List.range ((va % 4096 + n - 1) / 4096 + 1)).map (fun k =>
    (if k = 0 then va else va / 4096 * 4096 + 4096 * k) % 2 ^ 64)

/-- Every page of an access, checked in ascending order before any byte is touched (R272). -/
def State.pages (s : State) (p : FrameId) (asid : Nat) (n : Need) : List Nat → Except Cause (List Xlat) × State
  | [] => (.ok [], s)
  | va :: t =>
    match s.page { p := p, asid := asid, va := va } n with
    | (.error c, s1) => (.error c, s1)
    | (.ok x, s1) =>
      match State.pages s1 p asid n t with
      | (.error c, s2) => (.error c, s2)
      | (.ok l, s2) => (.ok (x :: l), s2)

/-- The page at which an access fails was walked because its lease was ending: the failure is reported under R421
(log entry 54). -/
def State.failsLate (s : State) (p : FrameId) (asid : Nat) (n : Need) : List Nat → Bool
  | [] => false
  | va :: t =>
    match s.page { p := p, asid := asid, va := va } n with
    | (.error _, _) => s.leaseEnding { p := p, asid := asid, va := va }
    | (.ok _, s1) => State.failsLate s1 p asid n t

/-! ## Pieces of an access -/

/-- A run of bytes in one sector: physical sector, offset, length, and the ordering class of its page. -/
structure Piece where
  sector : Nat
  off : Nat
  len : Nat
  ord : BitVec 2
  deriving DecidableEq, Repr

/-- Physical address through one of the translations of the access. -/
def physOf (l : List Xlat) (va : Nat) : Option (Nat × BitVec 2) :=
  (l.find? (fun x => x.va ≤ va && va < x.va + x.bytes)).map (fun x => (x.pa + (va - x.va), x.ord))

/-- Splits `n` bytes from `va` at sector boundaries. -/
def splitSectors : Nat → Nat → Nat → List (Nat × Nat)
  | 0, _, _ => []
  | fuel + 1, va, n =>
    if n = 0 then []
    else
      let k := min n (64 - va % 64)
      (va, k) :: splitSectors fuel ((va + k) % 2 ^ 64) (n - k)

/-- The pieces of an access of at most 64 bytes in ascending order. -/
def piecesOf (l : List Xlat) (va n : Nat) : List Piece :=
  (splitSectors 2 va n).filterMap (fun e =>
    (physOf l e.1).map (fun q => { sector := q.1 / 64, off := q.1 % 64, len := e.2, ord := q.2 }))

/-- Reads the pieces at a scope; answers the first thing met in place of bytes. -/
def State.readPieces (p : FrameId) (scope : Nat) : List Piece → State → Option Cause × List Byte × State
  | [], s => (none, [], s)
  | x :: t, s =>
    let (e, b, s1) := s.readSeg p (placeOf p.die x.ord scope) (isUntracked x.ord) x.sector x.off x.len
    let (e', b', s2) := State.readPieces p scope t s1
    (e.or e', b ++ b', s2)

/-- Writes bytes over the pieces at a scope. -/
def State.writePieces (p : FrameId) (scope : Nat) (weak : Bool) : List Piece → List Byte → State → Option Cause × State
  | [], _, s => (none, s)
  | x :: t, b, s =>
    let (e, s1) := s.writeSeg p (placeOf p.die x.ord scope) weak (isUntracked x.ord) x.sector x.off (b.take x.len)
    let (e', s2) := State.writePieces p scope weak t (b.drop x.len) s1
    (e.or e', s2)

/-- The widest scope of an access's pages: O-class pages widen to V (R189). -/
def widestScope (l : List Xlat) (scope : Nat) : Nat := l.foldl (fun a x => max a (widen x.ord scope)) scope

/-- A cache holds every byte of a mask of a sector. -/
def holdsBytes (x : Option Sector) (m : BitVec 64) : Bool := (x.map (fun y => y.valid &&& m == m)).getD false

/-- Whether a piece is read in the frame's cache. -/
def State.frameServes (s : State) (p : FrameId) (scope : Nat) (q : Piece) : Bool :=
  placeOf p.die q.ord scope == .frame
    && holdsBytes (s.frameSector p q.sector (isUntracked q.ord)) (segMask q.off q.len)

/-- Whether reading a piece needs a message to where its sector is served: none, where the die holds it in the state that the
place asks for. -/
def State.needsMessage (s : State) (p : FrameId) (scope : Nat) (q : Piece) : Bool :=
  let held := s.dieSector p.die q.sector (isUntracked q.ord)
  match placeOf p.die q.ord scope with
  | .frame => !s.frameServes p scope q && !holdsBytes held allBytes
  | .die => !holdsBytes held allBytes
  | .own => !(held.map (fun y => y.st == .m || y.st == .e)).getD false
  | .home => true

/-- Package time where a sector is served: on its home slice's clock, and on the hub's for a host window (R12, R421, R472). -/
def State.servingTime (s : State) (n : Nat) : Nat :=
  if deviceSector n then s.agentTime (32 + s.homeOf (n / 64)) else s.hub.now.toNat

/-- The lease of a translation still runs at every point that a piece passes, each on its own clock: the frame, the die where
the frame does not serve it, the home slice or the hub where the die does not (R12, R421). -/
def State.pieceLives (s : State) (p : FrameId) (scope e : Nat) (q : Piece) : Bool :=
  (s.frameServes p scope q || decide (s.agentTime p.die < e))
    && (!s.needsMessage p scope q || decide (s.servingTime q.sector < e))

/-- The lease of a translation still runs where the access starts and wherever it is performed; one of class 3 serves its one
access. -/
def State.leaseLives (s : State) (p : FrameId) (scope va n : Nat) (x : Xlat) : Bool :=
  x.expiry == 0 || (decide ((s.frameTime p).toNat < x.expiry)
    && (piecesOf [x] va n).all (s.pieceLives p scope x.expiry))

end Sys2Proof.Machine
end

