-- ==== Sys2Proof/Machine/Loads.lean ====
section
/-!
DEFINITION. Sys2Proof/Machine/Loads.lean: the load queue of an item (R276, R279): a load takes an entry when it issues and writes
its register when its data returns; the interlock of a word that names a register still to be written (R237); marks
(R274, R421); and LOAD_RETURN.
-/

namespace Sys2Proof.Machine

/-- The address space of a lane: its launch's, or the one sys.asid names (R357, R361). -/
def State.asidOf (s : State) (k : RodKey) (r : Rod) : Nat :=
  match k.slot with
  | .firmware => ((s.frame k.frame).asid.extractLsb' 0 12).toNat
  | .rod _ => ((s.launch? r.launch).map Launch.asid).getD 0

/-- The registers an entry writes. -/
def LoadEntry.regs (e : LoadEntry) : List Nat := List.range' e.dst (max 1 (e.size / 4))

/-- What the return of an entry comes to. -/
inductive Returned where
  | value (v : Nat)
  | mark (c : Cause)
  deriving DecidableEq, Repr

/-- The translations of the access while they last, else new ones (R421). -/
def State.loadPages (s : State) (k : RodKey) (r : Rod) (e : LoadEntry) : Except Cause (List Xlat) × State :=
  if e.xlats ≠ [] ∧ e.xlats.all (s.leaseLives k.frame e.scope e.addr.toNat e.size) then (.ok e.xlats, s)
  else s.pages k.frame (s.asidOf k r) .read (pageStarts e.addr.toNat e.size)

/-- The access of an entry. An acquire refreshes the frame's view as it returns (R182). -/
def State.performLoad (s : State) (k : RodKey) (r : Rod) (e : LoadEntry) : Returned × State :=
  if e.cut then (.mark .linkDown, s)
  else if e.kind = .atomic then (.value e.value.toNat, s)
  else
    match s.loadPages k r e with
    | (.error c, s1) => (.mark c, s1)
    | (.ok xs, s1) =>
      let (bad, b, s2) := State.readPieces k.frame e.scope (piecesOf xs e.addr.toNat e.size) s1
      let s3 := if e.kind = .lda then s2.acquireAt k.frame (widestScope xs e.scope) else s2
      (match bad with | some c => .mark c | none => .value (ofLe b), s3)

/-- Registers of consecutive numbers, the lowest word first (R276). -/
def Lane.setRegs (x : Lane) (n v : Nat) : Nat → Lane
  | 0 => x
  | k + 1 => (Lane.setRegs x n v k).setReg (n + k) (BitVec.ofNat 32 (v >>> (32 * k)))

/-- The data arrive, or the registers are marked and hold nothing the manual states. Each register of an access of 8 or 16 bytes
bears a mark of its own, which its own first read raises: DESIGN CHOICE, R274 speaks of one destination register (log entry
32). -/
def Lane.receive (x : Lane) (e : LoadEntry) (r : Returned) (junk : Nat) : Lane :=
  match r with
  | .value v => (x.setRegs e.dst v (max 1 (e.size / 4))).unmark e.regs
  | .mark c =>
    let y := (x.setRegs e.dst junk (max 1 (e.size / 4))).unmark e.regs
    { y with marked := y.marked ++ e.regs.map (fun n => { reg := n, cause := c, addr := e.addr }) }

/-- The entry at a position returns. -/
def State.returnEntry (s : State) (k : RodKey) (l pos : Nat) : State :=
  match s.rod? k with
  | none => s
  | some r =>
    match (r.lane l).loads[pos]? with
    | none => s
    | some e =>
      let (v, s1) := s.performLoad k r e
      let (junk, s2) := s1.drawBytes 16
      let s3 := match v with | .value _ => s1 | .mark _ => s2
      s3.modRod k (fun q =>
        let x := q.lane l
        q.setLane l ({ x with loads := x.loads.eraseIdx pos }.receive e v (ofLe junk)))

/-- The first `n` entries of a lane return, in order. -/
def State.drainLane (s : State) (k : RodKey) (l : Nat) : Nat → State
  | 0 => s
  | n + 1 => State.drainLane (s.returnEntry k l 0) k l n

/-- How many of a lane's entries must return before a condition holds of none of them. -/
def lastWhere (p : LoadEntry → Bool) (l : List LoadEntry) : Nat :=
  match (l.reverse).findIdx? p with
  | some n => l.length - n
  | none => 0

/-- The lanes of a mask wait for their loads up to the last that satisfies a condition. -/
def State.drainWhere (s : State) (k : RodKey) (m : BitVec 32) (p : Lane → LoadEntry → Bool) : State :=
  (maskLanes m).foldl (fun s l =>
    match s.rod? k with
    | none => s
    | some r => s.drainLane k l (lastWhere (p (r.lane l)) (r.lane l).loads)) s

def State.drainAll (s : State) (k : RodKey) (m : BitVec 32) : State := s.drainWhere k m (fun _ _ => true)

/-- THE INTERLOCK: a word that names a register waits for the load that writes it (R237, R279). -/
def settleLoads (i : Instr) (k : RodKey) (m : BitVec 32) (s : State) : State :=
  match s.rod? k with
  | none => s
  | some r => s.drainWhere k m (fun x e => e.regs.any (fun n => (namedOn r x i).contains n))

/-- Strong loads, and weak ones of O-class pages (R177, R189); of a reissued load the class is not yet known. -/
def LoadEntry.isStrong (e : LoadEntry) : Bool :=
  e.kind == .lds || e.kind == .lda || e.kind == .atomic || e.xlats.isEmpty || e.xlats.any (fun x => x.ord == 1#2)

/-- Whether the entry at a position may return now: no access passes an earlier acquire, and strong accesses return in
order (R177). -/
def mayReturn (l : List LoadEntry) (pos : Nat) : Bool :=
  match l[pos]? with
  | none => false
  | some e => !(l.take pos).any (fun x => x.kind == .lda || (x.isStrong && e.isStrong))

/-- The entry returns where the order of R177 lets it. -/
def State.loadReturn (s : State) (k : RodKey) (lane pos : Nat) : State :=
  match s.rod? k with
  | none => s
  | some r => if mayReturn (r.lane lane).loads pos then s.returnEntry k lane pos else s

/-- LOAD_RETURN (R276): nothing happens where the order of R177 keeps the entry waiting (log entry 4). -/
def execLoadReturn (k : RodKey) (lane pos : Nat) (s : State) : Host.Outcome State Fault Refusal :=
  .next (s.loadReturn k lane pos)

/-- Between two halves of packed atomics (R286): the load that was to return here does (log entry 73). -/
def State.between (s : State) : State :=
  match s.mid with
  | none => s
  | some m =>
    if m.after = 0 then State.loadReturn { s with mid := none } m.key m.lane m.pos
    else { s with mid := some { m with after := m.after - 1 } }

end Sys2Proof.Machine
end

