-- ==== Sys2Proof/Machine/Numbers.lean ====
section
/-!
DEFINITION. Sys2Proof/Machine/Numbers.lean: number formats, exact values, rounding and conversion (R133 to R157, R267).
A value is exact until it is rounded once. A value that is no dyadic number (a quotient, a root, a function) is held as
its leading bits with a mark that something follows them, which is all any rounding mode looks at.
-/

namespace Sys2Proof.Machine

/-! ## Exact values -/

/-- An exact value: `fin neg m e more` is `(-1)^neg * m * 2^e`, `m > 0`; with `more` it lies strictly between that and
the value of `m + 1`, and `m` has enough bits for the rounding that follows. -/
inductive Num where
  | nan
  | inf (neg : Bool)
  | zero (neg : Bool)
  | fin (neg : Bool) (m : Nat) (e : Int) (more : Bool)
  deriving DecidableEq, Repr

/-- Bits of a positive number. -/
def bitLen (m : Nat) : Nat := if m = 0 then 0 else Nat.log2 m + 1

def Num.isNan : Num → Bool
  | .nan => true
  | _ => false

def Num.isInf : Num → Bool
  | .inf _ => true
  | _ => false

def Num.isZero : Num → Bool
  | .zero _ => true
  | _ => false

/-- The sign of a number. -/
def Num.neg : Num → Bool
  | .nan => false
  | .inf n => n
  | .zero n => n
  | .fin n _ _ _ => n

def Num.negate : Num → Num
  | .nan => .nan
  | .inf n => .inf !n
  | .zero n => .zero !n
  | .fin n m e s => .fin (!n) m e s

/-- An integer as an exact value; 0 is +0. -/
def Num.ofInt (v : Int) : Num := if v = 0 then .zero false else .fin (decide (v < 0)) v.natAbs 0 false

/-- `m * 2^e`, signed; zero keeps the sign. -/
def Num.mk' (neg : Bool) (m : Nat) (e : Int) : Num := if m = 0 then .zero neg else .fin neg m e false

/-! ## Float formats (R133, R135, R136) -/

/-- Which encodings are special (R136). -/
inductive Special where
  /-- Exponent all ones: infinity for fraction 0, else NaN. -/
  | ieee
  /-- Exponent and fraction all ones: NaN; no infinity (E4M3). -/
  | allOnes
  /-- Exponent all ones: NaN; no infinity (E3M4). -/
  | topExponent
  | none
  deriving DecidableEq, Repr

structure FloatFmt where
  expBits : Nat
  bias : Nat
  /-- Significand width with the hidden bit. -/
  m : Nat
  special : Special
  /-- The canonical NaN, when there is one. -/
  nan : Option Nat
  /-- Low bits of the container below the encoding (13 for F19). -/
  pad : Nat
  deriving DecidableEq, Repr

def fp64Fmt : FloatFmt := { expBits := 11, bias := 1023, m := 53, special := .ieee, nan := some 0x7FF8000000000000, pad := 0 }
def fp32Fmt : FloatFmt := { expBits := 8, bias := 127, m := 24, special := .ieee, nan := some 0x7FC00000, pad := 0 }
def f19Fmt : FloatFmt := { expBits := 8, bias := 127, m := 11, special := .ieee, nan := some 0x3FE00, pad := 13 }
def fp16Fmt : FloatFmt := { expBits := 5, bias := 15, m := 11, special := .ieee, nan := some 0x7E00, pad := 0 }
def bf16Fmt : FloatFmt := { expBits := 8, bias := 127, m := 8, special := .ieee, nan := some 0x7FC0, pad := 0 }
def e5m2Fmt : FloatFmt := { expBits := 5, bias := 15, m := 3, special := .ieee, nan := some 0x7E, pad := 0 }
def e4m3Fmt : FloatFmt := { expBits := 4, bias := 7, m := 4, special := .allOnes, nan := some 0x7F, pad := 0 }
def e3m4Fmt : FloatFmt := { expBits := 3, bias := 3, m := 5, special := .topExponent, nan := some 0x7F, pad := 0 }
def e3m2Fmt : FloatFmt := { expBits := 3, bias := 3, m := 3, special := .none, nan := none, pad := 0 }
def e2m3Fmt : FloatFmt := { expBits := 2, bias := 1, m := 4, special := .none, nan := none, pad := 0 }
def e2m1Fmt : FloatFmt := { expBits := 2, bias := 1, m := 2, special := .none, nan := none, pad := 0 }

/-- The float formats by code (R133). -/
def floatFmt (code : Nat) : Option FloatFmt :=
  [fp64Fmt, fp32Fmt, f19Fmt, fp16Fmt, bf16Fmt, e5m2Fmt, e4m3Fmt, e3m4Fmt, e3m2Fmt, e2m3Fmt, e2m1Fmt][code]?

/-- Width and signedness of the integer formats by code (R133, R134, R140). -/
def intFmt (code : Nat) : Option (Nat × Bool) :=
  match code with
  | 11 => some (32, true)
  | 12 => some (16, true)
  | 13 => some (16, false)
  | 14 => some (8, true)
  | 15 => some (8, false)
  | 16 => some (4, true)
  | 17 => some (4, false)
  | 18 => some (2, true)
  | 19 => some (2, false)
  | 30 => some (64, true)
  | 31 => some (32, false)
  | _ => none

/-- Width of an encoding. -/
def FloatFmt.width (f : FloatFmt) : Nat := f.expBits + f.m

/-- Exponent of the least subnormal. -/
def FloatFmt.qmin (f : FloatFmt) : Int := 1 - (f.bias : Int) - ((f.m : Int) - 1)

/-- Exponent field and significand of the largest finite value (R136). -/
def FloatFmt.maxField (f : FloatFmt) : Nat :=
  match f.special with
  | .ieee | .topExponent => 2 ^ f.expBits - 2
  | .allOnes | .none => 2 ^ f.expBits - 1
def FloatFmt.maxSig (f : FloatFmt) : Nat :=
  match f.special with
  | .allOnes => 2 ^ f.m - 2
  | .ieee | .topExponent | .none => 2 ^ f.m - 1
def FloatFmt.maxQ (f : FloatFmt) : Int := (f.maxField : Int) - f.bias - ((f.m : Int) - 1)

def FloatFmt.hasInf (f : FloatFmt) : Bool := f.special == .ieee

/-- The parts of an encoding (R135). -/
def FloatFmt.sign (f : FloatFmt) (x : Nat) : Bool := (x >>> f.pad).testBit (f.expBits + f.m - 1)
def FloatFmt.exp (f : FloatFmt) (x : Nat) : Nat := (x >>> (f.pad + (f.m - 1))) % 2 ^ f.expBits
def FloatFmt.frac (f : FloatFmt) (x : Nat) : Nat := (x >>> f.pad) % 2 ^ (f.m - 1)

def FloatFmt.isNanEnc (f : FloatFmt) (e fr : Nat) : Bool :=
  match f.special with
  | .ieee => e == 2 ^ f.expBits - 1 && fr != 0
  | .allOnes => e == 2 ^ f.expBits - 1 && fr == 2 ^ (f.m - 1) - 1
  | .topExponent => e == 2 ^ f.expBits - 1
  | .none => false

def FloatFmt.isInfEnc (f : FloatFmt) (e fr : Nat) : Bool := f.hasInf && e == 2 ^ f.expBits - 1 && fr == 0

/-- The value of an encoding (R135, R136); `.ftz` makes a subnormal a zero of its sign (R138). -/
def FloatFmt.decode (f : FloatFmt) (ftz : Bool) (x : Nat) : Num :=
  let s := f.sign x
  let e := f.exp x
  let fr := f.frac x
  if f.isNanEnc e fr then .nan
  else if f.isInfEnc e fr then .inf s
  else if e = 0 then (if ftz then .zero s else .mk' s fr f.qmin)
  else .mk' s (2 ^ (f.m - 1) + fr) ((e : Int) - f.bias - ((f.m : Int) - 1))

/-- An encoding from its parts. -/
def FloatFmt.pack (f : FloatFmt) (s : Bool) (e fr : Nat) : Nat :=
  ((if s then 2 ^ (f.expBits + f.m - 1) else 0) + e * 2 ^ (f.m - 1) + fr) <<< f.pad

def FloatFmt.zeroEnc (f : FloatFmt) (s : Bool) : Nat := f.pack s 0 0
def FloatFmt.infEnc (f : FloatFmt) (s : Bool) : Nat := f.pack s (2 ^ f.expBits - 1) 0
def FloatFmt.maxEnc (f : FloatFmt) (s : Bool) : Nat := f.pack s f.maxField (f.maxSig - 2 ^ (f.m - 1))
/-- The canonical NaN, or +0 where the format has none (R155). -/
def FloatFmt.nanEnc (f : FloatFmt) : Nat := (f.nan.getD 0) <<< f.pad

/-! ## Rounding (R150 to R152) -/

/-- Mode (R150), the 16-bit draw of mode 5, and `.ftz` on the result. -/
structure Rounding where
  mode : Nat
  d : Nat
  ftz : Bool
  deriving DecidableEq, Repr

/-- A magnitude cut at the quantum `2^q`: the whole part, the fraction `frac / 2^k`, and whether more follows. -/
structure Cut where
  sig : Nat
  frac : Nat
  k : Nat
  more : Bool
  deriving DecidableEq, Repr

/-- Cuts `m * 2^e` at `2^q`. Far below the quantum only "a tiny fraction" is left, which every mode reads alike. -/
def cutAt (m : Nat) (e : Int) (more : Bool) (q : Int) : Cut :=
  let shift := q - e
  if shift ≤ 0 then { sig := m <<< (-shift).toNat, frac := 0, k := 0, more := more }
  else if (bitLen m : Int) + 20 < shift then { sig := 0, frac := 1, k := bitLen m + 20, more := true }
  else { sig := m >>> shift.toNat, frac := m % 2 ^ shift.toNat, k := shift.toNat, more := more }

def Cut.exact (c : Cut) : Bool := c.frac == 0 && !c.more

/-- Whether the mode takes the neighbour away from zero (R150, R152). -/
def Cut.away (c : Cut) (mode d : Nat) (neg : Bool) : Bool :=
  match mode with
  | 0 => 2 ^ c.k < 2 * c.frac || (2 ^ c.k == 2 * c.frac && (c.more || c.sig % 2 == 1))
  | 1 => false
  | 2 => neg && !c.exact
  | 3 => !neg && !c.exact
  | 4 => c.k != 0 && 2 ^ c.k ≤ 2 * c.frac
  | _ => !c.exact && d < c.frac * 2 ^ 16 / 2 ^ c.k

def Cut.rounded (c : Cut) (mode d : Nat) (neg : Bool) : Nat := if c.away mode d neg then c.sig + 1 else c.sig

/-- A finite value rounded to a format: its significand and quantum, or an overflow (R151). -/
inductive Rounded where
  | value (sig : Nat) (q : Int)
  | overflow
  deriving DecidableEq, Repr

/-- Whether `sig * 2^q`, `q ≥ qmin`, exceeds the largest finite value. -/
def FloatFmt.above (f : FloatFmt) (sig : Nat) (q : Int) : Bool :=
  if q < f.maxQ then
    if f.maxQ - q ≤ (bitLen sig : Int) then f.maxSig <<< (f.maxQ - q).toNat < sig else false
  else if (f.m : Int) + 1 < q - f.maxQ then sig != 0
  else f.maxSig < sig <<< (q - f.maxQ).toNat

def FloatFmt.round (f : FloatFmt) (r : Rounding) (neg : Bool) (m : Nat) (e : Int) (more : Bool) : Rounded :=
  let top := e + (bitLen m : Int) - 1
  let q := max (top - ((f.m : Int) - 1)) f.qmin
  let c := cutAt m e more q
  if r.mode = 5 then
    -- beyond the largest finite value the draw decides nothing (R151)
    if f.above (c.rounded 0 0 neg) q then .overflow
    else if f.above c.sig q || (f.above (c.sig + 1) q && !c.exact) then .value f.maxSig f.maxQ
    else .value (c.rounded 5 r.d neg) q
  else
    let sig := c.rounded r.mode r.d neg
    if f.above sig q then .overflow else .value sig q

/-- The encoding of a representable magnitude. -/
def FloatFmt.encode (f : FloatFmt) (neg : Bool) (sig : Nat) (q : Int) (ftz : Bool) : Nat :=
  if sig = 0 then f.zeroEnc neg
  else if sig < 2 ^ (f.m - 1) then (if ftz then f.zeroEnc neg else f.pack neg 0 sig)
  else if sig < 2 ^ f.m then f.pack neg (q + f.bias + ((f.m : Int) - 1)).toNat (sig - 2 ^ (f.m - 1))
  else f.pack neg (q + 1 + f.bias + ((f.m : Int) - 1)).toNat (sig / 2 - 2 ^ (f.m - 1))

/-- What an overflow, an infinity and a NaN become (R151, R155). -/
inductive Overflow where
  /-- IEEE 754: FP32, FP64, accumulators, packed arithmetic. -/
  | ieee
  /-- Conversion to a narrower target: the largest finite value. -/
  | narrow
  /-- The same under `.nan`. -/
  | narrowNan
  deriving DecidableEq, Repr

def FloatFmt.overflowEnc (f : FloatFmt) (o : Overflow) (mode : Nat) (neg : Bool) : Nat :=
  match o with
  | .ieee =>
    match mode with
    | 1 => f.maxEnc neg
    | 2 => if neg then f.infEnc neg else f.maxEnc neg
    | 3 => if neg then f.maxEnc neg else f.infEnc neg
    | _ => f.infEnc neg
  | .narrow => f.maxEnc neg
  | .narrowNan => f.nanEnc

/-- An exact value rounded once into a float format. -/
def FloatFmt.put (f : FloatFmt) (o : Overflow) (r : Rounding) : Num → Nat
  | .nan => f.nanEnc
  | .inf n =>
    if f.hasInf then f.infEnc n
    else match o with
      | .narrowNan => f.nanEnc
      | .ieee | .narrow => f.maxEnc n
  | .zero n => f.zeroEnc n
  | .fin n m e more =>
    match f.round r n m e more with
    | .overflow => f.overflowEnc o r.mode n
    | .value sig q => f.encode n sig q r.ftz

/-- A finite value rounded to an integer magnitude (R151: spacing 1). -/
def roundMag (mode d : Nat) (neg : Bool) (m : Nat) (e : Int) (more : Bool) : Nat :=
  (cutAt m e more 0).rounded mode d neg

/-- A float converted into an integer range: saturating, NaN to 0 (R156). -/
def Num.toRange (mode d : Nat) (lo hi : Int) : Num → Int
  | .nan => 0
  | .inf n => if n then lo else hi
  | .zero _ => 0
  | .fin n m e more =>
    if 128 < e + (bitLen m : Int) then (if n then lo else hi)
    else
      let v : Int := (roundMag mode d n m e more : Int)
      min (max (if n then -v else v) lo) hi

/-! ## Exact arithmetic -/

/-- The product (R139, R157). -/
def Num.mul : Num → Num → Num
  | .nan, _ => .nan
  | _, .nan => .nan
  | .inf n, y => if y.isZero then .nan else .inf (n != y.neg)
  | x, .inf n => if x.isZero then .nan else .inf (x.neg != n)
  | .zero n, y => .zero (n != y.neg)
  | x, .zero n => .zero (x.neg != n)
  | .fin n m e s, .fin n' m' e' s' => .fin (n != n') (m * m') (e + e') (s || s')

/-- The least exponent of the finite terms, at most `d`. -/
def minExp (d : Int) : List Num → Int
  | [] => d
  | .fin _ _ e _ :: t => min e (minExp d t)
  | .nan :: t | .inf _ :: t | .zero _ :: t => minExp d t

/-- The sum of the finite terms in units of `2^q`. -/
def sumAt (q : Int) : List Num → Int
  | [] => 0
  | .fin n m e _ :: t =>
    let v : Int := ((m <<< (e - q).toNat : Nat) : Int)
    (if n then -v else v) + sumAt q t
  | .nan :: t | .inf _ :: t | .zero _ :: t => sumAt q t

/-- The sign of an exact zero sum (R139). -/
def zeroSign (mode : Nat) (l : List Num) : Bool :=
  (!l.isEmpty && l.all (fun x => x.isZero && x.neg)) || (mode == 2 && l.any Num.neg)

/-- The exact sum of dyadic terms (R139, R157, R160). -/
def sumNum (mode : Nat) (l : List Num) : Num :=
  if l.any Num.isNan then .nan
  else if l.any (fun x => x.isInf && x.neg) then
    (if l.any (fun x => x.isInf && !x.neg) then .nan else .inf true)
  else if l.any Num.isInf then .inf false
  else
    let q := minExp 0 l
    let v := sumAt q l
    if v = 0 then .zero (zeroSign mode l) else .fin (decide (v < 0)) v.natAbs q false

/-- The quotient, with at least `p` leading bits (R254). -/
def Num.div (p : Nat) : Num → Num → Num
  | .nan, _ => .nan
  | _, .nan => .nan
  | .inf n, y => if y.isInf then .nan else .inf (n != y.neg)
  | x, .inf n => .zero (x.neg != n)
  | .zero n, y => if y.isZero then .nan else .zero (n != y.neg)
  | x, .zero n => .inf (x.neg != n)
  | .fin n m e _, .fin n' m' e' _ =>
    let k := p + bitLen m'
    let v := (m <<< k) / m'
    .fin (n != n') v (e - e' - (k : Int)) (decide ((m <<< k) % m' ≠ 0))

/-- The square root, with at least `p` leading bits (R254). -/
def Num.sqrt (p : Nat) : Num → Num
  | .nan => .nan
  | .inf n => if n then .nan else .inf false
  | .zero n => .zero n
  | .fin n m e _ =>
    if n then .nan
    else
      let odd := e % 2 ≠ 0
      let m' := (if odd then 2 * m else m) <<< (2 * p)
      let e' := (if odd then e - 1 else e) / 2
      let r := Nat.sqrt m'
      .fin false r (e' - (p : Int)) (decide (r * r ≠ m'))

/-- The reciprocal square root (R254). -/
def Num.rsqrt (p : Nat) : Num → Num
  | .nan => .nan
  | .inf n => if n then .nan else .zero false
  | .zero n => .inf n
  | .fin n m e _ =>
    if n then .nan
    else
      let odd := e % 2 ≠ 0
      let m' := if odd then 2 * m else m
      let e' := (if odd then e - 1 else e) / 2
      let k := p + bitLen m'
      let top := 2 ^ (2 * k)
      let r := Nat.sqrt (top / m')
      .fin false r (-e' - (k : Int)) (decide (r * r * m' ≠ top))

/-- Exact comparison of two numbers that are no NaN. -/
def Num.cmp (x y : Num) : Ordering :=
  match x, y with
  | .inf n, .inf n' => if n = n' then .eq else if n then .lt else .gt
  | .inf n, _ => if n then .lt else .gt
  | _, .inf n => if n then .gt else .lt
  | _, _ =>
    let q := minExp 0 [x, y]
    compare (sumAt q [x]) (sumAt q [y])

/-- minimum and maximum with -0 below +0 (R157). -/
def Num.pick (isMax : Bool) (x y : Num) : Num :=
  match x.cmp y with
  | .lt => if isMax then y else x
  | .gt => if isMax then x else y
  | .eq => if x.isZero && y.isZero then (if isMax then (if x.neg then y else x) else (if x.neg then x else y)) else x

/-- FMIN, FMAX: a NaN input gives NaN (R157). -/
def Num.minMax (isMax : Bool) (x y : Num) : Num :=
  if x.isNan || y.isNan then .nan else x.pick isMax y

/-- FMINN, FMAXN: a single NaN input is ignored (R157). -/
def Num.minMaxNumber (isMax : Bool) (x y : Num) : Num :=
  if x.isNan then y else if y.isNan then x else x.pick isMax y

/-- The conditions of FCMP (R255). -/
def condFloat (code : Nat) (x y : Num) : Bool :=
  let un := x.isNan || y.isNan
  match code with
  | 0 => !un && x.cmp y == .eq
  | 1 => un || x.cmp y != .eq
  | 2 => !un && x.cmp y == .lt
  | 3 => !un && x.cmp y != .gt
  | 4 => !un && x.cmp y == .gt
  | 5 => !un && x.cmp y != .lt
  | 6 => un
  | _ => !un

/-- A value rounded to an integer value, the sign kept (R254). -/
def Num.roundIntegral (mode d : Nat) : Num → Num
  | .fin n m e more =>
    if 0 ≤ e then .fin n m e more else .mk' n (roundMag mode d n m e more) 0
  | x => x

/-- FCLASS (R256). -/
def classOfFloat (f : FloatFmt) (x : Nat) : Nat :=
  let s := f.sign x
  let e := f.exp x
  let fr := f.frac x
  if f.isNanEnc e fr then 8
  else if f.isInfEnc e fr then (if s then 0 else 7)
  else if e = 0 then
    (if fr = 0 then (if s then 3 else 4) else (if s then 2 else 5))
  else (if s then 1 else 6)

/-! ## Packing of narrow elements (R141) -/

/-- The container bits of a format code in a register or memory element (R133). -/
def containerBits (code : Nat) : Nat :=
  match code with
  | 0 | 30 => 64
  | 1 | 2 | 11 | 31 => 32
  | 3 | 4 | 12 | 13 => 16
  | 5 | 6 | 7 | 14 | 15 | 23 | 24 | 25 => 8
  | 8 | 9 | 26 | 27 => 6
  | 10 | 16 | 17 | 22 => 4
  | 18 | 19 => 2
  | _ => 1

/-! ## Conversions (R155, R156, R258) -/

/-- Whether a float target is narrower than FP32 (R155). -/
def narrowTarget (code : Nat) : Bool := 2 ≤ code && code ≤ 10

/-- The value of an integer encoding. -/
def intValue (w : Nat) (signed : Bool) (x : Nat) : Int :=
  let v := x % 2 ^ w
  if signed && 2 ^ (w - 1) ≤ v then (v : Int) - (2 : Int) ^ w else v

/-- Whether a conversion rounds: every one but integer to integer (R153). -/
def convRounds (d s : Nat) : Bool := !((intFmt d).isSome && (intFmt s).isSome)

/-- A conversion from format `s` to format `d` of the encoding `x` (R155, R156). -/
def convert (d s : Nat) (r : Rounding) (nan sat ftzIn : Bool) (x : Nat) : Nat :=
  let v : Num ⊕ Int :=
    match floatFmt s with
    | some f => .inl (f.decode ftzIn (x % 2 ^ (f.width + f.pad)))
    | none =>
      match intFmt s with
      | some (w, sg) => .inr (intValue w sg x)
      | none => .inr 0
  match floatFmt d with
  | some f =>
    let o : Overflow := if narrowTarget d then (if nan then .narrowNan else .narrow) else .ieee
    f.put o r (match v with | .inl n => n | .inr i => Num.ofInt i)
  | none =>
    match intFmt d with
    | some (w, sg) =>
      let lo : Int := if sg then -(2 : Int) ^ (w - 1) else 0
      let hi : Int := if sg then (2 : Int) ^ (w - 1) - 1 else (2 : Int) ^ w - 1
      let i : Int :=
        match v with
        | .inl n => n.toRange r.mode r.d lo hi
        | .inr i => if sat then min (max i lo) hi else i
      (i % (2 : Int) ^ w).toNat
    | none => 0

/-! ## L32 (R146 to R148) -/

/-- The parts of an L32 value. -/
inductive L32 where
  | nan
  | inf (neg : Bool)
  | zero (neg : Bool)
  | fin (neg : Bool) (e : Int)
  deriving DecidableEq, Repr

def l32Of (x : Word) : L32 :=
  let s := x.getLsbD 31
  let e := (x.extractLsb' 0 31).toInt
  if e = -(2 : Int) ^ 30 then .zero s
  else if e = -(2 : Int) ^ 30 + 1 then .nan
  else if e = (2 : Int) ^ 30 - 1 then .inf s
  else .fin s e

/-- The encoding; a finite exponent out of range saturates to infinity or zero (R148). -/
def L32.enc : L32 → Word
  | .nan => 0x40000001
  | .inf n => if n then 0xBFFFFFFF else 0x3FFFFFFF
  | .zero n => if n then 0xC0000000 else 0x40000000
  | .fin n e =>
    if (2 : Int) ^ 30 - 2 < e then (if n then 0xBFFFFFFF else 0x3FFFFFFF)
    else if e < -(2 : Int) ^ 30 + 2 then (if n then 0xC0000000 else 0x40000000)
    else BitVec.ofBool n ++ BitVec.ofInt 31 e

def L32.mul : L32 → L32 → L32
  | .nan, _ => .nan
  | _, .nan => .nan
  | .zero _, .inf _ => .nan
  | .inf _, .zero _ => .nan
  | .zero n, .zero n' => .zero (n != n')
  | .zero n, .fin n' _ => .zero (n != n')
  | .fin n _, .zero n' => .zero (n != n')
  | .inf n, .inf n' => .inf (n != n')
  | .inf n, .fin n' _ => .inf (n != n')
  | .fin n _, .inf n' => .inf (n != n')
  | .fin n e, .fin n' e' => .fin (n != n') (e + e')

def L32.div : L32 → L32 → L32
  | .nan, _ => .nan
  | _, .nan => .nan
  | .zero _, .zero _ => .nan
  | .inf _, .inf _ => .nan
  | .inf n, .zero n' => .inf (n != n')
  | .fin n _, .zero n' => .inf (n != n')
  | .zero n, .inf n' => .zero (n != n')
  | .zero n, .fin n' _ => .zero (n != n')
  | .fin n _, .inf n' => .zero (n != n')
  | .inf n, .fin n' _ => .inf (n != n')
  | .fin n e, .fin n' e' => .fin (n != n') (e - e')

def L32.pow (x : L32) (n : Int) : L32 :=
  match x with
  | .nan => .nan
  | .inf s => if n = 0 then .fin false 0 else if 0 < n then .inf (s && n % 2 != 0) else .zero (s && n % 2 != 0)
  | .zero s => if n = 0 then .fin false 0 else if 0 < n then .zero (s && n % 2 != 0) else .inf (s && n % 2 != 0)
  | .fin s e => if n = 0 then .fin false 0 else .fin (s && n % 2 != 0) (e * n)

/-- The `2^q`-th root (R148). -/
def L32.root (x : L32) (q : Nat) : L32 :=
  match x with
  | .nan => .nan
  | .zero s => .zero s
  | .inf s => if s then .nan else .inf false
  | .fin s e =>
    if s then .nan
    else if e = 0 then .fin false 0
    else
      let v := roundMag 0 0 (decide (e < 0)) e.natAbs (-(q : Int)) false
      .fin false (if e < 0 then -(v : Int) else v)

/-! ## The counter generator (R267) and stochastic draws (R153, R154) -/

def rngRound (k0 k1 : Word) (rnd : Nat) (s : Word × Word) : Word × Word :=
  let x := s.1 * 0xCD9E8D57#32
  let x := x ^^^ s.2 ^^^ ((if rnd % 2 = 0 then k0 else k1) + BitVec.ofNat 32 rnd * 0x9E3779B9#32)
  (x, s.2.rotateLeft 13 + x)

/-- The generator: counter, stream, key base to `(x, y)`. -/
def rngc (counter : DWord) (stream : Word) (kb : DWord) : Word × Word :=
  let k0 := kb.extractLsb' 0 32 ^^^ stream
  let k1 := kb.extractLsb' 32 32
  let s := (counter.extractLsb' 0 32 ^^^ k0, counter.extractLsb' 32 32 ^^^ k1)
  rngRound k0 k1 3 (rngRound k0 k1 2 (rngRound k0 k1 1 (rngRound k0 k1 0 s)))

/-- The counter of a stochastic rounding. -/
def drawCounter (item : DWord) (count : Nat) : DWord := BitVec.ofNat 64 (item.toNat * 2 ^ 20 + count)

/-- The draw of a lane (R153). -/
def laneDraw (kb item : DWord) (count : Nat) : Nat :=
  ((rngc (drawCounter item count) ((item >>> 44).setWidth 32) kb).1.extractLsb' 16 16).toNat

/-- The draw of a rounding inside an engine command (R154). -/
def engineDraw (kb item : DWord) (count ordinal : Nat) : Nat :=
  ((rngc (drawCounter item count) (BitVec.ofNat 32 (0x80000000 + ordinal)) kb).1.extractLsb' 16 16).toNat

end Sys2Proof.Machine
end

