-- ==== Sys2Proof/Machine/Issue.lean ====
section
/-!
DEFINITION. Sys2Proof/Machine/Issue.lean: the issue of one word by one sub-rod: the checks of R219 that depend on the word,
the load interlock, marked registers, and the two shapes of a lane instruction, each lane by itself (R235) and across
lanes (R248), with the carry rules of R70 to R85 and R438.
-/

namespace Sys2Proof.Machine

/-- A word at issue. -/
structure Issue where
  key : RodKey
  rod : Rod
  instr : Instr
  /-- The lanes of the issuing sub-rod. -/
  active : BitVec 32
  /-- The active lanes whose guard is true (R204). -/
  enabled : BitVec 32
  /-- Lanes of the sub-rod that this word has just parked on a marked register (R437, R438). -/
  lost : BitVec 32
  deriving DecidableEq, Repr

def Issue.pc (is : Issue) : DWord := (is.rod.lane (lowest is.active)).pc
def Issue.word (is : Issue) : DWord := wordOf is.instr
def Issue.isFirmware (is : Issue) : Bool := is.key.slot == .firmware

/-- The lowest active lane, from which once-per-issue instructions take their operands (R204). -/
def Issue.capLane (is : Issue) : Nat := lowest is.active
def Issue.cap (is : Issue) : Lane := is.rod.lane is.capLane

/-- Whether the guard is true in the lowest active lane. -/
def Issue.capOn (is : Issue) : Bool := is.enabled.getLsbD is.capLane

def mkIssue (k : RodKey) (r : Rod) (i : Instr) (m : BitVec 32) : Issue :=
  { key := k, rod := r, instr := i, active := m
    enabled := m &&& r.maskWhere (fun x => match guardOf i with | some g => x.guard g | none => true)
    lost := 0 }

/-! ## The checks that depend on the word (R219, R358) -/

/-- The opcode class of a word. -/
def opClass (i : Instr) : Nat := fieldClass (wordOf i)

/-- Words the firmware context may not issue: illegal operand (R358). -/
def firmwareForbids (i : Instr) : Bool :=
  opClass i == 5 || (match i with
    | .exit _ | .grow _ | .shrink _ | .jset _ | .jwait _ | .cstat _ | .cdone _ | .valid _ | .slack _ | .rngc _
    | .rcv _ | .rsync _ | .ldf _ | .stf _ | .atomf _ | .tkput _ | .tkget _ | .tktry _ | .tkset _ | .barMeet _
    | .barPass _ | .barSize _ => true
    | .srd w => !(w.a == 0x04#8 || w.a == 0x05#8 || w.a == 0x07#8 || w.a == 0x0C#8)
    | _ => false)

/-- An undeclared slot named by number (R266). -/
def slotUndeclared (declared : BitVec 8) (i : Instr) : Bool :=
  match i with
  | .cstat w | .cdone w => !declared.getLsbD (RMod.bits w.mod 8 3)
  | _ => false

/-- The first word check that fails, in the order of R219; `none` when the word may go on to its operand checks. -/
def wordCause (s : State) (k : RodKey) (r : Rod) (i : Instr) : Option Cause :=
  let fw := k.slot == .firmware
  let declared := if fw then 0 else (s.recordOfLaunch r.launch).declared
  if opClass i == 6 && !fw then some .privileged
  else if !((guardOf i).map Guard.legal).getD true then some .undefinedInstruction
  else if opClass i == 7 && !Config.isStream k.frame.die then
    some (if fw then .undefinedInstruction else .extensionEmulation)
  else if !check5 i || (fw && firmwareForbids i) then some .illegalOperand
  else if !check6 declared i || slotUndeclared declared i then some .carryMisuse
  else none

/-- Words that act once per issue: they read registers in the capturing lane alone (R204, R261, R480). -/
def actsOnce (i : Instr) : Bool :=
  opClass i == 5 || (match i with
    | .jset _ | .tkset _ | .tkput _ | .tkget _ | .tktry _ | .barMeet _ | .barPass _ | .barSize _ => true
    | _ => false)

/-- Words whose effect hangs on the guard of the lowest active lane (R204, R480). -/
def hangsOnCap (i : Instr) : Bool := actsOnce i || (match i with | .rredJoined _ => true | _ => false)

/-- The lanes whose registers the word reads. -/
def Issue.readers (is : Issue) : BitVec 32 :=
  if hangsOnCap is.instr && !is.capOn then 0
  else if actsOnce is.instr then 1#32 <<< is.capLane
  else is.enabled

/-- Lanes that read a marked register, with the mark (R274, R437). -/
def marksRead (is : Issue) : List (Nat × RegMark) :=
  (maskLanes is.readers).filterMap (fun l =>
    let x := is.rod.lane l
    match x.marked with
    | [] => none
    | ms =>
      let src := sourcesOn is.rod x is.instr
      (ms.find? (fun m => src.contains m.reg)).map (fun m => (l, m)))

def markFaults (is : Issue) : List (Nat × Cause × DWord) := (marksRead is).map (fun e => (e.1, e.2.cause, e.2.addr))

/-- A mark is raised by the first read only (R274): the marks raised are gone. The mark of another register of the same load stays
(log entry 32). -/
def Rod.dropMarks (r : Rod) (l : List (Nat × RegMark)) : Rod :=
  l.foldl (fun r e => r.setLane e.1 { r.lane e.1 with marked := (r.lane e.1).marked.filter (fun m => m != e.2) }) r

/-- The mask without the lanes of a fault list. -/
def dropLanes (m : BitVec 32) (l : List (Nat × Cause × DWord)) : BitVec 32 :=
  l.foldl (fun m e => withBit m e.1 false) m

/-- The writes of the lanes have been waited for (R274). -/
def State.settleWrites (s : State) (k : RodKey) (m : BitVec 32) : State :=
  match s.rod? k with
  | none => s
  | some r =>
    if (maskLanes m).all (fun l => (r.lane l).writes.isEmpty) then s
    else s.setRod k (r.mapLanes m (fun _ x => { x with writes := [] }))

/-- Items of some lanes have ordered their frame-store writes (R197, R198). -/
def State.orderItems (s : State) (is : Issue) (m : BitVec 32) : State :=
  if is.isFirmware then s
  else s.modTeam (teamKeyOf is.key is.rod) (fun t => t.ordered ((maskLanes m).map (fun l => (is.rod.lane l).item)))

/-- Deferred write errors are raised at the item's next FENCE, release or EXIT (R274, R437). Of several the oldest is raised, one
at each such word: DESIGN CHOICE (log entry 65). -/
def takeDeferred (is : Issue) (s0 : State) : BitVec 32 × State :=
  let s := s0.settleWrites is.key is.enabled
  let bad := (maskLanes is.enabled).filterMap (fun l =>
    ((is.rod.lane l).deferred.head?).map (fun d => (l, d.cause, d.addr)))
  match bad with
  | [] => (is.enabled, s)
  | _ =>
    let m := bad.foldl (fun m e => withBit m e.1 true) (0#32)
    let s1 := s.modRod is.key (fun r => r.mapLanes m (fun _ x => { x with deferred := x.deferred.drop 1 }))
    (dropLanes is.enabled bad,
      (faultGroups bad).foldl (fun s g =>
        s.takeFault is.key g.1 { laneFault g.2.1 (wordOf is.instr) g.2.2 with deferred := true }) s1)

def Joined.regs (j : Joined) : List Nat := if j.wide then [j.dst, j.dst + 1] else [j.dst]

/-- A word that names a register a joined reduction will still write does not issue (R250). -/
def joinInterlock (r : Rod) (m : BitVec 32) (i : Instr) : Bool :=
  (maskLanes m).any (fun l =>
    let x := r.lane l
    x.joined != [] && (x.joined.flatMap Joined.regs).any (fun n => (namedOn r x i).contains n))

/-- The word acts for lanes `m`, after those that read a marked register have parked on it (R274, R437). Where the capturing
lane of a once-per-issue word parks, the lanes that are left are a sub-rod of their own, and the word acts through their
lowest (log entry 29). -/
def runMarked (i : Instr) (k : RodKey) (body : Issue → State → State) : Nat → BitVec 32 → BitVec 32 → State → State
  | 0, _, _, s => s
  | fuel + 1, m, lost, s =>
    match s.rod? k with
    | none => s
    | some r =>
      let is := { mkIssue k r i m with lost := lost }
      match markFaults is with
      | [] => body is s
      | bad =>
        let m' := dropLanes m bad
        let s1 := (s.modRod k (fun q => q.dropMarks (marksRead is))).takeFaults k (wordOf i) bad
        if m' = 0 then s1 else runMarked i k body fuel m' (lost ||| (m &&& ~~~m')) s1

/-- What the word does for the sub-rod `m` of rod `k`. At most 32 lanes park on marks. -/
def runWord (i : Instr) (k : RodKey) (m : BitVec 32) (body : Issue → State → State) (s : State) : State :=
  match s.rod? k with
  | none => s
  | some r =>
    match wordCause s k r i with
    | some c => s.takeFault k m (laneFault c (wordOf i) 0)
    | none =>
      if joinInterlock r (mkIssue k r i m).enabled i then s
      else runMarked i k body 33 m 0 (settleLoads i k (mkIssue k r i m).enabled s)

/-- ISSUE: the word acts for the current sub-rod, whose lanes then part by outcome (R43). Without a runnable issuer there
is nobody to act for. -/
def issueWord (i : Instr) (body : Issue → State → State) (s : State) : Host.Outcome State Fault Refusal :=
  match s.cur with
  | none => .fault .noIssuer
  | some who =>
    match s.rod? who.key with
    | none => .fault .noIssuer
    | some r =>
      if (r.lane who.lane).st = .runnable ∧ who.lane < 32 then
        let m := r.subRod who.lane
        .next ((runWord i who.key m body s).modRod who.key (fun q => q.regroup m))
      else .fault .noIssuer

/-! ## Lane instructions, each lane by itself -/

/-- The RNG key base of a rod's launch. -/
def keyOf (s : State) (r : Rod) : DWord := (s.recordOfLaunch r.launch).key

/-- The operand values of a lane without carries. -/
def laneIn (kb : DWord) (x : Lane) (l : Nat) (o : Operands) (c : Nat → Word) : LaneIn :=
  { a := o.a.value x c, b := o.b.value x c, c := o.c.value x c, lane := x, num := l, key := kb }

/-- Whether a plan names a carry. -/
def Plan.hasCarry (p : Plan) : Bool :=
  (p.dst == .reg && !p.indDst && isCarry p.vdst.toNat) || (p.a == .reg && !p.indA && isCarry p.va.toNat)
    || (p.b == .reg && isCarry p.vb.toNat) || (p.c == .reg && isCarry p.vc.toNat)

/-- The effect of a lane instruction on one enabled lane, or its fault. -/
def laneStep (r : Rod) (p : Plan) (kb : DWord) (f : LaneIn → LaneOut) (x : Lane) (l : Nat) : Except Cause Lane :=
  match laneOperands r x p with
  | .error e => .error e
  | .ok o =>
    let out := f (laneIn kb x l o (fun _ => 0))
    if drawsFault x out.draws then .error .illegalOperand else .ok (x.complete o.dst out)

/-- A lane instruction without carries: every enabled lane by itself, the others go on (R204, R235). -/
def plainPass (f : LaneIn → LaneOut) (is : Issue) (s : State) : State :=
  let p := planOf is.instr
  let kb := keyOf s is.rod
  let step (l : Fin 32) (x : Lane) : Except Cause Lane := laneStep is.rod p kb f x l.val
  let fails := (List.finRange 32).filterMap (fun l =>
    if is.enabled.getLsbD l.val then
      match step l is.rod.lanes[l] with
      | .error c => some (l.val, c, (0 : DWord))
      | .ok _ => none
    else none)
  let r := is.rod.mapLanes is.active (fun l x =>
    if is.enabled.getLsbD l.val then
      match step l x with
      | .ok y => y
      | .error _ => x
    else x.advance)
  (s.setRod is.key r).takeFaults is.key is.word fails

/-! ## Lane instructions that name carries -/

/-- A pass over the lanes in ascending order. -/
structure Pass where
  rod : Rod
  carry : List (CarryKey × CarryBuf)
  fails : List (Nat × Cause × DWord)
  readWait : List Nat
  writeWait : List Nat
  /-- Lanes that publish nothing in this pass because of a fault: their consumers wait, without cutting the pass (R438). -/
  lost : BitVec 32
  cut : Bool
  deriving DecidableEq, Repr

/-- What a lane's sources hold, or that one of them has nothing yet. -/
def gatherCarries (s : State) (t : List (CarryKey × CarryBuf)) (launch : Nat) (x : Lane) (slots : List Nat) :
    Option (List (Nat × CarryRead)) :=
  slots.mapM (fun n => (carryRead s t launch x n).map (fun c => (n, c)))

def carryValue (got : List (Nat × CarryRead)) (n : Nat) : Word := ((tableFind n got).map CarryRead.value).getD 0

/-- Lane `l` completes: generations are taken, the result is written or published. -/
def commitLane (s : State) (launch : Nat) (x : Lane) (o : Operands) (got : List (Nat × CarryRead)) (out : LaneOut)
    (t : List (CarryKey × CarryBuf)) : Lane × List (CarryKey × CarryBuf) :=
  let (x1, t1) := got.foldl (fun st g => takeCarry s launch g.1 g.2 st) (x, t)
  let (x2, t2) :=
    match o.writeSlot with
    | some n => publish launch n out.write.word (publishKind s t1 launch x1 n) (x1, t1)
    | none => (x1, t1)
  (x2.complete o.dst out, t2)

/-- What keeps a lane from publishing (R70, R75, R81). -/
def writeHold (s : State) (t : List (CarryKey × CarryBuf)) (launch : Nat) (x : Lane) (o : Operands) : Publish :=
  match o.writeSlot with
  | some n => publishKind s t launch x n
  | none => .store

/-- The slots of a list that hold nothing for a lane yet. -/
def lacking (s : State) (t : List (CarryKey × CarryBuf)) (launch : Nat) (x : Lane) (slots : List Nat) : List Nat :=
  slots.filter (fun n => (carryRead s t launch x n).isNone)

/-- Lane `l` has no source for a slot of `none_`: it waits. Where a producer has faulted in this pass, or waits for one that
has, only its consumers wait (R438); else a ripple pass is cut, and every higher lane waits too (R85). -/
def Pass.wait (a : Pass) (s : State) (ripple : Bool) (l : Nat) (none_ : List Nat) : Pass :=
  let gone := none_.any (fun n =>
    let d := ((s.recordOfLaunch a.rod.launch).slot n).1
    d ≤ l && a.lost.getLsbD (l - d))
  { a with readWait := a.readWait ++ [l], lost := if gone then withBit a.lost l true else a.lost, cut := ripple && !gone }

/-- Lane `l` faults. -/
def Pass.fault (a : Pass) (l : Nat) (c : Cause) : Pass :=
  { a with fails := a.fails ++ [(l, c, 0)], lost := withBit a.lost l true }

/-- A pass at its start: the lanes that have just parked on marked registers publish nothing (R438). -/
def Issue.pass (is : Issue) (s : State) : Pass :=
  { rod := is.rod, carry := s.carry, fails := [], readWait := [], writeWait := [], lost := is.lost, cut := false }

/-- One enabled lane of a pass. -/
def passLane (s : State) (is : Issue) (p : Plan) (f : LaneIn → LaneOut) (ripple : Bool) (l : Nat) (a : Pass) : Pass :=
  let x := a.rod.lane l
  let launch := a.rod.launch
  if a.cut then { a with readWait := a.readWait ++ [l] }
  else
    match laneOperands a.rod x p with
    | .error e => a.fault l e
    | .ok o =>
      if writeHold s a.carry launch x o = .fault then a.fault l .carryMisuse
      else
        match gatherCarries s a.carry launch x o.slots with
        | none => a.wait s ripple l (lacking s a.carry launch x o.slots)
        | some got =>
          let out := f (laneIn (keyOf s is.rod) x l o (carryValue got))
          if drawsFault x out.draws then a.fault l .illegalOperand
          else if writeHold s a.carry launch x o = .wait then { a with writeWait := a.writeWait ++ [l] }
          else
            let (y, t) := commitLane s launch x o got out a.carry
            { a with rod := a.rod.setLane l y, carry := t }

/-- Ripple issue applies when a read slot's producer is a lane of the same instruction (R84). A lane of the sub-rod whose guard is
false performs no effect of the word and is no producer here: DEDUCED (log entry 61). -/
def ripples (s : State) (is : Issue) (slots : List Nat) : Bool :=
  (maskLanes is.enabled).any (fun l => slots.any (fun n =>
    let d := ((s.recordOfLaunch is.rod.launch).slot n).1
    d != 0 && d ≤ l && (is.enabled ||| is.lost).getLsbD (l - d)))

/-- The slots a plan reads. -/
def Plan.slots (p : Plan) : List Nat :=
  ((if p.a == .reg && !p.indA && isCarry p.va.toNat then [p.va.toNat - 248] else [])
    ++ (if p.b == .reg && isCarry p.vb.toNat then [p.vb.toNat - 248] else [])
    ++ (if p.c == .reg && isCarry p.vc.toNat then [p.vc.toNat - 248] else [])).eraseDups

/-- The waiting lanes of a pass enter carry-wait at the instruction, its faulting lanes park (R75, R83, R85, R438). -/
def finishPass (is : Issue) (p : Plan) (a : Pass) (s : State) : State :=
  let wslot := if p.dst == .reg then p.vdst.toNat - 248 else 0
  let r := a.rod.mapLanes is.active (fun l x =>
    if a.readWait.contains l.val then { x with st := .carryWait, wait := .carryRead p.slots }
    else if a.writeWait.contains l.val then { x with st := .carryWait, wait := .carryWrite wslot }
    else if is.enabled.getLsbD l.val then x
    else x.advance)
  ({ (s.setRod is.key r) with carry := a.carry }).takeFaults is.key is.word a.fails

/-- A lane instruction that names a carry: one pass over the lanes (R83 to R85). -/
def carryPass (f : LaneIn → LaneOut) (is : Issue) (s : State) : State :=
  let p := planOf is.instr
  let ripple := ripples s is p.slots
  finishPass is p ((maskLanes is.enabled).foldl (fun a l => passLane s is p f ripple l a) (is.pass s)) s

/-- The body of a lane instruction. -/
def laneBody (f : State → Issue → LaneIn → LaneOut) (is : Issue) (s : State) : State :=
  if (planOf is.instr).hasCarry then carryPass (f s is) is s else plainPass (f s is) is s

/-- A LANE INSTRUCTION: `f` makes each enabled lane's result of its operands. -/
def laneOp (i : Instr) (f : LaneIn → LaneOut) (s : State) : Host.Outcome State Fault Refusal :=
  issueWord i (laneBody (fun _ _ => f)) s

/-! ## Cross-lane instructions (R248) -/

/-- A participating lane: its operands, the generations it would take, and what its result is made of. -/
structure Gathered where
  ops : Operands
  got : List (Nat × CarryRead)
  input : LaneIn

/-- What reading a lane's operands comes to. -/
inductive Gather where
  | fault (c : Cause)
  /-- Slots without a generation. -/
  | lacks (slots : List Nat)
  | ok (g : Gathered)

/-- The operands of an enabled lane with the generations a pass has left (R235; log entry 16). -/
def gatherLane (s : State) (is : Issue) (p : Plan) (t : List (CarryKey × CarryBuf)) (l : Nat) : Gather :=
  let x := is.rod.lane l
  match laneOperands is.rod x p with
  | .error e => .fault e
  | .ok o =>
    match gatherCarries s t is.rod.launch x o.slots with
    | none => .lacks (lacking s t is.rod.launch x o.slots)
    | some got => .ok { ops := o, got := got, input := laneIn (keyOf s is.rod) x l o (carryValue got) }

/-- A pass with the lanes that take part so far. -/
structure CrossPass where
  pass : Pass
  took : List (Nat × Gathered)

/-- Lane `l` reads its operands, or faults, or waits; a ripple pass is cut at a lane without a source (R84, R85, R438). -/
def gatherStep (s : State) (is : Issue) (p : Plan) (ripple : Bool) (l : Nat) (a : CrossPass) : CrossPass :=
  if a.pass.cut then { a with pass := { a.pass with readWait := a.pass.readWait ++ [l] } }
  else
    match gatherLane s is p a.pass.carry l with
    | .fault c => { a with pass := a.pass.fault l c }
    | .lacks n => { a with pass := a.pass.wait s ripple l n }
    | .ok g =>
      match writeHold s a.pass.carry is.rod.launch (a.pass.rod.lane l) g.ops with
      | .fault => { a with pass := a.pass.fault l .carryMisuse }
      | .wait => { a with pass := { a.pass with writeWait := a.pass.writeWait ++ [l] } }
      | .discard | .store => { a with took := a.took ++ [(l, g)] }

/-- Every lane of a list reads its operands, in ascending order, before any lane writes. -/
def gatherAll (s : State) (is : Issue) (p : Plan) (ripple : Bool) : CrossPass :=
  (maskLanes is.enabled).foldl (fun a l => gatherStep s is p ripple l a) { pass := is.pass s, took := [] }

def CrossPass.inputs (a : CrossPass) : List (Nat × LaneIn) := a.took.map (fun e => (e.1, e.2.input))

/-- A lane that took part completes. -/
def commitCross (s : State) (f : List (Nat × LaneIn) → LaneIn → LaneOut) (ps : List (Nat × LaneIn)) (a : Pass)
    (e : Nat × Gathered) : Pass :=
  let (y, t) := commitLane s a.rod.launch (a.rod.lane e.1) e.2.ops e.2.got (f ps e.2.input) a.carry
  { a with rod := a.rod.setLane e.1 y, carry := t }

/-- The word publishes a slot it also reads, from one of its own lanes to another (R73, R84). -/
def circular (s : State) (is : Issue) (p : Plan) : Bool :=
  p.dst == .reg && !p.indDst && isCarry p.vdst.toNat && p.slots.contains (p.vdst.toNat - 248) && ripples s is p.slots

/-- A lane of a circular word: it reads what its predecessor wrote in this pass, and its result is made of the lanes that
have read so far (R84; log entry 16). -/
def crossStep (s : State) (is : Issue) (p : Plan) (f : List (Nat × LaneIn) → LaneIn → LaneOut) (l : Nat) (a : CrossPass) :
    CrossPass :=
  let b := gatherStep s is p true l a
  match b.took.getLast? with
  | some e => if e.1 = l then { b with pass := commitCross s f b.inputs b.pass e } else b
  | none => b

/-- A CROSS-LANE INSTRUCTION: `f` makes each participating lane's result of all participants and its own operands. -/
def crossBody (f : List (Nat × LaneIn) → LaneIn → LaneOut) (is : Issue) (s : State) : State :=
  let p := planOf is.instr
  if circular s is p then
    finishPass is p
      ((maskLanes is.enabled).foldl (fun a l => crossStep s is p f l a) { pass := is.pass s, took := [] }).pass s
  else
    let a := gatherAll s is p (ripples s is p.slots)
    finishPass is p (a.took.foldl (commitCross s f a.inputs) a.pass) s

def crossOp (i : Instr) (f : List (Nat × LaneIn) → LaneIn → LaneOut) (s : State) :
    Host.Outcome State Fault Refusal :=
  issueWord i (crossBody f) s

/-! ## Words that act once per issue (R204, R480) -/

/-- Every active lane goes on to the next word. -/
def passOver (is : Issue) (s : State) : State :=
  s.modRod is.key (fun r => r.mapLanes is.active (fun _ x => x.advance))

/-- A fault of every enabled lane of a once-per-issue word: they park, the others go on. -/
def faultEnabled (is : Issue) (c : Cause) (s : State) : State :=
  (s.modRod is.key (fun r => r.mapLanes (is.active &&& ~~~is.enabled) (fun _ x => x.advance))).takeFault is.key
    is.enabled (laneFault c is.word 0)

/-- The enabled lanes wait at the word, the others go on (R43, R480). -/
def blockEnabled (is : Issue) (w : Wait) (s : State) : State :=
  s.modRod is.key (fun r => r.mapLanes is.active (fun l x =>
    if is.enabled.getLsbD l.val then { x with st := .blocked, wait := w } else x.advance))

/-- A register pair or register of the capturing lane, with the allocation check of R53. -/
def capHolds (is : Issue) (u : FieldUse) (v : BitVec 8) : Bool :=
  match fieldOperand is.rod is.cap u v false 0 with
  | .ok _ => true
  | .error _ => false

end Sys2Proof.Machine
end

