-- ==== Sys2Proof/Machine/Team.lean ====
section
/-!
DEFINITION. Sys2Proof/Machine/Team.lean: the shared operations on team state: age keys, engine queues and token queues (R63 to
R66, R291 to R295), frame barriers (R296, R297), join registers (R59 to R62), accumulator rows (R323), register blocks
(R53 to R55), and the retirement of items and rods (R37, R263).
-/

namespace Sys2Proof.Machine

/-! ## Age keys (R48) -/

def ageKey (r : Rod) : Nat × Nat := (r.launch, r.item0.toNat)

/-- Strictly older: lower in the lexicographic order. -/
def older (a b : Nat × Nat) : Bool := decide (a.1 < b.1) || (a.1 == b.1 && decide (a.2 < b.2))

/-- The oldest of a list of things with keys. -/
def oldestOf {α : Type} : List ((Nat × Nat) × α) → Option ((Nat × Nat) × α)
  | [] => none
  | x :: t =>
    match oldestOf t with
    | none => some x
    | some y => if older y.1 x.1 then some y else some x

/-! ## Fields of a queued command (R209) -/

def Cmd.eword (c : Cmd) : EWord := Sys2Proof.eword c.word
/-- RRED with .j takes a vector-engine entry but is a class 0 word (R250). -/
def Cmd.isReduce (c : Cmd) : Bool := fieldClass c.word == 0
def Cmd.index (c : Cmd) : Nat := fieldIndex c.word
def Cmd.consumes (c : Cmd) : List Nat := if c.isReduce then [] else EWord.consumes c.eword
def Cmd.produces (c : Cmd) : Option Nat :=
  if c.isReduce then none else if c.eword.prodv then some c.eword.prod.toNat else none

/-- The engine of a class 5 word: index bits 6:5 (R217). -/
def engineOf (word : DWord) : EngineId :=
  if fieldClass word = 0 then .ve
  else match fieldIndex word / 32 with
    | 0 => .ve
    | 1 => .ce
    | _ => .me

def EngineId.num : EngineId → Nat
  | .ve => 0
  | .ce => 1
  | .me => 2

def Frame.engine (f : Frame) : EngineId → Engine
  | .ve => f.ve
  | .ce => f.ce
  | .me => f.me

def Frame.setEngine (f : Frame) (e : EngineId) (x : Engine) : Frame :=
  match e with
  | .ve => { f with ve := x }
  | .ce => { f with ce := x }
  | .me => { f with me := x }

def engines : List EngineId := [.ve, .ce, .me]

def Cmd.started (c : Cmd) : Bool := c.st == .running || c.st == .stopped

def lo32 (v : DWord) : Nat := (v.extractLsb' 0 32).toNat
def hi32 (v : DWord) : Nat := (v.extractLsb' 32 32).toNat

/-! ## Teams and their rods, resident or saved -/

/-- A team of a launch on some frame. -/
def State.teamOf (s : State) (launch number : Nat) : Option (TeamKey × Team) :=
  s.teams.find? (fun e => e.2.launch == launch && e.2.number == number)

/-- A rod of a team, resident or saved. -/
def State.member? (s : State) (tk : TeamKey) (launch team rod : Nat) : Option Rod :=
  match s.memberSlot tk rod with
  | some n => s.rod? (rodKey tk.frame n)
  | none =>
    ((s.frame tk.frame).savedRods.find? (fun v =>
      v.rod.launch == launch && v.rod.team == team && v.rod.rod == rod)).map SavedRod.rod

/-- The same change to a rod of a team, resident or saved. -/
def State.modMember (s : State) (tk : TeamKey) (launch team rod : Nat) (g : Rod → Rod) : State :=
  match s.memberSlot tk rod with
  | some n => s.modRod (rodKey tk.frame n) g
  | none =>
    s.modFrame tk.frame (fun f => { f with savedRods := f.savedRods.map (fun v =>
      if v.rod.launch = launch ∧ v.rod.team = team ∧ v.rod.rod = rod then { v with rod := g v.rod } else v) })

/-- The same change to what is kept of a rod that lies saved. -/
def State.modSavedRod (s : State) (tk : TeamKey) (launch team rod : Nat) (g : SavedRod → SavedRod) : State :=
  if (s.memberSlot tk rod).isSome then s
  else
    s.modFrame tk.frame (fun f => { f with savedRods := f.savedRods.map (fun v =>
      if v.rod.launch = launch ∧ v.rod.team = team ∧ v.rod.rod = rod then g v else v) })

/-- A rod of a team lies saved. -/
def State.memberSaved (s : State) (tk : TeamKey) (t : Team) (rod : Nat) : Bool :=
  (s.memberSlot tk rod).isNone && (s.frame tk.frame).savedRods.any (fun v =>
    v.rod.launch == t.launch && v.rod.team == t.number && v.rod.rod == rod)

/-- The saved state of a team of a launch, on whichever frame. -/
def State.savedTeamOf (s : State) (launch number : Nat) : Option Team :=
  s.frames.findSome? (fun f =>
    (f.2.savedTeams.find? (fun v => v.team.launch == launch && v.team.number == number)).map SavedTeam.team)

/-- A team of a launch, resident or saved. -/
def State.anyTeam (s : State) (launch number : Nat) : Option Team :=
  match s.teamOf launch number with
  | some (_, t) => some t
  | none => s.savedTeamOf launch number

/-! ## Starting under R64 -/

def TokenQueue.room (q : TokenQueue) : Bool := q.tokens.length + q.reserved < 16

def Team.queue (t : Team) (n : Nat) : TokenQueue := t.queues.toList.getD n TokenQueue.reset
def Team.setQueue (t : Team) (n : Nat) (q : TokenQueue) : Team :=
  { t with queues := Vector.ofFn (fun k => if k.val = n then q else t.queues[k]) }

/-- A token queue of a team changes its reserved slots, whether the team is resident or saved; of a saved one the image is to
follow (R121, R330). -/
def State.modPeerQueue (s : State) (launch number q : Nat) (g : TokenQueue → TokenQueue) : State :=
  match s.teamOf launch number with
  | some (tk, _) => s.modTeam tk (fun t => t.setQueue q (g (t.queue q)))
  | none =>
    (s.frames.map Prod.fst).foldl (fun s p => s.modFrame p (fun f => { f with savedTeams := f.savedTeams.map (fun v =>
      if v.team.launch = launch ∧ v.team.number = number then
        { v with team := v.team.setQueue q (g (v.team.queue q)), slots := v.slots ++ [q] } else v) })) s

/-- The position of the first entry that has not started: every entry ahead of it has (R63, R64). -/
def Engine.head? (e : Engine) : Option Nat := e.entries.findIdx? (fun c => !c.started)

/-- Whether the engine may start a command now: not stopped by firmware (R361), no command stopped on a run fault
(R304), below the limit of started commands (R443). -/
def Frame.mayStart (f : Frame) (e : EngineId) (c : Cmd) : Bool :=
  let en := f.engine e
  !f.engctl.getLsbD (EngineId.num e)
    && !en.entries.any (fun x => x.st == .stopped)
    && (en.entries.filter Cmd.started).length < Config.startedLimit e
    && (!(e == .me && c.index == 0x45) || !en.entries.any (fun x => x.started && x.index == 0x45))

/-- The token conditions of R64. -/
def tokensReady (t : Team) (c : Cmd) : Bool :=
  c.consumes.all (fun q => (t.queue q).tokens != [])
    && (match c.produces with | some q => (t.queue q).room | none => true)

/-- How many of some commands that can start would take a token of queue `q` of a team slot. -/
def claims (l : List (Option (Nat × Cmd))) (slot q : Nat) : Nat :=
  (l.filter (fun o => match o with | some (_, c) => c.teamSlot == slot && c.consumes.contains q | none => false)).length

/-- Every queue a command consumes from holds a token beyond those that commands of earlier engines claim (R295). -/
def tokensLeft (t : Team) (c : Cmd) (earlier : List (Option (Nat × Cmd))) : Bool :=
  c.consumes.all (fun q => claims earlier c.teamSlot q < (t.queue q).tokens.length)

/-- The rows a command names: first and count (R318, R324 to R329). -/
def Cmd.rowRange (c : Cmd) : Option (Nat × Nat) :=
  if c.isReduce then none
  else
    let row (v : DWord) : Nat := (v.extractLsb' 0 32).toNat
    let count (v : DWord) : Nat := (v.extractLsb' 0 11).toNat
    match c.index with
    | 0x25 | 0x26 => some (row c.e1, count c.e2)
    | 0x44 | 0x46 | 0x47 => some (row c.e0, count c.e1)
    | 0x45 => some (row c.e1, (c.e0.extractLsb' 40 8).toNat)
    | _ => none

def rowsOf : Option (Nat × Nat) → List Nat
  | some (a, n) => List.range' a n
  | none => []

/-- Rows of an evicted rod hold their commands back until it reloads (R323). -/
def State.rowsEvicted (s : State) (p : FrameId) (c : Cmd) : Bool :=
  (s.frame p).savedRods.any (fun q =>
    q.rod.launch == c.launch && q.rod.team == c.team && (rowsOf c.rowRange).any (fun x => q.rod.rows.contains x))

/-- Team `n` of a command's launch has retired; a launch that is gone has no team left. -/
def State.teamGone (s : State) (c : Cmd) (n : Nat) : Bool :=
  ((s.launch? c.launch).map (fun l => l.retired.contains n)).getD true

/-- CPPEER's remote token: the peer's queue, where one is asked for (R319). -/
def Cmd.remoteQueue (c : Cmd) : Option Nat :=
  if !c.isReduce && c.index == 0x27 && c.e2.getLsbD 4 then some (c.e2.extractLsb' 0 4).toNat else none

/-- Whether the peer's queue has room for the remote token. A copy to its own team may produce into the same queue: it then
takes two slots (R121, R319). -/
def Cmd.remoteRoom (c : Cmd) (peer : Team) : Bool :=
  match c.remoteQueue with
  | none => true
  | some n =>
    (peer.queue n).tokens.length + (peer.queue n).reserved
      + (if hi32 c.e1 = c.team ∧ c.produces = some n then 1 else 0) < 16

/-- A CPPEER waits while its peer is away or has no room for the remote token (R319). -/
def State.peerWaits (s : State) (c : Cmd) : Bool :=
  !c.isReduce && c.index == 0x27 && !s.teamGone c (hi32 c.e1) &&
    (match s.teamOf c.launch (hi32 c.e1) with
      | none => true
      | some (_, p) => !c.remoteRoom p)

/-- T_w has come for the command's launch and is taken before any start (R447). -/
def State.startBarred (s : State) (c : Cmd) : Bool :=
  ((s.launch? c.launch).map (fun l => l.wrapDue s.hub.now.toNat)).getD false

/-- The head of engine `e` whose start conditions hold, with its position, after the claims of earlier engines (R64, R319, R323,
R447). Whether its engine is stopped or at its limit does not matter to the claim: R295 names R64 alone (log entry 71). -/
def State.claimantAfter (s : State) (p : FrameId) (e : EngineId) (earlier : List (Option (Nat × Cmd))) :
    Option (Nat × Cmd) :=
  match ((s.frame p).engine e).head? with
  | none => none
  | some n =>
    match ((s.frame p).engine e).entries[n]? with
    | none => none
    | some c =>
      match s.team? { frame := p, slot := c.teamSlot } with
      | none => none
      | some t =>
        if tokensReady t c && tokensLeft t c earlier && !s.peerWaits c && !s.rowsEvicted p c && !s.startBarred c then some (n, c)
        else none

/-- Among engines a token goes to the vector, then the copy, then the matrix engine (R295). -/
def State.claimant (s : State) (p : FrameId) (e : EngineId) : Option (Nat × Cmd) :=
  let v := s.claimantAfter p .ve []
  match e with
  | .ve => v
  | .ce => s.claimantAfter p .ce [v]
  | .me => s.claimantAfter p .me [v, s.claimantAfter p .ce [v]]

/-- The command that engine `e` could start now, with its position. -/
def State.startable (s : State) (p : FrameId) (e : EngineId) : Option (Nat × Cmd) :=
  (s.claimant p e).filter (fun x => (s.frame p).mayStart e x.2)

/-! ## Tokens for lanes (R292 to R295) -/

/-- Tokens of queue `q` that a lane may take: those that no command whose start conditions hold has first claim to (R295). -/
def State.laneTokens (s : State) (tk : TeamKey) (q : Nat) : Nat :=
  match s.team? tk with
  | some t => (t.queue q).tokens.length - claims (engines.map (s.claimant tk.frame)) tk.slot q
  | none => 0

/-- Removes the oldest token. -/
def State.popToken (s : State) (tk : TeamKey) (q : Nat) : Word × State :=
  match s.team? tk with
  | none => (0, s)
  | some t =>
    let tq := t.queue q
    (tq.tokens.headD 0, s.setTeam tk (t.setQueue q { tq with tokens := tq.tokens.drop 1 }))

/-- The sub-rods of a rod that wait in TKGET on a queue, by lowest lane. -/
def getWaiters (r : Rod) (q : Nat) : List Nat :=
  (List.range 32).filter (fun l =>
    match (r.lane l).wait with
    | .tkget q' _ => q' == q && lowest (r.subRod l) == l && (r.lane l).st == .blocked
    | _ => false)

/-- A rod stopped by TRAP.slice takes no token: its TKGET stops at once, to be saved as blocked or to go on from the release. One
that is only halted is still a waiter: DEDUCED, R448 and R298 speak of the slice alone (log entry 76). -/
def Rod.takesTokens (r : Rod) : Bool := (r.stop == .none || r.stop == .halt) && !r.divert

/-- The oldest blocked TKGET on a queue (R295); a rod that owes its divert takes no token (R94). -/
def State.oldestGet (s : State) (tk : TeamKey) (q : Nat) : Option (Nat × Nat) :=
  let c := (s.rodsOn tk.frame).filterMap (fun e =>
    if e.2.teamSlot = tk.slot && e.2.takesTokens then
      match getWaiters e.2 q with
      | l :: _ => some (ageKey e.2, (e.1, l))
      | [] => none
    else none)
  (oldestOf c).map Prod.snd

/-- A blocked TKGET gets its token: every waiting item writes the payload and goes on (R293). Where another sub-rod has
released the register meanwhile nothing is written, so that a register granted later reads 0 (R54, R112; log entry 70). -/
def Rod.finishGet (r : Rod) (l : Nat) (v : Word) : Rod :=
  r.mapLanes (r.subRod l) (fun _ x =>
    match x.wait with
    | .tkget _ dst =>
      let y := if r.holds dst then (x.setReg dst v).unmark [dst] else x
      ({ y with st := .runnable, wait := .none }).advance
    | _ => x)

/-- Serves blocked TKGETs while tokens are to be had, at most `fuel` of them. -/
def State.serveGets (tk : TeamKey) (q : Nat) : Nat → State → State
  | 0, s => s
  | fuel + 1, s =>
    if s.laneTokens tk q = 0 then s
    else
      match s.oldestGet tk q with
      | none => s
      | some (slot, l) =>
        let (v, s1) := s.popToken tk q
        State.serveGets tk q fuel (s1.modRod (rodKey tk.frame slot) (fun r => r.finishGet l v))

/-- Serves every queue of a team; a queue holds at most 16 tokens. -/
def State.serveTeam (s : State) (tk : TeamKey) : State :=
  (List.range 16).foldl (fun s q => State.serveGets tk q 16 s) s

/-- Appends a token to a queue. -/
def State.putToken (s : State) (tk : TeamKey) (q : Nat) (v : Word) : State :=
  (s.modTeam tk (fun t =>
    let tq := t.queue q
    t.setQueue q { tq with tokens := tq.tokens ++ [v] })).serveTeam tk

/-- Whether a binding admits a party (R291): lanes are party 1, the engines 2, 3 and 4. -/
def admits (binding party : Nat) : Bool := binding == 0 || binding == party

def enginePartyOf : EngineId → Nat
  | .ve => 2
  | .ce => 3
  | .me => 4

/-- Whether every queue a command names admits its engine (R291). -/
def bindingsAdmit (t : Team) (e : EngineId) (c : Cmd) : Bool :=
  c.consumes.all (fun q => admits (t.queue q).consumer (enginePartyOf e))
    && (match c.produces with | some q => admits (t.queue q).producer (enginePartyOf e) | none => true)

/-! ## Engine queues -/

def State.queueFull (s : State) (p : FrameId) (e : EngineId) : Bool :=
  Config.queueEntries e ≤ ((s.frame p).engine e).entries.length

/-- A queue takes no command while it is full, or while its engine reports that it has stopped (R49, R63, R444). -/
def State.queueClosed (s : State) (p : FrameId) (e : EngineId) : Bool :=
  s.queueFull p e || (s.frame p).engctl.getLsbD (8 + EngineId.num e)

/-- Appends a command to a queue. -/
def State.append (s : State) (p : FrameId) (e : EngineId) (c : Cmd) : State :=
  s.modFrame p (fun f =>
    let en := f.engine e
    f.setEngine e { en with entries := en.entries ++ [c] })

/-- Appends a command with the team's next order number. -/
def State.enqueue (s : State) (p : FrameId) (e : EngineId) (c : Cmd) : State :=
  let tk : TeamKey := { frame := p, slot := c.teamSlot }
  let ord := ((s.team? tk).map Team.nextOrd).getD 0
  (s.modTeam tk (fun t => { t with nextOrd := t.nextOrd + 1 })).append p e { c with ord := ord }

/-! ## Accumulator rows (R323, R324) -/

/-- The rows reserved to a rod of a team, those whose release still waits among them. -/
def State.rowsHeld (s : State) (tk : TeamKey) (rod : Nat) : List Nat :=
  ((s.rodsOn tk.frame).filter (fun e => e.2.teamSlot == tk.slot && e.2.rod == rod)).flatMap (fun e => e.2.rows)
    ++ (((s.team? tk).map Team.releasing).getD []).flatMap (fun e => if e.1 = rod then e.2.1 else [])

/-- The releases of a team that wait, but for those of rods that lie saved, whose rows the save has freed (R323). -/
def State.releasesHeld (s : State) (tk : TeamKey) : List (Nat × List Nat × Nat) :=
  match s.team? tk with
  | none => []
  | some t => t.releasing.filter (fun e => !s.memberSaved tk t e.1)

/-- The rows of a team that no rod holds. -/
def State.rowFree (s : State) (tk : TeamKey) (row : Nat) : Bool :=
  !((s.rodsOn tk.frame).any (fun e => e.2.teamSlot == tk.slot && e.2.rows.contains row))
    && !(s.releasesHeld tk).any (fun e => e.2.1.contains row)

/-- Rows of a list that a command names. -/
def Cmd.namesRow (c : Cmd) (rows : List Nat) : Bool := (rowsOf c.rowRange).any (fun r => rows.contains r)

/-- The command a completed instance becomes. -/
def Instance.toCmd (i : Instance) (t : Team) (slot : Nat) (mask : BitVec 32) : Cmd :=
  { word := i.word, e0 := i.e0, e1 := i.e1, e2 := i.e2, st := .queued, teamSlot := slot, team := t.number,
    launch := t.launch, ord := i.ord, rod := i.last, members := mask, item := i.item, count := i.count, progress := 0,
    epoch := none, effect := { fs := [], acc := [], payload := 0 }, window := Window.reset, partials := i.partials,
    fault := none }

/-- Pending instances of a team, as the commands they will be (R60). -/
def Team.pendingCmds (t : Team) (slot : Nat) : List Cmd :=
  t.joins.toList.flatMap (fun j => j.pending.map (fun i => i.toCmd t slot j.mask))

/-- Whether an earlier command of the team, queued or a pending join instance, still names one of the rows (R323). -/
def State.rowsBusy (s : State) (tk : TeamKey) (rows : List Nat) (bound : Nat) : Bool :=
  engines.any (fun e => ((s.frame tk.frame).engine e).entries.any (fun c =>
    c.teamSlot == tk.slot && c.ord < bound && c.namesRow rows))
    || (((s.team? tk).map (fun t => t.pendingCmds tk.slot)).getD []).any (fun c => c.ord < bound && c.namesRow rows)

/-- A release that no longer waits on a command; one of a rod that lies saved waits for the reload of its rows (R323). -/
def State.releaseDue (s : State) (tk : TeamKey) (t : Team) (e : Nat × List Nat × Nat) : Bool :=
  !s.rowsBusy tk e.2.1 e.2.2 && !s.memberSaved tk t e.1

/-- Releases that no longer wait take effect (R323). -/
def State.settleRows (s : State) (tk : TeamKey) : State :=
  match s.team? tk with
  | none => s
  | some t =>
    let done := t.releasing.filter (s.releaseDue tk t)
    let s1 := s.setTeam tk { t with releasing := t.releasing.filter (fun e => !s.releaseDue tk t e) }
    done.foldl (fun s e =>
      s.modMember tk t.launch t.number e.1 (fun r => { r with rows := r.rows.filter (fun x => !e.2.1.contains x) })) s1

/-- Asks for the release of rows of a rod. -/
def State.releaseRows (s : State) (tk : TeamKey) (rod : Nat) (rows : List Nat) : State :=
  if rows = [] then s
  else (s.modTeam tk (fun t => { t with releasing := t.releasing ++ [(rod, rows, t.nextOrd)] })).settleRows tk

/-! ## Register blocks (R53 to R55) -/

/-- Rod-blocks in use on a frame: fast, slow. -/
def State.blocksUsed (s : State) (p : FrameId) : Nat × Nat :=
  (s.rodsOn p).foldl (fun a e => (a.1 + e.2.fast, a.2 + e.2.slow)) (0, 0)

/-- Whether a rod that holds `(f0, s0)` may grow to `(f, sl)` now. -/
def State.blocksFree (s : State) (p : FrameId) (f0 s0 f sl : Nat) : Bool :=
  let (uf, us) := s.blocksUsed p
  uf + f ≤ Config.blocksOf p.die + f0 && us + sl ≤ Config.blocksOf p.die + s0

def requestKey (q : Request) : Nat × Nat := (q.launch, q.item0)

/-- Whether an older request waits on the frame (R55). Requests of a launch that is not the frame's own wait for the
frame, not for its blocks (R404). -/
def Frame.olderWaits (f : Frame) (k : Nat × Nat) : Bool :=
  f.requests.any (fun q => q.launch == k.1 && older (requestKey q) k)

def Frame.addRequest (f : Frame) (q : Request) : Frame := { f with requests := f.requests ++ [q] }

/-- What a lane keeps with some registers only: their values, their marks and the reductions still to be written to them. -/
def Lane.keepRegs (x : Lane) (keeps : Nat → Bool) : Lane :=
  { x with
    regs := x.regs.filter (fun e => keeps e.1)
    marked := x.marked.filter (fun m => keeps m.reg)
    joined := x.joined.filter (fun q => 248 ≤ q.dst || keeps q.dst) }

/-- The register blocks above the held counts are gone with their contents (R54). -/
def Rod.shrinkTo (r : Rod) (f sl : Nat) : Rod :=
  let f' := min r.fast f
  let s' := min r.slow sl
  { (r.mapLanes 0xFFFFFFFF (fun _ x => x.keepRegs (allocated f' s'))) with fast := f', slow := s' }

/-! ## Barriers (R296, R297) -/

def Team.barrier (t : Team) (n : Nat) : Barrier :=
  t.bars.toList.getD n { expected := 0, arrivals := 0, gen := false, gone := 0 }
def Team.setBarrier (t : Team) (n : Nat) (b : Barrier) : Team :=
  { t with bars := Vector.ofFn (fun k => if k.val = n then b else t.bars[k]) }

def popCount (m : BitVec 32) : Nat := (maskLanes m).length

/-- Items that wait on a completed generation go on, but for those that owe their divert (R94). -/
def Rod.releaseBarrier (r : Rod) (n : Nat) (gen : Bool) : Rod :=
  let m := r.maskWhere (fun x => !r.divert && x.st == .blocked && (match x.wait with | .barMeet b g => b == n && g == gen | _ => false))
  { (r.mapLanes m (fun _ x => ({ x with st := .runnable, wait := .none }).advance)) with
    arrived := withBit r.arrived n false }

/-- Completes the generation when arrivals and retired rods reach E (R297). Where the retired rods alone reach it, which a BAR.size
may bring about, one generation completes at each arrival, retirement or BAR.size: DESIGN CHOICE (log entry 64). -/
def State.settleBarrier (s : State) (tk : TeamKey) (n : Nat) : State :=
  match s.team? tk with
  | none => s
  | some t =>
    let b := t.barrier n
    if b.arrivals + (popCount t.retired - b.gone) < b.expected || b.expected = 0 then s
    else
      let s1 := s.setTeam tk (t.setBarrier n { b with arrivals := 0, gen := !b.gen, gone := 0 })
      let s2 := (s.rodsOn tk.frame).foldl (fun s e =>
        if e.2.teamSlot = tk.slot then
          s.modRod (rodKey tk.frame e.1) (fun r => r.releaseBarrier n b.gen)
        else s) s1
      s2.modFrame tk.frame (fun f =>
        { f with savedRods := f.savedRods.map (fun q =>
            if q.rod.team = t.number ∧ q.rod.launch = t.launch then
              { q with rod := { q.rod with arrived := withBit q.rod.arrived n false } }
            else q) })

/-- The rod arrives at a barrier, once per generation (R296). -/
def State.arrive (s : State) (k : RodKey) (r : Rod) (n : Nat) : State :=
  if r.arrived.getLsbD n then s
  else
    let tk := teamKeyOf k r
    ((s.modRod k (fun r => { r with arrived := withBit r.arrived n true })).modTeam tk (fun t =>
      t.setBarrier n { t.barrier n with arrivals := (t.barrier n).arrivals + 1 })).settleBarrier tk n

/-! ## Joins (R59 to R62) -/

def Team.join (t : Team) (n : Nat) : Join := t.joins.toList.getD n Join.reset
def Team.setJoin (t : Team) (n : Nat) (j : Join) : Team :=
  { t with joins := Vector.ofFn (fun k => if k.val = n then j else t.joins[k]) }

/-- Rods that count as signed on every later instance: retired ones and those never created (R35, R59, R60). -/
def Team.absent (t : Team) : BitVec 32 := t.retired ||| maskOf (fun l => decide (t.rods ≤ l.val))

/-- Whether an instance has every signature it needs. -/
def Instance.complete (i : Instance) (j : Join) (t : Team) : Bool :=
  (j.mask &&& ~~~(i.signed ||| t.absent)) == 0

/-- Lanes that wait on a join register run again: a JWAIT whose rod's instances have all entered completes; a JSET with
none pending, and a signature that found the register full, execute again (R59, R61, R62). A rod that owes its divert
leaves by that alone (R94). -/
def Rod.releaseJoin (r : Rod) (n : Nat) (j : Join) : Rod :=
  let signed := r.sigs.toList.getD n 0
  r.mapLanes 0xFFFFFFFF (fun _ x =>
    if x.st == .blocked && !r.divert then
      match x.wait with
      | .jwait k =>
        if k = n && signed ≤ j.base then ({ x with st := .runnable, wait := .none }).advance else x
      | .jset k => if k = n && j.pending = [] then { x with st := .runnable, wait := .none } else x
      | .fullJoin k => if k = n && j.pending.length < 4 then { x with st := .runnable, wait := .none } else x
      | _ => x
    else x)

/-- A launch's fault count rises by `n`, saturating (R403). -/
def Launch.countFault (l : Launch) (n : Nat) : Launch :=
  if 2 ^ 32 ≤ l.faultCount.toNat + n then { l with faultCount := 0xFFFFFFFF, faultSaturated := true }
  else { l with faultCount := l.faultCount + BitVec.ofNat 32 n }
def State.countFault (s : State) (launch n : Nat) : State := s.modLaunch launch (fun l => l.countFault n)

/-- The rods of a team that have not retired, ascending; those still to start among them (R35). -/
def Team.unretired (t : Team) : List Nat := (List.range (min 32 t.rods)).filter (fun n => !t.retired.getLsbD n)

/-- An engine fault for a rod of a team: the named rod, resident or evicted, or, where it has retired, the lowest unretired
one; with every rod retired it is counted in the launch's fault count (R303). A rod that has not started yet finds the fault
at its start. -/
def State.engineFaultTo (s : State) (tk : TeamKey) (launch rod : Nat) (ef : EngineFault) : State :=
  match s.team? tk with
  | none => s.countFault launch 1
  | some t =>
    match (if t.unretired.contains rod then some rod else t.unretired.head?) with
    | none => s.countFault launch 1
    | some n =>
      if n < t.started then
        s.modMember tk t.launch t.number n (fun r => { r with engineFaults := r.engineFaults ++ [ef] })
      else s.modTeam tk (fun t => { t with faults := t.faults ++ [ef] })

/-- Instances of a team that have not counted their draw and draw against one item. -/
def Team.mapUncounted (t : Team) (item : DWord) (g : Instance → Instance) : Team :=
  { t with joins := Vector.ofFn (fun n =>
      { t.joins[n] with pending := t.joins[n].pending.map (fun i => if !i.counted && i.item == item then g i else i) }) }

/-- The lane, if it is live, that holds an instance's capturing item. -/
def Rod.laneOf (r : Rod) (item : DWord) : Option Lane := r.lanes.toList.find? (fun x => x.live && x.item == item)

/-- The count that a complete instance draws with: its own, or, where its item has not counted the draw as it signed, the
item's present one, or the one with which the item retired (R154; log entry 31). -/
def State.drawCount (s : State) (tk : TeamKey) (t : Team) (i : Instance) : BitVec 20 :=
  if i.counted then i.count
  else
    (((s.member? tk t.launch t.number (i.captured.getD 0)).bind (fun r => r.laneOf i.item)).map Lane.rsCount).getD i.count

/-- The draw of an instance that has not counted it: its item counts it now, and no other instance of the item draws with
that count (R119, R154; log entry 31). Of a rod that lies saved the image is to follow (R451). -/
def State.countSupplier (s : State) (tk : TeamKey) (t : Team) (i : Instance) : State :=
  if i.counted then s
  else
    let holds (r : Rod) : BitVec 32 := r.maskWhere (fun x => x.live && x.item == i.item)
    ((s.modTeam tk (fun t => t.mapUncounted i.item (fun k => { k with count := k.count + 1 }))).modMember tk t.launch t.number
      (i.captured.getD 0) (fun r => r.mapLanes (holds r) (fun _ x => { x with rsCount := x.rsCount + 1 }))).modSavedRod tk
      t.launch t.number (i.captured.getD 0) (fun v => { v with drawn := v.drawn ++ maskLanes (holds v.rod) })

/-- Moves the oldest instances that are complete into their engine queue (R60). One whose draw could not be counted, or whose
bindings do not admit its engine, faults instead (R119, R291, R303). Where a member's retirement completed the instance, no
signature did: the rod that signed last counts as the issuing rod, DESIGN CHOICE (log entry 78). -/
def State.settleJoin (tk : TeamKey) (n : Nat) : Nat → State → State
  | 0, s => s
  | fuel + 1, s =>
    match s.team? tk with
    | none => s
    | some t =>
      let j := t.join n
      match j.pending with
      | [] => s
      | i :: rest =>
        if !i.complete j t then s
        else
          let e := engineOf i.word
          if s.queueClosed tk.frame e then s
          else
            let c : Cmd := { i.toCmd t tk.slot j.mask with count := s.drawCount tk t i }
            let j' : Join := { j with base := j.base + 1, pending := rest }
            let spent := !i.counted && c.count.toNat == 2 ^ 20 - 1
            let s0 := s.setTeam tk (t.setJoin n j')
            let s1 := if spent then s0 else s0.countSupplier tk t i
            let s2 :=
              if !spent && bindingsAdmit t e c then s1.append tk.frame e c
              else s1.engineFaultTo tk t.launch i.last
                { cause := .engineCommandFault, orig := if spent then some Cause.illegalOperand.code else none, word := c.word,
                  addr := 0, progress := 0, engine := e }
            let s3 := (s2.rodsOn tk.frame).foldl (fun s e =>
              if e.2.teamSlot = tk.slot then s.modRod (rodKey tk.frame e.1) (fun r => r.releaseJoin n j') else s) s2
            State.settleJoin tk n fuel s3

def State.settleJoins (s : State) (tk : TeamKey) : State :=
  (List.range 16).foldl (fun s n => State.settleJoin tk n 4 s) s

/-- What signing comes to. -/
inductive Signing where
  | mismatch
  | full
  | signed (s : State)

/-- The number of a rod's next signature on a join register: the count of its signatures, or, for a rod that became a
member later, the oldest pending instance: the spec does not say how its numbers go on, DESIGN CHOICE (R60; log entry 30). -/
def Rod.nextSig (r : Rod) (n : Nat) (j : Join) : Nat := max (r.sigs.toList.getD n 0) j.base

/-- Whether the issuing rod's next signature on join register `n` is the one whose operands the instance keeps: no member
of lower index has signed the instance or is still to sign it (R60, R301; log entry 31). -/
def capturing (t : Team) (n : Nat) (r : Rod) : Bool :=
  let j := t.join n
  let signed := ((j.pending[r.nextSig n j - j.base]?).map Instance.signed).getD 0
  lowest (j.mask &&& (signed ||| ~~~t.absent)) == r.rod

/-- A rod signs a join register once (R60, R61). `sig` carries what the rod's signature brings. The first signature of a
rod that a later JSET made a member is numbered as the oldest pending instance: DESIGN CHOICE (log entry 30). An instance whose
lowest member retired without signing keeps the operands, item and count of the lowest rod that signed: DESIGN CHOICE (log
entry 31). -/
def State.sign (s : State) (k : RodKey) (r : Rod) (n : Nat) (same : DWord → Bool) (sig : Instance) : Signing :=
  let tk := teamKeyOf k r
  match s.team? tk with
  | none => .mismatch
  | some t =>
    let j := t.join n
    if !j.mask.getLsbD r.rod then .mismatch
    else
      let m := r.nextSig n j
      let pos := m - j.base
      if 4 ≤ pos then .full
      else
        let signedBit : BitVec 32 := 1#32 <<< r.rod
        let merged : Option (List Instance) :=
          match j.pending[pos]? with
          | none => some (j.pending ++ [{ sig with
              captured := some r.rod, signed := signedBit, last := r.rod, ord := t.nextOrd }])
          | some i =>
            if !same i.word then none
            else
              let mine := match i.captured with
                | some c => decide (r.rod < c)
                | none => true
              let i' : Instance :=
                if mine then { sig with captured := some r.rod, signed := i.signed, partials := i.partials, ord := i.ord }
                else i
              some (j.pending.set pos { i' with
                signed := i.signed ||| signedBit, partials := i.partials ++ sig.partials, last := r.rod })
        match merged with
        | none => .mismatch
        | some ps =>
          let s1 := s.setTeam tk { t.setJoin n { j with pending := ps } with nextOrd := t.nextOrd + 1 }
          let s2 := s1.modRod k (fun r =>
            { r with sigs := Vector.ofFn (fun q => if q.val = n then m + 1 else r.sigs[q]) })
          .signed (State.settleJoin tk n 4 s2)

/-! ## Retirement (R37, R263) -/

/-- The outcome of an item that retires by EXIT (R96, R98, R101). -/
def exitOutcome (x : Lane) : ItemOutcome :=
  if !x.phase then .normal else if x.valid then .wrappedValid else .wrappedInvalid

/-- The draws that pending instances still owe against a retiring item are made with the count it retires with (R154; log
entry 31). -/
def Team.freezeDraws (t : Team) (l : List (DWord × BitVec 20)) : Team :=
  l.foldl (fun t e => t.mapUncounted e.1 (fun i => { i with count := e.2 })) t

/-- Items retire: their slots close, their outcome is recorded, their outstanding loads are dropped (R78, R101, R263). -/
def State.retireLanes (s : State) (k : RodKey) (m : BitVec 32) (outcome : Lane → ItemOutcome) : State :=
  match s.rod? k with
  | none => s
  | some r =>
    let done := (maskLanes m).map (fun l => ((r.lane l).item.toNat, outcome (r.lane l)))
    let carry := done.foldl (fun t e => closeSlots r.launch e.1 0xFF t) s.carry
    let s1 := s.setRod k (r.mapLanes m (fun _ x =>
      { x with st := .retired, wait := .none, marks := [], loads := [], joined := [], fence := none, record := none }))
    let s2 := s1.modTeam (teamKeyOf k r)
      (fun t => (t.freezeDraws ((maskLanes m).map (fun l => ((r.lane l).item, (r.lane l).rsCount)))).ordered
        ((maskLanes m).map (fun l => (r.lane l).item)))
    { s2.modLaunch r.launch (fun l =>
        { l with outcomes := l.outcomes ++ done, lastRetire := s.frameTime k.frame }) with carry := carry }

/-- A rod whose items have all retired leaves its frame: its rows and blocks are released, and its retirement counts as
its arrival and its signature (R37, R60, R297, R323). -/
def State.retireRod (s : State) (k : RodKey) : State :=
  match s.rod? k with
  | none => s
  | some r =>
    if r.liveMask ≠ 0 then s
    else
      let tk := teamKeyOf k r
      let gone (t : Team) : Team :=
        { t with
          retired := t.retired ||| (1#32 <<< r.rod)
          bars := Vector.ofFn (fun b =>
            if r.arrived.getLsbD b.val then { t.bars[b] with gone := t.bars[b].gone + 1 } else t.bars[b]) }
      let s1 := (s.eraseRod k).modTeam tk gone
      let s2 := s1.releaseRows tk r.rod r.rows
      let s3 := r.engineFaults.foldl (fun s ef => s.engineFaultTo tk r.launch r.rod ef) s2
      let s4 := (List.range 8).foldl (fun s n => s.settleBarrier tk n) s3
      s4.settleJoins tk

end Sys2Proof.Machine
end

