-- ==== Sys2Proof/Machine/ControlOps.lean ====
section
/-!
DEFINITION. Sys2Proof/Machine/ControlOps.lean: class 4: branches, EXIT, reconvergence, register blocks, joins' JSET and JWAIT,
carry and deadline entries, special registers and the counter generator (R44, R45, R54, R59, R62, R261 to R267).
-/

namespace Sys2Proof.Machine

/-! ## Branches (R262) -/

/-- Enabled lanes go to their target, or fault; the others go on. -/
def branchBody (f : Rod → Lane → Except (Cause × DWord) Lane) (is : Issue) (s : State) : State :=
  let fails := (maskLanes is.enabled).filterMap (fun l =>
    match f is.rod (is.rod.lane l) with
    | .error e => some (l, e.1, e.2)
    | .ok _ => none)
  let r := is.rod.mapLanes is.active (fun l x =>
    if is.enabled.getLsbD l.val then
      match f is.rod x with
      | .ok y => y
      | .error _ => x
    else x.advance)
  (s.setRod is.key r).takeFaults is.key is.word fails

def execBra (w : BWord) (s : State) : Host.Outcome State Fault Refusal :=
  issueWord (.bra w) (branchBody (fun _ x => .ok { x with pc := BWord.target w x.pc })) s

/-- BRX and RET: the target in a pair, aligned (R202). -/
def indirectBranch (a : BitVec 8) (r : Rod) (x : Lane) : Except (Cause × DWord) Lane :=
  match fieldOperand r x .pair a false 0 with
  | .error c => .error (c, 0)
  | .ok _ =>
    let t := x.pair a.toNat
    if t.extractLsb' 0 3 != 0#3 then .error (.misaligned, t) else .ok { x with pc := t }

def execBrx (w : RWord) (s : State) : Host.Outcome State Fault Refusal :=
  issueWord (.brx w) (branchBody (indirectBranch w.a)) s

def execRet (w : RWord) (s : State) : Host.Outcome State Fault Refusal :=
  issueWord (.ret w) (branchBody (indirectBranch w.a)) s

/-- CALL writes the return address first. -/
def callStep (w : BWord) (r : Rod) (x : Lane) : Except (Cause × DWord) Lane :=
  match fieldOperand r x .pair w.a false 0 with
  | .error c => .error (c, 0)
  | .ok _ =>
    .ok { ((x.setPair w.a.toNat (x.pc + 8)).unmark [w.a.toNat, w.a.toNat + 1]) with pc := BWord.target w x.pc }

def execCall (w : BWord) (s : State) : Host.Outcome State Fault Refusal :=
  issueWord (.call w) (branchBody (callStep w)) s

/-! ## EXIT (R263) -/

/-- EXIT retires the enabled items that have no write error to report; the others go on. -/
def exitBody (is : Issue) (s : State) : State :=
  let (m, s1) := takeDeferred is s
  let s2 := s1.modRod is.key (fun r => r.mapLanes (is.active &&& ~~~is.enabled) (fun _ x => x.advance))
  (s2.retireLanes is.key m exitOutcome).retireRod is.key

def execExit (w : RWord) (s : State) : Host.Outcome State Fault Refusal := issueWord (.exit w) exitBody s

/-! ## Reconvergence (R44, R45) -/

/-- RCV: a mark for every enabled item, the oldest of nine dropped. -/
def rcvBody (w : BWord) (is : Issue) (s : State) : State :=
  s.modRod is.key (fun r =>
    { (r.mapLanes is.active (fun l x =>
        (if is.enabled.getLsbD l.val then
          { x with marks := ({ addr := BWord.target w x.pc, seq := r.markSeq } :: x.marks).take 8 }
        else x).advance)) with
      markSeq := r.markSeq + 1 })

def execRcv (w : BWord) (s : State) : Host.Outcome State Fault Refusal := issueWord (.rcv w) (rcvBody w) s

/-- The marks from the topmost one for an address down. -/
def marksFrom (a : DWord) (l : List Mark) : List Mark := l.dropWhile (fun m => m.addr != a)

/-- RSYNC: wait on the topmost mark for this address, or go on. -/
def rsyncLane (x : Lane) : Lane :=
  match marksFrom x.pc x.marks with
  | [] => x.advance
  | m :: t => { x with st := .syncWait, wait := .none, marks := m :: t }

def rsyncBody (is : Issue) (s : State) : State :=
  s.modRod is.key (fun r =>
    r.mapLanes is.active (fun l x => if is.enabled.getLsbD l.val then rsyncLane x else x.advance))

def execRsync (w : RWord) (s : State) : Host.Outcome State Fault Refusal := issueWord (.rsync w) rsyncBody s

/-- An item in sync-wait on a mark. -/
def Lane.waitsOn (x : Lane) (m : Mark) : Bool := x.st == .syncWait && x.marks.head? == some m

/-- A mark is satisfied when every item that still holds it waits on it (R45). -/
def Rod.satisfied (r : Rod) (m : Mark) : Bool :=
  (List.finRange 32).all (fun l => !(r.lanes[l].live && r.lanes[l].marks.contains m) || r.lanes[l].waitsOn m)

/-- The items waiting on a satisfied mark pop it and go on as one runnable sub-rod. -/
def Rod.syncRelease (r : Rod) (m : Mark) : Rod :=
  let ms := r.maskWhere (fun x => x.waitsOn m)
  { (r.mapLanes ms (fun _ x =>
      ({ x with st := .runnable, marks := x.marks.drop 1, group := r.nextGroup }).advance)) with
    nextGroup := r.nextGroup + 32 }

/-- SYNC_RELEASE: nothing happens while the mark is not satisfied (log entry 4). -/
def execSyncRelease (k : RodKey) (lane : Nat) (s : State) : Host.Outcome State Fault Refusal :=
  .next (s.modRod k (fun r =>
    match (r.lane lane).marks with
    | m :: _ => if (r.lane lane).waitsOn m && r.satisfied m then r.syncRelease m else r
    | [] => r))

/-! ## NOP, YIELD (R264) -/

def execNop (w : RWord) (s : State) : Host.Outcome State Fault Refusal := issueWord (.nop w) passOver s

/-- The rod yields if an active lane's guard is true; a word whose guard is false everywhere has no effect (R204, R264). -/
def yieldBody (is : Issue) (s : State) : State :=
  if is.enabled = 0 then passOver is s
  else (passOver is s).modRod is.key (fun r => { r with yielded := true })

def execYield (w : RWord) (s : State) : Host.Outcome State Fault Refusal := issueWord (.yield w) yieldBody s

/-! ## Register blocks (R54, R55) -/

/-- The team ceiling of R54. -/
def aboveCeiling (s : State) (is : Issue) (f sl : Nat) : Bool :=
  let n := (s.recordOfLaunch is.rod.launch).teamRods
  Config.blocksOf is.key.frame.die < n * f || Config.blocksOf is.key.frame.die < n * sl

def slotOf (k : RodKey) : Nat :=
  match k.slot with
  | .rod n => n
  | .firmware => 0

def growBody (f sl : Nat) (is : Issue) (s : State) : State :=
  let f' := max is.rod.fast f
  let s' := max is.rod.slow sl
  if is.enabled = 0 then passOver is s
  else if aboveCeiling s is f' s' then faultEnabled is .illegalOperand s
  else if f' = is.rod.fast ∧ s' = is.rod.slow then passOver is s
  else if s.blocksFree is.key.frame is.rod.fast is.rod.slow f' s'
      && !(s.frame is.key.frame).olderWaits (ageKey is.rod) then
    (passOver is s).modRod is.key (fun r => { r with fast := f', slow := s' })
  else
    (blockEnabled is (.grow f sl) s).modFrame is.key.frame (fun fr => fr.addRequest
      { launch := is.rod.launch, item0 := is.rod.item0.toNat
        kind := .grow (slotOf is.key) (lowest is.enabled) f sl })

def execGrow (w : RWord) (s : State) : Host.Outcome State Fault Refusal :=
  issueWord (.grow w) (growBody (RMod.bits w.mod 8 4) (RMod.bits w.mod 12 3)) s

/-- A load whose register is released returns first, so that nothing arrives in a register granted later (R54, R112,
R237). -/
def shrinkBody (f sl : Nat) (is : Issue) (s : State) : State :=
  if is.enabled = 0 then passOver is s
  else
    let keeps (n : Nat) : Bool := allocated (min is.rod.fast f) (min is.rod.slow sl) n
    (passOver is (s.drainWhere is.key 0xFFFFFFFF (fun _ e => e.regs.any (fun n => !keeps n)))).modRod is.key
      (fun r => r.shrinkTo f sl)

def execShrink (w : RWord) (s : State) : Host.Outcome State Fault Refusal :=
  issueWord (.shrink w) (shrinkBody (RMod.bits w.mod 8 4) (RMod.bits w.mod 12 3)) s

/-! ## JSET, JWAIT (R59, R62, R265) -/

/-- The mask JSET reads in its capturing lane; a carry is taken there (R77, R261). -/
def jsetMask (is : Issue) (a : BitVec 8) (s : State) : Option (Word × State) :=
  if isCarry a.toNat then
    let slot := a.toNat - 248
    match carryRead s s.carry is.rod.launch is.cap slot with
    | none => none
    | some c =>
      let (x, t) := takeCarry s is.rod.launch slot c (is.cap, s.carry)
      some (c.value, { (s.setRod is.key (is.rod.setLane is.capLane x)) with carry := t })
  else some (is.cap.reg a.toNat, s)

def jsetBody (j : Nat) (a : BitVec 8) (is : Issue) (s : State) : State :=
  if !is.capOn then passOver is s
  else if !capHolds is .reg a then faultEnabled is .registerNotAllocated s
  else
    let tk := teamKeyOf is.key is.rod
    match s.team? tk with
    | none => passOver is s
    | some t =>
      match jsetMask is a s with
      | none =>
        s.modRod is.key (fun r => r.mapLanes is.active (fun l x =>
          if is.enabled.getLsbD l.val then { x with st := .carryWait, wait := .carryRead [a.toNat - 248] }
          else x.advance))
      | some (m, s1) =>
        let n := (s.recordOfLaunch is.rod.launch).teamRods
        if m = 0 || (maskLanes m).any (fun b => n ≤ b) then faultEnabled is .illegalOperand s
        else if (t.join j).pending ≠ [] then blockEnabled is (.jset j) s
        else (passOver is s1).modTeam tk (fun t => t.setJoin j { t.join j with mask := m })

def execJset (w : RWord) (s : State) : Host.Outcome State Fault Refusal :=
  issueWord (.jset w) (jsetBody w.dst.toNat w.a) s

def jwaitBody (j : Nat) (is : Issue) (s : State) : State :=
  match s.team? (teamKeyOf is.key is.rod) with
  | none => passOver is s
  | some t =>
    if is.enabled = 0 || is.rod.sigs.toList.getD j 0 ≤ (t.join j).base then passOver is s
    else blockEnabled is (.jwait j) s

def execJwait (w : RWord) (s : State) : Host.Outcome State Fault Refusal :=
  issueWord (.jwait w) (jwaitBody w.dst.toNat) s

/-! ## Carry and deadline entries (R80, R81, R98, R103, R266) -/

/-- CSTAT's two words (R266). -/
def cstatWords (s : State) (is : Issue) (slot : Nat) (x : Lane) : DWord :=
  let l := s.recordOfLaunch is.rod.launch
  let d := (l.slot slot).1
  let first := decide (x.item.toNat < l.base.toNat + d)
  let b := carryBuf s.carry is.rod.launch (x.item.toNat - d) slot
  let low : Word :=
    if first then 0x10
    else BitVec.ofNat 32 b.gens.length ||| (if b.closed || s.wrapped is.rod.launch then 0x08 else 0)
  (x.readCount.toList.getD slot 0) ++ low

def execCstat (w : RWord) (s : State) : Host.Outcome State Fault Refusal :=
  issueWord (.cstat w) (laneBody (fun s is x => .of (.pair (cstatWords s is (RMod.bits w.mod 8 3) x.lane)))) s

/-- CDONE closes a slot towards the item's consumer (R81). -/
def cdoneBody (slot : Nat) (is : Issue) (s : State) : State :=
  let items := (maskLanes is.enabled).map (fun l => (is.rod.lane l).item.toNat)
  let carry := items.foldl (fun t i => closeSlots is.rod.launch i (1#8 <<< slot) t) s.carry
  ({ s with carry := carry }).modRod is.key (fun r => r.mapLanes is.active (fun l x =>
    (if is.enabled.getLsbD l.val then { x with cdone := withBit x.cdone slot true } else x).advance))

def execCdone (w : RWord) (s : State) : Host.Outcome State Fault Refusal :=
  issueWord (.cdone w) (cdoneBody (RMod.bits w.mod 8 3)) s

/-- VALID decides the validity bit in phase 1 (R98). -/
def validBody (p : Nat) (is : Issue) (s : State) : State :=
  s.modRod is.key (fun r => r.mapLanes is.active (fun l x =>
    (if is.enabled.getLsbD l.val && x.phase then { x with valid := x.pred p } else x).advance))

def execValid (w : RWord) (s : State) : Host.Outcome State Fault Refusal :=
  issueWord (.valid w) (validBody w.a.toNat) s

/-- The slack of a launch at a package time (R91, R103). -/
def Launch.slack (l : Launch) (now : Nat) : DWord :=
  if l.record.deadline = 0 then BitVec.ofNat 64 (2 ^ 63 - 1)
  else
    let u := l.record.teams - l.retired.length
    let n := max l.frames.length 1
    let remaining := l.record.estimate.toNat * ((u + n - 1) / n)
    let v : Int := (l.record.threshold : Int) - (now : Int) - (remaining : Int)
    BitVec.ofInt 64 (clampView 64 false v)

def slackOf (s : State) (is : Issue) : DWord :=
  match s.launch? is.rod.launch with
  | some l => l.slack (s.frameTime is.key.frame).toNat
  | none => BitVec.ofNat 64 (2 ^ 63 - 1)

def execSlack (w : RWord) (s : State) : Host.Outcome State Fault Refusal :=
  issueWord (.slack w) (laneBody (fun s is _ => .of (.pair (slackOf s is)))) s

/-- The special registers (R116). -/
def specialReg (s : State) (is : Issue) (n : Nat) (x : LaneIn) : DWord :=
  let l := s.recordOfLaunch is.rod.launch
  match n with
  | 0x00 => x.lane.item
  | 0x01 => BitVec.ofNat 64 x.num
  | 0x02 => BitVec.ofNat 64 is.rod.rod
  | 0x03 => BitVec.ofNat 64 is.rod.team
  | 0x04 => BitVec.ofNat 64 is.key.frame.frame
  | 0x05 => BitVec.ofNat 64 is.key.frame.die
  | 0x06 => BitVec.ofNat 64 is.rod.launch
  | 0x07 => s.frameTime is.key.frame
  | 0x08 => l.deadline
  | 0x09 => if x.lane.phase then 1 else 0
  | 0x0A => l.param
  | 0x0B => l.count
  | 0x0C => BitVec.ofNat 64 (Config.classOf is.key.frame.die)
  | _ => x.lane.carryBits.setWidth 64

def execSrd (w : RWord) (s : State) : Host.Outcome State Fault Refusal :=
  issueWord (.srd w) (laneBody (fun s is x =>
    .of (.value (srWide w.a.toNat) (specialReg s is w.a.toNat x)))) s

/-! ## RNGC (R267) -/

def rngcLane (form : Nat) (x : LaneIn) : LaneOut :=
  let r := rngc x.a (x.b.setWidth 32) x.key
  match form with
  | 0 => .of (.reg r.1)
  | 1 => .of (.pair (r.2 ++ r.1))
  | _ => .of (.reg (BitVec.ofNat 32 (fp32Fmt.put .ieee { mode := 0, d := 0, ftz := false }
      (Num.mk' false (r.1 >>> 8).toNat (-24)))))

def execRngc (w : RWord) (s : State) : Host.Outcome State Fault Refusal :=
  laneOp (.rngc w) (rngcLane (RMod.bits w.mod 8 2)) s

/-! ## CARRY_WAIT_RELEASE (R75, R79) -/

/-- Whether a lane in carry-wait can now read or publish. -/
def carryAble (s : State) (r : Rod) (x : Lane) : Bool :=
  match x.wait with
  | .carryRead slots => (slots.map (fun n => carryRead s s.carry r.launch x n)).all Option.isSome
  | .carryWrite slot => publishKind s s.carry r.launch x slot != .wait
  | _ => false

/-- The lane's sub-rod runs again and re-executes the instruction. -/
def execCarryWaitRelease (k : RodKey) (lane : Nat) (s : State) : Host.Outcome State Fault Refusal :=
  .next (s.modRod k (fun r =>
    if (r.lane lane).st == .carryWait && carryAble s r (r.lane lane) then
      r.mapLanes (r.subRod lane) (fun _ x => { x with st := .runnable, wait := .none })
    else r))

end Sys2Proof.Machine
end

