-- ==== Sys2Proof/Machine/IntOps.lean ====
section
/-!
DEFINITION. Sys2Proof/Machine/IntOps.lean: class 0 and class 1: integer arithmetic, logic, shifts, bit fields, compares, moves,
cross-lane instructions of one rod, index registers and the immediate forms (R235 to R252). RRED with .j is in
Sys2Proof/Machine/EngineOps.lean.
-/

namespace Sys2Proof.Machine

/-! ## Lane functions -/

/-- An integer result of width W in a view (R236). -/
def intLane (wide u sat : Bool) (f : Nat → Int → Int → Int → Int) (x : LaneIn) : LaneOut :=
  if wide then
    .of (.value true (intResult 64 sat u (f 64 (viewOf u x.a) (viewOf u x.b) (viewOf u x.c))))
  else
    .of (.value false ((intResult 32 sat u
      (f 32 (viewOf u (x.a.setWidth 32)) (viewOf u (x.b.setWidth 32)) (viewOf u (x.c.setWidth 32)))).setWidth 64))

/-- The integer arithmetic entries: W and the operands in the view to the exact result (R239). -/
def iaddFn (_ : Nat) (a b _ : Int) : Int := a + b
def isubFn (_ : Nat) (a b _ : Int) : Int := a - b
def imulFn (_ : Nat) (a b _ : Int) : Int := a * b
def imulhFn (w : Nat) (a b _ : Int) : Int := a * b / (2 : Int) ^ w
def imadFn (_ : Nat) (a b c : Int) : Int := a * b + c
def iminFn (_ : Nat) (a b _ : Int) : Int := min a b
def imaxFn (_ : Nat) (a b _ : Int) : Int := max a b
def iabsFn (_ : Nat) (a _ _ : Int) : Int := |a|
def inegFn (_ : Nat) (a _ _ : Int) : Int := -a

/-- IDIV (R240). -/
def idivFn (u sat : Bool) (w : Nat) (a b _ : Int) : Int :=
  if b = 0 then (2 : Int) ^ w - 1
  else if !u && a == -(2 : Int) ^ (w - 1) && b == -1 then
    (if sat then (2 : Int) ^ (w - 1) - 1 else -(2 : Int) ^ (w - 1))
  else Int.tdiv a b

/-- IREM (R240). -/
def iremFn (_ : Nat) (a b _ : Int) : Int := if b = 0 then a else Int.tmod a b

/-- A bitwise result of width W (R242). -/
def bitLane (wide : Bool) (f : (w : Nat) → BitVec w → BitVec w → BitVec w → BitVec w) (x : LaneIn) : LaneOut :=
  if wide then .of (.value true (f 64 x.a x.b x.c))
  else .of (.value false ((f 32 (x.a.setWidth 32) (x.b.setWidth 32) (x.c.setWidth 32)).setWidth 64))

def andFn (w : Nat) (a b _ : BitVec w) : BitVec w := a &&& b
def orFn (w : Nat) (a b _ : BitVec w) : BitVec w := a ||| b
def xorFn (w : Nat) (a b _ : BitVec w) : BitVec w := a ^^^ b
def andnFn (w : Nat) (a b _ : BitVec w) : BitVec w := a &&& ~~~b

/-- One of two two-input functions per bit (R242). -/
def lmuxFn (f0 f1 : Nat) (w : Nat) (a b c : BitVec w) : BitVec w :=
  BitVec.ofFnLE (fun k : Fin w =>
    tableBit (if c.getLsbD k then f1 else f0) (a.getLsbD k) (b.getLsbD k))

/-- Shifts: n = B mod W, B the low 32 bits of b (R242). -/
def shlFn (w : Nat) (a : BitVec w) (b : Word) : BitVec w := a <<< (b.toNat % w)
def shrFn (w : Nat) (a : BitVec w) (b : Word) : BitVec w := a >>> (b.toNat % w)
def sarFn (w : Nat) (a : BitVec w) (b : Word) : BitVec w := a.sshiftRight (b.toNat % w)
def rolFn (w : Nat) (a : BitVec w) (b : Word) : BitVec w := a.rotateLeft (b.toNat % w)

def shiftLane (wide : Bool) (f : (w : Nat) → BitVec w → Word → BitVec w) (x : LaneIn) : LaneOut :=
  if wide then .of (.value true (f 64 x.a (x.b.setWidth 32)))
  else .of (.value false ((f 32 (x.a.setWidth 32) (x.b.setWidth 32)).setWidth 64))

/-- SHF (R242). -/
def shfFn (left : Bool) (a b c : Word) : Word :=
  let f : DWord := b ++ a
  let n := c.toNat % 32
  if left then (f <<< n).extractLsb' 32 32 else (f >>> n).extractLsb' 0 32

/-- LEA (R241). -/
def leaFn (u : Bool) (sh : Nat) (a : DWord) (b : Word) : DWord :=
  BitVec.ofInt 64 ((a.toNat : Int) + viewOf u b * (2 : Int) ^ sh)

/-- The position and length of BFX and BFI (R243). -/
def fieldPos (b : Word) : Nat := min (b.extractLsb' 0 8).toNat 32
def fieldLen (b : Word) : Nat := min (b.extractLsb' 8 8).toNat 32

def bfxFn (u : Bool) (a b : Word) : Word :=
  let n := fieldLen b
  let f : Int := viewOf u a / (2 : Int) ^ fieldPos b % (2 : Int) ^ n
  if n = 0 then 0
  else BitVec.ofInt 32 (if u || f < (2 : Int) ^ (n - 1) then f else f - (2 : Int) ^ n)

def bfiFn (a b c : Word) : Word :=
  let n := fieldLen b
  let p := fieldPos b
  let m : Word := BitVec.ofNat 32 ((2 ^ n - 1) * 2 ^ p)
  (c &&& ~~~m) ||| BitVec.ofNat 32 (a.toNat % 2 ^ n * 2 ^ p)

/-- Counting entries over the low W bits (R244). -/
def popcFn (w : Nat) (a : DWord) : Nat := ((List.range w).filter (fun k => a.getLsbD k)).length
def clzFn (w : Nat) (a : DWord) : Nat := ((List.range w).find? (fun k => a.getLsbD (w - 1 - k))).getD w
def ctzFn (w : Nat) (a : DWord) : Nat := ((List.range w).find? (fun k => a.getLsbD k)).getD w
def brevFn (w : Nat) (a _ _ : BitVec w) : BitVec w := a.reverse

/-- BPERM (R245). -/
def bpermFn (a b c : Word) : Word :=
  let src : DWord := c ++ a
  let byte (k : Nat) : BitVec 8 :=
    let nib := (b >>> (4 * k)).extractLsb' 0 4
    let t := (src >>> (8 * (nib.extractLsb' 0 3).toNat)).extractLsb' 0 8
    if nib.getLsbD 3 then (if t.getLsbD 7 then 0xFF#8 else 0x00#8) else t
  byte 3 ++ byte 2 ++ byte 1 ++ byte 0

/-- ICMP's test in the view of mod[13] (R246). -/
def icmpTest (wide u : Bool) (cond : Nat) (x : LaneIn) : Bool :=
  if wide then condInt cond (viewOf u x.a) (viewOf u x.b)
  else condInt cond (viewOf u (x.a.setWidth 32)) (viewOf u (x.b.setWidth 32))

/-- Index and bound of an index register (R114). -/
def xregWord (bound index : BitVec 16) : Word := bound ++ index

/-! ## Class 0: integer arithmetic (R239, R240, R241) -/

def execIadd (w : RWord) (s : State) : Host.Outcome State Fault Refusal :=
  laneOp (.iadd w) (intLane (RMod.w w.mod) (RMod.u w.mod) (RMod.sat w.mod) iaddFn) s
def execIsub (w : RWord) (s : State) : Host.Outcome State Fault Refusal :=
  laneOp (.isub w) (intLane (RMod.w w.mod) (RMod.u w.mod) (RMod.sat w.mod) isubFn) s
def execImul (w : RWord) (s : State) : Host.Outcome State Fault Refusal :=
  laneOp (.imul w) (intLane (RMod.w w.mod) (RMod.u w.mod) (RMod.sat w.mod) imulFn) s
def execImulh (w : RWord) (s : State) : Host.Outcome State Fault Refusal :=
  laneOp (.imulh w) (intLane (RMod.w w.mod) (RMod.u w.mod) false imulhFn) s
def execImad (w : RWord) (s : State) : Host.Outcome State Fault Refusal :=
  laneOp (.imad w) (intLane (RMod.w w.mod) (RMod.u w.mod) (RMod.sat w.mod) imadFn) s
def execIdiv (w : RWord) (s : State) : Host.Outcome State Fault Refusal :=
  laneOp (.idiv w) (intLane (RMod.w w.mod) (RMod.u w.mod) false (idivFn (RMod.u w.mod) (RMod.sat w.mod))) s
def execIrem (w : RWord) (s : State) : Host.Outcome State Fault Refusal :=
  laneOp (.irem w) (intLane (RMod.w w.mod) (RMod.u w.mod) false iremFn) s
def execImin (w : RWord) (s : State) : Host.Outcome State Fault Refusal :=
  laneOp (.imin w) (intLane (RMod.w w.mod) (RMod.u w.mod) false iminFn) s
def execImax (w : RWord) (s : State) : Host.Outcome State Fault Refusal :=
  laneOp (.imax w) (intLane (RMod.w w.mod) (RMod.u w.mod) false imaxFn) s
def execIabs (w : RWord) (s : State) : Host.Outcome State Fault Refusal :=
  laneOp (.iabs w) (intLane (RMod.w w.mod) false (RMod.sat w.mod) iabsFn) s
def execIneg (w : RWord) (s : State) : Host.Outcome State Fault Refusal :=
  laneOp (.ineg w) (intLane (RMod.w w.mod) false (RMod.sat w.mod) inegFn) s
def execLea (w : RWord) (s : State) : Host.Outcome State Fault Refusal :=
  laneOp (.lea w) (fun x => .of (.pair (leaFn (RMod.u w.mod) (RMod.bits w.mod 8 3) x.a (x.b.setWidth 32)))) s

/-! ## Class 0: logic, shifts and bit fields (R242 to R245) -/

def execAnd (w : RWord) (s : State) : Host.Outcome State Fault Refusal :=
  laneOp (.and w) (bitLane (RMod.w w.mod) andFn) s
def execOr (w : RWord) (s : State) : Host.Outcome State Fault Refusal :=
  laneOp (.or w) (bitLane (RMod.w w.mod) orFn) s
def execXor (w : RWord) (s : State) : Host.Outcome State Fault Refusal :=
  laneOp (.xor w) (bitLane (RMod.w w.mod) xorFn) s
def execAndn (w : RWord) (s : State) : Host.Outcome State Fault Refusal :=
  laneOp (.andn w) (bitLane (RMod.w w.mod) andnFn) s
def execLmux (w : RWord) (s : State) : Host.Outcome State Fault Refusal :=
  laneOp (.lmux w) (bitLane (RMod.w w.mod) (lmuxFn (RMod.bits w.mod 8 4) (RMod.bits w.mod 12 4))) s
def execShl (w : RWord) (s : State) : Host.Outcome State Fault Refusal :=
  laneOp (.shl w) (shiftLane (RMod.w w.mod) shlFn) s
def execShr (w : RWord) (s : State) : Host.Outcome State Fault Refusal :=
  laneOp (.shr w) (shiftLane (RMod.w w.mod) shrFn) s
def execSar (w : RWord) (s : State) : Host.Outcome State Fault Refusal :=
  laneOp (.sar w) (shiftLane (RMod.w w.mod) sarFn) s
def execRol (w : RWord) (s : State) : Host.Outcome State Fault Refusal :=
  laneOp (.rol w) (shiftLane (RMod.w w.mod) rolFn) s
def execShf (w : RWord) (s : State) : Host.Outcome State Fault Refusal :=
  laneOp (.shf w) (fun x =>
    .of (.reg (shfFn (w.mod.getLsbD 8) (x.a.setWidth 32) (x.b.setWidth 32) (x.c.setWidth 32)))) s
def execBfx (w : RWord) (s : State) : Host.Outcome State Fault Refusal :=
  laneOp (.bfx w) (fun x => .of (.reg (bfxFn (RMod.u w.mod) (x.a.setWidth 32) (x.b.setWidth 32)))) s
def execBfi (w : RWord) (s : State) : Host.Outcome State Fault Refusal :=
  laneOp (.bfi w) (fun x => .of (.reg (bfiFn (x.a.setWidth 32) (x.b.setWidth 32) (x.c.setWidth 32)))) s
def execPopc (w : RWord) (s : State) : Host.Outcome State Fault Refusal :=
  laneOp (.popc w) (fun x => .of (.reg (BitVec.ofNat 32 (popcFn (if RMod.w w.mod then 64 else 32) x.a)))) s
def execClz (w : RWord) (s : State) : Host.Outcome State Fault Refusal :=
  laneOp (.clz w) (fun x => .of (.reg (BitVec.ofNat 32 (clzFn (if RMod.w w.mod then 64 else 32) x.a)))) s
def execCtz (w : RWord) (s : State) : Host.Outcome State Fault Refusal :=
  laneOp (.ctz w) (fun x => .of (.reg (BitVec.ofNat 32 (ctzFn (if RMod.w w.mod then 64 else 32) x.a)))) s
def execBrev (w : RWord) (s : State) : Host.Outcome State Fault Refusal :=
  laneOp (.brev w) (bitLane (RMod.w w.mod) brevFn) s
def execBperm (w : RWord) (s : State) : Host.Outcome State Fault Refusal :=
  laneOp (.bperm w) (fun x => .of (.reg (bpermFn (x.a.setWidth 32) (x.b.setWidth 32) (x.c.setWidth 32)))) s

/-! ## Class 0: compares, predicates, selects and moves (R246, R247) -/

def execIcmp (w : RWord) (s : State) : Host.Outcome State Fault Refusal :=
  laneOp (.icmp w) (fun x =>
    .of (.pred (combine (RMod.bits w.mod 11 2)
      (icmpTest (RMod.w w.mod) (w.mod.getLsbD 13) (RMod.bits w.mod 8 3) x) (x.c != 0)))) s
def execPlop (w : RWord) (s : State) : Host.Outcome State Fault Refusal :=
  laneOp (.plop w) (fun x =>
    .of (.pred (tableBit (if x.c != 0 then RMod.bits w.mod 12 4 else RMod.bits w.mod 8 4) (x.a != 0) (x.b != 0)))) s
def execSel (w : RWord) (s : State) : Host.Outcome State Fault Refusal :=
  laneOp (.sel w) (fun x => .of (.value (RMod.w w.mod) (if x.c != 0 then x.a else x.b))) s
def execPmovGet (w : RWord) (s : State) : Host.Outcome State Fault Refusal :=
  laneOp (.pmovGet w) (fun x => .of (.reg (x.lane.preds.setWidth 32))) s
def execPmovSet (w : RWord) (s : State) : Host.Outcome State Fault Refusal :=
  laneOp (.pmovSet w) (fun x => .of (.preds (w.mod.extractLsb' 9 7) (x.a.setWidth 7))) s
def execMov (w : RWord) (s : State) : Host.Outcome State Fault Refusal :=
  laneOp (.mov w) (fun x => .of (.value (RMod.w w.mod) x.a)) s

/-! ## Class 0: cross-lane (R248, R249) -/

/-- The source lane of LXCH, when it lies in 0 to 31 (R248). -/
def lxchSource (mode : Nat) (l : Nat) (b : Word) : Option Nat :=
  match mode with
  | 0 => some (b.toNat % 32)
  | 1 =>
    let t : Int := (l : Int) + b.toInt
    if 0 ≤ t ∧ t < 32 then some t.toNat else none
  | 2 => some ((l + b.toNat) % 32)
  | _ => some (l ^^^ (b.toNat % 32))

/-- LXCH: the value of the source lane when it participates, else the lane's own. -/
def lxchFn (mode : Nat) (ps : List (Nat × LaneIn)) (x : LaneIn) : DWord :=
  match lxchSource mode x.num (x.b.setWidth 32) with
  | some t => ((tableFind t ps).map LaneIn.a).getD x.a
  | none => x.a

def execLxch (w : RWord) (s : State) : Host.Outcome State Fault Refusal :=
  crossOp (.lxch w) (fun ps x => .of (.value (RMod.w w.mod) (lxchFn (RMod.bits w.mod 8 2) ps x))) s

/-- The lanes whose predicate is 1, as a mask (R248). -/
def paggMask (ps : List (Nat × LaneIn)) : BitVec 32 :=
  maskOf (fun l => ps.any (fun e => e.1 == l.val && e.2.a != 0))

def paggFn (mode : Nat) (ps : List (Nat × LaneIn)) : LaneWrite :=
  let all := ps.all (fun e => e.2.a != 0)
  let any := ps.any (fun e => e.2.a != 0)
  match mode with
  | 0 => .reg (paggMask ps)
  | 1 => .reg (BitVec.ofNat 32 (ps.filter (fun e => e.2.a != 0)).length)
  | 2 => .pred all
  | 3 => .pred any
  | _ => .pred (all || !any)

def execPagg (w : RWord) (s : State) : Host.Outcome State Fault Refusal :=
  crossOp (.pagg w) (fun ps _ => .of (paggFn (RMod.bits w.mod 8 3) ps)) s

def execPfx (w : RWord) (s : State) : Host.Outcome State Fault Refusal :=
  laneOp (.pfx w) (fun x => .of (.pred (decide (x.num < (x.a.setWidth 32).toNat)))) s

/-- One step of a bitwise or comparing reduction on views of width W; `.add` is summed exactly (R249). -/
def rredStep (op w : Nat) (u : Bool) (acc v : Int) : Int :=
  let bits (f : Nat → Nat → Nat) : Int :=
    (f (acc % (2 : Int) ^ w).toNat (v % (2 : Int) ^ w).toNat : Nat)
  match op with
  | 0 => acc + v
  | 1 => min acc v
  | 2 => max acc v
  | 3 => viewOf u (BitVec.ofInt w (bits (· &&& ·)))
  | 4 => viewOf u (BitVec.ofInt w (bits (· ||| ·)))
  | _ => viewOf u (BitVec.ofInt w (bits (· ^^^ ·)))

/-- One FP32 addition of `.fadd`: rounded to nearest even, canonical NaN (R249). -/
def faddStep (acc v : Word) : Word :=
  BitVec.ofNat 32 (fp32Fmt.put .ieee { mode := 0, d := 0, ftz := false }
    (sumNum 0 [fp32Fmt.decode false acc.toNat, fp32Fmt.decode false v.toNat]))

/-- The reduction of values in ascending lane order (R249). With one value nothing is added: `.fadd` then answers that value, a NaN
with its payload among them, as R249's pseudocode copies it: DEDUCED, R137 speaks of the NaNs that an instruction produces (log entry
75). -/
def rredFn (op : Nat) (wide u sat : Bool) (vs : List DWord) : DWord :=
  match vs with
  | [] => 0
  | v :: t =>
    if op = 6 then
      ((t.map (fun x => x.setWidth 32)).foldl faddStep (v.setWidth 32 : Word)).setWidth 64
    else if wide then
      intResult 64 sat u ((t.map (viewOf u)).foldl (rredStep op 64 u) (viewOf u v))
    else
      (intResult 32 sat u ((t.map (fun x => viewOf u (x.setWidth 32 : Word))).foldl (rredStep op 32 u)
        (viewOf u (v.setWidth 32 : Word)))).setWidth 64

def execRred (w : RWord) (s : State) : Host.Outcome State Fault Refusal :=
  crossOp (.rred w) (fun ps _ =>
    .of (.value (RMod.w w.mod)
      (rredFn (RMod.bits w.mod 12 3) (RMod.w w.mod) (RMod.u w.mod) (RMod.sat w.mod) (ps.map (fun e => e.2.a))))) s

/-! ## Class 0: index registers (R251) -/

def execXset (w : RWord) (s : State) : Host.Outcome State Fault Refusal :=
  laneOp (.xset w) (fun x => .of (.xreg (xregWord (x.b.setWidth 16) (x.a.setWidth 16)))) s

/-- XADD on an index register: the bound stays (R251). -/
def xaddFn (old : Word) (b : BitVec 16) : Word := xregWord (old.extractLsb' 16 16) (old.extractLsb' 0 16 + b)

def execXadd (w : RWord) (s : State) : Host.Outcome State Fault Refusal :=
  laneOp (.xadd w) (fun x => .of (.xreg (xaddFn (x.lane.xreg w.dst.toNat) (x.b.setWidth 16)))) s

/-! ## Class 1: immediate forms (R215, R252) -/

/-- The 32-bit operand of the long layout. -/
def IWord.long (w : IWord) : Word := w.imm.extractLsb' 0 32

/-- The operand of the short layout. -/
def IWord.short (w : IWord) : Word := (w.imm.extractLsb' 0 24).signExtend 32

/-- The immediate in place of b. -/
def withB (v : Word) (x : LaneIn) : LaneIn := { x with b := v.setWidth 64 }

def execIaddImm (w : IWord) (s : State) : Host.Outcome State Fault Refusal :=
  laneOp (.iaddImm w) (fun x => intLane false false false iaddFn (withB (IWord.long w) x)) s
def execIsubImm (w : IWord) (s : State) : Host.Outcome State Fault Refusal :=
  laneOp (.isubImm w) (fun x => intLane false false false isubFn (withB (IWord.long w) x)) s
def execImulImm (w : IWord) (s : State) : Host.Outcome State Fault Refusal :=
  laneOp (.imulImm w) (fun x => intLane false false false imulFn (withB (IWord.long w) x)) s
def execIminImm (w : IWord) (s : State) : Host.Outcome State Fault Refusal :=
  laneOp (.iminImm w) (fun x => intLane false false false iminFn (withB (IWord.long w) x)) s
def execImaxImm (w : IWord) (s : State) : Host.Outcome State Fault Refusal :=
  laneOp (.imaxImm w) (fun x => intLane false false false imaxFn (withB (IWord.long w) x)) s
def execLeaImm (w : IWord) (s : State) : Host.Outcome State Fault Refusal :=
  laneOp (.leaImm w) (fun x => .of (.pair (leaFn false 0 x.a (IWord.long w)))) s
def execAndImm (w : IWord) (s : State) : Host.Outcome State Fault Refusal :=
  laneOp (.andImm w) (fun x => bitLane false andFn (withB (IWord.long w) x)) s
def execOrImm (w : IWord) (s : State) : Host.Outcome State Fault Refusal :=
  laneOp (.orImm w) (fun x => bitLane false orFn (withB (IWord.long w) x)) s
def execXorImm (w : IWord) (s : State) : Host.Outcome State Fault Refusal :=
  laneOp (.xorImm w) (fun x => bitLane false xorFn (withB (IWord.long w) x)) s
def execAndnImm (w : IWord) (s : State) : Host.Outcome State Fault Refusal :=
  laneOp (.andnImm w) (fun x => bitLane false andnFn (withB (IWord.long w) x)) s
def execShlImm (w : IWord) (s : State) : Host.Outcome State Fault Refusal :=
  laneOp (.shlImm w) (fun x => shiftLane false shlFn (withB (IWord.long w) x)) s
def execShrImm (w : IWord) (s : State) : Host.Outcome State Fault Refusal :=
  laneOp (.shrImm w) (fun x => shiftLane false shrFn (withB (IWord.long w) x)) s
def execSarImm (w : IWord) (s : State) : Host.Outcome State Fault Refusal :=
  laneOp (.sarImm w) (fun x => shiftLane false sarFn (withB (IWord.long w) x)) s
def execRolImm (w : IWord) (s : State) : Host.Outcome State Fault Refusal :=
  laneOp (.rolImm w) (fun x => shiftLane false rolFn (withB (IWord.long w) x)) s
def execBfxImm (w : IWord) (s : State) : Host.Outcome State Fault Refusal :=
  laneOp (.bfxImm w) (fun x => .of (.reg (bfxFn false (x.a.setWidth 32) (IWord.short w)))) s
def execBpermImm (w : IWord) (s : State) : Host.Outcome State Fault Refusal :=
  laneOp (.bpermImm w) (fun x => .of (.reg (bpermFn (x.a.setWidth 32) (IWord.short w) 0))) s
def execIcmpImm (w : IWord) (s : State) : Host.Outcome State Fault Refusal :=
  laneOp (.icmpImm w) (fun x =>
    .of (.pred (icmpTest false (w.imm.getLsbD 29) (w.imm.extractLsb' 24 3).toNat (withB (IWord.short w) x)))) s
def execMovi (w : IWord) (s : State) : Host.Outcome State Fault Refusal :=
  laneOp (.movi w) (fun _ => .of (.reg (IWord.long w))) s
def execMovhi (w : IWord) (s : State) : Host.Outcome State Fault Refusal :=
  laneOp (.movhi w) (fun _ => .of (.high (IWord.long w))) s
def execXaddImm (w : IWord) (s : State) : Host.Outcome State Fault Refusal :=
  laneOp (.xaddImm w) (fun x => .of (.xreg (xaddFn (x.lane.xreg w.dst.toNat) (w.imm.extractLsb' 0 16)))) s

end Sys2Proof.Machine
end

