-- ==== Sys2Proof/Machine/Matrix.lean ====
section
/-!
DEFINITION. Sys2Proof/Machine/Matrix.lean: operand windows (R127 to R129, R133, R134), their plane layout (R163 to R168, R317),
block scales (R142, R143), and the exact group summation of MMA (R159 to R161, R326).
-/

namespace Sys2Proof.Machine

/-! ## Window records (R127, R128) -/

def Window.valid (w : Window) : Bool := w.w0.getLsbD 63
def Window.fmt (w : Window) : Nat := (w.w0.extractLsb' 58 5).toNat
def Window.blockLen (w : Window) : Nat := if w.w0.getLsbD 57 then 32 else 16
def Window.rows (w : Window) : Nat := (w.w0.extractLsb' 32 16).toNat
def Window.base (w : Window) : Nat := (w.w0.extractLsb' 0 32).toNat
def Window.planes (w : Window) : Nat := (w.w1.extractLsb' 48 8).toNat
def Window.k (w : Window) : Nat := (w.w1.extractLsb' 32 16).toNat
def Window.scale (w : Window) : Nat := (w.w1.extractLsb' 0 32).toNat
def Window.groups (w : Window) : Nat := w.k / 16
def Window.rowBlocks (w : Window) : Nat := (w.rows + 127) / 128

/-- Reserved bits that are set: cause 0x03 at WINDEF (R322). -/
def Window.reserved (w : Window) : Bool := w.w0.extractLsb' 48 9 != 0#9 || w.w1.extractLsb' 56 8 != 0#8

/-- The element format of a format (R133). -/
def elemCode (fmt : Nat) : Nat :=
  match fmt with
  | 23 => 6
  | 24 => 5
  | 25 => 14
  | 26 => 8
  | 27 => 9
  | n => n

def isBlock (fmt : Nat) : Bool := 22 ≤ fmt && fmt ≤ 27

/-- Bits of a bit or block-code element, or of an integer (R133). -/
def intBits (code : Nat) : Nat :=
  match intFmt code with
  | some (w, _) => w
  | none => if code = 22 then 4 else 1

/-- Plane count P of a format (R133). -/
def planeCount (fmt : Nat) : Nat :=
  match floatFmt (elemCode fmt) with
  | some f => f.m + 1
  | none => intBits (elemCode fmt)

def hasSide (fmt : Nat) : Bool := (floatFmt (elemCode fmt)).isSome

/-- The conditions of R128. -/
def Window.formed (w : Window) : Bool :=
  w.fmt ≤ 27 && w.rows != 0 && (w.k % 16 == 0 && 16 ≤ w.k && w.k ≤ 4096) && w.planes == planeCount w.fmt
    && w.base % 256 == 0

/-- A record a command may use. -/
def Window.usable (w : Window) : Bool := w.valid && w.formed

/-- R144: block length 32 while k is not a multiple of 32. -/
def Window.badBlock (w : Window) : Bool := isBlock w.fmt && w.blockLen == 32 && w.k % 32 != 0

/-! ## Footprint (R129) -/

def Window.stripeBytes (w : Window) : Nat := w.rowBlocks * w.groups * w.planes * 256
def Window.sideBase (w : Window) : Nat := w.base + w.stripeBytes
def Window.sideBytes (w : Window) : Nat := if hasSide w.fmt then w.rowBlocks * w.groups * 2048 else 0
def Window.scaleBytes (w : Window) : Nat := if isBlock w.fmt then w.rowBlocks * 128 * w.k / w.blockLen else 0

/-- Start and size of the parts; `scales` includes the block scales. -/
def Window.parts (w : Window) (scales : Bool) : List (Nat × Nat) :=
  [(w.base, w.stripeBytes), (w.sideBase, w.sideBytes)]
    ++ (if scales && isBlock w.fmt then [(w.scale, w.scaleBytes)] else [])

def Window.fits (w : Window) (size : Nat) (scales : Bool) : Bool :=
  (w.parts scales).all (fun p => p.1 + p.2 ≤ size)

/-- The stripes and side-array follow each other; only the scales can overlap them. -/
def Window.overlaps (w : Window) : Bool :=
  isBlock w.fmt && w.scale < w.sideBase + w.sideBytes && w.base < w.scale + w.scaleBytes

/-- First byte and number of the bytes that two parts of the footprint share. -/
def Window.shared (w : Window) : Nat × Nat :=
  let a := max w.base w.scale
  if w.overlaps then (a, min (w.sideBase + w.sideBytes) (w.scale + w.scaleBytes) - a) else (a, 0)

/-- The frame store as a command reads it through the window: bytes that two parts share hold free values (R129; log entry
28). -/
def Window.read (w : Window) (fs : Cells 8) (free : Nat) : Cells 8 × Nat :=
  (cellsWrite fs w.shared.1 (freeBytes free w.shared.2), free + w.shared.2)

/-! ## Reading an element (R163 to R168) -/

def fsByte (fs : Cells 8) (a : Nat) : Nat := (cellGet fs a).toNat

/-- The byte that holds plane `p` of element (row, k). -/
def Window.planeByte (w : Window) (row k p : Nat) : Nat :=
  w.base + ((row / 128 * w.groups + k / 16) * w.planes + p) * 256 + row % 128 * 2 + k % 16 / 8
def Window.sideByte (w : Window) (row k : Nat) : Nat :=
  w.sideBase + ((row / 128 * w.groups + k / 16) * 128 + row % 128) * 16 + k % 16

/-- The bits of planes `0 .. P-1`, plane 0 most significant. -/
def Window.bitsAt (w : Window) (fs : Cells 8) (row k : Nat) : Nat :=
  (List.range w.planes).foldl (fun a p => 2 * a + fsByte fs (w.planeByte row k p) / 2 ^ (k % 8) % 2) 0

/-- A Q4 code under its block's type (R143). -/
def q4Value (type code : Nat) : Num :=
  let s := code / 8 == 1
  let m := code % 8
  match type with
  | 0 => Num.ofInt (intValue 4 true code)
  | 1 => e2m1Fmt.decode false code
  | 2 => if m = 0 then .zero s else .fin s 1 ((m : Int) - 4) false
  | _ => Num.mk' s ([0, 1, 2, 3, 4, 6, 8, 12].getD m 0) 0

/-- A float element of a window (R164, R168), and whether `.ftz` flushes it: an exponent byte 0 with the hidden bit clear. What counts
as subnormal where the stored hidden bit disagrees with the exponent the spec does not say: DESIGN CHOICE (log entry 46). -/
def windowFloat (fmt : Nat) (f : FloatFmt) (bits side : Nat) : Num × Bool :=
  let t := f.m - 1
  let s := bits / 2 ^ f.m == 1
  let sig := bits % 2 ^ f.m
  let fr := sig % 2 ^ t
  if fmt = 0 then
    let e := side % 256
    if e = 255 then (if fr = 0 then .inf s else .nan, false)
    else (Num.mk' s sig ((max e 1 : Nat) - (127 : Int) - (t : Int)), e == 0 && sig < 2 ^ t)
  else
    let e := side % 2 ^ f.expBits
    if f.isNanEnc e fr then (.nan, false)
    else if f.isInfEnc e fr then (.inf s, false)
    else (Num.mk' s sig ((max e 1 : Nat) - (f.bias : Int) - (t : Int)), e == 0 && sig < 2 ^ t)

/-- An element's value before its block scale. -/
def Window.elem (w : Window) (fs : Cells 8) (row k : Nat) (ftz : Bool) : Num :=
  let bits := w.bitsAt fs row k
  let code := elemCode w.fmt
  match floatFmt code with
  | some f =>
    let (v, sub) := windowFloat code f bits (fsByte fs (w.sideByte row k))
    if ftz && sub then .zero v.neg else v
  | none =>
    match code with
    | 20 => .fin (bits == 1) 1 0 false
    | 21 => Num.ofInt (bits : Int)
    | _ => Num.ofInt (intValue (intBits code) (((intFmt code).map Prod.snd).getD false) bits)

/-- An element's value with its scale (R142, R143, R159). -/
def Window.value (w : Window) (fs : Cells 8) (row k : Nat) (ftz : Bool) : Num :=
  if !isBlock w.fmt then w.elem fs row k ftz
  else
    let sc := fsByte fs (w.scale + row * (w.k / w.blockLen) + k / w.blockLen)
    if w.fmt = 22 then
      if sc % 64 = 63 then .nan
      else
        let code := w.bitsAt fs row k
        let v := q4Value (sc / 64) code
        let v := if ftz && sc / 64 == 1 && code % 8 == 1 then .zero (code / 8 == 1) else v
        v.mul (.fin false 1 ((sc % 64 : Nat) - (32 : Int)) false)
    else if sc = 255 then .nan
    else (w.elem fs row k ftz).mul (.fin false 1 ((sc : Int) - 127) false)

/-! ## Group summation (R159 to R161) -/

/-- One output element with an FP32 accumulator: one rounding per group; a special group is the same sum over the
extended reals (R160). -/
def mmaFloat (mode : Nat) (ftz : Bool) (draw : Nat → Nat) (acc : Word) (g : Nat) : List (List Num) → Word
  | [] => acc
  | terms :: t =>
    let v := sumNum mode (fp32Fmt.decode ftz acc.toNat :: terms)
    let r : Rounding := { mode := mode, d := draw g, ftz := ftz }
    mmaFloat mode ftz draw (BitVec.ofNat 32 (fp32Fmt.put .ieee r v)) (g + 1) t

def Num.toInt : Num → Int
  | .fin n m e _ => let v : Int := ((m <<< e.toNat : Nat) : Int); if n then -v else v
  | .nan | .inf _ | .zero _ => 0

/-- One output element with an INT32 accumulator (R161). -/
def mmaInt (sat : Bool) (acc : Word) : List (List Num) → Word
  | [] => acc
  | terms :: t =>
    let v := acc.toInt + (terms.map Num.toInt).foldl (· + ·) 0
    mmaInt sat (BitVec.ofInt 32 (if sat then clampView 32 false v else v)) t

/-- A tile pair (R326). -/
structure Tile where
  a0 : Nat
  b0 : Nat
  isInt : Bool
  n : Nat
  m : Nat
  wb : Nat
  wa : Nat
  reserved : Bool
  deriving DecidableEq, Repr

def tileOf (v : DWord) : Tile :=
  { a0 := (v.extractLsb' 0 16).toNat, b0 := (v.extractLsb' 16 16).toNat, isInt := v.getLsbD 56,
    n := (v.extractLsb' 48 8).toNat, m := (v.extractLsb' 40 8).toNat, wb := (v.extractLsb' 36 4).toNat,
    wa := (v.extractLsb' 32 4).toNat, reserved := v.extractLsb' 57 7 != 0#7 }

def Team.window (t : Team) (n : Nat) : Window := t.windows.toList.getD n Window.reset
def Team.setWindow (t : Team) (n : Nat) (w : Window) : Team :=
  { t with windows := Vector.ofFn (fun k => if k.val = n then w else t.windows[k]) }

def Team.accAt (t : Team) (row col : Nat) : Word := cellGet t.acc (row * t.accCols + col)

/-- The terms of an output element by group. -/
def mmaTerms (t : Team) (a b : Window) (ra rb : Nat) (ftz : Bool) : List (List Num) :=
  (List.range a.groups).map (fun g => (List.range 16).map (fun k =>
    (a.value t.fs ra (16 * g + k) ftz).mul (b.value t.fs rb (16 * g + k) ftz)))

/-- The elements an MMA leaves: number in the accumulator, value. -/
def mmaWrites (kb : DWord) (t : Team) (c : Cmd) : List (Nat × Word) :=
  let q := tileOf c.e0
  let r0 := (c.e1.extractLsb' 0 32).toNat
  let c0 := (c.e1.extractLsb' 32 32).toNat
  let cm := (Cmd.eword c).cmod
  let a := t.window q.wa
  let b := t.window q.wb
  let mode := (cm.extractLsb' 0 3).toNat
  let ftz := cm.getLsbD 3
  (List.range q.m).flatMap (fun i => (List.range q.n).map (fun j =>
    let terms := mmaTerms t a b (q.a0 + i) (q.b0 + j) ftz
    let acc := t.accAt (r0 + i) (c0 + j)
    let draw (g : Nat) : Nat :=
      if mode = 5 then engineDraw kb c.item c.count.toNat (g * 2 ^ 17 + i * 2 ^ 7 + j) else 0
    ((r0 + i) * t.accCols + (c0 + j),
      if q.isInt then mmaInt (cm.getLsbD 4) acc terms else mmaFloat mode ftz draw acc 0 terms)))

/-! ## Blocks (R318, R325, R328, R329) -/

structure Shape2 where
  fmt : Nat
  cols : Nat
  rows : Nat
  reserved : Bool
  deriving DecidableEq, Repr

def shapeOf (v : DWord) : Shape2 :=
  { fmt := (v.extractLsb' 19 5).toNat, cols := (v.extractLsb' 11 8).toNat, rows := (v.extractLsb' 0 11).toNat,
    reserved := v.extractLsb' 24 8 != 0#8 }

/-- The positions of a block in row-major order: index in the block, accumulator number. -/
def blockCells (t : Team) (org : DWord) (q : Shape2) : List (Nat × Nat) :=
  let r0 := (org.extractLsb' 0 32).toNat
  let c0 := (org.extractLsb' 32 32).toNat
  (List.range q.rows).flatMap (fun r => (List.range q.cols).map (fun c =>
    (r * q.cols + c, (r0 + r) * t.accCols + (c0 + c))))

/-- MSCL of one element (R328). -/
def msclElem (kb : DWord) (c : Cmd) (row col : Nat) (v : Word) : Word :=
  let cm := (Cmd.eword c).cmod
  let mode := (cm.extractLsb' 0 3).toNat
  let ftz := cm.getLsbD 3
  let d := if mode = 5 then engineDraw kb c.item c.count.toNat (row * 2 ^ 7 + col) else 0
  BitVec.ofNat 32 (fp32Fmt.put .ieee { mode := mode, d := d, ftz := ftz }
    ((fp32Fmt.decode ftz v.toNat).mul (fp32Fmt.decode ftz (c.e2.extractLsb' 0 32).toNat)))

def msclWrites (kb : DWord) (t : Team) (c : Cmd) : List (Nat × Word) :=
  let q := shapeOf c.e1
  (blockCells t c.e0 q).map (fun e => (e.2, msclElem kb c (e.1 / q.cols) (e.1 % q.cols) (cellGet t.acc e.2)))

/-- MCHK's payload (R329). -/
def mchkPayload (isInt : Bool) (vs : List Word) : Word :=
  if isInt then
    let lo := vs.filter (fun v => v == 0x80000000#32)
    let hi := vs.filter (fun v => v == 0x7FFFFFFF#32)
    BitVec.ofNat 32 (min (lo.length + hi.length) 0xFFFF + (if lo = [] then 0 else 2 ^ 16)
      + (if hi = [] then 0 else 2 ^ 17))
  else
    let ns := vs.map (fun v => fp32Fmt.decode false v.toNat)
    let bad := ns.filter (fun v => v.isNan || v.isInf)
    let flag (b : Bool) (n : Nat) : Nat := if b then 2 ^ n else 0
    BitVec.ofNat 32 (min bad.length 0xFFFF + flag (ns.any Num.isNan) 16
      + flag (ns.any (fun v => v.isInf && !v.neg)) 17 + flag (ns.any (fun v => v.isInf && v.neg)) 18
      + flag (vs.any (fun v => v.extractLsb' 23 8 == 0#8 && v.extractLsb' 0 23 != 0#23)) 19)

/-! ## CPPL: rows into planes (R316, R317) -/

/-- Bits one element takes in a packed row (R141). -/
def storeBits (fmt : Nat) : Nat :=
  let b := containerBits (elemCode fmt)
  if b = 6 then 8 else b

/-- Bytes of a packed row. -/
def Window.rowBytes (w : Window) : Nat := w.k * storeBits w.fmt / 8

/-- Element `k` of a packed row as an encoding. -/
def packedElem (fmt : Nat) (row : List Byte) (k : Nat) : Nat :=
  let b := storeBits fmt
  let n := containerBits (elemCode fmt)
  ofLe ((row.drop (k * b / 8)).take ((b + 7) / 8)) / 2 ^ (k * b % 8) % 2 ^ n

/-- An FP64 element in window range (R317): sign, code, significand. -/
def fp64Window (mode d : Nat) (x : Nat) : Bool × Nat × Nat :=
  match fp64Fmt.decode false x with
  | .nan => (false, 255, 2 ^ 52 + 2 ^ 51)
  | .inf s => (s, 255, 2 ^ 52)
  | .zero s => (s, 0, 0)
  | .fin s m e more =>
    let top := e + (bitLen m : Int) - 1
    if -126 ≤ top then
      if 128 ≤ top then (s, 255, 2 ^ 52)
      else (s, (top + 127).toNat, m * 2 ^ (52 - (bitLen m - 1)))
    else
      let sig := roundMag mode d s m (e + 178) more
      (s, if sig = 2 ^ 52 then 1 else 0, sig)

/-- An element split into its plane bits, plane 0 most significant, and its side byte (R317). -/
def splitElem (fmt mode d x : Nat) : Nat × Nat :=
  let code := elemCode fmt
  if code = 0 then
    let (s, c, sig) := fp64Window mode d x
    ((if s then 2 ^ 53 else 0) + sig, c)
  else
    match floatFmt code with
    | some f =>
      let e := f.exp x
      ((if f.sign x then 2 ^ f.m else 0) + (if e = 0 then 0 else 2 ^ (f.m - 1)) + f.frac x, e)
    | none => (x, 0)

/-- The frame-store bytes that one row position of a window takes: plane stripes and side bytes. -/
def Window.rowWrites (w : Window) (split : Nat → Nat × Nat) (row : Nat) : List (Nat × Byte) :=
  let els := (List.range w.k).map split
  let planes := (List.range (w.k / 8)).flatMap (fun h => (List.range w.planes).map (fun p =>
    (w.planeByte row (8 * h) p,
      BitVec.ofNat 8 ((List.range 8).foldl (fun a b =>
        a + (els.getD (8 * h + b) (0, 0)).1 / 2 ^ (w.planes - 1 - p) % 2 * 2 ^ b) 0))))
  let side := if hasSide w.fmt then
      (List.range w.k).map (fun k => (w.sideByte row k, BitVec.ofNat 8 (els.getD k (0, 0)).2))
    else []
  planes ++ side

end Sys2Proof.Machine
end

