-- ==== Sys2Proof/Machine/EngineOps.lean ====
section
/-!
DEFINITION. Sys2Proof/Machine/EngineOps.lean: the issue of class 5 commands and of RRED with `.j` (R250, R300, R301, R307 to R329):
capture of operands, the checks made at issue, signing, and entry into an engine queue; ACRES and ACREL (R323).
-/

namespace Sys2Proof.Machine

/-! ## Captured operands (R300) -/

/-- A field as the capturing lane gives it: a register, a pair, or the number the field holds. -/
def captureField (is : Issue) (u : FieldUse) (v : BitVec 8) : Except Cause DWord :=
  match fieldOperand is.rod is.cap u v false 0 with
  | .error c => .error c
  | .ok (.reg n) => .ok ((is.cap.reg n).setWidth 64)
  | .ok (.pair n) => .ok (is.cap.pair n)
  | .ok _ => .ok (v.setWidth 64)

/-- The three operands, with the first that names a register the rod does not hold. -/
def capture (is : Issue) (w : EWord) (q : EShape) : Except Cause (DWord × DWord × DWord) :=
  match captureField is q.e0 w.e0 with
  | .error c => .error c
  | .ok a =>
    match captureField is q.e1 w.e1 with
    | .error c => .error c
    | .ok b =>
      match captureField is (q.e2Use w) w.e2 with
      | .error c => .error c
      | .ok c => .ok (a, b, c)

/-- The command as it would enter its queue. -/
def commandOf (is : Issue) (ops : DWord × DWord × DWord) : Cmd :=
  { word := is.word, e0 := ops.1, e1 := ops.2.1, e2 := ops.2.2, st := .queued, teamSlot := is.rod.teamSlot,
    team := is.rod.team, launch := is.rod.launch, ord := 0, rod := is.rod.rod, members := 1#32 <<< is.rod.rod,
    item := is.cap.item, count := is.cap.rsCount, progress := 0, epoch := none,
    effect := { fs := [], acc := [], payload := 0 }, window := Window.reset, partials := [], fault := none }

/-! ## Region descriptors (R130, R307) -/

structure Region where
  base : Nat
  stride : Int
  count : Nat
  deriving DecidableEq, Repr

def regionOf (v : DWord) : Region :=
  { base := (v.extractLsb' 0 32).toNat, stride := (v.extractLsb' 32 16).toInt, count := (v.extractLsb' 48 16).toNat }

/-- Byte offset of element `j`, exact. -/
def Region.at (r : Region) (e j : Nat) : Int := (r.base : Int) + (j : Int) * r.stride * (e : Int)

/-- Whether elements `0 .. n-1` lie within the frame store; the offsets of a region lie between its ends. -/
def Region.inside (r : Region) (e n size : Nat) : Bool :=
  n = 0 || (0 ≤ r.at e 0 && r.at e 0 + (e : Int) ≤ size && 0 ≤ r.at e (n - 1) && r.at e (n - 1) + (e : Int) ≤ size)

/-- VCVT's codes (R309): source and destination. -/
def vcvtCodes (v : DWord) : Nat × Nat := ((v.extractLsb' 0 5).toNat, (v.extractLsb' 8 5).toNat)

def vcvtCode (n : Nat) : Bool := n ≤ 9 || (11 ≤ n && n ≤ 15) || n == 31

/-- Bytes of an element of a format in the frame store; 6-bit formats take one byte (R141). -/
def elemBytes (code : Nat) : Nat := (containerBits code + 7) / 8

def vcvtOk (w : EWord) (v : DWord) : Bool :=
  let (s, d) := vcvtCodes v
  (v.extractLsb' 5 3 == 0#3 && v.extractLsb' 13 19 == 0#19) && vcvtCode s && vcvtCode d
    && (!w.cmod.getLsbD 4 || nanTarget d || (isIntCode s && isIntCode d))

/-- Sources of a vector command with their element size, its destination with its own, and the elements read. -/
structure VectorShape where
  srcs : List (Region × Nat)
  dst : Region × Nat
  n : Nat
  reads : Nat
  deriving DecidableEq, Repr

def vectorShape (c : Cmd) : VectorShape :=
  let d := regionOf c.e0
  let a := regionOf c.e1
  let b := regionOf c.e2
  match c.index with
  | 0x07 =>
    let (s, t) := vcvtCodes c.e2
    { srcs := [(a, elemBytes s)], dst := (d, elemBytes t), n := d.count, reads := d.count }
  | 0x09 => { srcs := [], dst := (d, 4), n := d.count, reads := d.count }
  | 0x0C | 0x0D => { srcs := [(a, 4)], dst := (d, 4), n := d.count, reads := a.count }
  | 0x00 | 0x01 | 0x02 | 0x03 | 0x04 | 0x05 | 0x0A | 0x0B =>
    { srcs := [(a, 4), (b, 4)], dst := (d, 4), n := d.count, reads := d.count }
  | _ => { srcs := [(a, 4)], dst := (d, 4), n := d.count, reads := d.count }

/-- The first of several conditions, in order. -/
def firstCause : List (Bool × Cause) → Option Cause
  | [] => none
  | (b, c) :: t => if b then some c else firstCause t

/-- The checks of R307, R309 and R310. -/
def vectorCheck (t : Team) (c : Cmd) : Option Cause :=
  let q := vectorShape c
  let sum := c.index = 0x0C || c.index = 0x0D
  firstCause [
    (c.index = 0x07 && !vcvtOk (Cmd.eword c) c.e2, .illegalOperand),
    (sum && 1 < q.n, .illegalOperand),
    (!sum && q.srcs.any (fun x => x.1.count < q.n), .illegalOperand),
    ((q.dst :: q.srcs).any (fun x => x.1.base % x.2 != 0), .misaligned),
    (!q.dst.1.inside q.dst.2 q.n t.fsBytes || q.srcs.any (fun x => !x.1.inside x.2 q.reads t.fsBytes),
      .frameStoreBound)]

/-! ## Checks at issue (R301) -/

/-- A block within the accumulator allocation (R318, R325). -/
def blockInside (t : Team) (org : DWord) (rows cols : Nat) : Bool :=
  lo32 org + rows ≤ t.accRows && hi32 org + cols ≤ t.accCols

def blockShape (t : Team) (org sh : DWord) (fmts : List Nat) : List (Bool × Cause) :=
  let q := shapeOf sh
  [(q.reserved || !fmts.contains q.fmt || q.rows == 0 || q.cols == 0, .illegalOperand),
    (!blockInside t org q.rows q.cols, .accumulatorBound)]

/-- CPACC's cmod by format (R318). The format is in a register, so the test cannot be a word check; it is made ahead of
every other check of the entry (log entry 27). -/
def cpaccCmod (w : EWord) (fmt : Nat) : Bool :=
  match fmt with
  | 1 | 11 => w.cmod == 0#5
  | 3 | 4 => true
  | _ => w.cmod.extractLsb' 0 4 == 0#4

/-- The copy engine's checks (R313 to R319). `teams` is the number of teams of the launch. -/
def copyCheck (t : Team) (teams : Nat) (c : Cmd) : Option Cause :=
  let w := Cmd.eword c
  let f := lo32 c.e0
  let len := hi32 c.e0
  match c.index with
  | 0x20 | 0x21 =>
    firstCause [(t.fsBytes < f + len, .frameStoreBound), (2 ^ 64 < c.e1.toNat + len, .illegalOperand)]
  | 0x22 =>
    let s := 2 ^ (w.cmod.extractLsb' 0 3).toNat
    firstCause [(f % s != 0, .misaligned), (t.fsBytes < f + len * s, .frameStoreBound)]
  | 0x23 =>
    firstCause [(t.fsBytes < f + len / 2 ^ 16 * (len % 2 ^ 16), .frameStoreBound)]
  | 0x25 | 0x26 =>
    let q := shapeOf c.e2
    let e := elemBytes q.fmt
    firstCause ((c.index = 0x25 && !cpaccCmod w q.fmt, .illegalOperand) ::
      blockShape t c.e1 c.e2 (if c.index = 0x25 then [1, 11, 3, 4, 12, 14] else [1, 11]) ++
      [(f % e != 0, .misaligned), (t.fsBytes < f + q.rows * q.cols * e, .frameStoreBound)])
  | 0x27 =>
    firstCause [(c.e2.extractLsb' 5 27 != 0#27, .illegalOperand), (teams ≤ hi32 c.e1, .illegalOperand),
      (t.fsBytes < f + len || t.fsBytes < lo32 c.e1 + len, .frameStoreBound)]
  | _ => none

/-- The matrix engine's checks (R322, R325, R326, R328, R329). -/
def matrixCheck (die : Nat) (t : Team) (c : Cmd) : Option Cause :=
  let w := Cmd.eword c
  match c.index with
  | 0x40 =>
    let r : Window := { w0 := c.e1, w1 := c.e2 }
    firstCause [(r.reserved, .illegalOperand), (!r.formed, .windowFault)]
  | 0x44 | 0x46 | 0x47 => firstCause (blockShape t c.e0 c.e1 [0])
  | 0x45 =>
    let q := tileOf c.e0
    let cells := Config.cellsOf die
    firstCause [
      (q.reserved || q.m == 0 || cells < q.m || q.n == 0 || cells < q.n, .illegalOperand),
      ((q.isInt && w.cmod.extractLsb' 0 4 != 0#4) || (!q.isInt && w.cmod.getLsbD 4), .illegalOperand),
      (!blockInside t c.e1 q.m q.n, .accumulatorBound)]
  | _ => none

/-- The entry's checks on captured values. -/
def issueCheck (die teams : Nat) (t : Team) (c : Cmd) : Option Cause :=
  if c.isReduce then none
  else match engineOf c.word with
    | .ve => vectorCheck t c
    | .ce => copyCheck t teams c
    | .me => matrixCheck die t c

/-- Whether the command draws: it takes a rounding mode, and the mode is stochastic (R154). -/
def Cmd.stochastic (c : Cmd) : Bool :=
  let takes :=
    match c.index with
    | 0x00 | 0x01 | 0x02 | 0x03 | 0x06 | 0x0C | 0x0E | 0x0F | 0x10 | 0x11 | 0x12 | 0x24 | 0x45 | 0x46 => true
    | 0x07 => convRounds (vcvtCodes c.e2).2 (vcvtCodes c.e2).1
    | 0x25 => (shapeOf c.e2).fmt == 3 || (shapeOf c.e2).fmt == 4
    | _ => false
  !c.isReduce && takes && (Cmd.eword c).cmod.extractLsb' 0 3 == 5#3

/-- All operand checks at issue: the entry's, then the stochastic-rounding count (R119, R301). -/
def operandCause (s : State) (is : Issue) (t : Team) (c : Cmd) : Option Cause :=
  match issueCheck is.key.frame.die (s.recordOfLaunch is.rod.launch).teams t c with
  | some e => some e
  | none => if c.stochastic && c.count.toNat = 2 ^ 20 - 1 then some .illegalOperand else none

/-! ## Entry into a queue -/

/-- The capturing item's count advances once for a command that draws (R154). -/
def countDraw (is : Issue) (c : Cmd) (s : State) : State :=
  if c.stochastic then
    s.modRod is.key (fun r =>
      r.setLane is.capLane { r.lane is.capLane with rsCount := (r.lane is.capLane).rsCount + 1 })
  else s

/-- A command that is not joined enters its queue as it issues; one whose queue bindings do not admit its engine is not
enqueued and faults on the issuing rod (R63, R291). -/
def enterQueue (is : Issue) (t : Team) (e : EngineId) (c : Cmd) (s : State) : State :=
  let s1 := countDraw is c (passOver is s)
  if bindingsAdmit t e c then s1.enqueue is.key.frame e c
  else s1.engineFaultTo (teamKeyOf is.key is.rod) is.rod.launch is.rod.rod
    { cause := .engineCommandFault, orig := none, word := c.word, addr := 0, progress := 0, engine := e }

/-- An instance with one rod's signature. -/
def Cmd.toInstance (c : Cmd) : Instance :=
  { word := c.word, e0 := c.e0, e1 := c.e1, e2 := c.e2, captured := none, item := c.item, count := c.count, signed := 0, ord := 0,
    partials := c.partials, last := c.rod, counted := true }

/-- The rod signs; the capturing rod's item counts a draw as it signs (R60, R61, R154). -/
def signJoin (is : Issue) (t : Team) (j : Nat) (same : DWord → Bool) (c : Cmd) (s : State) : State :=
  let draws := capturing t j is.rod
  match s.sign is.key is.rod j same { c.toInstance with counted := draws || !c.stochastic } with
  | .mismatch => faultEnabled is .joinMismatch s
  | .full => blockEnabled is (.fullJoin j) s
  | .signed s1 =>
    let s2 := passOver is s1
    if draws then countDraw is c s2 else s2

/-- A CLASS 5 COMMAND at issue. A member of a joined command whose word names a register that its rod does not hold parks at its
signature, also where its operands are never used: DESIGN CHOICE (R219, R300; log entry 79). No command, joined or not, issues while its engine queue is full (R49, R63). -/
def commandBody (w : EWord) (q : EShape) (is : Issue) (s : State) : State :=
  if !is.capOn then passOver is s
  else
    match s.team? (teamKeyOf is.key is.rod) with
    | none => passOver is s
    | some t =>
      let e := engineOf is.word
      if s.queueClosed is.key.frame e then s
      else
        let checked := !w.j || capturing t w.e2.toNat is.rod
        match capture is w q with
        | .error c => faultEnabled is c s
        | .ok ops =>
          let c := commandOf is ops
          match (if checked then operandCause s is t c else none) with
          | some cause => faultEnabled is cause s
          | none =>
            if w.j then
              signJoin is t w.e2.toNat (fun x => fieldClass x == fieldClass is.word && fieldIndex x == fieldIndex is.word) c s
            else enterQueue is t e c s

def commandOp (i : Instr) (s : State) : Host.Outcome State Fault Refusal :=
  match eShape i with
  | some (w, q) => issueWord i (commandBody w q) s
  | none => issueWord i passOver s

/-! ## The commands of the three engines -/

def execVadd (w : EWord) (s : State) : Host.Outcome State Fault Refusal := commandOp (.vadd w) s
def execVsub (w : EWord) (s : State) : Host.Outcome State Fault Refusal := commandOp (.vsub w) s
def execVmul (w : EWord) (s : State) : Host.Outcome State Fault Refusal := commandOp (.vmul w) s
def execVfma (w : EWord) (s : State) : Host.Outcome State Fault Refusal := commandOp (.vfma w) s
def execVmin (w : EWord) (s : State) : Host.Outcome State Fault Refusal := commandOp (.vmin w) s
def execVmax (w : EWord) (s : State) : Host.Outcome State Fault Refusal := commandOp (.vmax w) s
def execVscl (w : EWord) (s : State) : Host.Outcome State Fault Refusal := commandOp (.vscl w) s
def execVcvt (w : EWord) (s : State) : Host.Outcome State Fault Refusal := commandOp (.vcvt w) s
def execVmov (w : EWord) (s : State) : Host.Outcome State Fault Refusal := commandOp (.vmov w) s
def execVfill (w : EWord) (s : State) : Host.Outcome State Fault Refusal := commandOp (.vfill w) s
def execVcmp (w : EWord) (s : State) : Host.Outcome State Fault Refusal := commandOp (.vcmp w) s
def execVsel (w : EWord) (s : State) : Host.Outcome State Fault Refusal := commandOp (.vsel w) s
def execVsum (w : EWord) (s : State) : Host.Outcome State Fault Refusal := commandOp (.vsum w) s
def execVmaxr (w : EWord) (s : State) : Host.Outcome State Fault Refusal := commandOp (.vmaxr w) s
def execVlogc (w : EWord) (s : State) : Host.Outcome State Fault Refusal := commandOp (.vlogc w) s
def execVexpc (w : EWord) (s : State) : Host.Outcome State Fault Refusal := commandOp (.vexpc w) s
def execVex2 (w : EWord) (s : State) : Host.Outcome State Fault Refusal := commandOp (.vex2 w) s
def execVsigm (w : EWord) (s : State) : Host.Outcome State Fault Refusal := commandOp (.vsigm w) s
def execVtanh (w : EWord) (s : State) : Host.Outcome State Fault Refusal := commandOp (.vtanh w) s
def execCpin (w : EWord) (s : State) : Host.Outcome State Fault Refusal := commandOp (.cpin w) s
def execCpout (w : EWord) (s : State) : Host.Outcome State Fault Refusal := commandOp (.cpout w) s
def execCpff (w : EWord) (s : State) : Host.Outcome State Fault Refusal := commandOp (.cpff w) s
def execCp2d (w : EWord) (s : State) : Host.Outcome State Fault Refusal := commandOp (.cp2d w) s
def execCppl (w : EWord) (s : State) : Host.Outcome State Fault Refusal := commandOp (.cppl w) s
def execCpacc (w : EWord) (s : State) : Host.Outcome State Fault Refusal := commandOp (.cpacc w) s
def execCpaci (w : EWord) (s : State) : Host.Outcome State Fault Refusal := commandOp (.cpaci w) s
def execCppeer (w : EWord) (s : State) : Host.Outcome State Fault Refusal := commandOp (.cppeer w) s
def execWindef (w : EWord) (s : State) : Host.Outcome State Fault Refusal := commandOp (.windef w) s
def execWinrel (w : EWord) (s : State) : Host.Outcome State Fault Refusal := commandOp (.winrel w) s
def execAczero (w : EWord) (s : State) : Host.Outcome State Fault Refusal := commandOp (.aczero w) s
def execMma (w : EWord) (s : State) : Host.Outcome State Fault Refusal := commandOp (.mma w) s
def execMscl (w : EWord) (s : State) : Host.Outcome State Fault Refusal := commandOp (.mscl w) s
def execMchk (w : EWord) (s : State) : Host.Outcome State Fault Refusal := commandOp (.mchk w) s

/-! ## ACRES, ACREL (R323) -/

/-- Both take effect at issue and have no queue entry. -/
def rowsBody (w : EWord) (f : Issue → Team → Nat → Nat → State → State) (is : Issue) (s : State) : State :=
  if !is.capOn then passOver is s
  else
    match s.team? (teamKeyOf is.key is.rod) with
    | none => passOver is s
    | some t =>
      match captureField is .reg w.e0, captureField is .reg w.e1 with
      | .ok a, .ok n =>
        if lo32 n = 0 then faultEnabled is .illegalOperand s
        else if t.accRows < lo32 a + lo32 n then faultEnabled is .accumulatorBound s
        else f is t (lo32 a) (lo32 n) s
      | .error c, _ => faultEnabled is c s
      | _, .error c => faultEnabled is c s

/-- Rows of the rod whose release is not pending. While an ACREL still waits its rows count as neither free nor held, so that an
ACRES of one blocks until the release takes effect: DESIGN CHOICE (R323; log entry 77). -/
def ownRows (s : State) (tk : TeamKey) (r : Rod) : List Nat :=
  let leaving := (((s.team? tk).map Team.releasing).getD []).flatMap (fun e => if e.1 = r.rod then e.2.1 else [])
  r.rows.filter (fun x => !leaving.contains x)

/-- Whether every row of a range is free or already the rod's. -/
def rowsGrantable (s : State) (tk : TeamKey) (r : Rod) (a n : Nat) : Bool :=
  (List.range' a n).all (fun x => (ownRows s tk r).contains x || s.rowFree tk x)

def addRows (r : Rod) (a n : Nat) : Rod :=
  { r with rows := r.rows ++ (List.range' a n).filter (fun x => !r.rows.contains x) }

/-- Whether every row of a range is the rod's already: nothing is to be granted. -/
def rowsOwned (s : State) (tk : TeamKey) (r : Rod) (a n : Nat) : Bool :=
  (List.range' a n).all (fun x => (ownRows s tk r).contains x)

def acresBody (is : Issue) (_t : Team) (a n : Nat) (s : State) : State :=
  let tk := teamKeyOf is.key is.rod
  if rowsOwned s tk is.rod a n
      || (rowsGrantable s tk is.rod a n && !(s.frame is.key.frame).olderWaits (ageKey is.rod)) then
    (passOver is s).modRod is.key (fun r => addRows r a n)
  else
    (blockEnabled is (.acres a n) s).modFrame is.key.frame (fun f => f.addRequest
      { launch := is.rod.launch, item0 := is.rod.item0.toNat
        kind := .acres (match is.key.slot with | .rod k => k | .firmware => 0) (lowest is.enabled) a n })

def execAcres (w : EWord) (s : State) : Host.Outcome State Fault Refusal :=
  issueWord (.acres w) (rowsBody w acresBody) s

def acrelBody (is : Issue) (_t : Team) (a n : Nat) (s : State) : State :=
  let tk := teamKeyOf is.key is.rod
  (passOver is s).releaseRows tk is.rod.rod
    ((ownRows s tk is.rod).filter (fun x => a ≤ x && x < a + n))

def execAcrel (w : EWord) (s : State) : Host.Outcome State Fault Refusal :=
  issueWord (.acrel w) (rowsBody w acrelBody) s

/-! ## RRED with `.j` (R250) -/

/-- The join register of a joined reduction. -/
def rredJoin (w : RWord) : Nat := RMod.bits w.mod 8 4

/-- The lanes that take part take their generations. -/
def takeGathered (s : State) (a : Pass) (e : Nat × Gathered) : Pass :=
  let (x, t) := e.2.got.foldl (fun st g => takeCarry s a.rod.launch g.1 g.2 st) (a.rod.lane e.1, a.carry)
  { a with rod := a.rod.setLane e.1 x, carry := t }

/-- The register an operand names, a carry under its name. -/
def Operand.place : Operand → Nat
  | .reg n | .pair n => n
  | .carry n => 248 + n
  | .none | .quad _ | .pred _ | .xreg _ | .number _ => 0

/-- A rod signs with the partial result of its sub-rod, computed as in R249, so under `.sat` each rod's partial is clamped and
then the combination: DEDUCED (log entry 63); the destination of the lanes that took part stays interlocked
until the engine writes it. It signs only if the guard is true in the lowest active lane (R204), and issues only while the
vector engine's queue takes an entry (R63). The firmware context belongs to no team and is a member of no join register
(R358; log entry 37). -/
def rredJoinedBody (w : RWord) (is : Issue) (s : State) : State :=
  if !is.capOn then passOver is s
  else if is.isFirmware then faultEnabled is .joinMismatch s
  else if s.queueClosed is.key.frame .ve then s
  else
  let p := planOf is.instr
  let g := gatherAll s is p (ripples s is p.slots)
  let a := g.took.foldl (takeGathered s) g.pass
  match s.team? (teamKeyOf is.key is.rod), g.took with
  | none, _ | _, [] => finishPass is p g.pass s
  | some t, took =>
    let j := rredJoin w
    let sig := t.nextOrd
    let part : Partial :=
      { rod := is.rod.rod
        value := rredFn (RMod.bits w.mod 12 3) (RMod.w w.mod) (RMod.u w.mod) (RMod.sat w.mod)
          (g.inputs.map (fun e => e.2.a))
        lanes := took.foldl (fun m e => withBit m e.1 true) 0
        sig := sig }
    let c : Cmd := { commandOf is (0, 0, 0) with partials := [part] }
    let same (x : DWord) : Bool :=
      fieldClass x == 0 && fieldIndex x == fieldIndex is.word && x.extractLsb' 12 3 == is.word.extractLsb' 12 3
    match s.sign is.key is.rod j same c.toInstance with
    | .mismatch => faultEnabled is .joinMismatch s
    | .full => blockEnabled is (.fullJoin j) s
    | .signed s1 =>
      -- `finishPass` on the lanes that did not take part; those that did go on, interlocked
      let hold (l : Nat) (x : Lane) : Lane :=
        match tableFind l took with
        | some e =>
          { x with readCount := (a.rod.lane l).readCount, carryBits := (a.rod.lane l).carryBits
                   joined := x.joined ++ [{ j := j, sig := sig, dst := e.ops.dst.place, wide := RMod.w w.mod }] }
        | none => x
      match s1.rod? is.key with
      | none => s1
      | some r1 =>
        let b : Pass := { a with rod := r1.mapLanes is.enabled (fun l x => hold l.val x) }
        (finishPass is p b s1).modRod is.key (fun q => q.mapLanes part.lanes (fun _ x => x.advance))

def execRredJoined (w : RWord) (s : State) : Host.Outcome State Fault Refusal :=
  issueWord (.rredJoined w) (rredJoinedBody w) s

end Sys2Proof.Machine
end

