-- ==== Sys2Proof/Machine/Functions.lean ====
section
/-!
DEFINITION. Sys2Proof/Machine/Functions.lean: the correctly rounded functions (R149, R158, R260, R311). A function value is
bracketed by fixed-point bounds; when both bounds round to the same encoding that encoding is the result, else the
bounds are drawn closer. Where they stay apart after the last refinement the result is a free value (log entry 9).
-/

namespace Sys2Proof.Machine

/-! ## Fixed-point series: `x` stands for `x / 2^n` -/

/-- `sum z^(2k+1) / (2k+1)`: the inverse hyperbolic tangent; alternating, the inverse tangent. -/
def atanSeries (alt : Bool) (n z2 : Nat) : Nat → Nat → Int → Nat → Int
  | 0, _, acc, _ => acc
  | fuel + 1, k, acc, t =>
    let term : Int := ((t / (2 * k + 1) : Nat) : Int)
    atanSeries alt n z2 fuel (k + 1) (if alt && k % 2 = 1 then acc - term else acc + term) (t * z2 / 2 ^ n)

/-- atanh(num / den) at scale `2^n`. -/
def atanhFix (n num den : Nat) : Nat :=
  let z := num * 2 ^ n / den
  (atanSeries false n (z * z / 2 ^ n) (n / 3 + 4) 0 0 z).toNat

/-- atan(1 / den) at scale `2^n`. -/
def atanFix (n den : Nat) : Nat :=
  let z := 2 ^ n / den
  (atanSeries true n (z * z / 2 ^ n) (n / 4 + 4) 0 0 z).toNat

def ln2Fix (n : Nat) : Nat := 2 * atanhFix n 1 3

/-- pi by Machin's formula. -/
def piFix (n : Nat) : Nat := 16 * atanFix n 5 - 4 * atanFix n 239

/-- The exponential series of `r / 2^n`, `0 ≤ r < 2^n`. -/
def expSeries (n r : Nat) : Nat → Nat → Nat → Nat → Nat
  | 0, _, acc, _ => acc
  | fuel + 1, k, acc, t => expSeries n r fuel (k + 1) (acc + t) (t * r / 2 ^ n / (k + 1))

def expFix (n r : Nat) : Nat := expSeries n r (n / 2 + 8) 0 0 (2 ^ n)

/-- The sine series (from `t = r`, `k = 1`) or the cosine series (from `t = 1`, `k = 0`). -/
def trigSeries (n r2 : Nat) : Nat → Nat → Bool → Int → Nat → Int
  | 0, _, _, acc, _ => acc
  | fuel + 1, k, minus, acc, t =>
    trigSeries n r2 fuel (k + 2) (!minus) (if minus then acc - (t : Int) else acc + (t : Int))
      (t * r2 / 2 ^ n / ((k + 1) * (k + 2)))

def sinFix (n r : Nat) : Nat := (trigSeries n (r * r / 2 ^ n) (n / 4 + 8) 1 false 0 r).toNat
def cosFix (n r : Nat) : Nat := (trigSeries n (r * r / 2 ^ n) (n / 4 + 8) 0 false 0 (2 ^ n)).toNat

/-! ## Brackets -/

/-- A bracket: the value lies strictly between `(v - err) * 2^e` and `(v + err) * 2^e`, signed. -/
structure Bracket where
  neg : Bool
  v : Nat
  err : Nat
  e : Int
  deriving DecidableEq, Repr

/-- The result both ends of a bracket agree on. -/
def Bracket.agree {α : Type} [DecidableEq α] (b : Bracket) (f : Num → α) : Option α :=
  if b.v ≤ b.err + 1 then none
  else
    let lo := f (.fin b.neg (b.v - b.err) b.e true)
    let hi := f (.fin b.neg (b.v + b.err - 1) b.e true)
    if lo = hi then some lo else none

/-- Tries the precisions in turn. -/
def refine {α : Type} [DecidableEq α] (br : Nat → Bracket) (f : Num → α) : List Nat → Option α
  | [] => none
  | n :: t =>
    match (br n).agree f with
    | some r => some r
    | none => refine br f t

def precisions : List Nat := [128, 256, 512, 1024]

/-- Slack of the series in units of the last place. -/
def seriesErr : Nat := 2 ^ 20

/-! ## The functions on dyadic arguments -/

/-- `2^x` of a finite `x` that is no integer, `|x| < 2^20`. -/
def exp2Bracket (neg : Bool) (m : Nat) (e : Int) (n : Nat) : Bracket :=
  -- e < 0 here: x = ± m / 2^k
  let k := (-e).toNat
  let whole : Int := (m / 2 ^ k : Nat)
  let frac := m % 2 ^ k
  let fl : Int := if neg then -whole - 1 else whole
  let fr := if neg then 2 ^ k - frac else frac
  let r := fr * ln2Fix n / 2 ^ k
  { neg := false, v := expFix n r, err := seriesErr, e := fl - (n : Int) }

/-- `2^x` as an exact value where it is one, or as a bracket (R158). -/
def exp2Num (neg : Bool) (m : Nat) (e : Int) : Num ⊕ (Nat → Bracket) :=
  if 20 < e + (bitLen m : Int) then .inl (.fin false 1 (if neg then -1048576 else 1048576) true)
  else if 0 ≤ e then
    let v : Int := (m <<< e.toNat : Nat)
    .inl (.fin false 1 (if neg then -v else v) false)
  else if m % 2 ^ (-e).toNat = 0 then
    let v : Int := (m / 2 ^ (-e).toNat : Nat)
    .inl (.fin false 1 (if neg then -v else v) false)
  else if e + (bitLen m : Int) < -200 then
    -- 2^x is 1 with something tiny beside it
    .inl (if neg then .fin false (2 ^ 64 - 1) (-64) true else .fin false (2 ^ 64) (-64) true)
  else .inr (exp2Bracket neg m e)

/-- `log2 |x|` of a finite `x` that is no power of two. -/
def log2Bracket (m : Nat) (e : Int) (n : Nat) : Bracket :=
  let len := bitLen m
  -- y = m / 2^len in [1/2, 1), or twice that when it is nearer to 1
  let low := 3 * m < 2 * 2 ^ len
  let den := if low then 2 ^ (len - 1) else 2 ^ len
  let ex : Int := e + (len : Int) - (if low then 1 else 0)
  let up := decide (den ≤ m)
  let a := atanhFix n (if up then m - den else den - m) (m + den)
  let l := 2 * a * 2 ^ n / ln2Fix n
  let total : Int := ex * ((2 ^ n : Nat) : Int) + (if up then (l : Int) else -(l : Int))
  { neg := decide (total < 0), v := total.natAbs, err := seriesErr, e := -(n : Int) }

/-- `e^-y` of `y = m * 2^e`, `0 < y < 2^9`, as `(v, shift)`: the value is `v / 2^(n + shift)`, `v` about `2^n`. -/
def expNegFix (m : Nat) (e : Int) (n : Nat) : Nat × Nat :=
  let y := if 0 ≤ e then m <<< (e.toNat + n) else (m <<< n) >>> (-e).toNat
  let l := ln2Fix n
  let k := y / l
  (expFix n (l - (y - k * l)), k + 1)

/-- Extra bits for an argument far below 1. -/
def smallBits (m : Nat) (e : Int) : Nat := (-(e + (bitLen m : Int))).toNat

/-- tanh of `m * 2^e` below 64. -/
def tanhBracket (neg : Bool) (m : Nat) (e : Int) (n' : Nat) : Bracket :=
  let n := n' + 2 * smallBits m e
  let (v, s) := expNegFix m (e + 1) n
  let t := v >>> s
  { neg, v := (2 ^ n - t) * 2 ^ n / (2 ^ n + t), err := seriesErr, e := -(n : Int) }

/-- The logistic sigmoid, below 200 in magnitude. -/
def sigmBracket (neg : Bool) (m : Nat) (e : Int) (n : Nat) : Bracket :=
  let (v, s) := expNegFix m e n
  -- u = v / 2^(n+s) = e^-|x|; 1 / (1 + u), or u / (1 + u)
  let one := 2 ^ (n + s)
  if neg then { neg := false, v := v * one / (one + v), err := seriesErr, e := -((n + s : Nat) : Int) }
  else { neg := false, v := 2 ^ n * one / (one + v), err := seriesErr, e := -(n : Int) }

/-- The argument reduced to the first octant: quadrant and remainder at scale `2^n`, with its sign (R158). -/
def reduceArg (m : Nat) (e : Int) (n : Nat) : Nat × Bool × Nat :=
  let g := n + (e + (bitLen m : Int)).toNat + 16
  let x := if 0 ≤ e then m <<< (e.toNat + g) else (m <<< g) >>> (-e).toNat
  let half := piFix g / 2
  let q := (2 * x + half) / (2 * half)
  let r : Int := (x : Int) - ((q * half : Nat) : Int)
  (q % 4, decide (r < 0), r.natAbs >>> (g - n))

def trigBracket (cosine neg : Bool) (m : Nat) (e : Int) (n' : Nat) : Bracket :=
  let n := n' + 2 * smallBits m e
  let (q, rneg, r) := reduceArg m e n
  let q' := if cosine then (q + 1) % 4 else q
  -- sin(q * pi/2 + r)
  let useCos := q' % 2 = 1
  let flip := 2 ≤ q'
  let v := if useCos then cosFix n r else sinFix n r
  let s := (decide flip != (if useCos then false else rneg)) != (if cosine then false else neg)
  { neg := s, v, err := seriesErr, e := -(n : Int) }

/-! ## The functions with their special inputs (R260) -/

/-- Which function. -/
inductive Func where
  | exp2
  | log2
  | sin
  | cos
  | tanh
  | sigm
  deriving DecidableEq, Repr

/-- The exact value, or a bracket that can be refined. -/
def Func.value (f : Func) (x : Num) : Num ⊕ (Nat → Bracket) :=
  match f, x with
  | _, .nan => .inl .nan
  | .exp2, .inf n => .inl (if n then .zero false else .inf false)
  | .exp2, .zero _ => .inl (.fin false 1 0 false)
  | .exp2, .fin n m e _ => exp2Num n m e
  | .log2, .inf n => .inl (if n then .nan else .inf false)
  | .log2, .zero _ => .inl (.inf true)
  | .log2, .fin n m e _ =>
    if n then .inl .nan
    else if m = 2 ^ (bitLen m - 1) then .inl (Num.ofInt (e + (bitLen m : Int) - 1))
    else .inr (log2Bracket m e)
  | .sin, .inf _ => .inl .nan
  | .sin, .zero n => .inl (.zero n)
  | .sin, .fin n m e _ => .inr (trigBracket false n m e)
  | .cos, .inf _ => .inl .nan
  | .cos, .zero _ => .inl (.fin false 1 0 false)
  | .cos, .fin n m e _ =>
    if e + (bitLen m : Int) < -40 then .inl (.fin false (2 ^ 64 - 1) (-64) true) else .inr (trigBracket true n m e)
  | .tanh, .inf n => .inl (.fin n 1 0 false)
  | .tanh, .zero n => .inl (.zero n)
  | .tanh, .fin n m e _ =>
    if 6 < e + (bitLen m : Int) then .inl (.fin n (2 ^ 64 - 1) (-64) true) else .inr (tanhBracket n m e)
  | .sigm, .inf n => .inl (if n then .zero false else .fin false 1 0 false)
  | .sigm, .zero _ => .inl (.fin false 1 (-1) false)
  | .sigm, .fin n m e _ =>
    if 8 < e + (bitLen m : Int) then
      .inl (if n then .fin false 1 (-300) true else .fin false (2 ^ 64 - 1) (-64) true)
    else if e + (bitLen m : Int) < -80 then
      .inl (if n then .fin false (2 ^ 64 - 1) (-65) true else .fin false (2 ^ 63) (-64) true)
    else .inr (sigmBracket n m e)

/-- Number of a function for the free value of log entry 9. -/
def Func.code : Func → Nat
  | .exp2 => 0
  | .log2 => 1
  | .sin => 2
  | .cos => 3
  | .tanh => 4
  | .sigm => 5

/-- A function of an FP32 value, rounded once to FP32 (R158). -/
def Func.apply (f : Func) (r : Rounding) (x : Word) : Word :=
  let out (v : Num) : Word := BitVec.ofNat 32 (fp32Fmt.put .ieee r v)
  match f.value (fp32Fmt.decode r.ftz x.toNat) with
  | .inl v => out v
  | .inr b =>
    match refine b out precisions with
    | some w => w
    | none => Config.functionRest f.code x

/-- An integer-valued rounding of a signed number. -/
def roundToInt (mode d : Nat) : Num → Int
  | .fin n m e more =>
    let v : Int := (roundMag mode d n m e more : Nat)
    if n then -v else v
  | .nan | .inf _ | .zero _ => 0

/-- LOGC (R149). -/
def logc (r : Rounding) (x : Word) : Word :=
  match fp32Fmt.decode r.ftz x.toNat with
  | .nan => L32.enc .nan
  | .inf n => L32.enc (.inf n)
  | .zero n => L32.enc (.zero n)
  | .fin s m e _ =>
    let fit (v : Int) : Word :=
      let v := if (2 : Int) ^ 30 - 2 < v then (2 : Int) ^ 30 - 2 else v
      if v < -(2 : Int) ^ 30 + 2 then L32.enc (.zero s) else L32.enc (.fin s v)
    if m = 2 ^ (bitLen m - 1) then fit ((e + (bitLen m : Int) - 1) * 2 ^ 23)
    else
      let scaled (n : Nat) : Bracket :=
        let b := log2Bracket m e n
        { b with e := b.e + 23 }
      match refine scaled (roundToInt r.mode r.d) precisions with
      | some v => fit v
      | none => Config.functionRest 6 x

/-- EXPC (R149). -/
def expc (r : Rounding) (x : Word) : Word :=
  let out (v : Num) : Word := BitVec.ofNat 32 (fp32Fmt.put .ieee r v)
  match l32Of x with
  | .nan => out .nan
  | .inf n => out (.inf n)
  | .zero n => out (.zero n)
  | .fin s e =>
    let sign (v : Num) : Num := if s then v.negate else v
    if e = 0 then out (.fin s 1 0 false)
    else
      match exp2Num (decide (e < 0)) e.natAbs (-23) with
      | .inl v => out (sign v)
      | .inr b =>
        match refine (fun n => { b n with neg := s }) out precisions with
        | some w => w
        | none => Config.functionRest 7 x

end Sys2Proof.Machine
end

