-- ==== Sys2Proof/Machine/FloatOps.lean ====
section
/-!
DEFINITION. Sys2Proof/Machine/FloatOps.lean: class 2 and class 7: floating point, packed halves, conversions, L32, functions and
the F64 extension (R253 to R260, R268, R269).
-/

namespace Sys2Proof.Machine

/-! ## Rounding of a lane instruction -/

/-- The rounding of result `k` of an instruction on a lane (R150, R153). -/
def laneRounding (m : BitVec 18) (x : LaneIn) (k : Nat) : Rounding :=
  { mode := RMod.rm m
    d := if RMod.rm m = 5 then laneDraw x.key x.lane.item (x.lane.rsCount.toNat + k) else 0
    ftz := RMod.ftz m }

/-- The draws of an instruction that rounds `n` results (R153). -/
def drawsOf (m : BitVec 18) (n : Nat) : Nat := if RMod.rm m = 5 then n else 0

/-- An FP32 operand. -/
def f32In (m : BitVec 18) (v : DWord) : Num := fp32Fmt.decode (RMod.ftz m) (v.setWidth 32 : Word).toNat

/-- An FP32 result of an exact value, rounded once (R254). -/
def f32Lane (m : BitVec 18) (f : Num → Num → Num → Num) (x : LaneIn) : LaneOut :=
  { write := .reg (BitVec.ofNat 32 (fp32Fmt.put .ieee (laneRounding m x 0)
      (f (f32In m x.a) (f32In m x.b) (f32In m x.c))))
    draws := drawsOf m 1 }

/-- Sum, product and fused product of exact values (R139, R157). -/
def faddNum (mode : Nat) (a b : Num) : Num := sumNum mode [a, b]
def ffmaNum (mode : Nat) (a b c : Num) : Num := sumNum mode [a.mul b, c]
def oneNum : Num := .fin false 1 0 false

/-- Bits enough for any rounding of a 24-bit or a 53-bit significand. -/
def bits32 : Nat := 48
def bits64 : Nat := 80

/-! ## FP32 (R253 to R256) -/

def execFadd (w : RWord) (s : State) : Host.Outcome State Fault Refusal :=
  laneOp (.fadd w) (f32Lane w.mod (fun a b _ => faddNum (RMod.rm w.mod) a b)) s
def execFsub (w : RWord) (s : State) : Host.Outcome State Fault Refusal :=
  laneOp (.fsub w) (f32Lane w.mod (fun a b _ => faddNum (RMod.rm w.mod) a b.negate)) s
def execFmul (w : RWord) (s : State) : Host.Outcome State Fault Refusal :=
  laneOp (.fmul w) (f32Lane w.mod (fun a b _ => a.mul b)) s
def execFfma (w : RWord) (s : State) : Host.Outcome State Fault Refusal :=
  laneOp (.ffma w) (f32Lane w.mod (fun a b c => ffmaNum (RMod.rm w.mod) a b c)) s
def execFmin (w : RWord) (s : State) : Host.Outcome State Fault Refusal :=
  laneOp (.fmin w) (f32Lane w.mod (fun a b _ => a.minMax false b)) s
def execFmax (w : RWord) (s : State) : Host.Outcome State Fault Refusal :=
  laneOp (.fmax w) (f32Lane w.mod (fun a b _ => a.minMax true b)) s
def execFminn (w : RWord) (s : State) : Host.Outcome State Fault Refusal :=
  laneOp (.fminn w) (f32Lane w.mod (fun a b _ => a.minMaxNumber false b)) s
def execFmaxn (w : RWord) (s : State) : Host.Outcome State Fault Refusal :=
  laneOp (.fmaxn w) (f32Lane w.mod (fun a b _ => a.minMaxNumber true b)) s

/-- FRND rounds to an integer value, which FP32 then holds exactly. -/
def execFrnd (w : RWord) (s : State) : Host.Outcome State Fault Refusal :=
  laneOp (.frnd w) (fun x =>
    f32Lane w.mod (fun a _ _ => a.roundIntegral (RMod.rm w.mod) (laneRounding w.mod x 0).d) x) s

def execFdiv (w : RWord) (s : State) : Host.Outcome State Fault Refusal :=
  laneOp (.fdiv w) (f32Lane w.mod (fun a b _ => Num.div bits32 a b)) s
def execFsqrt (w : RWord) (s : State) : Host.Outcome State Fault Refusal :=
  laneOp (.fsqrt w) (f32Lane w.mod (fun a _ _ => Num.sqrt bits32 a)) s
def execFrcp (w : RWord) (s : State) : Host.Outcome State Fault Refusal :=
  laneOp (.frcp w) (f32Lane w.mod (fun a _ _ => Num.div bits32 oneNum a)) s
def execFrsq (w : RWord) (s : State) : Host.Outcome State Fault Refusal :=
  laneOp (.frsq w) (f32Lane w.mod (fun a _ _ => Num.rsqrt bits32 a)) s
def execFcmp (w : RWord) (s : State) : Host.Outcome State Fault Refusal :=
  laneOp (.fcmp w) (fun x =>
    .of (.pred (condFloat (RMod.bits w.mod 10 3) (f32In w.mod x.a) (f32In w.mod x.b)))) s
def execFclass (w : RWord) (s : State) : Host.Outcome State Fault Refusal :=
  laneOp (.fclass w) (fun x =>
    .of (.reg (1#32 <<< classOfFloat fp32Fmt (x.a.setWidth 32 : Word).toNat))) s

/-! ## Packed halves (R257) -/

/-- The format of the halves. -/
def halfFmt (m : BitVec 18) : FloatFmt := if RMod.bf m then bf16Fmt else fp16Fmt

/-- Half `k` of an operand. -/
def halfIn (m : BitVec 18) (v : DWord) (k : Nat) : Num :=
  (halfFmt m).decode (RMod.ftz m) (v.extractLsb' (16 * k) 16).toNat

/-- Both halves of a packed result, each rounded with its own draw. Overflow under RTZ, RDN and RUP is that of R151's first bullet
(R257 sends these modes to R151, whose second bullet could be meant): DEDUCED (log entry 47). -/
def packedLane (m : BitVec 18) (f : Num → Num → Num → Num) (x : LaneIn) : LaneOut :=
  let half (k : Nat) : BitVec 16 :=
    BitVec.ofNat 16 ((halfFmt m).put .ieee (laneRounding m x k) (f (halfIn m x.a k) (halfIn m x.b k) (halfIn m x.c k)))
  { write := .reg (half 1 ++ half 0), draws := drawsOf m 2 }

def execHadd2 (w : RWord) (s : State) : Host.Outcome State Fault Refusal :=
  laneOp (.hadd2 w) (packedLane w.mod (fun a b _ => faddNum (RMod.rm w.mod) a b)) s
def execHmul2 (w : RWord) (s : State) : Host.Outcome State Fault Refusal :=
  laneOp (.hmul2 w) (packedLane w.mod (fun a b _ => a.mul b)) s
def execHfma2 (w : RWord) (s : State) : Host.Outcome State Fault Refusal :=
  laneOp (.hfma2 w) (packedLane w.mod (fun a b c => ffmaNum (RMod.rm w.mod) a b c)) s
def execHmin2 (w : RWord) (s : State) : Host.Outcome State Fault Refusal :=
  laneOp (.hmin2 w) (packedLane w.mod (fun a b _ => a.minMax false b)) s
def execHmax2 (w : RWord) (s : State) : Host.Outcome State Fault Refusal :=
  laneOp (.hmax2 w) (packedLane w.mod (fun a b _ => a.minMax true b)) s

/-! ## Conversions (R258) and L32 (R259) -/

/-- CVT (R258). -/
def cvtLane (w : RWord) (x : LaneIn) : LaneOut :=
  let d := RMod.bits w.mod 13 5
  let src := w.b.toNat
  let rounds := convRounds d src
  let r := if rounds then laneRounding w.mod x 0 else { mode := 0, d := 0, ftz := false }
  { write := .reg (BitVec.ofNat 32
      (convert d src r (RMod.nan w.mod) (w.mod.getLsbD 12) (RMod.ftz w.mod) (x.a.setWidth 32 : Word).toNat))
    draws := if rounds then drawsOf w.mod 1 else 0 }

def execCvt (w : RWord) (s : State) : Host.Outcome State Fault Refusal := laneOp (.cvt w) (cvtLane w) s

/-- LOGC flushes its input, EXPC its result, under .ftz (R259). -/
def execLogc (w : RWord) (s : State) : Host.Outcome State Fault Refusal :=
  laneOp (.logc w) (fun x =>
    { write := .reg (logc (laneRounding w.mod x 0) (x.a.setWidth 32)), draws := drawsOf w.mod 1 }) s
def execExpc (w : RWord) (s : State) : Host.Outcome State Fault Refusal :=
  laneOp (.expc w) (fun x =>
    { write := .reg (expc (laneRounding w.mod x 0) (x.a.setWidth 32)), draws := drawsOf w.mod 1 }) s
def execLmul (w : RWord) (s : State) : Host.Outcome State Fault Refusal :=
  laneOp (.lmul w) (fun x =>
    .of (.reg (L32.enc ((l32Of (x.a.setWidth 32)).mul (l32Of (x.b.setWidth 32)))))) s
def execLdiv (w : RWord) (s : State) : Host.Outcome State Fault Refusal :=
  laneOp (.ldiv w) (fun x =>
    .of (.reg (L32.enc ((l32Of (x.a.setWidth 32)).div (l32Of (x.b.setWidth 32)))))) s
/-- The 16-bit power of LPOW spans the b and c fields. -/
def execLpow (w : RWord) (s : State) : Host.Outcome State Fault Refusal :=
  laneOp (.lpow w) (fun x => .of (.reg (L32.enc ((l32Of (x.a.setWidth 32)).pow (w.b ++ w.c).toInt)))) s
def execLroot (w : RWord) (s : State) : Host.Outcome State Fault Refusal :=
  laneOp (.lroot w) (fun x =>
    .of (.reg (L32.enc ((l32Of (x.a.setWidth 32)).root (RMod.bits w.mod 10 3 + 1))))) s

/-! ## Functions (R260) -/

def funcLane (f : Func) (m : BitVec 18) (x : LaneIn) : LaneOut :=
  { write := .reg (f.apply (laneRounding m x 0) (x.a.setWidth 32)), draws := drawsOf m 1 }

def execFex2 (w : RWord) (s : State) : Host.Outcome State Fault Refusal := laneOp (.fex2 w) (funcLane .exp2 w.mod) s
def execFlg2 (w : RWord) (s : State) : Host.Outcome State Fault Refusal := laneOp (.flg2 w) (funcLane .log2 w.mod) s
def execFsin (w : RWord) (s : State) : Host.Outcome State Fault Refusal := laneOp (.fsin w) (funcLane .sin w.mod) s
def execFcos (w : RWord) (s : State) : Host.Outcome State Fault Refusal := laneOp (.fcos w) (funcLane .cos w.mod) s
def execFtanh (w : RWord) (s : State) : Host.Outcome State Fault Refusal := laneOp (.ftanh w) (funcLane .tanh w.mod) s
def execFsigm (w : RWord) (s : State) : Host.Outcome State Fault Refusal := laneOp (.fsigm w) (funcLane .sigm w.mod) s

/-! ## The F64 extension (R268, R269) -/

def f64In (m : BitVec 18) (v : DWord) : Num := fp64Fmt.decode (RMod.ftz m) v.toNat

def f64Lane (m : BitVec 18) (f : Num → Num → Num → Num) (x : LaneIn) : LaneOut :=
  { write := .pair (BitVec.ofNat 64 (fp64Fmt.put .ieee (laneRounding m x 0)
      (f (f64In m x.a) (f64In m x.b) (f64In m x.c))))
    draws := drawsOf m 1 }

def execDadd (w : RWord) (s : State) : Host.Outcome State Fault Refusal :=
  laneOp (.dadd w) (f64Lane w.mod (fun a b _ => faddNum (RMod.rm w.mod) a b)) s
def execDmul (w : RWord) (s : State) : Host.Outcome State Fault Refusal :=
  laneOp (.dmul w) (f64Lane w.mod (fun a b _ => a.mul b)) s
def execDfma (w : RWord) (s : State) : Host.Outcome State Fault Refusal :=
  laneOp (.dfma w) (f64Lane w.mod (fun a b c => ffmaNum (RMod.rm w.mod) a b c)) s
def execDdiv (w : RWord) (s : State) : Host.Outcome State Fault Refusal :=
  laneOp (.ddiv w) (f64Lane w.mod (fun a b _ => Num.div bits64 a b)) s
def execDsqrt (w : RWord) (s : State) : Host.Outcome State Fault Refusal :=
  laneOp (.dsqrt w) (f64Lane w.mod (fun a _ _ => Num.sqrt bits64 a)) s

/-- DCVT (R269). -/
def dcvtLane (w : RWord) (x : LaneIn) : LaneOut :=
  let d := RMod.bits w.mod 13 5
  let v := convert d w.b.toNat (laneRounding w.mod x 0) false false (RMod.ftz w.mod) x.a.toNat
  { write := .value (d == 0 || d == 30) (BitVec.ofNat 64 v), draws := drawsOf w.mod 1 }

def execDcvt (w : RWord) (s : State) : Host.Outcome State Fault Refusal := laneOp (.dcvt w) (dcvtLane w) s

end Sys2Proof.Machine
end

