-- ==== Sys2Proof/Machine/EngineRun.lean ====
section
/-!
DEFINITION. Sys2Proof/Machine/EngineRun.lean: what engines do with queued commands (R302 to R330, R443): start, finish, stop on
a run fault, cancellation, delivery of engine faults, and the issue stop of sys.engctl (R361).
-/

namespace Sys2Proof.Machine

/-! ## Vector commands (R307 to R311) -/

def readElem (fs : Cells 8) (a : Int) (e : Nat) : Nat := ofLe (cellsRead fs a.toNat e)

def Cmd.mode (c : Cmd) : Nat := ((Cmd.eword c).cmod.extractLsb' 0 3).toNat
def Cmd.ftz (c : Cmd) : Bool := (Cmd.eword c).cmod.getLsbD 3
def Cmd.flag4 (c : Cmd) : Bool := (Cmd.eword c).cmod.getLsbD 4

/-- The rounding of the result with an ordinal (R154). -/
def Cmd.rounding (c : Cmd) (kb : DWord) (ordinal : Nat) : Rounding :=
  { mode := c.mode
    d := if c.mode = 5 then engineDraw kb c.item c.count.toNat ordinal else 0
    ftz := c.ftz }

/-- Element `j` of the destination; none where it stays unchanged. -/
def vectorElem (kb : DWord) (c : Cmd) (j : Nat) (a b d : Nat) : Option Nat :=
  let f (x : Nat) : Num := fp32Fmt.decode c.ftz x
  let r := c.rounding kb j
  let put (v : Num) : Option Nat := some (fp32Fmt.put .ieee r v)
  let plain (v : Num) : Option Nat := some (fp32Fmt.put .ieee { mode := 0, d := 0, ftz := c.ftz } v)
  let fn (g : Func) : Option Nat := some (g.apply r (BitVec.ofNat 32 a)).toNat
  match c.index with
  | 0x00 => put (sumNum c.mode [f a, f b])
  | 0x01 => put (sumNum c.mode [f a, (f b).negate])
  | 0x02 => put ((f a).mul (f b))
  | 0x03 => put (sumNum c.mode [(f a).mul (f b), f d])
  | 0x04 => plain (if c.flag4 then (f a).minMaxNumber false (f b) else (f a).minMax false (f b))
  | 0x05 => plain (if c.flag4 then (f a).minMaxNumber true (f b) else (f a).minMax true (f b))
  | 0x06 => put ((f a).mul (f (lo32 c.e2)))
  | 0x07 =>
    let (s, t) := vcvtCodes c.e2
    some (convert t s r (c.flag4 && isFloatCode t) (c.flag4 && isIntCode t) c.ftz a)
  | 0x08 => some a
  | 0x09 => some (lo32 c.e1)
  | 0x0A => some (if condFloat c.mode (f a) (f b) then 1 else 0)
  | 0x0B => if b = 0 then none else some a
  | 0x0E => some (logc r (BitVec.ofNat 32 a)).toNat
  | 0x0F => some (expc r (BitVec.ofNat 32 a)).toNat
  | 0x10 => fn .exp2
  | 0x11 => fn .sigm
  | _ => fn .tanh

/-- Elements in ascending order over the evolving frame store; the bytes written, in order. -/
def vectorRun (kb : DWord) (c : Cmd) (q : VectorShape) : List Nat → Cells 8 → List (Nat × Byte)
  | [], _ => []
  | j :: t, fs =>
    let src (n : Nat) : Nat :=
      match q.srcs[n]? with
      | some x => readElem fs (x.1.at x.2 j) x.2
      | none => 0
    let da := q.dst.1.at q.dst.2 j
    match vectorElem kb c j (src 0) (src 1) (readElem fs da q.dst.2) with
    | none => vectorRun kb c q t fs
    | some v =>
      let w := (leBytes q.dst.2 v).zipIdx.map (fun e => (da.toNat + e.2, e.1))
      w ++ vectorRun kb c q t (cellsPut fs w)

/-- The result of VSUM and VMAXR (R310). -/
def vectorReduce (kb : DWord) (c : Cmd) (q : VectorShape) (fs : Cells 8) : Word :=
  let xs := (List.range q.reads).filterMap (fun j =>
    (q.srcs[0]?).map (fun x => fp32Fmt.decode c.ftz (readElem fs (x.1.at x.2 j) x.2)))
  if c.index = 0x0C then
    BitVec.ofNat 32 (fp32Fmt.put .ieee (c.rounding kb 0) (if xs = [] then .zero false else sumNum c.mode xs))
  else
    let best : Num :=
      match xs with
      | [] => .inf true
      | x :: t => t.foldl (fun a b => if c.flag4 then a.minMaxNumber true b else a.minMax true b) x
    BitVec.ofNat 32 (fp32Fmt.put .ieee { mode := 0, d := 0, ftz := c.ftz } best)

/-- The bytes of elements `0 .. n-1` of a region. -/
def Region.bytes (r : Region) (e n : Nat) : List Nat :=
  (List.range n).flatMap (fun j => List.range' (r.at e j).toNat e)

/-- Whether the command writes bytes it also reads, other than as an exact alias (R305, R307). A source of VCVT at the
destination's base and stride but of another element size is no exact alias: DEDUCED (log entry 66). -/
def vectorOverlaps (q : VectorShape) : Bool :=
  let d := q.dst.1.bytes q.dst.2 q.n
  q.srcs.any (fun x =>
    !(x.1.base == q.dst.1.base && x.1.stride == q.dst.1.stride && x.2 == q.dst.2)
      && (x.1.bytes x.2 q.reads).any (fun a => d.contains a))

/-- Bytes to be written with unspecified values instead (R305). -/
def freeWrites (start : Nat) (l : List (Nat × Byte)) : List (Nat × Byte) :=
  (l.map Prod.fst).zip (freeBytes start l.length)

/-- The combination of a joined reduction's partials (R250), under the flags of the word the instance keeps, where its members' words
differ in .w, .sat or .u: DESIGN CHOICE (log entry 49). -/
def reduceResult (c : Cmd) : DWord :=
  let w := Sys2Proof.rword c.word
  let ordered := (List.range 32).filterMap (fun n => (c.partials.find? (fun p => p.rod == n)).map Partial.value)
  rredFn (RMod.bits w.mod 12 3) (RMod.w w.mod) (RMod.u w.mod) (RMod.sat w.mod) ordered

/-- What a vector command leaves. -/
def vectorEffect (kb : DWord) (t : Team) (c : Cmd) (free : Nat) : Effect × Nat :=
  if c.isReduce then ({ fs := [], acc := [], payload := 0 }, free)
  else
    let q := vectorShape c
    let sum := c.index = 0x0C || c.index = 0x0D
    let r := if sum then vectorReduce kb c q t.fs else 0
    let w :=
      if sum then
        (List.range q.n).flatMap (fun _ => (leBytes 4 r.toNat).zipIdx.map (fun e => (q.dst.1.base + e.2, e.1)))
      else vectorRun kb c q (List.range q.n) t.fs
    if vectorOverlaps q then ({ fs := freeWrites free w, acc := [], payload := r }, free + w.length)
    else ({ fs := w, acc := [], payload := r }, free)

/-! ## Local copies and matrix commands -/

/-- CPACC and CPACI (R318): the frame-store element `n` of a block stands at `f + n * e`. -/
def accCopyEffect (kb : DWord) (t : Team) (c : Cmd) : Effect :=
  let q := shapeOf c.e2
  let e := elemBytes q.fmt
  let f := lo32 c.e0
  let cells := blockCells t c.e1 q
  if c.index = 0x26 then
    { fs := [], acc := cells.map (fun x => (x.2, BitVec.ofNat 32 (ofLe (cellsRead t.fs (f + x.1 * e) e)))), payload := 0 }
  else
    let out (n : Nat) (v : Word) : Nat :=
      match q.fmt with
      | 1 | 11 => v.toNat
      | 3 | 4 => convert q.fmt 1 (c.rounding kb n) c.flag4 false c.ftz v.toNat
      | _ => convert q.fmt 11 { mode := 0, d := 0, ftz := false } false c.flag4 false v.toNat
    { fs := cells.flatMap (fun x =>
        (leBytes e (out x.1 (cellGet t.acc x.2))).zipIdx.map (fun b => (f + x.1 * e + b.2, b.1)))
      acc := [], payload := 0 }

/-- What a matrix command leaves; the bytes that window parts share are read as free values (R129). -/
def matrixEffect (kb : DWord) (t : Team) (c : Cmd) (free : Nat) : Effect × Nat :=
  let plain (e : Effect) : Effect × Nat := (e, free)
  match c.index with
  | 0x44 => plain { fs := [], acc := (blockCells t c.e0 (shapeOf c.e1)).map (fun x => (x.2, 0)), payload := 0 }
  | 0x45 =>
    let q := tileOf c.e0
    let (fs1, n1) := (t.window q.wa).read t.fs free
    let (fs2, n2) := (t.window q.wb).read fs1 n1
    ({ fs := [], acc := mmaWrites kb { t with fs := fs2 } c, payload := 0 }, n2)
  | 0x46 => plain { fs := [], acc := msclWrites kb t c, payload := 0 }
  | 0x47 =>
    plain { fs := [], acc := []
            payload := mchkPayload ((Cmd.eword c).cmod.getLsbD 0)
              ((blockCells t c.e0 (shapeOf c.e1)).map (fun x => cellGet t.acc x.2)) }
  | _ => plain { fs := [], acc := [], payload := 0 }

/-- Whether a command's effect reaches global memory or another team: it is then computed as it finishes. -/
def Cmd.reaching (c : Cmd) : Bool :=
  !c.isReduce && (c.index == 0x20 || c.index == 0x21 || c.index == 0x22 || c.index == 0x23 || c.index == 0x24
    || c.index == 0x27)

/-- What a command will leave, computed as it starts (log entry 6), of the frame store as an engine reads it (R65). -/
def State.effectOf (s0 : State) (t0 : Team) (c : Cmd) : Effect × State :=
  let kb := (s0.recordOfLaunch c.launch).key
  if c.reaching then ({ fs := [], acc := [], payload := 0 }, s0)
  else
    let (fs, s) := s0.engineView t0
    let t := { t0 with fs := fs }
    match engineOf c.word with
    | .ve => let (e, n) := vectorEffect kb t c s.free; (e, { s with free := n })
    | .ce => (accCopyEffect kb t c, s)
    | .me => let (e, n) := matrixEffect kb t c s.free; (e, { s with free := n })

/-! ## Start checks (R302, R303, R316, R318, R319, R324, R326) -/

/-- Whether every row a command names is reserved to a rod it may act for (R324). -/
def State.rowsReserved (s : State) (tk : TeamKey) (c : Cmd) : Bool :=
  let held := (maskLanes c.members).flatMap (fun rod => s.rowsHeld tk rod)
  (rowsOf c.rowRange).all (fun x => held.contains x)

/-- What the start checks come to. -/
inductive StartCheck where
  | go
  | wait
  | fault (c : Cause)
  deriving DecidableEq, Repr

def ofCause : Option Cause → StartCheck
  | some c => .fault c
  | none => .go

/-- MMA's start checks. -/
def mmaStart (t : Team) (c : Cmd) (rowsOk : Bool) : Option Cause :=
  let q := tileOf c.e0
  let a := t.window q.wa
  let b := t.window q.wb
  let inInt (w : Window) : Bool := 11 ≤ w.fmt && w.fmt ≤ 21
  firstCause [
    (!a.usable || !b.usable || a.k != b.k || a.rows < q.a0 + q.m || b.rows < q.b0 + q.n || a.badBlock || b.badBlock,
      .windowFault),
    (!a.fits t.fsBytes true || !b.fits t.fsBytes true, .frameStoreBound),
    (q.isInt && !(inInt a && inInt b), .illegalOperand),
    (!rowsOk, .accumulatorBound)]

/-- CPPEER's start condition and checks (R319). -/
def State.peerStart (s : State) (c : Cmd) : StartCheck :=
  if s.peerWaits c then .wait
  else
    match s.teamOf c.launch (hi32 c.e1) with
    | some (_, p) =>
      if s.teamGone c (hi32 c.e1) then .fault .illegalOperand
      else
        match c.remoteQueue with
        | some n => if admits (p.queue n).producer (enginePartyOf .ce) then .go else .fault .illegalOperand
        | none => .go
    | none => .fault .illegalOperand

def State.startCheck (s : State) (tk : TeamKey) (t : Team) (c : Cmd) : StartCheck :=
  if c.isReduce then .go
  else if s.rowsEvicted tk.frame c then .wait
  else
    match c.index with
    | 0x24 =>
      let w := t.window (c.e0.extractLsb' 0 4).toNat
      ofCause (firstCause [(!w.usable, .windowFault), (!w.fits t.fsBytes false, .frameStoreBound)])
    | 0x25 | 0x26 | 0x44 | 0x46 | 0x47 => ofCause (firstCause [(!s.rowsReserved tk c, .accumulatorBound)])
    | 0x27 => s.peerStart c
    | 0x45 => ofCause (mmaStart t c (s.rowsReserved tk c))
    | _ => .go

/-! ## Entries of a queue -/

def Engine.setEntry (e : Engine) (n : Nat) (c : Cmd) : Engine := { e with entries := e.entries.set n c }
def Engine.dropEntry (e : Engine) (n : Nat) : Engine := { e with entries := e.entries.eraseIdx n }

def State.modEngine (s : State) (p : FrameId) (e : EngineId) (g : Engine → Engine) : State :=
  s.modFrame p (fun f => f.setEngine e (g (f.engine e)))

def State.entry? (s : State) (p : FrameId) (e : EngineId) (n : Nat) : Option Cmd := ((s.frame p).engine e).entries[n]?

def cmdTeam (p : FrameId) (c : Cmd) : TeamKey := { frame := p, slot := c.teamSlot }

/-! ## The head that stalls (R66, R442) -/

/-- The command at the head that its start conditions hold back (R64, R302). -/
def State.stalledHead (s : State) (p : FrameId) (e : EngineId) : Option Cmd :=
  match (s.frame p).engine e |>.head? with
  | none => none
  | some n =>
    match s.entry? p e n with
    | none => none
    | some c =>
      match s.team? (cmdTeam p c) with
      | none => none
      | some t => if tokensReady t c && s.startCheck (cmdTeam p c) t c != .wait then none else some c

/-- What tells one stalled head from the next. -/
def Cmd.stallKey (c : Cmd) : Nat × Nat × Nat := (c.launch, c.team, c.ord)

/-- The stall that an engine has noted is over, at the end of a step, unless the same command still stands at the head and still
cannot start: a head that could start meanwhile, left, or was saved with its team starts a new interval (R66, R442). -/
def State.noteHead (s : State) (p : FrameId) (e : EngineId) : State :=
  match ((s.frame p).engine e).stalledSince with
  | none => s
  | some m =>
    if (s.stalledHead p e).map Cmd.stallKey = some m.1 then s
    else s.modEngine p e (fun q => { q with stalledSince := none })

def State.noteHeads (s : State) : State :=
  s.frames.foldl (fun s f => engines.foldl (fun s e => s.noteHead f.1 e) s) s

/-! ## What follows a change of a queue -/

/-- Queue entries that left make room for complete join instances (R60, R63) and end waits for rows (R323). -/
def State.settleFrame (s : State) (p : FrameId) : State :=
  (s.teamsOn p).foldl (fun s e =>
    let tk : TeamKey := { frame := p, slot := e.1 }
    ((s.settleRows tk).settleJoins tk).serveTeam tk) s

/-! ## Start (R64, R302, R303) -/

/-- One token leaves every queue consumed, one slot is reserved in the produce queue (R64). -/
def takeTokens (t : Team) (c : Cmd) : Team :=
  let t1 := c.consumes.foldl (fun t q => t.setQueue q { t.queue q with tokens := (t.queue q).tokens.drop 1 }) t
  match c.produces with
  | some q => t1.setQueue q { t1.queue q with reserved := (t1.queue q).reserved + 1 }
  | none => t1

/-- WINDEF and WINREL take effect as they start (R322). A CPPL that no token orders behind them reads the record as it stands at
its own start: DESIGN CHOICE (log entry 67). -/
def windowEffect (t : Team) (c : Cmd) : Team :=
  if c.isReduce then t
  else
    let n := (c.e0.extractLsb' 0 4).toNat
    match c.index with
    | 0x40 => t.setWindow n { w0 := c.e1 ||| (1#64 <<< 63), w1 := c.e2 }
    | 0x41 => t.setWindow n Window.reset
    | _ => t

/-- A remote slot of CPPEER, in the peer wherever it is (R121, R319). -/
def State.reservePeer (s : State) (c : Cmd) : State :=
  match c.remoteQueue with
  | some q => s.modPeerQueue c.launch (hi32 c.e1) q (fun x => { x with reserved := x.reserved + 1 })
  | none => s

/-- An engine fault for the rod a command belongs to (R303). -/
def State.commandFault (s : State) (p : FrameId) (e : EngineId) (c : Cmd) (cause : Cause)
    (orig : Option (BitVec 8)) (addr : DWord) : State :=
  s.engineFaultTo (cmdTeam p c) c.launch c.rod
    { cause := cause, orig := orig, word := c.word, addr := addr, progress := c.progress, engine := e }

/-- ENGINE_COMMAND_START: nothing happens while no command of the engine can start (log entry 4). -/
def State.startCommand (s : State) (p : FrameId) (e : EngineId) : State :=
  match s.startable p e with
  | none => s
  | some (n, c) =>
    match s.team? (cmdTeam p c) with
    | none => s
    | some t =>
      match issueCheck p.die ((s.recordOfLaunch c.launch).teams) t c, s.startCheck (cmdTeam p c) t c with
      | some cause, _ | none, .fault cause =>
        ((s.modEngine p e (fun q => q.dropEntry n)).commandFault p e c .engineCommandFault (some cause.code) 0).settleFrame p
      | none, .wait => s
      | none, .go =>
        let t1 := windowEffect (takeTokens t c) c
        let (ef, s1) := s.effectOf t c
        let c1 : Cmd :=
          { c with st := .running, effect := ef, epoch := none, window := t.window (c.e0.extractLsb' 0 4).toNat }
        (((s1.setTeam (cmdTeam p c) t1).modEngine p e (fun q => { q.setEntry n c1 with stalledSince := none })).reservePeer
          c).settleFrame p

def execEngineCommandStart (p : FrameId) (e : EngineId) (s : State) : Host.Outcome State Fault Refusal :=
  .next (s.startCommand p e)

/-! ## Global accesses of an engine (R196): weak accesses of the team, sector by sector -/

/-- Reads `n` bytes from `va`; stops at the first byte that cannot be read. -/
def State.readGlobal (p : FrameId) (asid : Nat) :
    Nat → Nat → Nat → State → List Byte × Option (Cause × Nat) × State
  | 0, _, _, s => ([], none, s)
  | fuel + 1, va, n, s =>
    if n = 0 then ([], none, s)
    else
      let k := min n (64 - va % 64)
      match s.page { p := p, asid := asid, va := va } .read with
      | (.error c, s1) => ([], some (c, va), s1)
      | (.ok x, s1) =>
        let pa := x.pa + (va - x.va)
        match s1.readSeg p (placeOf p.die x.ord 0) (isUntracked x.ord) (pa / 64) (pa % 64) k with
        | (some c, _, s2) => ([], some (c, va), s2)
        | (none, b, s2) =>
          let (l, e, s3) := State.readGlobal p asid fuel ((va + k) % 2 ^ 64) (n - k) s2
          (b ++ l, e, s3)

/-- Writes bytes from `va`; answers how many were written. -/
def State.writeGlobal (p : FrameId) (asid : Nat) :
    Nat → Nat → List Byte → State → Nat × Option (Cause × Nat) × State
  | 0, _, _, s => (0, none, s)
  | fuel + 1, va, b, s =>
    if b = [] then (0, none, s)
    else
      let k := min b.length (64 - va % 64)
      match s.page { p := p, asid := asid, va := va } .write with
      | (.error c, s1) => (0, some (c, va), s1)
      | (.ok x, s1) =>
        let pa := x.pa + (va - x.va)
        match s1.writeSeg p (placeOf p.die x.ord 0) true (isUntracked x.ord) (pa / 64) (pa % 64) (b.take k) with
        | (some c, s2) => (0, some (c, va), s2)
        | (none, s2) =>
          let (n, e, s3) := State.writeGlobal p asid fuel ((va + k) % 2 ^ 64) (b.drop k) s2
          (k + n, e, s3)

/-- Outcome of a command that reaches beyond its team: the state with all it could do, its progress, its payload, and
the fault that stopped it. -/
structure Reach where
  s : State
  progress : Nat
  payload : Word
  fault : Option (Cause × Nat)

def State.putFs (s : State) (tk : TeamKey) (a : Nat) (b : List Byte) : State :=
  s.modTeam tk (fun t => t.engineWrite (b.zipIdx.map (fun e => (a + e.2, e.1))))

/-- CPIN and CPOUT (R313): `rest` bytes from byte `c.progress` on. -/
def copyRun (s : State) (p : FrameId) (asid : Nat) (fs : Cells 8) (c : Cmd) (rest : Nat) : Reach :=
  let f := lo32 c.e0
  let v := c.e1.toNat
  if c.index = 0x20 then
    let (b, e, s1) := State.readGlobal p asid (rest + 1) (v + c.progress) rest s
    { s := s1.putFs (cmdTeam p c) (f + c.progress) b, progress := c.progress + b.length, payload := 0, fault := e }
  else
    let (n, e, s1) := State.writeGlobal p asid (rest + 1) (v + c.progress) (cellsRead fs (f + c.progress) rest) s
    { s := s1, progress := c.progress + n, payload := 0, fault := e }

/-- The causes that end CPFF without a fault (R314). -/
def Cause.endsCopy (c : Cause) : Bool := c == .notPresent || c == .permission || c == .orderingReserved

/-- CPFF (R314): a failing page stops the copy without a fault; poison and a cut path, on a table walk too, are run faults;
`n` elements are left. -/
def firstFaultRun (p : FrameId) (asid sz f v : Nat) (tk : TeamKey) : Nat → Nat → State → Reach
  | 0, c, s => { s := s, progress := c, payload := BitVec.ofNat 32 c, fault := none }
  | n + 1, c, s =>
    let a := (v + c * sz) % 2 ^ 64
    match s.pages p asid .read (pageStarts a sz) with
    | (.error e, s1) =>
      { s := s1, progress := c, payload := BitVec.ofNat 32 c, fault := if e.endsCopy then none else some (e, a) }
    | (.ok _, s1) =>
      match State.readGlobal p asid (sz + 1) a sz s1 with
      | (_, some e, s2) => { s := s2, progress := c, payload := BitVec.ofNat 32 c, fault := some e }
      | (b, none, s2) => firstFaultRun p asid sz f v tk n (c + 1) (s2.putFs tk (f + c * sz) b)

/-- CP2D (R315), rows ascending. -/
def rowsRun (p : FrameId) (asid : Nat) (fs : Cells 8) (c : Cmd) : Nat → Nat → State → Reach
  | 0, r, s => { s := s, progress := r, payload := 0, fault := none }
  | n + 1, r, s =>
    let tk := cmdTeam p c
    let b := hi32 c.e0 % 2 ^ 16
    let f := lo32 c.e0 + r * b
    let g := (BitVec.ofInt 64 ((c.e1.toNat : Int) + (r : Int) * (c.e2.extractLsb' 0 32).toInt)).toNat
    if (Cmd.eword c).cmod.getLsbD 0 then
      match State.writeGlobal p asid (b + 1) g (cellsRead fs f b) s with
      | (_, some e, s1) => { s := s1, progress := r, payload := 0, fault := some e }
      | (_, none, s1) => rowsRun p asid fs c n (r + 1) s1
    else
      match State.readGlobal p asid (b + 1) g b s with
      | (_, some e, s1) => { s := s1, progress := r, payload := 0, fault := some e }
      | (l, none, s1) => rowsRun p asid fs c n (r + 1) (s1.putFs tk f l)

/-- CPPL (R316), row positions ascending. -/
def planesRun (p : FrameId) (asid : Nat) (kb : DWord) (c : Cmd) : Nat → Nat → State → Reach
  | 0, r, s => { s := s, progress := r, payload := 0, fault := none }
  | n + 1, r, s =>
    let tk := cmdTeam p c
    let w := c.window
    let pitch := if (Cmd.eword c).j || lo32 c.e2 = 0 then w.rowBytes else lo32 c.e2
    let put (b : List Byte) (s : State) : State :=
      let split (k : Nat) : Nat × Nat :=
        let d := if c.mode = 5 then engineDraw kb c.item c.count.toNat (r * w.k + k) else 0
        if r < w.rows then splitElem w.fmt c.mode d (packedElem w.fmt b k) else (0, 0)
      s.modTeam tk (fun t => t.engineWrite (w.rowWrites split r))
    if r < w.rows then
      match State.readGlobal p asid (w.rowBytes + 1) ((c.e1.toNat + r * pitch) % 2 ^ 64) w.rowBytes s with
      | (_, some e, s1) => { s := s1, progress := r, payload := 0, fault := some e }
      | (b, none, s1) => planesRun p asid kb c n (r + 1) (put b s1)
    else planesRun p asid kb c n (r + 1) (put [] s)

/-- No route is left from a die to another (R274, R466). -/
def State.cutOff (s : State) (a b : Nat) : Bool := !s.fabricWhole && a != b && (s.route a b).isNone

/-- CPPEER (R319): `len` bytes from byte `c.progress` on reach the peer's frame store; a copy onto its own bytes leaves them
unspecified, for the entry allows no alias (R305). With no route to the peer's die it meets link down, at no global address (log
entry 52). -/
def peerRun (s : State) (p : FrameId) (fs : Cells 8) (c : Cmd) (len : Nat) : Reach :=
  let f := lo32 c.e0 + c.progress
  let h := lo32 c.e1 + c.progress
  let b := cellsRead fs f len
  let own := c.team == hi32 c.e1
  let clash := own && f < h + len && h < f + len
  let (junk, s1) := s.drawBytes len
  let s2 := if clash then s1 else s
  match s.teamOf c.launch (hi32 c.e1) with
  | some (pk, _) =>
    if len ≠ 0 && s.cutOff p.die pk.frame.die then { s := s, progress := c.progress, payload := 0, fault := some (.linkDown, 0) }
    else { s := s2.putFs pk h (if clash then junk else b), progress := c.progress + len, payload := 0, fault := none }
  | none => { s := s, progress := c.progress + len, payload := 0, fault := none }

/-- What the progress of a command counts up to: bytes (CPIN, CPOUT, CPPEER), elements (CPFF), rows (CP2D), row positions
(CPPL). -/
def Cmd.total (c : Cmd) : Nat :=
  match c.index with
  | 0x23 => if hi32 c.e0 % 2 ^ 16 = 0 then 0 else hi32 c.e0 / 2 ^ 16
  | 0x24 => c.window.rowBlocks * 128
  | _ => hi32 c.e0

/-- The command runs from its progress up to a count, or to its fault, on the frame store as an engine reads it (R65). -/
def State.reachTo (s0 : State) (p : FrameId) (t : Team) (c : Cmd) (last : Nat) : Reach :=
  let asid := ((s0.launch? c.launch).map Launch.asid).getD 0
  let rest := min c.total last - c.progress
  let (fs, s) := s0.engineView t
  match c.index with
  | 0x20 | 0x21 => copyRun s p asid fs c rest
  | 0x22 => firstFaultRun p asid (2 ^ c.mode) (lo32 c.e0) c.e1.toNat (cmdTeam p c) rest c.progress s
  | 0x23 => rowsRun p asid fs c rest c.progress s
  | 0x24 => planesRun p asid (s.recordOfLaunch c.launch).key c rest c.progress s
  | _ => peerRun s p fs c rest

def State.reach (s : State) (p : FrameId) (t : Team) (c : Cmd) : Reach := s.reachTo p t c c.total

/-! ## Finish (R302) -/

/-- The reserved slot takes the command's token. Slots have no place of their own in the queue, so that tokens stand in the order
in which their commands finish: DESIGN CHOICE (R64, R302; log entry 74). -/
def giveToken (q : TokenQueue) (v : Word) : TokenQueue :=
  { q with tokens := q.tokens ++ [v], reserved := q.reserved - 1 }

/-- A joined reduction writes its result, or lets its interlock go with the old value (R250). -/
def Rod.endReduce (r : Rod) (j : Nat) (p : Partial) (v : Option DWord) : Rod :=
  r.mapLanes p.lanes (fun _ x =>
    match x.joined.find? (fun q => q.j == j && q.sig == p.sig) with
    | none => x
    | some q =>
      let y := { x with joined := x.joined.filter (fun e => e != q) }
      match v with
      | none => y
      | some d =>
        if 248 ≤ q.dst then y
        else if q.wide then (y.setPair q.dst d).unmark [q.dst, q.dst + 1]
        else (y.setReg q.dst (d.extractLsb' 0 32)).unmark [q.dst])

/-- A carry named as the destination is published then (R70). A CDONE in between does not wait: it closes the slot at once, and
the generation is published after it; an EXIT in between drops it with the item's other waits: DESIGN CHOICE (log entry
62). -/
def publishReduce (s : State) (r : Rod) (j : Nat) (p : Partial) (v : DWord) : Rod × List (CarryKey × CarryBuf) :=
  (maskLanes p.lanes).foldl (fun a l =>
    match (a.1.lane l).joined.find? (fun q => q.j == j && q.sig == p.sig && 248 ≤ q.dst) with
    | none => a
    | some q =>
      let kind := match publishKind s a.2 r.launch (a.1.lane l) (q.dst - 248) with
        | .discard => Publish.discard
        | .fault | .wait | .store => .store
      let (x, t) := publish r.launch (q.dst - 248) (v.extractLsb' 0 32) kind (a.1.lane l, a.2)
      (a.1.setLane l x, t)) (r, s.carry)

/-- What the end of a joined reduction does to a member, with the generations published. -/
def reducedMember (s : State) (r : Rod) (j : Nat) (p : Partial) : Option DWord → Rod × List (CarryKey × CarryBuf)
  | none => (r.endReduce j p none, s.carry)
  | some v =>
    let (r1, t) := publishReduce s r j p v
    (r1.endReduce j p (some v), t)

/-- What a joined reduction writes of a rod, by lane. -/
def Rod.landing (r : Rod) (j : Nat) (p : Partial) : List (Nat × Joined) :=
  (maskLanes p.lanes).flatMap (fun l =>
    ((r.lane l).joined.filter (fun q => q.j == j && q.sig == p.sig)).map (fun q => (l, q)))

/-- A saved rod keeps account of what is written while it lies saved, until its image shows it. -/
def State.noteLanded (s : State) (tk : TeamKey) (launch team rod : Nat) (l : List (Nat × Joined)) : State :=
  s.modSavedRod tk launch team rod (fun v => { v with landed := v.landed ++ l })

/-- The end of a joined reduction on every member, resident or saved (R57, R250). -/
def State.finishReduce (s : State) (p : FrameId) (c : Cmd) (v : Option DWord) : State :=
  if !c.isReduce then s
  else
    let j := RMod.bits (Sys2Proof.rword c.word).mod 8 4
    c.partials.foldl (fun s q =>
      match s.member? (cmdTeam p c) c.launch c.team q.rod with
      | none => s
      | some r =>
        let (r1, t) := reducedMember s r j q v
        let s1 : State := { (s.modMember (cmdTeam p c) c.launch c.team q.rod (fun _ => r1)) with carry := t }
        if v.isSome then s1.noteLanded (cmdTeam p c) c.launch c.team q.rod (r.landing j q) else s1) s

/-- CPPEER's remote token; discarded when the peer has gone. -/
def State.remoteToken (s : State) (c : Cmd) : State :=
  match c.remoteQueue, s.teamOf c.launch (hi32 c.e1) with
  | some n, some (pk, _) =>
    (s.modTeam pk (fun t => t.setQueue n (giveToken (t.queue n) (BitVec.ofNat 32 (hi32 c.e0))))).serveTeam pk
  | _, _ => s

/-- The command leaves its queue; a remote token is placed, then the local one (R319). -/
def State.retireCommand (s : State) (p : FrameId) (e : EngineId) (n : Nat) (c : Cmd) (payload : Word) : State :=
  let s1 := s.modEngine p e (fun q => q.dropEntry n)
  let s2 := s1.finishReduce p c (some (reduceResult c))
  let s3 := s2.remoteToken c
  let s4 :=
    match c.produces with
    | some q => s3.modTeam (cmdTeam p c) (fun t => t.setQueue q (giveToken (t.queue q) payload))
    | none => s3
  s4.settleFrame p

/-- A CPPEER whose peer is neither resident nor retired: it was saved while the command stood stopped (R319, R330). -/
def State.peerAway (s : State) (c : Cmd) : Bool :=
  !c.isReduce && c.index == 0x27 && (s.teamOf c.launch (hi32 c.e1)).isNone
    && !s.teamGone c (hi32 c.e1)

/-- ENGINE_COMMAND_FINISH: nothing happens for an entry that is not running, or that meets a run fault, or while the
engine reports that it has stopped (R444; log entry 4), or while a copy's peer is away. -/
def State.finishCommand (s : State) (p : FrameId) (e : EngineId) (n : Nat) : State :=
  match s.entry? p e n with
  | none => s
  | some c =>
    match s.team? (cmdTeam p c) with
    | none => s
    | some t =>
      if c.st != .running || (s.frame p).engctl.getLsbD (8 + EngineId.num e) || s.peerAway c then s
      else if c.reaching then
        let r := s.reach p t c
        if r.fault.isSome then s else r.s.retireCommand p e n c r.payload
      else
        (s.modTeam (cmdTeam p c) (fun t =>
          { t.engineWrite c.effect.fs with acc := cellsPut t.acc c.effect.acc })).retireCommand p e n c
          c.effect.payload

def execEngineCommandFinish (p : FrameId) (e : EngineId) (pos : Nat) (s : State) : Host.Outcome State Fault Refusal :=
  .next (s.finishCommand p e pos)

/-! ## Parts that land before the finish (R305) -/

/-- Part of a running command lands early, where other parties see it: `k` more units of a copy that reaches beyond its team, in
the order its entry states, or the `k`th write of another command, which its finish makes again (log entry 72). -/
def State.landCommand (s : State) (p : FrameId) (e : EngineId) (n k : Nat) : State :=
  match s.entry? p e n with
  | none => s
  | some c =>
    match s.team? (cmdTeam p c) with
    | none => s
    | some t =>
      if c.st != .running || (s.frame p).engctl.getLsbD (8 + EngineId.num e) || s.peerAway c then s
      else if c.reaching then
        let r := s.reachTo p t c (c.progress + k)
        r.s.modEngine p e (fun q => q.setEntry n { c with progress := r.progress })
      else
        s.modTeam (cmdTeam p c) (fun t =>
          match c.effect.fs[k]?, c.effect.acc[k - c.effect.fs.length]? with
          | some w, _ => t.engineWrite [w]
          | none, some w => { t with acc := cellSet w.1 w.2 t.acc }
          | none, none => t)

/-- Copies whose bytes come in no stated order (R305, R313, R319). -/
def Cmd.anyOrder (c : Cmd) : Bool := !c.isReduce && (c.index == 0x20 || c.index == 0x21 || c.index == 0x27)

/-- One byte of a running copy reaches its place ahead of others; the copy writes it again in its turn (R305, R313; log entry
72). -/
def State.landByte (s : State) (p : FrameId) (e : EngineId) (n k : Nat) : State :=
  match s.entry? p e n with
  | none => s
  | some c =>
    match s.team? (cmdTeam p c) with
    | none => s
    | some t =>
      let a := c.progress + k
      if c.st != .running || (s.frame p).engctl.getLsbD (8 + EngineId.num e) || s.peerAway c || !c.anyOrder || c.total ≤ a then s
      else
        let r := s.reachTo p t { c with progress := a } (a + 1)
        if r.fault.isSome then s else r.s

/-! ## Run faults (R304, R487) -/

/-- The engine record of a stopped command. -/
def engineRecord (s : State) (p : FrameId) (e : EngineId) (c : Cmd) (cause : Cause) (addr : DWord) : Record :=
  let slot := (s.memberSlot (cmdTeam p c) c.rod).getD 0
  { cause := cause.code, withdrawn := false, pendingUnderHalt := false, engineFlag := true, deferredFlag := false,
    origKept := false, orig := 0, lanes := 0, word := c.word, pc := 0, addr := addr, launch := c.launch, slot := slot,
    lane := 0, seq := (s.frame p).recSeq, teamSlot := c.teamSlot,
    asid := BitVec.ofNat 16 (((s.launch? c.launch).map Launch.asid).getD 0),
    item0 := ((s.rod? (rodKey p slot)).map Rod.item0).getD 0, progress := BitVec.ofNat 32 c.progress,
    engine := some e, queued := true, resolved := false, isEngine := true, since := s.hub.now.toNat }

/-- The command stops where it stands, with its record. -/
def State.stopCommand (s : State) (p : FrameId) (e : EngineId) (n : Nat) (c : Cmd) (cause : Cause) (addr : DWord) :
    State :=
  (s.modEngine p e (fun q =>
    q.setEntry n { c with st := .stopped, fault := some (cause, addr, (s.frame p).recSeq) })).modFrame p (fun f =>
      { f with records := f.records ++ [engineRecord s p e c cause addr], recSeq := f.recSeq + 1 })

/-! ## Cancellation (R304, R330) -/

/-- Reserved slots of a started command are released: its own, and CPPEER's remote one, in the peer wherever it is (R121, R304,
R330). -/
def State.releaseSlots (s : State) (p : FrameId) (c : Cmd) : State :=
  if !c.started then s
  else
    let free (q : TokenQueue) : TokenQueue := { q with reserved := q.reserved - 1 }
    let s1 :=
      match c.produces with
      | some q => s.modTeam (cmdTeam p c) (fun t => t.setQueue q (free (t.queue q)))
      | none => s
    match c.remoteQueue with
    | some n => s1.modPeerQueue c.launch (hi32 c.e1) n free
    | none => s1

/-- The entries of an engine that satisfy a condition are cancelled: no token is taken or produced. -/
def State.cancelWhere (s : State) (p : FrameId) (e : EngineId) (pr : Cmd → Bool) : State :=
  let gone := ((s.frame p).engine e).entries.filter pr
  let s1 := s.modEngine p e (fun q => { q with entries := q.entries.filter (fun c => !pr c) })
  (gone.foldl (fun s c => (s.releaseSlots p c).finishReduce p c none) s1).settleFrame p

/-! ## A running command that cannot go on (R304, R447) -/

/-- A run fault stops the command; where the launch has been killed the device cancels it then, and its record is withdrawn
(R330, R447). -/
def State.faultCommand (s : State) (p : FrameId) (e : EngineId) (n : Nat) (c : Cmd) (cause : Cause) (addr : DWord) :
    State :=
  let seq := (s.frame p).recSeq
  let s1 := s.stopCommand p e n c cause addr
  if ((s.launch? c.launch).map Launch.killed).getD false then
    (s1.modFrame p (fun f => f.withdrawWhere .deadlineKill (fun x => x.isEngine && x.seq == seq))).cancelWhere p e
      (fun d => d.st == .stopped && (d.fault.map (fun x => x.2.2)) == some seq)
  else s1

/-- COMMAND_RUN_FAULT: a running command that cannot go on stops with its progress; nothing happens when it can. -/
def State.runFault (s : State) (p : FrameId) (e : EngineId) (n : Nat) : State :=
  match s.entry? p e n with
  | none => s
  | some c =>
    match s.team? (cmdTeam p c) with
    | none => s
    | some t =>
      if c.st != .running || !c.reaching then s
      else
        let r := s.reach p t c
        match r.fault with
        | none => s
        | some (cause, va) => r.s.faultCommand p e n { c with progress := r.progress } cause (BitVec.ofNat 64 va)

def execCommandRunFault (p : FrameId) (e : EngineId) (pos : Nat) (s : State) : Host.Outcome State Fault Refusal :=
  .next (s.runFault p e pos)

/-! ## Delivery of engine faults (R303) -/

/-- Requests of lanes that no longer wait are withdrawn. -/
def Frame.withdrawRequests (f : Frame) (slot : Nat) (m : BitVec 32) : Frame :=
  { f with requests := f.requests.filter (fun q =>
      match q.kind with
      | .grow n l _ _ => !(n == slot && m.getLsbD l)
      | .acres n l _ _ => !(n == slot && m.getLsbD l)
      | .rodStart _ _ | .reload _ _ | .reloadTeam _ => true) }

def slotNumber (k : RodKey) : Nat :=
  match k.slot with
  | .rod n => n
  | .firmware => 0

/-- The lanes a delivery parks: the runnable ones, else every live lane not yet parked. -/
def Rod.deliveryMask (r : Rod) : BitVec 32 :=
  let run := r.maskWhere (fun x => x.st == .runnable)
  if run ≠ 0 then run else r.maskWhere (fun x => x.live && x.st != .parked)

/-- A rod with a FENCE under way is at no instruction boundary (R298, R448). -/
def Rod.atBoundary (r : Rod) : Bool := (List.finRange 32).all (fun l => r.lanes[l].fence.isNone)

/-- ENGINE_FAULT_DELIVERY: at a boundary the rod's oldest engine fault parks its sub-rods at their program counters. -/
def State.deliverFault (s : State) (k : RodKey) : State :=
  match s.rod? k with
  | none => s
  | some r =>
    match r.engineFaults with
    | [] => s
    | f :: rest =>
      if !r.atBoundary then s
      else
      let m := r.deliveryMask
      let s1 := (s.setRod k { r with engineFaults := rest }).modFrame k.frame (fun q => q.withdrawRequests (slotNumber k) m)
      s1.takeFault k m
        { cause := f.cause, word := f.word, addr := f.addr, deferred := false, orig := f.orig, underHalt := false,
          engine := some f.engine, progress := f.progress }

def execEngineFaultDelivery (k : RodKey) (s : State) : Host.Outcome State Fault Refusal :=
  .next (match k.slot with
    | .rod _ => s.deliverFault k
    | .firmware => s)

/-! ## Issue stop (R361) -/

def stopBit (e : EngineId) (on : Bool) (f : Frame) : Frame :=
  let v := withBit f.engctl (EngineId.num e) on
  -- the report of bits 10:8 goes when issue resumes
  { f with engctl := if on then v else withBit v (8 + EngineId.num e) false }

def execEngineIssueStop (p : FrameId) (e : EngineId) (s : State) : Host.Outcome State Fault Refusal :=
  .next (s.modFrame p (stopBit e true))

/-- An entry that firmware put back while it had started goes on, and one that it resumed while the engine stood stopped: state
4 without a record is such an entry (R375, R376). A CPPL keeps the record it read at its start (R316). -/
def State.restartEntry (s : State) (p : FrameId) (e : EngineId) (n : Nat) : State :=
  match s.entry? p e n with
  | none => s
  | some c =>
    match s.team? (cmdTeam p c) with
    | none => s
    | some t =>
      if c.st = .stopped ∧ c.fault = none then
        let (ef, s1) := s.effectOf t c
        s1.modEngine p e (fun q => q.setEntry n
          { c with
            st := .running, effect := ef
            window := if c.window = Window.reset then t.window (c.e0.extractLsb' 0 4).toNat else c.window })
      else s

def State.restartEntries (s : State) (p : FrameId) (e : EngineId) : State :=
  (List.range ((s.frame p).engine e).entries.length).foldl (fun s n => s.restartEntry p e n) s

/-- With issue resumed the queue takes commands again, complete join instances first, and entries that firmware put back go
on (R60, R376, R444). -/
def State.issueResume (s : State) (p : FrameId) (e : EngineId) : State :=
  ((s.modFrame p (stopBit e false)).restartEntries p e).settleFrame p

def execEngineIssueResume (p : FrameId) (e : EngineId) (s : State) : Host.Outcome State Fault Refusal :=
  .next (s.issueResume p e)

/-- ENGINE_STOPPED: with issue stopped and no command running, the engine reports it. -/
def engineQuiet (f : Frame) (e : EngineId) : Bool :=
  f.engctl.getLsbD (EngineId.num e) && !(f.engine e).entries.any (fun c => c.st == .running)

def execEngineStopped (p : FrameId) (e : EngineId) (s : State) : Host.Outcome State Fault Refusal :=
  .next (if engineQuiet (s.frame p) e then
      s.modFrame p (fun f => { f with engctl := withBit f.engctl (8 + EngineId.num e) true })
    else s)

end Sys2Proof.Machine
end

