-- ==== Sys2Proof/Machine/Fetch.lean ====
section
/-!
DEFINITION. Sys2Proof/Machine/Fetch.lean: what happens before a word acts: instruction fetch (R202), breakpoints (R361),
the fate of words that are no instruction (R218, R219), when a sub-rod is ready (R49), and the selection of a rod and a
sub-rod by an issue port (R50, R51).
-/

namespace Sys2Proof.Machine

/-! ## Fetch (R202) -/

/-- The eight bytes of a word through one translation: a weak read of the code page. -/
def State.fetchThrough (s : State) (p : FrameId) (x : Xlat) (pc : DWord) : Except Cause DWord × State :=
  let pa := x.pa + (pc.toNat - x.va)
  match s.readSeg p (placeOf p.die x.ord 0) (isUntracked x.ord) (pa / 64) (pa % 64) 8 with
  | (some c, _, s1) => (.error c, s1)
  | (none, b, s1) => (.ok (BitVec.ofNat 64 (ofLe b)), s1)

/-- The words at an address of a launch's code that were read ahead and differ from what stands there. -/
def Frame.olderWords (f : Frame) (launch : Nat) (pc w : DWord) : List DWord :=
  (f.codeHeld.filter (fun e => e.1 == launch && e.2.1 == pc && e.2.2 != w)).map (fun e => e.2.2)

/-- Where code has been written while its launch runs, the fetch takes the word there or an older one, by a free value (R234; log
entry 80). -/
def State.eitherWord (s : State) (p : FrameId) (launch : Nat) (pc w : DWord) : DWord × State :=
  match (s.frame p).olderWords launch pc w with
  | [] => (w, s)
  | l => let (f, s1) := s.draw; ((w :: l).getD (f.toNat % (l.length + 1)) w, s1)

/-- The word at an address, or the cause that the fetch raises (check 1 of R219). -/
def State.fetchWord (s : State) (k : RodKey) (r : Rod) (pc : DWord) : Except Cause DWord × State :=
  match s.page { p := k.frame, asid := s.asidOf k r, va := pc.toNat } .execute with
  | (.error c, s1) => (.error c, s1)
  | (.ok x, s1) =>
    match s1.fetchThrough k.frame x pc with
    | (.error c, s2) => (.error c, s2)
    | (.ok w, s2) =>
      match k.slot with
      | .firmware => (.ok w, s2)
      | .rod _ => let (v, s3) := s2.eitherWord k.frame r.launch pc w; (.ok v, s3)

/-- A word of code is read ahead for the frame's launch; what was held of other launches goes. -/
def State.holdCode (s : State) (p : FrameId) (pc : DWord) : State :=
  match (s.frame p).active with
  | none => s
  | some b =>
    match s.page { p := p, asid := b.asid, va := pc.toNat } .execute with
    | (.error _, s1) => s1
    | (.ok x, s1) =>
      match s1.fetchThrough p x pc with
      | (.error _, s2) => s2
      | (.ok w, s2) =>
        s2.modFrame p (fun f =>
          { f with codeHeld := f.codeHeld.filter (fun e => e.1 == b.launch) ++ [(b.launch, pc, w)] })

/-- An enabled comparator holds the address (R361); firmware fetches are not compared. -/
def breakpointAt (f : Frame) (k : RodKey) (pc : DWord) : Bool :=
  k.slot != .firmware
    && (List.finRange 4).any (fun n => f.bk[n].getLsbD 0 && f.bk[n].extractLsb' 3 61 == pc.extractLsb' 3 61)

/-- The fate of a word that is no instruction, in the order of R219; R358 for the firmware context. -/
def rejectCause (fw : Bool) (die : Nat) (w : DWord) (e : Reject) : Cause :=
  if fieldClass w == 6 && !fw then .privileged
  else
    match e with
    | .truncated | .undefinedInstruction => .undefinedInstruction
    | .extension => if fw && !Config.isStream die then .undefinedInstruction else .extensionEmulation
    | .reservedOperation => .illegalOperand

/-- What a sub-rod's next word comes to: an instruction, or a fault of the fetch with the word its record holds. -/
inductive Fetched where
  | instr (i : Instr)
  | fault (c : Cause) (word addr : DWord)
  deriving DecidableEq, Repr

/-- A breakpoint is met before the word is decoded; the record of a failed fetch holds no word, and the address that was
fetched (log entry 20). -/
def State.fetch (s : State) (k : RodKey) (r : Rod) (pc : DWord) : Fetched × State :=
  match s.fetchWord k r pc with
  | (.error c, s1) => (.fault c 0 pc, s1)
  | (.ok w, s1) =>
    if breakpointAt (s.frame k.frame) k pc then (.fault .breakpoint w 0, s1)
    else
      match decode w with
      | .ok i => (.instr i, s1)
      | .error e => (.fault (rejectCause (k.slot == .firmware) k.frame.die w e) w 0, s1)

/-! ## Readiness (R49) -/

/-- A word that asks for an engine queue entry, now or when its instance completes: a class 5 command but for ACRES and
ACREL, and RRED with `.j` (R60, R63, R250). -/
def wantsEntry (i : Instr) : Bool :=
  let w := wordOf i
  (match i with | .rredJoined _ => true | _ => opClass i == 5 && fieldIndex w != 0x42 && fieldIndex w != 0x43)

/-- An engine command, joined or not, whose queue takes no entry now: full, or stopped (R49, R63, R444). -/
def engineHeld (s : State) (p : FrameId) (i : Instr) : Bool := wantsEntry i && s.queueClosed p (engineOf (wordOf i))

/-- The next word of a sub-rod can issue: no FENCE under way, no register a joined reduction will write, and room in the
engine queue. -/
def State.laneReady (s : State) (k : RodKey) (r : Rod) (l : Nat) : Bool :=
  (r.lane l).st == .runnable && (r.lane l).fence.isNone &&
    (match (s.fetch k r (r.lane l).pc).1 with
      | .fault _ _ _ => true
      | .instr i =>
        let is := mkIssue k r i (r.subRod l)
        !joinInterlock r is.enabled i && !(is.capOn && engineHeld s k.frame i))

/-- The sub-rod with lowest lane `l` of a rod slot waits for its operands or its execution resource in this cycle. -/
def Frame.isLate (f : Frame) (slot l : Nat) : Bool := (tableGet 0 slot f.late).getLsbD l

/-- The lowest lane of every runnable sub-rod that is ready, ascending (R49, R51). -/
def State.readyLanes (s : State) (k : RodKey) (r : Rod) : List Nat :=
  (List.range 32).filter (fun l =>
    (r.lane l).st == .runnable && lowest (r.subRod l) == l && !(s.frame k.frame).isLate (slotNumber k) l
      && s.laneReady k r l)

/-- Whether a rod may issue at all: not stopped by TRAP, not in the cycle after YIELD, not taken in this cycle. -/
def Rod.mayIssue (r : Rod) : Bool := r.stop == .none && !r.yielded && !r.taken

/-- R51: the first ready sub-rod after the one that issued last, in the rotation of lowest lanes. -/
def nextInRotation (last : Nat) (l : List Nat) : Option Nat :=
  match l.find? (fun n => last < n) with
  | some n => some n
  | none => l.head?

/-- Rods of a frame that are ready in this cycle (R49), with their ready sub-rods. -/
def State.readyRods (s : State) (p : FrameId) : List (Nat × Rod × List Nat) :=
  (s.rodsOn p).filterMap (fun e =>
    if e.2.stop == .none && !e.2.yielded then
      match s.readyLanes (rodKey p e.1) e.2 with
      | [] => none
      | l => some (e.1, e.2, l)
    else none)

/-- R50: the oldest starved rod, else the oldest candidate, and its sub-rod (R51). -/
def State.pick (s : State) (p : FrameId) : Option Issuer :=
  let cands := (s.readyRods p).filter (fun e => !e.2.1.taken)
  let keyed := cands.map (fun e => (ageKey e.2.1, e))
  let starved := keyed.filter (fun e => 4096 ≤ e.2.2.1.unissued)
  match oldestOf (if starved = [] then keyed else starved) with
  | none => none
  | some (_, e) => (nextInRotation e.2.1.lastLane e.2.2).map (fun l => { key := rodKey p e.1, lane := l })

/-- Whether the frame's firmware context has issued in this cycle: port 0 then selects no rod (R50, R359). -/
def State.firmwareTaken (s : State) (p : FrameId) : Bool :=
  ((s.rod? (fwKey p)).map Rod.taken).getD false

/-- A gated frame and a frame of an isolated die issue nothing (R432, R433). -/
def State.frameUp (s : State) (p : FrameId) : Bool := !(s.frame p).gated && !s.hub.isolated.getLsbD p.die

/-- A port that may still select in this cycle (R50): it has not issued, and the firmware context has not taken it. -/
def State.portOpen (s : State) (p : FrameId) (port : Nat) : Bool :=
  s.frameUp p && port < Config.portsOf p.die && !(s.frame p).ports.getLsbD port && !(port == 0 && s.firmwareTaken p)

/-- The rod and sub-rod an issue port selects. -/
def State.select (s : State) (p : FrameId) (port : Nat) : Option Issuer :=
  if s.portOpen p port then s.pick p else none

/-- Some port could still issue in this cycle: the cycle is not over (R50, R52). -/
def State.selectionOpen (s : State) (p : FrameId) : Bool :=
  (List.range (Config.portsOf p.die)).any (fun n => (s.select p n).isSome)

/-- The bookkeeping of an issue on a port (R50, R51). -/
def State.markIssued (s : State) (port : Nat) (who : Issuer) : State :=
  (s.modRod who.key (fun r => { r with taken := true, unissued := 0, lastLane := who.lane })).modFrame who.key.frame
    (fun f => { f with stuckSince := none, ports := withBit f.ports port true })

/-! ## The firmware context's share (R359) -/

/-- Instructions the share allows in a window of 64 cycles. -/
def Frame.shareLeft (f : Frame) : Bool := f.fwIssued < (f.share.extractLsb' 0 7).toNat

/-- The context stands at an instruction boundary: no FENCE of its own is under way (R288, R359, R364). -/
def State.contextFree (s : State) (p : FrameId) : Bool := ((s.rod? (fwKey p)).map Rod.atBoundary).getD true

/-- The context may issue: running, at a boundary, within its share, once in a cycle, on port 0 if that has selected no
rod. -/
def State.firmwareMay (s : State) (p : FrameId) : Bool :=
  let f := s.frame p
  s.frameUp p && f.fw == .running && s.contextFree p && f.shareLeft && !s.firmwareTaken p && !f.ports.getLsbD 0

/-- The handler is entered now (R364). -/
def State.handlerDue (s : State) (p : FrameId) : Bool := (s.frame p).handlerDue && s.contextFree p

def State.markFirmware (s : State) (p : FrameId) : State :=
  (s.modFrame p (fun f => { f with fwIssued := f.fwIssued + 1 })).modRod (fwKey p) (fun r => { r with taken := true })

/-! ## The end of a cycle (R50, R264, R359) -/

/-- A rod at the end of a cycle: a ready one that was not issued counts it, unless firmware issued. -/
def Rod.endCycle (r : Rod) (counts : Bool) : Rod :=
  { r with
    unissued := if counts && !r.taken then min 4096 (r.unissued + 1) else r.unissued
    yielded := r.yielded && r.taken
    taken := false }

/-- The next cycle begins with the sub-rods of `late` not ready. -/
def Frame.nextCycle (f : Frame) (late : List (Nat × BitVec 32)) : Frame :=
  { f with cycle := (f.cycle + 1) % 64, fwIssued := if f.cycle % 64 = 63 then 0 else f.fwIssued, ports := 0, late := late }

/-- The end of a cycle of a frame: it does not end while a port could still issue a ready rod (R50, R52). -/
def State.endCycle (s : State) (p : FrameId) (late : List (Nat × BitVec 32)) : State :=
  if s.selectionOpen p then s
  else
    let fw := s.firmwareTaken p
    let ready := (s.readyRods p).map Prod.fst
    let s1 := (s.rodsOn p).foldl (fun s e =>
      s.modRod (rodKey p e.1) (fun r => r.endCycle (!fw && ready.contains e.1))) s
    let s2 := if fw then s1.modRod (fwKey p) (fun r => { r with taken := false }) else s1
    s2.modFrame p (fun f => f.nextCycle late)

end Sys2Proof.Machine
end

