-- ==== Sys2Proof/Machine/Boundary.lean ====
section
/-!
DEFINITION. Sys2Proof/Machine/Boundary.lean: what reaches a rod at an instruction boundary, in the order of R446: engine faults
(R303), TRAP (R374), and the deadline divert (R94); the withdrawal of fault records (R436); and the fault of a fetch.
-/

namespace Sys2Proof.Machine

/-! ## Faults of the fetch (R219, R437) -/

/-- Every lane of the fetching sub-rod parks. -/
def State.fetchFault (s : State) (who : Issuer) (c : Cause) (word addr : DWord) : State :=
  match s.rod? who.key with
  | none => s
  | some r => s.takeFault who.key (r.subRod who.lane) (laneFault c word addr)

/-- A record of a rod: its launch, its first item, and no engine record. -/
def Record.ofRod (x : Record) (r : Rod) : Bool := x.launch == r.launch && x.item0 == r.item0 && !x.isEngine

/-! ## The deadline divert (R94) -/

/-- The section a die runs (R30, R91). -/
def LaunchRecord.entryOn (l : LaunchRecord) (die : Nat) : DWord :=
  if l.code = 0xFF then (if Config.isStream die then l.pair.1 else l.pair.2) else l.entry

/-- The wrap-up entry E of a section (R91). -/
def LaunchRecord.wrapEntry (l : LaunchRecord) (die : Nat) : DWord := l.entryOn die + l.wrapOff.setWidth 64

/-- Every live item forms one runnable sub-rod at E, without marks, in phase 1. -/
def Rod.divertTo (r : Rod) (e : DWord) : Rod :=
  { (r.mapLanes r.liveMask (fun _ x =>
      { x with pc := e, st := .runnable, wait := .none, marks := [], phase := true, record := none,
               group := r.nextGroup })) with
    nextGroup := r.nextGroup + 32
    divert := false }

/-- Records that hold lanes of the rod parked. -/
def Rod.parkedRecords (r : Rod) : List (BitVec 16) :=
  (List.finRange 32).filterMap (fun l => if r.lanes[l].st == .parked then r.lanes[l].record else none)

/-- The divert of a resident rod: its waits are withdrawn, its parked lanes' records too. -/
def State.divertRod (s : State) (k : RodKey) : State :=
  match s.rod? k with
  | none => s
  | some r =>
    let seqs := r.parkedRecords
    (s.modFrame k.frame (fun f =>
      (f.withdrawWhere .deadlineDivert (fun x => seqs.contains x.seq && x.ofRod r)).withdrawRequests (slotNumber k)
        0xFFFFFFFF)).setRod k (r.divertTo ((s.recordOfLaunch r.launch).wrapEntry k.frame.die))

/-- The divert is due: after T_w, at a boundary, and the rod neither halted nor stopped for a slice (R94, R104). -/
def Rod.divertDue (r : Rod) : Bool := r.divert && r.stop == .none && r.atBoundary

/-! ## TRAP (R374) -/

/-- The word at the program counter of a lane, for a record; 0 where it cannot be fetched (log entry 20). -/
def State.wordAt (s : State) (k : RodKey) (r : Rod) (pc : DWord) : DWord :=
  match (s.fetchWord k r pc).1 with
  | .ok w => w
  | .error _ => 0

/-- A record whose lanes are not parked by it. -/
def State.addRecord (s : State) (k : RodKey) (m : BitVec 32) (i : FaultInfo) : State :=
  match s.rod? k with
  | none => s
  | some r =>
    s.modFrame k.frame (fun f => { f with records := f.records ++ [recordOf s k r m i], recSeq := f.recSeq + 1 })

/-- A fault record of the rod is still to be read, one whose delivery parked no lane among them (R374, R446). -/
def State.faultPending (s : State) (k : RodKey) (r : Rod) : Bool :=
  (s.frame k.frame).records.any (fun x => x.queued && !x.withdrawn && !x.resolved && x.ofRod r
    && x.cause != Cause.debugHalt.code && x.cause != Cause.timeSlice.code)

/-- The record of a stop: its lanes are the live lanes that are not parked. -/
def State.stopRecord (s : State) (k : RodKey) (r : Rod) (c : Cause) (halted : Bool) : State :=
  let m := r.maskWhere (fun x => x.live && x.st != .parked)
  let word := if m = 0 then 0 else s.wordAt k r (r.lane (lowest m)).pc
  s.addRecord k m { laneFault c word 0 with underHalt := halted }

/-- The halt takes effect. -/
def State.takeHalt (s : State) (k : RodKey) (r : Rod) : State :=
  (s.stopRecord k r .debugHalt (s.faultPending k r)).modRod k (fun r =>
    { r with stop := if r.stop == .slice then .sliceUnderHalt else .halt, traps := r.traps.filter (· != .halt) })

/-- The slice takes effect. -/
def State.takeSlice (s : State) (k : RodKey) (r : Rod) : State :=
  (s.stopRecord k r .timeSlice false).modRod k (fun r =>
    { r with stop := .slice, traps := r.traps.filter (· != .slice) })

/-- TRAP.wdog parks every runnable sub-rod under one record. -/
def State.takeWdog (s : State) (k : RodKey) (r : Rod) : State :=
  let m := r.maskWhere (fun x => x.st == .runnable)
  let word := if m = 0 then 0 else s.wordAt k r (r.lane (lowest m)).pc
  (s.modRod k (fun r => { r with traps := r.traps.filter (· != .wdog) })).takeFault k m
    (laneFault .watchdog word 0)

/-- A pending TRAP takes effect at a boundary; while the rod is halted a further TRAP is held, and TRAP.wdog waits for a
pending divert too (R374, R446). TRAP.slice on a rod that .slice already stops is held until the release: DESIGN CHOICE, R374
speaks of a rod already halted (log entry 82). -/
def State.takeTrap (s : State) (k : RodKey) (t : TrapForm) : State :=
  match s.rod? k with
  | none => s
  | some r =>
    if !r.traps.contains t || !r.atBoundary then s
    else
      let halted := r.stop == .halt || r.stop == .sliceUnderHalt
      match t with
      | .halt => if halted then s else s.takeHalt k r
      | .wdog => if halted || r.divert then s else s.takeWdog k r
      | .slice => if halted || r.stop == .slice then s else s.takeSlice k r

/-! ## A boundary (R446) -/

/-- Every engine fault that waits for the rod is delivered. -/
def State.deliverAll (k : RodKey) : Nat → State → State
  | 0, s => s
  | n + 1, s => State.deliverAll k n (s.deliverFault k)

def State.divertIfDue (s : State) (k : RodKey) : State :=
  match s.rod? k with
  | none => s
  | some r => if r.divertDue then s.divertRod k else s

/-- What waits for a boundary of a rod is taken in the order of R446: engine faults, a halt, the divert, TRAP.wdog, a
slice. -/
def State.boundary (s : State) (k : RodKey) : State :=
  match s.rod? k with
  | none => s
  | some r =>
    if r.engineFaults = [] && r.traps = [] && !r.divert then s
    else
      ((((State.deliverAll k r.engineFaults.length s).takeTrap k .halt).divertIfDue k).takeTrap k .wdog).takeTrap k
        .slice

/-- The boundaries of the rods of a frame. -/
def State.boundaries (s : State) (p : FrameId) : State :=
  (s.rodsOn p).foldl (fun s e => s.boundary (rodKey p e.1)) s

/-- ITEM_DIVERT (R94): nothing happens while no divert is due (log entry 4). -/
def execItemDivert (k : RodKey) (s : State) : Host.Outcome State Fault Refusal := .next (s.divertIfDue k)

end Sys2Proof.Machine
end

