-- ==== Sys2Proof/Machine/Privileged.lean ====
section
/-!
DEFINITION. Sys2Proof/Machine/Privileged.lean: class 6 but for the context save (R356 to R380): the frame's system registers,
the rod window, TRAP, RESUME, PARKQ, TLBI, the calls and waits of the firmware context, and the entry to its handler.
-/

namespace Sys2Proof.Machine

/-! ## The form of a class 6 instruction (R368) -/

/-- A class 6 word acts once, in lane 0: its operands, then its effect or the cause it raises; a false guard leaves it
without effect. -/
def sysBody (f : Issue → Operands → State → Except Cause State) (is : Issue) (s : State) : State :=
  if is.enabled = 0 then passOver is s
  else
    match laneOperands is.rod is.cap (planOf is.instr) with
    | .error c => faultEnabled is c s
    | .ok o =>
      match f is o s with
      | .error c => faultEnabled is c s
      | .ok t => passOver is t

def sysOp (i : Instr) (f : Issue → Operands → State → Except Cause State) (s : State) :
    Host.Outcome State Fault Refusal :=
  issueWord i (sysBody f) s

/-- The frame of the issuing context. -/
def Issue.frame (is : Issue) : FrameId := is.key.frame

/-- The value of an operand in lane 0. -/
def Issue.value (is : Issue) (o : Operand) : DWord := o.value is.cap (fun _ => 0)

/-- The context's lane 0 changes. -/
def State.modContext (s : State) (p : FrameId) (g : Lane → Lane) : State :=
  s.modRod (fwKey p) (fun r => r.setLane 0 (g (r.lane 0)))

/-! ## System registers (R360, R361) -/

/-- sys.feat (R221). -/
def featOf (die : Nat) : DWord := if Config.isStream die then 0x01000601 else 0x01000006

/-- The bits of the rod slots that satisfy a condition. -/
def State.slotBits (s : State) (p : FrameId) (f : Rod → Bool) : DWord :=
  (s.rodsOn p).foldl (fun m e => if f e.2 then withBit m e.1 true else m) 0

/-- A rod that holds a parked, halted or stopped sub-rod. -/
def Rod.held (r : Rod) : Bool := r.stop != .none || r.maskWhere (fun x => x.st == .parked) != 0

def State.teamBits (s : State) (p : FrameId) : DWord :=
  (s.teamsOn p).foldl (fun m e => withBit m e.1 true) 0

/-- A system register outside the rod window; reserved bits read 0 (R3). -/
def State.sysRead (s : State) (p : FrameId) (n : Nat) : DWord :=
  let f := s.frame p
  match n with
  | 0x000 => featOf p.die
  | 0x001 => BitVec.ofNat 64 (p.frame + 256 * p.die + 65536 * Config.classOf p.die)
  | 0x002 => f.status.setWidth 64
  | 0x003 => f.eventBits.setWidth 64
  | 0x004 => f.evmask.setWidth 64
  | 0x005 => f.vec
  | 0x006 => f.epc
  | 0x007 => f.share.setWidth 64
  | 0x008 => f.wdog.setWidth 64
  | 0x009 => f.slice
  | 0x00A => f.timer
  | 0x00B => f.engctl.setWidth 64
  | 0x00C => f.wrod.setWidth 64
  | 0x00D => f.fwfault
  | 0x00E => f.asid.setWidth 64
  | 0x00F => s.frameTime p
  | 0x010 => f.bk[0]
  | 0x011 => f.bk[1]
  | 0x012 => f.bk[2]
  | 0x013 => f.bk[3]
  | 0x018 => s.slotBits p (fun _ => true)
  | 0x019 => s.slotBits p Rod.held
  | 0x01A => s.teamBits p
  | _ => 0

/-- sys.engctl: bits 2:0 stop and resume the engines (R361); bits 10:8 are read-only. -/
def State.writeEngctl (s : State) (p : FrameId) (v : Word) : State :=
  engines.foldl (fun s e =>
    let old := (s.frame p).engctl.getLsbD (EngineId.num e)
    if v.getLsbD (EngineId.num e) = old then s
    else if old then s.issueResume p e
    else s.modFrame p (stopBit e true)) s

/-- A write of a system register outside the rod window: reserved bits are not kept (R3). -/
def State.sysWrite (s : State) (p : FrameId) (n : Nat) (v : DWord) : Except Cause State :=
  let w : Word := v.setWidth 32
  let put (g : Frame → Frame) : Except Cause State := .ok (s.modFrame p g)
  match n with
  | 0x002 => put (fun f => { f with status := w &&& 3#32 })
  | 0x004 => put (fun f => { f with evmask := w &&& 0x7F#32 })
  | 0x005 => put (fun f => { f with vec := v &&& ~~~7#64 })
  | 0x006 => put (fun f => { f with epc := v })
  | 0x007 =>
    if 1 ≤ w.toNat ∧ w.toNat ≤ 64 then put (fun f => { f with share := w }) else .error .illegalOperand
  | 0x008 =>
    if w.extractLsb' 0 16 = 0#16 ∨ w.extractLsb' 16 16 = 0#16 then .error .illegalOperand
    else put (fun f => { f with wdog := w })
  | 0x009 => put (fun f => { f with slice := v, sliceArmed := v != 0 })
  | 0x00A => put (fun f => { f with timer := v, timerArmed := v != 0 })
  | 0x00B => .ok (s.writeEngctl p w)
  | 0x00C => put (fun f => { f with wrod := w &&& 0x1F3F#32 })
  | 0x00E => put (fun f => { f with asid := w &&& 0xFFF#32 })
  | 0x010 | 0x011 | 0x012 | 0x013 =>
    put (fun f => { f with bk := Vector.ofFn (fun k => if k.val = n - 0x010 then v &&& ~~~6#64 else f.bk[k]) })
  | _ => .error .illegalOperand

/-! ## The rod window (R362) -/

/-- The lane that sys.wrod names, when an access to it is allowed. -/
def State.windowLane (s : State) (p : FrameId) : Option (RodKey × Nat × Rod) :=
  let w := (s.frame p).wrod
  let slot := (w.extractLsb' 0 6).toNat
  let l := (w.extractLsb' 8 5).toNat
  if Config.slotsOf p.die ≤ slot then none
  else
    match s.rod? (rodKey p slot) with
    | none => none
    | some r => if (r.lane l).st = .parked ∨ r.stop ≠ .none then some (rodKey p slot, l, r) else none

/-- The loads that write a register of the lane have returned (R362, R439). -/
def State.windowReg (s : State) (k : RodKey) (l n : Nat) : State :=
  s.drainWhere k (1#32 <<< l) (fun _ e => e.regs.contains n)

def State.windowRead (s : State) (p : FrameId) (n : Nat) : Except Cause (Word × State) :=
  match s.windowLane p with
  | none => .error .illegalOperand
  | some (k, l, r) =>
    let x := r.lane l
    if n < 0x1F0 then
      if !r.holds (n - 0x100) then .error .illegalOperand
      else
        let s1 := s.windowReg k l (n - 0x100)
        .ok ((((s1.rod? k).getD r).lane l).reg (n - 0x100), s1)
    else
      match n with
      | 0x1F0 => .ok (x.preds.setWidth 32, s)
      | 0x1F4 | 0x1F5 | 0x1F6 | 0x1F7 => .ok (x.xreg (n - 0x1F4), s)
      | 0x1F8 => .ok (x.pc.extractLsb' 0 32, s)
      | 0x1F9 => .ok (x.pc.extractLsb' 32 32, s)
      | 0x1FA => .ok (BitVec.ofNat 32 (r.fast + 16 * r.slow), s)
      | 0x1FB => .ok (x.carryBits.setWidth 32, s)
      | _ => .error .illegalOperand

def State.windowWrite (s : State) (p : FrameId) (n : Nat) (v : Word) : Except Cause State :=
  match s.windowLane p with
  | none => .error .illegalOperand
  | some (k, l, r) =>
    let put (s : State) (g : Lane → Lane) : Except Cause State := .ok (s.modRod k (fun q => q.setLane l (g (q.lane l))))
    if n < 0x1F0 then
      if !r.holds (n - 0x100) then .error .illegalOperand
      else put (s.windowReg k l (n - 0x100)) (fun x => (x.setReg (n - 0x100) v).unmark [n - 0x100])
    else
      match n with
      | 0x1F0 => put s (fun x => { x with preds := v.extractLsb' 0 7 })
      | 0x1F4 | 0x1F5 | 0x1F6 | 0x1F7 => put s (fun x => x.setXreg (n - 0x1F4) v)
      | 0x1F8 =>
        if v.extractLsb' 0 3 ≠ 0#3 then .error .illegalOperand
        else put s (fun x => { x with pc := x.pc.extractLsb' 32 32 ++ v })
      | 0x1F9 => put s (fun x => { x with pc := v ++ x.pc.extractLsb' 0 32 })
      | _ => .error .illegalOperand

/-! ## SYSRD, SYSWR (R370) -/

def sysNumber (w : RWord) : Nat := RMod.bits w.mod 8 10

/-- The destination of SYSRD takes a single register or a pair. -/
def State.writeContext (s : State) (p : FrameId) (o : Operand) (v : DWord) : State :=
  s.modContext p (fun x =>
    match o with
    | .reg n => (x.setReg n (v.extractLsb' 0 32)).unmark [n]
    | .pair n => (x.setPair n v).unmark [n, n + 1]
    | _ => x)

def sysrdBody (n : Nat) (is : Issue) (o : Operands) (s : State) : Except Cause State :=
  if n < 0x100 then .ok (s.writeContext is.frame o.dst (s.sysRead is.frame n))
  else (s.windowRead is.frame n).map (fun e => e.2.writeContext is.frame o.dst (e.1.setWidth 64))

def execSysrd (w : RWord) (s : State) : Host.Outcome State Fault Refusal :=
  sysOp (.sysrd w) (sysrdBody (sysNumber w)) s

def execSyswr (w : RWord) (s : State) : Host.Outcome State Fault Refusal :=
  sysOp (.syswr w) (fun is o s => s.sysWrite is.frame (sysNumber w) (is.value o.a)) s

/-- EVENT_CLEAR (R364): bits 0 and 1 follow the park queue whatever is written. -/
def execEventClear (w : RWord) (s : State) : Host.Outcome State Fault Refusal :=
  sysOp (.eventClear w) (fun is o s => .ok (s.modFrame is.frame (fun f =>
    { f with event := f.event &&& ~~~((is.value o.a).setWidth 32) }))) s

def execRodWindowWrite (w : RWord) (s : State) : Host.Outcome State Fault Refusal :=
  sysOp (.rodWindowWrite w) (fun is o s =>
    s.windowWrite is.frame (sysNumber w) ((is.value o.a).setWidth 32)) s

/-! ## TRAP (R374) -/

/-- TRAP completes at issue; the rod takes it at its next boundary, which is now unless a FENCE is under way. -/
def trapBody (t : TrapForm) (is : Issue) (o : Operands) (s : State) : Except Cause State :=
  let slot := ((is.value o.a).extractLsb' 0 6).toNat
  if Config.slotsOf is.frame.die ≤ slot then .error .illegalOperand
  else
    let k := rodKey is.frame slot
    match s.rod? k with
    | none => .error .illegalOperand
    | some r =>
      .ok ((s.setRod k { r with traps := if r.traps.contains t then r.traps else r.traps ++ [t] }).boundary k)

def execTrapHalt (w : RWord) (s : State) : Host.Outcome State Fault Refusal := sysOp (.trapHalt w) (trapBody .halt) s
def execTrapSlice (w : RWord) (s : State) : Host.Outcome State Fault Refusal :=
  sysOp (.trapSlice w) (trapBody .slice) s
def execTrapWdog (w : RWord) (s : State) : Host.Outcome State Fault Refusal := sysOp (.trapWdog w) (trapBody .wdog) s

/-! ## The handler (R364, R371) -/

/-- RETT goes to sys.epc; outside the handler it is illegal, and a target whose bits 2:0 are not zero is misaligned (R202;
log entry 36). -/
def rettBody (is : Issue) (s : State) : State :=
  if is.enabled = 0 then passOver is s
  else if !(s.frame is.frame).status.getLsbD 0 then faultEnabled is .illegalOperand s
  else if (s.frame is.frame).epc.extractLsb' 0 3 ≠ 0#3 then faultEnabled is .misaligned s
  else s.leaveHandler is.frame

def execRett (w : RWord) (s : State) : Host.Outcome State Fault Refusal := issueWord (.rett w) rettBody s

/-- HANDLER_ENTRY: nothing happens while no entry is due (log entry 4). -/
def execHandlerEntry (p : FrameId) (s : State) : Host.Outcome State Fault Refusal :=
  .next (if s.handlerDue p then s.enterHandler p else s)

/-! ## PARKQ (R366, R372) -/

/-- The 64 bytes of a record. -/
def Record.bytes (r : Record) : List Byte :=
  let flags : BitVec 8 := BitVec.ofNat 8
    ((if r.withdrawn then 1 else 0) + (if r.pendingUnderHalt then 2 else 0) + (if r.engineFlag then 4 else 0)
      + (if r.deferredFlag then 8 else 0) + (if r.origKept then 16 else 0))
  ([r.cause, flags, if r.origKept then r.orig else 0, 0] : List Byte)
    ++ leBytes 4 r.lanes.toNat ++ leBytes 8 r.word.toNat ++ leBytes 8 r.pc.toNat ++ leBytes 8 r.addr.toNat
    ++ leBytes 8 r.launch ++ leBytes 4 (r.slot % 64 + 256 * (r.lane % 32) + 65536 * r.seq.toNat)
    ++ leBytes 2 r.teamSlot ++ leBytes 2 r.asid.toNat ++ leBytes 8 r.item0.toNat ++ leBytes 4 r.progress.toNat
    ++ leBytes 4 (match r.engine with | some .ve => 0 | some .ce => 1 | some .me => 2 | none => 0xFF)

/-- Sixteen registers from `n` take the bytes of an image. -/
def Lane.setBlock (x : Lane) (n : Nat) (b : List Byte) : Lane :=
  (List.range 16).foldl (fun y k => (y.setReg (n + k) (BitVec.ofNat 32 (fieldOf b (4 * k) 4))).unmark [n + k]) x

/-- The bytes of sixteen registers from `n`. -/
def Lane.block (x : Lane) (n : Nat) : List Byte :=
  (List.range 16).flatMap (fun k => leBytes 4 (x.reg (n + k)).toNat)

/-- The oldest queued record leaves the park queue. -/
def dequeue : List Record → List Record
  | [] => []
  | r :: t => if r.queued then { r with queued := false } :: t else r :: dequeue t

def parkqBody (dst p : Nat) (is : Issue) (_o : Operands) (s : State) : Except Cause State :=
  match (s.frame is.frame).records.find? (fun r => r.queued) with
  | none => .ok (s.modContext is.frame (fun x => x.setPred p false))
  | some r =>
    .ok ((s.modFrame is.frame (fun f => { f with records := pruneRecords (dequeue f.records) })).modContext is.frame
      (fun x => (x.setBlock dst r.bytes).setPred p true))

def execParkq (w : RWord) (s : State) : Host.Outcome State Fault Refusal :=
  sysOp (.parkq w) (parkqBody w.dst.toNat w.c.toNat) s

/-! ## RESUME (R375, R441, R485) -/

/-- Sub-rods whose lanes stand at different places part. -/
def Rod.regroupAll (r : Rod) : Rod :=
  (List.range 32).foldl (fun q l => if lowest (q.subRod l) = l && (q.lane l).live then q.regroup (q.subRod l) else q) r

/-- The rod a lane record belongs to, where it is still resident. -/
def State.recordRod (s : State) (p : FrameId) (x : Record) : Option Rod :=
  match s.rod? (rodKey p x.slot) with
  | some r => if x.ofRod r then some r else none
  | none => none

/-- The stopped command of an engine record: its engine and position. -/
def Frame.stoppedCommand (f : Frame) (seq : BitVec 16) : Option (EngineId × Nat × Cmd) :=
  engines.findSome? (fun e =>
    let l := (f.engine e).entries
    match l.findIdx? (fun c => c.st == .stopped && (match c.fault with | some (_, _, q) => q == seq | none => false)) with
    | some n => (l[n]?).map (fun c => (e, n, c))
    | none => none)

/-- The lanes a record holds parked. -/
def Rod.parkedBy (r : Rod) (seq : BitVec 16) : BitVec 32 :=
  r.maskWhere (fun x => x.st == .parked && x.record == some seq)

/-- .retry and .skip of a lane record. -/
def State.resumeLanes (s : State) (p : FrameId) (x : Record) (skip : Bool) : State :=
  match s.recordRod p x with
  | none => s
  | some r =>
    if r.parkedBy x.seq = 0 then s
    else ((s.setRod (rodKey p x.slot) (r.resume x.seq skip)).modFrame p (fun f => f.resolve x.seq)).boundary
      (rodKey p x.slot)

/-- .abort of a lane record: its lanes retire as killed, and the launch's fault count rises by 1. -/
def State.abortLanes (s : State) (p : FrameId) (x : Record) : State :=
  match s.recordRod p x with
  | none => s
  | some r =>
    let m := r.parkedBy x.seq
    if m = 0 then s
    else
      let s1 := s.retireLanes (rodKey p x.slot) m (fun _ => .killed)
      ((s1.countFault r.launch 1).modFrame p (fun f => f.resolve x.seq)).retireRod (rodKey p x.slot)

/-- What a halt or slice release leaves: by the record's cause the halt or the slice, else whichever holds the rod. -/
def releaseStop (cause : BitVec 8) (st : Stop) : Stop :=
  match st with
  | .none => .none
  | .slice => .none
  | .halt => .none
  | .sliceUnderHalt => if cause == Cause.timeSlice.code then .halt else .slice

def State.runRod (s : State) (p : FrameId) (x : Record) : State :=
  match s.recordRod p x with
  | none => s
  | some r =>
    if r.stop = .none then s
    else
      let k := rodKey p x.slot
      let st := releaseStop x.cause r.stop
      let r1 := { r with stop := st }
      let s1 := s.setRod k (if st = .none then r1.regroupAll else r1)
      -- a record of a fault keeps its parked lanes; a stop's record is done with
      let done := x.cause == Cause.debugHalt.code || x.cause == Cause.timeSlice.code
      -- a TKGET that the slice stopped is a waiter again (R295, R448)
      ((if done then s1.modFrame p (fun f => f.resolve x.seq) else s1).boundary k).serveTeam (teamKeyOf k r)

/-- .retry of an engine record: the command goes on from its progress count; while the engine reports that it has stopped nothing
runs, and the command goes on as issue resumes (R361, R444). -/
def State.retryCommand (s : State) (p : FrameId) (x : Record) : State :=
  match (s.frame p).stoppedCommand x.seq with
  | none => s
  | some (e, n, c) =>
    let st := if (s.frame p).engctl.getLsbD (8 + EngineId.num e) then CmdState.stopped else .running
    (s.modEngine p e (fun q => q.setEntry n { c with st := st, fault := none })).modFrame p
      (fun f => f.resolve x.seq)

/-- .abort of an engine record: the command is cancelled, its cause 0x10 record keeps the code as original cause. -/
def State.abortCommand (s : State) (p : FrameId) (x : Record) (code : BitVec 8) : State :=
  match (s.frame p).stoppedCommand x.seq with
  | none => s
  | some (e, _, c) =>
    let s1 := s.cancelWhere p e (fun q => q.st == .stopped && q.fault == c.fault && q.ord == c.ord
      && q.teamSlot == c.teamSlot)
    (s1.commandFault p e c .engineCommandFault (some code) 0).modFrame p (fun f => f.resolve x.seq)

inductive ResumeForm where
  | retry
  | skip
  | abort
  | run
  deriving DecidableEq, Repr

def resumeBody (form : ResumeForm) (is : Issue) (o : Operands) (s : State) : Except Cause State :=
  let p := is.frame
  let h : Word := (is.value o.a).setWidth 32
  -- a slot number at or above the frame's count (R361)
  if Config.slotsOf p.die ≤ (h.extractLsb' 0 6).toNat then .error .illegalOperand
  else
  match (s.frame p).recordOfHandle h with
  | none => .ok s
  | some x =>
    if x.isEngine then
      match form with
      | .retry => .ok (s.retryCommand p x)
      | .abort => .ok (s.abortCommand p x ((is.value o.b).extractLsb' 0 8))
      | .skip | .run => .error .illegalOperand
    else
      match form with
      | .retry => .ok (s.resumeLanes p x false)
      | .skip => .ok (s.resumeLanes p x true)
      | .abort => .ok (s.abortLanes p x)
      | .run => .ok (s.runRod p x)

def execResumeRetry (w : RWord) (s : State) : Host.Outcome State Fault Refusal :=
  sysOp (.resumeRetry w) (resumeBody .retry) s
def execResumeSkip (w : RWord) (s : State) : Host.Outcome State Fault Refusal :=
  sysOp (.resumeSkip w) (resumeBody .skip) s
def execResumeAbort (w : RWord) (s : State) : Host.Outcome State Fault Refusal :=
  sysOp (.resumeAbort w) (resumeBody .abort) s
def execResumeRun (w : RWord) (s : State) : Host.Outcome State Fault Refusal :=
  sysOp (.resumeRun w) (resumeBody .run) s

/-! ## TLBI (R378, R423) -/

/-- What a TLBI covers: 0 a page, 1 an ASID, 2 everything. -/
def Xlat.covered (x : Xlat) (scope : Nat) (va : DWord) (asid part : Nat) : Bool :=
  match scope with
  | 0 => x.covers asid part va.toNat
  | 1 => if x.glob then x.part == part else x.asid == asid
  | _ => true

/-- No cached translation of the die is left in the range. -/
def State.invalidate (s : State) (die scope : Nat) (va : DWord) (asid : Nat) : State :=
  let part := (s.asidEntry asid).part
  let out (l : List Xlat) : List Xlat := l.filter (fun x => !x.covered scope va asid part)
  let s1 := s.modDie die (fun d => { d with tlb := out d.tlb })
  (s1.framesOfDie die).foldl (fun s f => s.modFrame f (fun x => { x with tlb := out x.tlb })) s1

/-- The unmap requests under way, by partition and xl.umseq (R423, R424). -/
def State.unmapsRunning (s : State) : List (Nat × Word) :=
  (List.finRange 8).filterMap (fun k =>
    if s.hub.xl[k].umstat.getLsbD 0 then some (k.val, s.hub.xl[k].umseq) else none)

def tlbiBody (scope : Nat) (is : Issue) (o : Operands) (s : State) : Except Cause State :=
  let va := if scope = 0 then is.value o.a else 0
  let asid := if scope = 2 then 0 else ((is.value o.b).extractLsb' 0 12).toNat
  .ok ((s.invalidate is.frame.die scope va asid).modFrame is.frame (fun f => { f with fw := .tlbi scope va asid s.unmapsRunning }))

def execTlbiVa (w : RWord) (s : State) : Host.Outcome State Fault Refusal := sysOp (.tlbiVa w) (tlbiBody 0) s
def execTlbiAsid (w : RWord) (s : State) : Host.Outcome State Fault Refusal := sysOp (.tlbiAsid w) (tlbiBody 1) s
def execTlbiAll (w : RWord) (s : State) : Host.Outcome State Fault Refusal := sysOp (.tlbiAll w) (tlbiBody 2) s

/-- No load of the die that used a removed translation is outstanding. -/
def State.tlbiQuiet (s : State) (die scope : Nat) (va : DWord) (asid : Nat) : Bool :=
  let part := (s.asidEntry asid).part
  s.rods.all (fun e => e.1.frame.die != die
    || (List.finRange 32).all (fun l => e.2.lanes[l].loads.all (fun q =>
        q.xlats.all (fun x => !x.covered scope va asid part))))

/-- The pages that hold an address, first address and bytes: its 4 KiB, and every page of the ASID that the hub has handed out
there, of whatever size (R378, R423). -/
def Hub.pagesAt (h : Hub) (asid va : Nat) : List (Nat × Nat) :=
  (va / 4096 * 4096, 4096) ::
    (h.given.filter (fun e => e.1 == (false, asid) && decide (e.2.1 ≤ va ∧ va < e.2.1 + e.2.2.1))).map (fun e => (e.2.1, e.2.2.1))

/-- The die's report clears it for a page range the TLBI covers, in an unmap that was accepted before the TLBI issued
(R423). `pages` are the pages of a TLBI.va; a length of 0 asks for every page of the ASID, which no TLBI.va covers (R425). -/
def XlPage.tlbiReport (x : XlPage) (page die scope asid : Nat) (pages : List (Nat × Nat)) (running : List (Nat × Word)) :
    XlPage :=
  let mine := (x.umctl.extractLsb' 0 12).toNat
  let glob := x.umctl.getLsbD 17
  let inPage := x.umlen != 0 && pages.any (fun q => q.1 ≤ x.umva.toNat && x.umva.toNat + x.umlen.toNat ≤ q.1 + q.2)
  let covers := scope == 2 || (!glob && asid == mine && (scope == 1 || inPage))
  if running.contains (page, x.umseq) && x.umstat.getLsbD 0 && covers then { x with cleared := die :: x.cleared } else x

/-- TLBI_COMPLETE: nothing happens while an access that used a removed translation is outstanding (log entry 4). -/
def execTlbiComplete (p : FrameId) (s : State) : Host.Outcome State Fault Refusal :=
  .next (match (s.frame p).fw with
    | .tlbi scope va asid running =>
      if s.tlbiQuiet p.die scope va asid then
        ((s.modFrame p (fun f => { f with fw := .running })).modHub (fun h =>
          { h with xl := Vector.ofFn (fun k => 
            h.xl[k].tlbiReport k.val p.die scope asid (h.pagesAt asid va.toNat) running) })).report (.tlbiDone p)
      else s
    | _ => s)

/-! ## BKPT, FWCALL, IDLE (R373, R379, R380) -/

/-- BKPT stops the context behind the word. -/
def execBkpt (w : RWord) (s : State) : Host.Outcome State Fault Refusal :=
  sysOp (.bkpt w) (fun is _ s =>
    .ok ((s.modFrame is.frame (fun f => { f with fw := .debug })).report (.breakpointStop is.frame))) s

def execDebugAgentRelease (p : FrameId) (s : State) : Host.Outcome State Fault Refusal :=
  .next (match (s.frame p).fw with
    | .debug => s.modFrame p (fun f => { f with fw := .running })
    | _ => s)

/-- FWCALL sends sixteen registers to the hub and waits. -/
def fwcallBody (w : RWord) (is : Issue) (_o : Operands) (s : State) : Except Cause State :=
  let n := sysNumber w
  let args := (List.range 16).map (fun k => is.cap.reg (w.a.toNat + k))
  .ok ((s.modFrame is.frame (fun f => { f with fw := .calling n w.dst.toNat w.a.toNat })).report
    (.serviceCall is.frame n args))

def execFwcall (w : RWord) (s : State) : Host.Outcome State Fault Refusal := sysOp (.fwcall w) (fwcallBody w) s

/-- The reply replaces the request's registers, then the status is written; missing words of a reply read 0. -/
def execFwcallReply (p : FrameId) (status : BitVec 32) (reply : List (BitVec 32)) (s : State) :
    Host.Outcome State Fault Refusal :=
  .next (match (s.frame p).fw with
    | .calling _ dst arg =>
      (s.modFrame p (fun f => { f with fw := .running })).modContext p (fun x =>
        (((List.range 16).foldl (fun y k => (y.setReg (arg + k) (reply.getD k 0)).unmark [arg + k]) x).setReg dst status).unmark
          [dst])
    | _ => s)

def execIdle (w : RWord) (s : State) : Host.Outcome State Fault Refusal :=
  sysOp (.idle w) (fun is o s =>
    let limit := is.value o.a
    let f := s.frame is.frame
    .ok (if f.eventPending || (limit != 0 && limit.toNat ≤ (s.frameTime is.frame).toNat) then s
      else s.modFrame is.frame (fun f => { f with fw := .idle limit }))) s

/-- IDLE_WAKE: nothing happens while neither an event nor the time limit has come (log entry 4). -/
def execIdleWake (p : FrameId) (s : State) : Host.Outcome State Fault Refusal :=
  .next (match (s.frame p).fw with
    | .idle limit =>
      if (s.frame p).eventPending || (limit != 0 && limit.toNat ≤ (s.frameTime p).toNat) then
        s.modFrame p (fun f => { f with fw := .running })
      else s
    | _ => s)

/-! ## The hub's part (R367) -/

/-- FIRMWARE_CONTEXT_RESTART of a context that its own fault stopped. -/
def execFirmwareContextRestart (p : FrameId) (addr : BitVec 64) (s : State) : Host.Outcome State Fault Refusal :=
  .next (match (s.frame p).fw with
    | .faulted =>
      (s.modFrame p (fun f => { f with fw := .running, status := withBit f.status 1 false })).modContext p
        (fun x => { x with pc := addr &&& ~~~7#64, st := .runnable })
    | _ => s)

/-! ## Events of the frame (R364, R410) -/

/-- SLICE_TIME_REACHED (R361, R364): nothing happens before the time (log entry 4). -/
def execSliceTimeReached (p : FrameId) (s : State) : Host.Outcome State Fault Refusal :=
  .next (let f := s.frame p
    if f.sliceArmed && f.slice.toNat ≤ (s.frameTime p).toNat then
      s.modFrame p (fun f => { f.raise 2 with sliceArmed := false })
    else s)

def execTimerReached (p : FrameId) (s : State) : Host.Outcome State Fault Refusal :=
  .next (let f := s.frame p
    if f.timerArmed && f.timer.toNat ≤ (s.frameTime p).toNat then
      s.modFrame p (fun f => { f.raise 6 with timerArmed := false })
    else s)

def execHubDoorbell (p : FrameId) (s : State) : Host.Outcome State Fault Refusal :=
  .next (s.modFrame p (fun f => f.raise 3))

def execDebugRequest (p : FrameId) (s : State) : Host.Outcome State Fault Refusal :=
  .next (s.modFrame p (fun f => f.raise 5))

end Sys2Proof.Machine
end

