-- ==== Sys2Proof/Machine/Context.lean ====
section
/-!
DEFINITION. Sys2Proof/Machine/Context.lean: taking a rod or a team off its frame and putting it back (R57, R323, R330, R449,
R454), the banks (R404), the save images (R451 to R453), CTXSV and CTXLD (R377, R455), and the engine and team images of
ENGRD and ENGWR (R376, R445).
-/

namespace Sys2Proof.Machine

/-! ## Banks (R404) -/

/-- A team of the launch in the active bank is on the frame. -/
def State.activeBusy (s : State) (p : FrameId) : Bool :=
  match (s.frame p).active with
  | none => false
  | some b => (s.teamsOn p).any (fun e => e.2.launch == b.launch)

/-! ### The scheduler's choice (R408) -/

/-- Work may be placed on the frame: it is up, its die does not drain for a reset, and no pre-emption empties it (R432, R449,
R468). -/
def State.takesWork (s : State) (p : FrameId) : Bool :=
  s.frameUp p && (s.die p.die).phase == .running && (s.frame p).preempting.isNone

/-- The launch's next team is assigned to the frame and may still start. -/
def Launch.nextOn (l : Launch) (p : FrameId) (now : Nat) : Bool :=
  !l.closed now && l.nextTeam < l.record.teams
    && l.frames[l.nextTeam % (max 1 l.frames.length)]? == some p

/-- The launch has saved state on the frame. -/
def Frame.savedOf (f : Frame) (launch : Nat) : Bool :=
  f.savedTeams.any (fun v => v.team.launch == launch) || f.savedRods.any (fun v => v.rod.launch == launch)

/-- Launches that compete for the frame. -/
def State.candidates (s : State) (p : FrameId) : List Launch :=
  s.hub.launches.filter (fun l =>
    !l.completed && !l.killed && (l.nextOn p s.hub.now.toNat || (s.frame p).savedOf l.seq))

/-- The key of R408: `a` comes before `b`. -/
def higherKey (now : Nat) (a b : Launch) : Bool :=
  let sa := (a.slack now).toInt
  let sb := (b.slack now).toInt
  decide (b.priority < a.priority) || (a.priority == b.priority && (decide (sa < sb) || (sa == sb && decide (a.seq < b.seq))))

def bestLaunch (now : Nat) : List Launch → Option Launch
  | [] => none
  | a :: t =>
    match bestLaunch now t with
    | none => some a
    | some b => if higherKey now b a then some b else some a

def Launch.bank (l : Launch) : Bank := { launch := l.seq, asid := l.asid, scope := l.scope }

/-- The launch that takes a frame that becomes free: the one of highest key now (R408, R411), else what the shadow bank
holds. -/
def State.nextBank (s : State) (p : FrameId) : Option Bank :=
  match (if s.takesWork p then bestLaunch s.hub.now.toNat (s.candidates p) else none) with
  | some l => some l.bank
  | none => (s.frame p).shadow

/-- The banks swap when no team of the active launch is left on the frame. -/
def State.bankSwap (s : State) (p : FrameId) : State :=
  if s.activeBusy p then s
  else
    match s.nextBank p with
    | none => s
    | some b => s.modFrame p (fun f => { f with active := some b, shadow := none })

/-! ## A rod leaves its frame (R57, R298, R323, R377) -/

/-- The elements of accumulator rows. -/
def rowContents (t : Team) (rows : List Nat) : List (Nat × Word) :=
  rows.flatMap (fun r => (List.range t.accCols).map (fun c => (r * t.accCols + c, cellGet t.acc (r * t.accCols + c))))

/-- The unread or unresolved records of a rod. -/
def Frame.recordsOf (f : Frame) (r : Rod) : List Record :=
  f.records.filter (fun x => x.ofRod r && !x.withdrawn && !x.resolved)

/-- A save withdraws the records of the rod (R449). -/
def Frame.withdrawSaved (f : Frame) (r : Rod) : Frame :=
  { f with records := pruneRecords (f.records.map (fun x =>
      if x.ofRod r && !x.resolved then { x with withdrawn := true } else x)) }

/-- The rod as saved: its loads will be translated afresh. -/
def Rod.toSave (r : Rod) : Rod :=
  { (r.mapLanes 0xFFFFFFFF (fun _ x => { x with loads := x.loads.map (fun e => { e with xlats := [] }) })) with
    taken := false, yielded := false }

/-- The rod's state leaves the frame; its blocks, rows and waiting requests go with it. `place` says where its image lies. -/
def State.detachRod (s : State) (p : FrameId) (slot epoch : Nat) (place : Option ImagePlace) : State :=
  let k := rodKey p slot
  let s0 := s.drainWhere k 0xFFFFFFFF (fun _ e => e.kind == .atomic)
  match s0.rod? k with
  | none => s0
  | some r =>
    let rows := match s0.team? (teamKeyOf k r) with
      | some t => rowContents t r.rows
      | none => []
    let parked := ((s0.frame p).recordsOf r).filter (fun x => r.parkedBy x.seq != 0)
    (s0.eraseRod k).modFrame p (fun f =>
      let f1 := (f.withdrawSaved r).withdrawRequests slot 0xFFFFFFFF
      { f1 with savedRods := f1.savedRods ++
          [{ rod := r.toSave, contents := rows, epoch := epoch, parked := parked, wrapped := s0.wrapped r.launch,
             place := place, landed := [], drawn := [] }] })

/-! ## A rod returns to its frame (R57, R104, R298, R454) -/

/-- Waiting requests are made again (R55). -/
def Lane.request (r : Rod) (slot l : Nat) (x : Lane) : Option Request :=
  let q (kind : RequestKind) : Request := { launch := r.launch, item0 := r.item0.toNat, kind := kind }
  if x.st != .blocked || lowest (r.subRod l) != l then none
  else
    match x.wait with
    | .grow f sl => some (q (.grow slot l f sl))
    | .acres row n => some (q (.acres slot l row n))
    | _ => none

def Rod.requests (r : Rod) (slot : Nat) : List Request :=
  (List.range 32).filterMap (fun l => (r.lane l).request r slot l)

/-- Barrier waits of generations that completed meanwhile end (R297, R298). -/
def Rod.leaveBarriers (r : Rod) : Rod :=
  r.mapLanes 0xFFFFFFFF (fun _ x =>
    match x.wait with
    | .barMeet b _ =>
      if x.st == .blocked && !r.arrived.getLsbD b then ({ x with st := .runnable, wait := .none }).advance else x
    | _ => x)

/-- The slice that an image holds under its halt, beside the traps the rod had pending. -/
def trapsOf (n : Nat) (old : List TrapForm) : List TrapForm :=
  if n = 3 then old.filter (· != .slice) ++ [.slice] else old

/-- The parked sub-rods of a record, each with its lanes. -/
def Rod.parkedParts (r : Rod) (x : Record) : List (Record × BitVec 32) :=
  let m := r.parkedBy x.seq
  (maskLanes m).filterMap (fun l => let g := r.subRod l &&& m; if lowest g = l then some (x, g) else none)

/-- Parked sub-rods that no saved record names: the image alone does not tell their cause, which is free (log entry 40). -/
def Rod.unnamedParts (r : Rod) (named : BitVec 32) : List (BitVec 32) :=
  let m := r.maskWhere (fun x => x.st == .parked) &&& ~~~named
  (maskLanes m).filterMap (fun l => let g := r.subRod l &&& m; if lowest g = l then some g else none)

/-- The record of a parked sub-rod joins the park queue, and its lanes are parked by it. -/
def State.appendFresh (s : State) (k : RodKey) (x : Record) (m : BitVec 32) : State :=
  match s.rod? k with
  | none => s
  | some r =>
    let seq := (s.frame k.frame).recSeq
    let y := { x with seq := seq, slot := slotNumber k, lane := lowest m, lanes := m, teamSlot := r.teamSlot,
                      queued := true, resolved := false, withdrawn := false, pc := (r.lane (lowest m)).pc,
                      since := s.hub.now.toNat }
    (s.modFrame k.frame (fun f => { f with records := f.records ++ [y], recSeq := f.recSeq + 1 })).setRod k
      (r.park m seq)

/-- The word of a fresh record: the saved one of the sub-rod that holds the record's lowest lane, and of an engine's fault;
else the word at the sub-rod's own program counter. -/
def State.freshWord (s : State) (k : RodKey) (r : Rod) (x : Record) (m : BitVec 32) : DWord :=
  if x.engineFlag || lowest (r.parkedBy x.seq) == lowest m then x.word else s.wordAt k r (r.lane (lowest m)).pc

/-- Each parked sub-rod, and a stop, appends a fresh record (R454). A slice that stopped the rod before its halt is held under
the halt again, and appends its own record after the halt's release (R374). -/
def State.freshRecords (s : State) (k : RodKey) (v : SavedRod) : State :=
  match s.rod? k with
  | none => s
  | some r =>
    let parts := v.parked.flatMap r.parkedParts
    let named := parts.foldl (fun m e => m ||| e.2) 0#32
    let s1 := parts.foldl (fun s e => s.appendFresh k { e.1 with word := s.freshWord k r e.1 e.2 } e.2) s
    let s2 := (r.unnamedParts named).foldl (fun s m =>
      let (c, s') := s.draw
      let x := recordOf s' k r m (laneFault .undefinedInstruction (s'.wordAt k r (r.lane (lowest m)).pc) 0)
      s'.appendFresh k { x with cause := c.extractLsb' 0 8 } m) s1
    match r.stop with
    | .none => s2
    | .slice => s2.stopRecord k r .timeSlice false
    | .halt => s2.stopRecord k r .debugHalt false
    | .sliceUnderHalt =>
      (s2.stopRecord k r .debugHalt false).modRod k (fun q => { q with stop := .halt, traps := trapsOf 3 q.traps })

/-- A rod in phase 0 of a launch past T_w takes its divert before it issues (R104). -/
def Rod.owesDivert (r : Rod) : Bool := (List.finRange 32).any (fun l => r.lanes[l].live && !r.lanes[l].phase)

/-- A queued joined reduction will write a register of the rod. -/
def State.reduceQueued (s : State) (tk : TeamKey) (rod : Nat) (q : Joined) : Bool :=
  ((s.frame tk.frame).engine .ve).entries.any (fun c =>
    c.isReduce && c.teamSlot == tk.slot && RMod.bits (Sys2Proof.rword c.word).mod 8 4 == q.j
      && c.partials.any (fun x => x.rod == rod && x.sig == q.sig))

/-- What the wrap-up threshold did to the launch while the rod lay saved: the signature counts are 0, the barriers have
counted no arrival, and reductions that were cancelled let their registers go (R93, R94, R250, R456). -/
def State.wrapSaved (s : State) (tk : TeamKey) (r : Rod) : Rod :=
  { (r.mapLanes 0xFFFFFFFF (fun _ x => { x with joined := x.joined.filter (s.reduceQueued tk r.rod) })) with
    sigs := Vector.replicate 16 0, arrived := 0 }

/-- Places a saved rod in a free slot of the frame its team is on; releases of its rows that waited for the reload may take effect
(R323). -/
def State.attachRod (s : State) (p : FrameId) (slot teamSlot : Nat) (v : SavedRod) : State :=
  let k := rodKey p slot
  let tk : TeamKey := { frame := p, slot := teamSlot }
  let q0 := ({ v.rod with teamSlot := teamSlot }).leaveBarriers
  let r0 := if s.wrapped v.rod.launch && !v.wrapped then s.wrapSaved tk q0 else q0
  let r1 := { r0 with divert := s.wrapped r0.launch && r0.owesDivert && !(s.recordOfLaunch r0.launch).deadline.toNat == 0 }
  let s1 := (s.setRod k r1).modTeam tk (fun t => { t with acc := cellsPut t.acc v.contents })
  let s2 := s1.freshRecords k v
  let r2 := (s2.rod? k).getD r1
  let s3 := s2.modFrame p (fun f => { f with requests := f.requests ++ (if r2.divert then [] else r2.requests slot) })
  let s4 := match s3.team? tk with
    | some t => (List.range 16).foldl (fun (q : State) n => q.modRod k (fun r => r.releaseJoin n (t.join n))) s3
    | none => s3
  ((s4.settleRows tk).serveTeam tk).settleJoins tk

/-! ## A team leaves and returns (R57, R330, R454) -/

/-- The team's entries of an engine with their places. -/
def entriesOf (f : Frame) (e : EngineId) (slot : Nat) : List (EngineId × Nat × Cmd) :=
  ((f.engine e).entries.zipIdx.filter (fun c => c.1.teamSlot == slot)).map (fun c => (e, c.2, c.1))

def Frame.teamEntries (f : Frame) (slot : Nat) : List (EngineId × Nat × Cmd) :=
  engines.flatMap (fun e => entriesOf f e slot)

def Frame.dropTeam (f : Frame) (slot : Nat) : Frame :=
  engines.foldl (fun f e =>
    f.setEngine e { f.engine e with entries := (f.engine e).entries.filter (fun c => c.teamSlot != slot) }) f

/-- A CPPEER to the team is running: the team keeps its frame store (R319). -/
def State.copyComing (s : State) (launch number : Nat) : Bool :=
  s.frames.any (fun e => e.2.ce.entries.any (fun c =>
    c.st == .running && !c.isReduce && c.index == 0x27 && c.launch == launch && hi32 c.e1 == number))

/-- No command of the team runs, and none into its frame store. -/
def State.commandsDone (s : State) (tk : TeamKey) : Bool :=
  ((s.frame tk.frame).teamEntries tk.slot).all (fun c => c.2.2.st != .running)
    && !((s.team? tk).map (fun t => s.copyComing t.launch t.number)).getD false

/-- No resident rod and no running command: the team can be saved. -/
def State.teamIdle (s : State) (tk : TeamKey) : Bool :=
  !(s.rodsOn tk.frame).any (fun e => e.2.teamSlot == tk.slot) && s.commandsDone tk

/-- The team's state leaves the frame with its entries; the banks may swap (R404). -/
def State.detachTeam (s : State) (tk : TeamKey) (epoch : Nat) (place : Option ImagePlace) : State :=
  match s.team? tk with
  | none => s
  | some t =>
    let f := s.frame tk.frame
    let cs := f.teamEntries tk.slot
    let seqs := cs.filterMap (fun c => c.2.2.fault.map (fun q => q.2.2))
    ((s.eraseTeam tk).modFrame tk.frame (fun f =>
      { (f.dropTeam tk.slot) with
        savedTeams := f.savedTeams ++
          [{ team := t, cmds := cs, epoch := epoch, wrapped := s.wrapped t.launch, place := place, slots := [] }]
        records := pruneRecords (f.records.map (fun x =>
          if x.isEngine && seqs.contains x.seq then { x with withdrawn := true } else x)) })).bankSwap tk.frame

/-- An entry goes in immediately ahead of the first one of its epoch with a larger saved place, else at the tail. -/
def insertEntry (c : Cmd) (epoch pos : Nat) (l : List Cmd) : List Cmd :=
  let c' := { c with epoch := some (epoch, pos) }
  match l.findIdx? (fun x => match x.epoch with | some (a, b) => a == epoch && pos < b | none => false) with
  | some n => l.take n ++ c' :: l.drop n
  | none => l ++ [c']

def State.restoreEntry (s : State) (p : FrameId) (slot epoch : Nat) (x : EngineId × Nat × Cmd) : State :=
  let c := { x.2.2 with teamSlot := slot }
  match c.fault with
  | some (cause, addr, _) =>
    if c.st == .stopped then
      let seq := (s.frame p).recSeq
      let c' := { c with fault := some (cause, addr, seq) }
      (s.modEngine p x.1 (fun q => { q with entries := insertEntry c' epoch x.2.1 q.entries })).modFrame p (fun f =>
        { f with records := f.records ++ [engineRecord s p x.1 c' cause addr], recSeq := f.recSeq + 1 })
    else s.modEngine p x.1 (fun q => { q with entries := insertEntry c epoch x.2.1 q.entries })
  | none =>
    let s1 := s.modEngine p x.1 (fun q => { q with entries := insertEntry c epoch x.2.1 q.entries })
    -- what firmware had put back as started goes on with the engine's issue (R376)
    if (s.frame p).engctl.getLsbD (EngineId.num x.1) then s1 else s1.restartEntries p x.1

/-- The queues have room for the entries of a saved team. -/
def Frame.roomFor (f : Frame) (v : SavedTeam) : Bool :=
  engines.all (fun e => (f.engine e).entries.length + (v.cmds.filter (fun c => c.1 == e)).length ≤ Config.queueEntries e)

/-- Every join instance is cancelled: the signature numbers start afresh (R93). -/
def Join.cancelled (j : Join) : Join := { j with base := 0, pending := [] }

/-- A barrier back at zero arrivals (R94). -/
def Barrier.emptied (b : Barrier) : Barrier := { b with arrivals := 0, gone := 0 }

/-- What the end of a launch's joins and barriers leaves of a team (R93, R94, R122). -/
def Team.stripped (t : Team) : Team :=
  { t with
    joins := Vector.ofFn (fun j => t.joins[j].cancelled)
    bars := Vector.ofFn (fun b => t.bars[b].emptied) }

/-- What the wrap-up threshold did to the launch while the team lay saved: its joins, its barriers' arrivals, and the
commands that have not started are gone (R93, R330, R456). -/
def SavedTeam.wrapUp (v : SavedTeam) : SavedTeam :=
  { v with team := v.team.stripped, cmds := v.cmds.filter (fun c => c.2.2.started), wrapped := true }

/-- Places a saved team in a free team slot. -/
def State.attachTeam (s : State) (tk : TeamKey) (v : SavedTeam) : State :=
  let w := if s.wrapped v.team.launch && !v.wrapped then v.wrapUp else v
  w.cmds.foldl (fun s c => s.restoreEntry tk.frame tk.slot w.epoch c) (s.setTeam tk w.team)

/-! ## Bytes of images -/

def byteOf (n : Nat) : Byte := BitVec.ofNat 8 n
def zeros (n : Nat) : List Byte := List.replicate n 0

/-- Pads a list of bytes with zeros to a length. -/
def padTo (n : Nat) (b : List Byte) : List Byte := b ++ zeros (n - b.length)

/-- A bitmap of `n` bytes with the bits of a list. -/
def bitmap (n : Nat) (l : List Nat) : List Byte :=
  (List.range n).map (fun m => byteOf ((List.range 8).foldl (fun a k => if l.contains (8 * m + k) then a + 2 ^ k else a) 0))

def bitmapOf (n : Nat) (b : List Byte) : List Nat :=
  (List.range (8 * n)).filter (fun i => (b.getD (i / 8) 0).getLsbD (i % 8))

/-! ## The rod image (R451, R452) -/

def LaneState.code : LaneState → Nat
  | .noItem => 0
  | .retired => 1
  | .runnable => 2
  | .parked => 3
  | .carryWait => 4
  | .syncWait => 5
  | .blocked => 6

def laneStateOf (n : Nat) : LaneState :=
  match n with
  | 0 => .noItem
  | 1 => .retired
  | 2 => .runnable
  | 3 => .parked
  | 4 => .carryWait
  | 5 => .syncWait
  | _ => .blocked

def Wait.code : Wait → Nat
  | .none => 0
  | .grow _ _ => 1
  | .acres _ _ => 2
  | .tkget _ _ => 3
  | .barMeet _ _ => 4
  | .jwait _ => 5
  | .jset _ => 6
  | .fullJoin _ => 7
  | .carryRead _ => 8
  | .carryWrite _ => 9

def LoadKind.code : LoadKind → Nat
  | .ld => 0
  | .lds => 1
  | .lda => 2
  | .ldff => 3
  | .atomic => 0

def loadKindOf (n : Nat) : LoadKind :=
  match n with
  | 0 => .ld
  | 1 => .lds
  | 2 => .lda
  | _ => .ldff

/-- The size code of an access of 1, 2, 4, 8 or 16 bytes (R271). -/
def sizeCode (n : Nat) : Nat := if n ≤ 1 then 0 else if n ≤ 2 then 1 else if n ≤ 4 then 2 else if n ≤ 8 then 3 else 4

def LoadEntry.image (e : LoadEntry) : List Byte :=
  leBytes 8 e.addr.toNat ++ [byteOf e.kind.code, byteOf (sizeCode e.size), byteOf e.scope, byteOf e.dst]
    ++ leBytes 2 e.ordinal.toNat ++ zeros 2

/-- Generations an item has published that are not yet read (R452). -/
def State.gensOf (s : State) (r : Rod) (x : Lane) (slot : Nat) : List Word :=
  (carryBuf s.carry r.launch x.item.toNat slot).gens

def laneImage (s : State) (r : Rod) (l : Nat) : List Byte :=
  let x := r.lane l
  let gens := (List.range 8).map (s.gensOf r x)
  leBytes 8 x.pc.toNat
    ++ [byteOf x.st.code, byteOf x.wait.code, byteOf x.preds.toNat,
        byteOf ((if x.valid then 1 else 0) + (if x.phase then 2 else 0)), byteOf x.cdone.toNat,
        byteOf x.carryBits.toNat, byteOf x.marks.length, byteOf (if x.live then lowest (r.subRod l) else 0)]
    ++ (List.range 4).flatMap (fun n => leBytes 4 (x.xreg n).toNat)
    ++ leBytes 4 x.rsCount.toNat ++ leBytes 4 x.loads.length ++ zeros 8
    ++ padTo 96 (x.marks.flatMap (fun m => leBytes 8 m.addr.toNat ++ leBytes 4 m.seq.toNat))
    ++ (List.range 8).flatMap (fun n =>
        leBytes 4 (x.readCount.toList.getD n 0).toNat ++ leBytes 4 (x.writeCount.toList.getD n 0).toNat)
    ++ gens.flatMap (fun g => padTo 16 (g.flatMap (fun v => leBytes 4 v.toNat)))
    ++ gens.map (fun g => byteOf g.length) ++ zeros 8
    ++ padTo 256 (x.loads.flatMap LoadEntry.image) ++ zeros 32

/-- The stop field of a rod image. -/
def Rod.stopCode (r : Rod) : Nat :=
  match r.stop with
  | .none => 0
  | .slice => 1
  | .halt => if r.traps.contains .slice then 3 else 2
  | .sliceUnderHalt => 3

def rodImageSize (f sl cols rows : Nat) : Nat := 20992 + 2048 * (f + sl) + 4 * cols * rows

/-- The image of a rod whose team has `cols` accumulator columns, with the contents of its rows. -/
def rodImage (s : State) (r : Rod) (cols epoch : Nat) (rows : List Nat) (contents : List Word) : List Byte :=
  leBytes 4 0x7A100001 ++ leBytes 2 1 ++ [byteOf r.fast, byteOf r.slow]
    ++ leBytes 4 (rodImageSize r.fast r.slow cols rows.length) ++ leBytes 4 r.liveMask.toNat ++ leBytes 8 r.launch
    ++ leBytes 8 r.item0.toNat ++ leBytes 8 r.team ++ [byteOf r.rod, byteOf r.stopCode] ++ leBytes 2 rows.length
    ++ leBytes 4 epoch ++ r.sigs.toList.map byteOf ++ [byteOf r.arrived.toNat, byteOf r.lastLane]
    ++ leBytes 2 (min 4096 r.unissued) ++ zeros 60 ++ bitmap 128 rows ++ zeros 256
    ++ (List.range 32).flatMap (laneImage s r)
    ++ (List.range r.fast).flatMap (fun b => (List.range 16).flatMap (fun k =>
        (List.range 32).flatMap (fun l => leBytes 4 ((r.lane l).reg (16 * b + k)).toNat)))
    ++ (List.range r.slow).flatMap (fun b => (List.range 16).flatMap (fun k =>
        (List.range 32).flatMap (fun l => leBytes 4 ((r.lane l).reg (128 + 16 * b + k)).toNat)))
    ++ contents.flatMap (fun v => leBytes 4 v.toNat)

/-! ### Reading a rod image -/

def loadEntryOf (b : List Byte) : LoadEntry :=
  { addr := BitVec.ofNat 64 (fieldOf b 0 8), kind := loadKindOf (fieldOf b 8 1), size := 2 ^ (min 4 (fieldOf b 9 1)),
    scope := fieldOf b 10 1, dst := fieldOf b 11 1, ordinal := BitVec.ofNat 16 (fieldOf b 12 2), value := 0,
    xlats := [], cut := false }

/-- The register that a word writes, as the capturing lane's index registers resolve it (R213, R271). -/
def placedDst (r : Rod) (cap : Lane) (i : Instr) (plain : Nat) : Nat :=
  match laneOperands r cap (planOf i) with
  | .ok o => o.dst.registers.headD plain
  | .error _ => plain

/-- The wait of a lane, from its code, the word at its program counter and the operands of the capturing lane of its sub-rod (R204,
R480). -/
def waitOf (code : Nat) (r : Rod) (cap : Lane) (t : Option Team) (i : Option Instr) : Wait :=
  match code, i with
  | 1, some (.grow w) => .grow (RMod.bits w.mod 8 4) (RMod.bits w.mod 12 3)
  | 2, some (.acres w) => .acres (cap.reg w.e0.toNat).toNat (cap.reg w.e1.toNat).toNat
  | 3, some (.tkget w) => .tkget w.b.toNat (placedDst r cap (.tkget w) w.dst.toNat)
  | 4, some (.barMeet w) => .barMeet w.b.toNat ((t.map (fun t => (t.barrier w.b.toNat).gen)).getD false)
  | 5, some (.jwait w) => .jwait w.dst.toNat
  | 6, some (.jset w) => .jset w.dst.toNat
  | 7, some i =>
    .fullJoin (match rShape i with
      | some (w, _) => RMod.bits w.mod 8 4
      | none => (Sys2Proof.eword (wordOf i)).e2.toNat)
  | 8, some i => .carryRead (planOf i).slots
  | 9, some i => .carryWrite ((planOf i).vdst.toNat - 248)
  | _, _ => .none

/-- A lane from its item record, its registers, and what the image does not hold. -/
def laneOfImage (b : List Byte) (item : DWord) (regs : Cells 32) (old : Lane) : Lane :=
  let lq := fieldOf b 0x24 4
  { old with
    st := laneStateOf (fieldOf b 8 1)
    wait := .none
    group := fieldOf b 0xF 1
    item := item
    -- a program counter is a multiple of 8 (R202; log entry 39)
    pc := BitVec.ofNat 64 (fieldOf b 0 8) &&& ~~~7#64
    regs := regs
    preds := BitVec.ofNat 7 (fieldOf b 0xA 1)
    xregs := Vector.ofFn (fun n => BitVec.ofNat 32 (fieldOf b (0x10 + 4 * n.val) 4))
    marks := (List.range (min 8 (fieldOf b 0xE 1))).map (fun n =>
      { addr := BitVec.ofNat 64 (fieldOf b (0x30 + 12 * n) 8), seq := BitVec.ofNat 32 (fieldOf b (0x38 + 12 * n) 4) })
    readCount := Vector.ofFn (fun n => BitVec.ofNat 32 (fieldOf b (0x90 + 8 * n.val) 4))
    writeCount := Vector.ofFn (fun n => BitVec.ofNat 32 (fieldOf b (0x94 + 8 * n.val) 4))
    cdone := BitVec.ofNat 8 (fieldOf b 0xC 1)
    carryBits := BitVec.ofNat 8 (fieldOf b 0xD 1)
    valid := (b.getD 0xB 0).getLsbD 0
    phase := (b.getD 0xB 0).getLsbD 1
    rsCount := BitVec.ofNat 20 (fieldOf b 0x20 4)
    loads := (List.range (min 16 lq)).map (fun n => loadEntryOf ((b.drop (0x160 + 16 * n)).take 16))
    fence := none }

/-- The registers of a lane in the block part of an image. -/
def regsOfImage (b : List Byte) (f sl l : Nat) : Cells 32 :=
  let at_ (blk k : Nat) : Word := BitVec.ofNat 32 (fieldOf b (2048 * blk + (32 * k + l) * 4) 4)
  let fast := (List.range f).flatMap (fun n => (List.range 16).map (fun k => (16 * n + k, at_ n k)))
  let slow := (List.range sl).flatMap (fun n => (List.range 16).map (fun k => (128 + 16 * n + k, at_ (f + n) k)))
  cellsPut [] (fast ++ slow)

/-- The stop of an image; under 3 the slice is held and takes effect after the halt (R374, R451; log entry 17). -/
def stopOf (n : Nat) : Stop :=
  match n with
  | 0 => .none
  | 1 => .slice
  | _ => .halt

/-- A signature count from its byte: the number nearest the join's oldest pending instance (R451). -/
def countOf (base c : Nat) : Nat :=
  let d := (c + 256 - base % 256) % 256
  if d ≤ 4 then base + d else base + d - 256

/-- The rod of an image, over the rod as it was saved. -/
def rodOfImage (s : State) (b : List Byte) (old : Rod) (t : Option Team) (k : RodKey) : Rod :=
  let f := fieldOf b 6 1
  let sl := fieldOf b 7 1
  let item0 := fieldOf b 0x18 8
  let r0 : Rod :=
    { old with
      launch := fieldOf b 0x10 8, team := fieldOf b 0x20 8, rod := fieldOf b 0x28 1, item0 := BitVec.ofNat 64 item0,
      fast := f, slow := sl
      lanes := Vector.ofFn (fun l => laneOfImage ((b.drop (0x200 + 640 * l.val)).take 640)
        (BitVec.ofNat 64 (item0 + l.val)) (regsOfImage (b.drop 20992) f sl l.val) old.lanes[l])
      nextGroup := 64, lastLane := fieldOf b 0x41 1, unissued := fieldOf b 0x42 2, stop := stopOf (fieldOf b 0x29 1)
      traps := trapsOf (fieldOf b 0x29 1) old.traps
      sigs := Vector.ofFn (fun j => countOf ((t.map (fun t => (t.join j.val).base)).getD 0) (fieldOf b (0x30 + j.val) 1))
      arrived := BitVec.ofNat 8 (fieldOf b 0x40 1), rows := bitmapOf 128 ((b.drop 0x80).take 128)
      taken := false, yielded := false }
  let instrAt (x : Lane) : Option Instr :=
    match (s.fetchWord k r0 x.pc).1 with
    | .ok w => (decode w).toOption
    | .error _ => none
  { r0 with lanes := Vector.ofFn (fun l =>
      let code := fieldOf b (0x200 + 640 * l.val + 9) 1
      let x := r0.lanes[l]
      if code = 0 then x else { x with wait := waitOf code r0 (r0.lane (lowest (r0.subRod l.val))) t (instrAt x) }) }

/-! ## The team image (R453) and the images of ENGRD (R376) -/

/-- The state code of a queue entry: an entry that has not started waits when it heads its queue. -/
def Cmd.stateCode (c : Cmd) (head : Bool) : Nat :=
  match c.st with
  | .running => 3
  | .stopped => 4
  | .queued | .waiting => if head then 2 else 1

/-- ENGRD kind 0; bytes 0x34 to 0x37 hold the place at the save in a team image. -/
def cmdImage (c : Cmd) (head : Bool) (pos : Nat) : List Byte :=
  leBytes 8 c.word.toNat ++ leBytes 8 c.e0.toNat ++ leBytes 8 c.e1.toNat ++ leBytes 8 c.e2.toNat
    ++ [byteOf (c.stateCode head), byteOf c.teamSlot] ++ zeros 2 ++ leBytes 4 c.count.toNat ++ leBytes 8 c.item.toNat
    ++ leBytes 4 c.progress ++ leBytes 4 pos ++ leBytes 8 c.launch

def windowImage (w : Window) : List Byte := leBytes 8 w.w0.toNat ++ leBytes 8 w.w1.toNat

def queueImage (q : TokenQueue) : List Byte :=
  [byteOf q.tokens.length, byteOf q.reserved, byteOf q.producer, byteOf q.consumer]

def tokensImage (q : TokenQueue) : List Byte := padTo 64 (q.tokens.flatMap (fun v => leBytes 4 v.toNat))

/-- Signature counts of the rods of a team, resident or saved. -/
def State.sigCount (s : State) (tk : TeamKey) (t : Team) (j rod : Nat) : Nat :=
  match s.memberSlot tk rod with
  | some n => ((s.rod? (rodKey tk.frame n)).map (fun r => r.sigs.toList.getD j 0)).getD 0
  | none =>
    (((s.frame tk.frame).savedRods.find? (fun v =>
      v.rod.launch == t.launch && v.rod.team == t.number && v.rod.rod == rod)).map (fun v =>
        v.rod.sigs.toList.getD j 0)).getD 0

def joinImage (s : State) (tk : TeamKey) (t : Team) (n : Nat) : List Byte :=
  let j := t.join n
  leBytes 4 j.mask.toNat ++ leBytes 4 j.pending.length
    ++ (List.range 32).map (fun r => byteOf (s.sigCount tk t n r))
    ++ padTo 16 (j.pending.flatMap (fun i => leBytes 4 i.signed.toNat)) ++ zeros 8

def barrierImage (b : Barrier) : List Byte := [byteOf b.expected, byteOf b.arrivals, byteOf (if b.gen then 1 else 0)]

/-- The captured operands of a pending instance in a team image. -/
def instanceImage (i : Instance) : List Byte :=
  [byteOf (fieldIndex i.word)] ++ zeros 7 ++ leBytes 8 i.e0.toNat ++ leBytes 8 i.e1.toNat ++ leBytes 8 i.e2.toNat

def roundUp (n k : Nat) : Nat := (n + k - 1) / k * k

def teamImageSize (entries bytes cols rows : Nat) : Nat := roundUp (5696 + 64 * entries) 256 + bytes + 4 * cols * rows

/-- Rows of the allocation that no rod holds, resident or saved (R453); a retired rod holds none, even while their release
waits. -/
def State.looseRows (s : State) (tk : TeamKey) (t : Team) : List Nat :=
  (List.range t.accRows).filter (fun x =>
    !((s.rodsOn tk.frame).any (fun e => e.2.teamSlot == tk.slot && e.2.rows.contains x))
    && !(s.frame tk.frame).savedRods.any (fun v =>
      v.rod.launch == t.launch && v.rod.team == t.number && v.rod.rows.contains x))

def savedRodMask (f : Frame) (t : Team) : Nat :=
  (f.savedRods.filter (fun v => v.rod.launch == t.launch && v.rod.team == t.number)).foldl (fun m v => m ||| 2 ^ v.rod.rod) 0

def teamImage (s : State) (tk : TeamKey) (t : Team) (epoch : Nat) : List Byte :=
  let f := s.frame tk.frame
  let cs := f.teamEntries tk.slot
  let rows := s.looseRows tk t
  let fixed :=
    leBytes 4 0x7A100002 ++ leBytes 2 1 ++ leBytes 2 cs.length
      ++ leBytes 8 (teamImageSize cs.length t.fsBytes t.accCols rows.length) ++ leBytes 8 t.launch ++ leBytes 8 t.number
      ++ leBytes 4 epoch ++ leBytes 4 t.fsBytes ++ leBytes 2 t.accRows ++ leBytes 2 t.rods
      ++ leBytes 4 (savedRodMask f t) ++ zeros 16 ++ bitmap 128 rows ++ zeros 64
      ++ t.windows.toList.flatMap windowImage
      ++ t.queues.toList.flatMap (fun q => padTo 64 (queueImage q) ++ tokensImage q)
      ++ (List.range 16).flatMap (fun n =>
          joinImage s tk t n ++ padTo 128 ((t.join n).pending.flatMap instanceImage))
      ++ t.bars.toList.flatMap (fun b => padTo 8 (barrierImage b))
      ++ cs.flatMap (fun c => cmdImage c.2.2 ((f.engine c.1).head? == some c.2.1) c.2.1)
  padTo (roundUp (5696 + 64 * cs.length) 256) fixed ++ cellsRead t.fs 0 t.fsBytes
    ++ (rowContents t rows).flatMap (fun e => leBytes 4 e.2.toNat)

/-! ### Reading team state -/

def windowOf (b : List Byte) : Window := { w0 := BitVec.ofNat 64 (fieldOf b 0 8), w1 := BitVec.ofNat 64 (fieldOf b 8 8) }

def tokenWords (b : List Byte) (n : Nat) : List Word := (List.range n).map (fun k => BitVec.ofNat 32 (fieldOf b (4 * k) 4))

/-- A queue from its header; the payloads follow. -/
def queueOf (h : List Byte) (tokens : List Word) : TokenQueue :=
  { tokens := tokens, reserved := fieldOf h 1 1, producer := fieldOf h 2 1, consumer := fieldOf h 3 1 }

/-- An instance from its image, over the one that was pending. Kind 4 of ENGWR holds no command word, and an instance that it creates
is of index 0: DESIGN CHOICE (R376; log entry 69). -/
def instanceOf (n : Nat) (b : List Byte) (signed : BitVec 32) (old : Option Instance) : Instance :=
  let word : DWord := BitVec.ofNat 64 (5 * 2 ^ 61 + fieldOf b 0 1 * 2 ^ 54 + 7 * 2 ^ 50 + n * 2 ^ 26 + 2 ^ 5)
  let base : Instance :=
    old.getD { word := word, e0 := 0, e1 := 0, e2 := 0, captured := some (lowest signed), item := 0, count := 0,
               signed := 0, partials := [], last := lowest signed, ord := 0, counted := true }
  { base with
    e0 := BitVec.ofNat 64 (fieldOf b 8 8), e1 := BitVec.ofNat 64 (fieldOf b 16 8), e2 := BitVec.ofNat 64 (fieldOf b 24 8),
    signed := signed }

/-- The base of a join after a load: it agrees with the count of a rod that has signed the oldest instance. -/
def baseOf (counts : List Nat) (pending : List (BitVec 32)) (old : Nat) : Nat :=
  match pending with
  | [] => old
  | first :: _ =>
    let rod := lowest first
    let n := (pending.filter (fun m => m.getLsbD rod)).length
    countOf old ((counts.getD rod 0 + 256 - n % 256) % 256)

/-- A join register from its image; a pending count above 4 counts as 4: DESIGN CHOICE (R376; log entry 69). -/
def joinOf (n : Nat) (b : List Byte) (old : Join) : Join :=
  let count := min 4 (fieldOf b 4 4)
  let masks := (List.range count).map (fun k => BitVec.ofNat 32 (fieldOf b (0x28 + 4 * k) 4))
  { mask := BitVec.ofNat 32 (fieldOf b 0 4)
    base := baseOf ((List.range 32).map (fun r => fieldOf b (8 + r) 1)) masks old.base
    pending := (List.range count).map (fun k =>
      instanceOf n ((b.drop (0x40 + 32 * k)).take 32) (masks.getD k 0) (old.pending[k]?)) }

def barrierOf (b : List Byte) (old : Barrier) : Barrier :=
  { expected := fieldOf b 0 1, arrivals := fieldOf b 1 1, gen := fieldOf b 2 1 % 2 == 1,
    gone := min old.gone (fieldOf b 1 1) }

/-- A command of a team slot from its image; the rod is that of the capturing item (log entry 22). -/
def cmdOf (s : State) (tk : TeamKey) (t : Team) (b : List Byte) : Cmd :=
  let word := BitVec.ofNat 64 (fieldOf b 0 8)
  let l := s.recordOfLaunch (fieldOf b 0x38 8)
  let item := fieldOf b 0x28 8
  let rod := (item - l.base.toNat) / 32 % (max 1 l.teamRods)
  let e2 := (Sys2Proof.eword word).e2.toNat
  { word := word, e0 := BitVec.ofNat 64 (fieldOf b 8 8), e1 := BitVec.ofNat 64 (fieldOf b 16 8),
    e2 := BitVec.ofNat 64 (fieldOf b 24 8), st := .queued, teamSlot := tk.slot, team := t.number,
    launch := fieldOf b 0x38 8, ord := 0, rod := rod,
    members := if (Sys2Proof.eword word).j && fieldClass word != 0 then (t.join e2).mask else 1#32 <<< rod,
    item := BitVec.ofNat 64 item, count := BitVec.ofNat 20 (fieldOf b 0x24 4), progress := fieldOf b 0x30 4,
    epoch := none, effect := { fs := [], acc := [], payload := 0 }, window := Window.reset, partials := [],
    fault := none }

/-- The causes of a run fault (R304). -/
def runCauses : List Cause := [.notPresent, .permission, .orderingReserved, .poison, .linkDown]

/-- A free run cause and address, for a stopped command of which only the image is left (log entry 40). -/
def freeRunFault (n : Nat) : Cause × DWord × BitVec 16 :=
  (runCauses.getD ((Config.freeBits n).toNat % 5) .notPresent, Config.freeBits (n + 1), 0)

/-- An entry by the state byte of its image: state 4 stands stopped on a run fault, state 3 goes on as issue resumes (R376,
R454). -/
def Cmd.byCode (c : Cmd) (code n : Nat) : Cmd :=
  if code = 4 then { c with st := .stopped, fault := some (freeRunFault n) }
  else if code = 3 then { c with st := .stopped }
  else c

/-- The entries of a team image, over those that were saved. -/
def cmdsOf (s : State) (tk : TeamKey) (t : Team) (b : List Byte) (old : List (EngineId × Nat × Cmd)) :
    List (EngineId × Nat × Cmd) :=
  (List.range (fieldOf b 6 2)).map (fun n =>
    let x := (b.drop (0x1640 + 64 * n)).take 64
    let c := cmdOf s tk t x
    let pos := fieldOf x 0x34 4
    let e := engineOf c.word
    let code := fieldOf x 0x20 1
    match old.find? (fun o => o.1 == e && o.2.1 == pos && o.2.2.word == c.word) with
    | some o =>
      let c1 := { c with ord := o.2.2.ord, rod := o.2.2.rod, members := o.2.2.members, partials := o.2.2.partials,
                         window := o.2.2.window }
      (e, pos, if (o.2.2.st == .stopped) == (code == 4) then { c1 with st := o.2.2.st, fault := o.2.2.fault }
               else c1.byCode code (s.free + 2 * n))
    | none => (e, pos, c.byCode code (s.free + 2 * n)))

/-- A queue of an image; its reserved slots are those kept where the image does not show a later change (R121, R330). -/
def queueOver (n : Nat) (q : List Byte) (old : SavedTeam) : TokenQueue :=
  let x := queueOf q (tokenWords (q.drop 64) (min 16 (fieldOf q 0 1)))
  if old.slots.contains n then { x with reserved := (old.team.queue n).reserved } else x

/-- The team of an image, over the team as it was saved. -/
def teamOfImage (s : State) (tk : TeamKey) (b : List Byte) (old : SavedTeam) : SavedTeam :=
  let e := fieldOf b 6 2
  let a := fieldOf b 0x24 4
  let fsAt := roundUp (5696 + 64 * e) 256
  let rows := bitmapOf 128 ((b.drop 0x40).take 128)
  let cols := Config.cellsOf tk.frame.die
  let t : Team :=
    { old.team with
      launch := fieldOf b 0x10 8, number := fieldOf b 0x18 8, rods := fieldOf b 0x2A 2, fsBytes := a
      -- rods that the image names as saved have started
      started := max old.team.started ((bitmapOf 4 ((b.drop 0x2C).take 4)).foldl (fun m n => max m (n + 1)) 0)
      accRows := fieldOf b 0x28 2, accCols := cols
      fs := cellsWrite [] 0 ((b.drop fsAt).take a)
      acc := cellsPut [] (rows.zipIdx.flatMap (fun r => (List.range cols).map (fun c =>
        (r.1 * cols + c, BitVec.ofNat 32 (fieldOf b (fsAt + a + 4 * (r.2 * cols + c)) 4)))))
      windows := Vector.ofFn (fun n => windowOf (b.drop (0x100 + 16 * n.val)))
      queues := Vector.ofFn (fun n => queueOver n.val (b.drop (0x200 + 128 * n.val)) old)
      joins := Vector.ofFn (fun n => joinOf n.val ((b.drop (0xA00 + 192 * n.val)).take 192) old.team.joins[n])
      bars := Vector.ofFn (fun n => barrierOf (b.drop (0x1600 + 8 * n.val)) old.team.bars[n]) }
  { team := t, cmds := cmdsOf s tk t b old.cmds, epoch := fieldOf b 0x20 4, wrapped := old.wrapped, place := none, slots := [] }

/-! ## Images in memory (R377, R454, R455) -/

/-- Bytes of one page written at their homes, up to poison or a cut path. -/
def State.putRun (p : FrameId) (u : Bool) : List (Nat × Nat) → List Byte → State → Option Cause × State
  | [], _, s => (none, s)
  | (pa, k) :: t, b, s =>
    match s.writeSeg p .home false u (pa / 64) (pa % 64) (b.take k) with
    | (some c, s1) => (some c, s1)
    | (none, s1) => State.putRun p u t (b.drop k) s1

/-- Bytes of one page read at their homes, up to poison or a cut path. -/
def State.getRun (p : FrameId) (u : Bool) : List (Nat × Nat) → State → Option Cause × List Byte × State
  | [], s => (none, [], s)
  | (pa, k) :: t, s =>
    match s.readSeg p .home u (pa / 64) (pa % 64) k with
    | (some c, _, s1) => (some c, [], s1)
    | (none, b, s1) =>
      let (e, b', s2) := State.getRun p u t s1
      (e, b ++ b', s2)

/-- The sectors of `n` bytes of a page, by physical address. -/
def Xlat.run (x : Xlat) (va n : Nat) : List (Nat × Nat) := splitSectors (n / 64 + 2) (x.pa + (va - x.va)) n

/-- Bytes of an image written at their homes, page by page, or the cause that stops the save. -/
def State.putImage (p : FrameId) (asid : Nat) : Nat → Nat → List Byte → State → Except Cause State
  | 0, _, _, s => .ok s
  | fuel + 1, va, b, s =>
    if b = [] then .ok s
    else
      let k := 4096 - va % 4096
      let c := b.take k
      match s.page { p := p, asid := asid, va := va } .write with
      | (.error c, _) => .error c
      | (.ok x, s1) =>
        match State.putRun p (isUntracked x.ord) (x.run va c.length) c s1 with
        | (some c, _) => .error c
        | (none, s2) => State.putImage p asid fuel ((va + k) % 2 ^ 64) (b.drop k) s2

/-- Bytes of an image, page by page. -/
def State.getImage (p : FrameId) (asid : Nat) : Nat → Nat → Nat → State → Except Cause (List Byte × State)
  | 0, _, _, s => .ok ([], s)
  | fuel + 1, va, n, s =>
    if n = 0 then .ok ([], s)
    else
      let k := min n (4096 - va % 4096)
      match s.page { p := p, asid := asid, va := va } .read with
      | (.error c, _) => .error c
      | (.ok x, s1) =>
        match State.getRun p (isUntracked x.ord) (x.run va k) s1 with
        | (some c, _, _) => .error c
        | (none, b, s2) =>
          match State.getImage p asid fuel ((va + k) % 2 ^ 64) (n - k) s2 with
          | .error c => .error c
          | .ok (t, s3) => .ok (b ++ t, s3)

def State.saveImage (s : State) (p : FrameId) (va : Nat) (b : List Byte) : Except Cause State :=
  State.putImage p ((s.frame p).asid.extractLsb' 0 12).toNat (b.length + 1) va b s

def State.loadImage (s : State) (p : FrameId) (va n : Nat) : Except Cause (List Byte × State) :=
  State.getImage p ((s.frame p).asid.extractLsb' 0 12).toNat (n + 1) va n s

/-! ## Images in the context area (R57, R449, R450) -/

/-- The context area of a launch on a frame: first byte and bytes. -/
def State.areaOf (s : State) (launch : Nat) (p : FrameId) : Option (Nat × Nat) :=
  (s.launch? launch).bind (fun l => tableFind p l.areas)

/-- The bytes of a context area that an image takes. -/
def ImagePlace.range : ImagePlace → Option (Nat × Nat)
  | .area a n => some (a, n)
  | .named _ _ => none

/-- The places of a launch's images that lie in the context area of a frame. -/
def Frame.places (f : Frame) (launch : Nat) : List (Nat × Nat) :=
  (f.savedRods.filterMap (fun v => if v.rod.launch = launch then v.place else none)
    ++ f.savedTeams.filterMap (fun v => if v.team.launch = launch then v.place else none)).filterMap ImagePlace.range

/-- Whether two byte ranges share a byte. -/
def rangesMeet (a b : Nat × Nat) : Bool := a.1 < b.1 + b.2 && b.1 < a.1 + a.2

/-- The lowest place for `n` bytes in an area beside the places in use: at its start or at the end of one of them. -/
def placeIn (area : Nat × Nat) (used : List (Nat × Nat)) (n : Nat) : Option Nat :=
  let ok := (area.1 :: used.map (fun u => u.1 + u.2)).filter (fun a =>
    area.1 ≤ a && a + n ≤ area.1 + area.2 && !used.any (rangesMeet (a, n)))
  ok.min?

/-- Writes an image into the launch's context area, at the home slices; answers its place. Where no single run of
bytes is left for it, and for a launch that no LAUNCH packet admitted, the image is kept apart from memory (log entries
8 and 42). -/
def State.storeImage (s : State) (p : FrameId) (launch : Nat) (b : List Byte) :
    Except Cause (Option ImagePlace × State) :=
  match s.areaOf launch p with
  | none => .ok (none, s)
  | some area =>
    match placeIn area ((s.frame p).places launch) b.length with
    | none => .ok (none, s)
    | some a =>
      match State.putRun p false (splitSectors (b.length / 64 + 2) a b.length) b s with
      | (some c, _) => .error c
      | (none, s1) => .ok (some (.area a b.length), s1)

/-- The image of a rod as it stands, with the epoch it is saved in. -/
def State.imageOfRod (s : State) (k : RodKey) (r : Rod) (epoch : Nat) : List Byte :=
  let t := s.team? (teamKeyOf k r)
  let rows := r.rows.mergeSort (fun a b => decide (a ≤ b))
  rodImage s r ((t.map Team.accCols).getD 0) epoch rows (((t.map (fun t => rowContents t rows)).getD []).map Prod.snd)

/-- The rod in a slot is saved into the context area and leaves the frame; its outstanding atomics complete first (R298,
R448). -/
def State.saveRod (s : State) (p : FrameId) (slot epoch : Nat) : Except Cause State :=
  let s0 := s.drainWhere (rodKey p slot) 0xFFFFFFFF (fun _ e => e.kind == .atomic)
  match s0.rod? (rodKey p slot) with
  | none => .ok s0
  | some r =>
    match s0.storeImage p r.launch (s0.imageOfRod (rodKey p slot) r epoch) with
    | .error c => .error c
    | .ok (place, s1) => .ok (s1.detachRod p slot epoch place)

/-- The team is saved into the context area and leaves the frame. -/
def State.saveTeam (s : State) (tk : TeamKey) (epoch : Nat) : Except Cause State :=
  match s.team? tk with
  | none => .ok s
  | some t =>
    match s.storeImage tk.frame t.launch (teamImage s tk t epoch) with
    | .error c => .error c
    | .ok (place, s1) => .ok (s1.detachTeam tk epoch place)

/-- An image that lies in the context area reads without poison, and over links that are up. -/
def State.placeReads (s : State) (p : FrameId) (place : Option ImagePlace) : Bool :=
  match place.bind ImagePlace.range with
  | none => true
  | some (a, n) => (State.getRun p false (splitSectors (n / 64 + 2) a n) s).1.isNone

/-! ### What changes of a saved rod or team while it lies saved (R57, R119, R121, R250, R451) -/

/-- The place of a register of a lane in the image of a rod (R451). -/
def regAt (f l n : Nat) : Nat := 20992 + 2048 * (if n < 128 then n / 16 else f + (n - 128) / 16) + 4 * (32 * (n % 16) + l)

/-- The bytes of a rod's image that a joined reduction has written: its registers, or the published generations and the write count
of a carry (R70, R250, R452). -/
def landedBytes (s : State) (r : Rod) (e : Nat × Joined) : List (Nat × List Byte) :=
  let x := r.lane e.1
  if 248 ≤ e.2.dst then
    let n := e.2.dst - 248
    let at_ := 0x200 + 640 * e.1
    let g := s.gensOf r x n
    [(at_ + 0x94 + 8 * n, leBytes 4 (x.writeCount.toList.getD n 0).toNat),
     (at_ + 0xD0 + 16 * n, padTo 16 (g.flatMap (fun v => leBytes 4 v.toNat))), (at_ + 0x150 + n, [byteOf g.length])]
  else e.2.regs.map (fun n => (regAt r.fast e.1 n, leBytes 4 (x.reg n).toNat))

/-- The bytes of a rod's image that changed while it lay saved, at their offsets. -/
def SavedRod.changes (s : State) (v : SavedRod) : List (Nat × List Byte) :=
  v.landed.flatMap (landedBytes s v.rod)
    ++ v.drawn.map (fun l => (0x220 + 640 * l, leBytes 4 (v.rod.lane l).rsCount.toNat))

/-- The bytes of a team's image that changed: reserved slots (R453). -/
def SavedTeam.changes (v : SavedTeam) : List (Nat × List Byte) :=
  v.slots.map (fun q => (0x201 + 128 * q, [byteOf (v.team.queue q).reserved]))

/-- Bytes of an image are written where it lies, or the cause that stops it. -/
def State.patchImage (s : State) (p : FrameId) (place : ImagePlace) (e : Nat × List Byte) : Except Cause State :=
  match place with
  | .area a _ =>
    match State.putRun p false (splitSectors (e.2.length / 64 + 2) (a + e.1) e.2.length) e.2 s with
    | (some c, _) => .error c
    | (none, s1) => .ok s1
  | .named asid va => State.putImage p asid (e.2.length + 1) ((va + e.1) % 2 ^ 64) e.2 s

def State.patchAll (p : FrameId) (place : ImagePlace) : List (Nat × List Byte) → State → Except Cause State
  | [], s => .ok s
  | e :: t, s =>
    match s.patchImage p place e with
    | .error c => .error c
    | .ok s1 => State.patchAll p place t s1

/-- The image of a saved rod shows what has changed since; where it cannot be written, the change is kept beside it (log entry
84). -/
def State.bringRodUp (p : FrameId) (s : State) (v : SavedRod) : State :=
  match v.place, v.changes s with
  | some w, c :: t =>
    match State.patchAll p w (c :: t) s with
    | .error _ => s
    | .ok s1 =>
      s1.modFrame p (fun f => { f with savedRods := f.savedRods.map (fun x =>
        if x = v then { x with landed := [], drawn := [] } else x) })
  | _, _ => s

def State.bringTeamUp (p : FrameId) (s : State) (v : SavedTeam) : State :=
  match v.place, v.changes with
  | some w, c :: t =>
    match State.patchAll p w (c :: t) s with
    | .error _ => s
    | .ok s1 =>
      s1.modFrame p (fun f => { f with savedTeams := f.savedTeams.map (fun x => if x = v then { x with slots := [] } else x) })
  | _, _ => s

/-- The images of a frame show what the step has changed of what lies saved. -/
def State.bringImagesUp (s : State) (p : FrameId) : State :=
  (s.frame p).savedTeams.foldl (State.bringTeamUp p) ((s.frame p).savedRods.foldl (State.bringRodUp p) s)

/-! ## CTXSV (R377) -/

/-- The save epoch of a pre-emption: a new one starts with the first image saved after a team was loaded or started
(R451, R453; log entry 23). -/
def Frame.epochNow (f : Frame) : Nat := f.saveEpoch

/-- Where an image that the frame's firmware context saves lies. -/
def State.namedPlace (s : State) (p : FrameId) (va : Nat) : ImagePlace :=
  .named ((s.frame p).asid.extractLsb' 0 12).toNat va

/-- The rod in a slot is saved at an address and leaves the frame; it must be halted or stopped by `.slice` (R377). -/
def State.saveRodAt (s : State) (p : FrameId) (slot va : Nat) : Except Cause State :=
  match s.rod? (rodKey p slot) with
  | none => .error .illegalOperand
  | some r0 =>
    if r0.stop = .none then .error .illegalOperand
    else
      let s0 := s.drainWhere (rodKey p slot) 0xFFFFFFFF (fun _ e => e.kind == .atomic)
      let r := (s0.rod? (rodKey p slot)).getD r0
      let epoch := (s0.frame p).epochNow
      match s0.saveImage p va (s0.imageOfRod (rodKey p slot) r epoch) with
      | .error c => .error c
      | .ok s1 => .ok (s1.detachRod p slot epoch (some (s.namedPlace p va)))

/-- No command that has started names a row of the rod: it may be saved (R323, R377). -/
def State.rowsQuiet (s : State) (p : FrameId) (r : Rod) : Bool :=
  ((s.frame p).teamEntries r.teamSlot).all (fun c => !c.2.2.started || !c.2.2.namesRow r.rows)

/-- A rod that can be saved must wait for commands that name its rows. -/
def State.saveWaits (s : State) (p : FrameId) (slot : Nat) : Bool :=
  match s.rod? (rodKey p slot) with
  | none => false
  | some r => r.stop != .none && !s.rowsQuiet p r

/-- CTXSV waits while a started command names a row of the rod, as an eviction does: the context takes no slot and no port, and its
handler is not entered (R323, R359, R377). -/
def ctxsvBody (is : Issue) (s : State) : State :=
  if is.enabled = 0 then passOver is s
  else
    match laneOperands is.rod is.cap (planOf is.instr) with
    | .error c => faultEnabled is c s
    | .ok o =>
      let slot := ((is.value o.b).extractLsb' 0 6).toNat
      if Config.slotsOf is.frame.die ≤ slot then faultEnabled is .illegalOperand s
      else if s.saveWaits is.frame slot then s.modFrame is.frame (fun f => { f with fw := .savingRod slot (is.value o.a) })
      else
        match s.saveRodAt is.frame slot (is.value o.a).toNat with
        | .error c => faultEnabled is c s
        | .ok s1 => passOver is s1

def execCtxsv (w : RWord) (s : State) : Host.Outcome State Fault Refusal := issueWord (.ctxsv w) ctxsvBody s

/-- The team in a slot is saved at an address and leaves the frame. A slot that holds no team, or whose team has resident rods,
is an illegal operand: DESIGN CHOICE (R377 names no cause; log entry 68). -/
def State.saveTeamAt (s : State) (tk : TeamKey) (va : Nat) : Except Cause State :=
  match s.team? tk with
  | none => .error .illegalOperand
  | some t =>
    if (s.rodsOn tk.frame).any (fun e => e.2.teamSlot == tk.slot) then .error .illegalOperand
    else
      match s.saveImage tk.frame va (teamImage s tk t (s.frame tk.frame).epochNow) with
      | .error c => .error c
      | .ok s1 => .ok (s1.detachTeam tk (s.frame tk.frame).epochNow (some (s.namedPlace tk.frame va)))

/-- CTXSV.team waits while a command of the team runs: the context takes no slot and no port, and its handler is not entered
(R359, R377, R448). -/
def ctxsvTeamBody (is : Issue) (s : State) : State :=
  if is.enabled = 0 then passOver is s
  else
    match laneOperands is.rod is.cap (planOf is.instr) with
    | .error c => faultEnabled is c s
    | .ok o =>
      let slot := ((is.value o.b).extractLsb' 0 8).toNat
      let tk : TeamKey := { frame := is.frame, slot := slot }
      if Config.slotsOf is.frame.die ≤ slot then faultEnabled is .illegalOperand s
      else if (s.team? tk).isSome && !(s.rodsOn is.frame).any (fun e => e.2.teamSlot == slot) && !s.commandsDone tk then
        s.modFrame is.frame (fun f => { f with fw := .saving slot (is.value o.a) })
      else
        match s.saveTeamAt tk (is.value o.a).toNat with
        | .error c => faultEnabled is c s
        | .ok s1 => passOver is s1

/-- A save that waited ends: what it saved is gone, and the context goes on; or its cause is the context's fault. -/
def State.endSave (s : State) (p : FrameId) (f : State → Except Cause State) : State :=
  let s0 := s.modFrame p (fun f => { f with fw := .running })
  match f s0 with
  | .error c => s0.contextFault p c (((s0.rod? (fwKey p)).getD Rod.firmware).lane 0).pc
  | .ok s1 => s1.modContext p Lane.advance

/-- A CTXSV.team that waits completes once no command of the team runs, a CTXSV once none names the rod's rows (R323, R377). -/
def State.finishSave (s : State) (p : FrameId) : State :=
  match (s.frame p).fw with
  | .saving slot va =>
    let tk : TeamKey := { frame := p, slot := slot }
    if (s.team? tk).isSome && !s.teamIdle tk then s else s.endSave p (fun s0 => s0.saveTeamAt tk va.toNat)
  | .savingRod slot va => if s.saveWaits p slot then s else s.endSave p (fun s0 => s0.saveRodAt p slot va.toNat)
  | _ => s

def execCtxsvTeam (w : RWord) (s : State) : Host.Outcome State Fault Refusal := issueWord (.ctxsvTeam w) ctxsvTeamBody s

/-! ## CTXLD (R454, R455) -/

/-- A new save epoch begins once something is loaded. -/
def Frame.nextEpoch (f : Frame) : Frame := { f with saveEpoch := f.saveEpoch + 1 }

/-- What the frame keeps of a rod it saved, by launch, team and rod. -/
def Frame.savedRod (f : Frame) (launch team rod : Nat) : Option SavedRod :=
  f.savedRods.find? (fun v => v.rod.launch == launch && v.rod.team == team && v.rod.rod == rod)

def Frame.dropSavedRod (f : Frame) (launch team rod : Nat) : Frame :=
  { f with savedRods := f.savedRods.filter (fun v =>
      !(v.rod.launch == launch && v.rod.team == team && v.rod.rod == rod)) }

def Frame.savedTeam (f : Frame) (launch team : Nat) : Option SavedTeam :=
  f.savedTeams.find? (fun v => v.team.launch == launch && v.team.number == team)

def Frame.dropSavedTeam (f : Frame) (launch team : Nat) : Frame :=
  { f with savedTeams := f.savedTeams.filter (fun v => !(v.team.launch == launch && v.team.number == team)) }

/-- A header is that of a rod image, of version 1 (log entry 24). -/
def imageIs (magic : Nat) (b : List Byte) : Bool := fieldOf b 0 4 == magic && fieldOf b 4 2 == 1

/-- The rows of an image with their contents. -/
def rowsOfImage (b : List Byte) (f sl cols : Nat) : List (Nat × Word) :=
  let rows := bitmapOf 128 ((b.drop 0x80).take 128)
  let d := b.drop (20992 + 2048 * (f + sl))
  rows.zipIdx.flatMap (fun r => (List.range cols).map (fun c =>
    (r.1 * cols + c, BitVec.ofNat 32 (fieldOf d (4 * (r.2 * cols + c)) 4))))

/-- Arrivals of generations that have completed since the save are over (R297). -/
def heldArrivals (img : BitVec 8) (v : Option SavedRod) : BitVec 8 :=
  match v with
  | some v => img &&& v.rod.arrived
  | none => img

/-- What reductions wrote since the save and the image does not show stands in the kept copy: it goes over what the image holds
(R250). -/
def Lane.takeLanded (x kept : Lane) (q : Joined) : Lane :=
  if 248 ≤ q.dst then
    { x with writeCount := Vector.ofFn (fun n => if n.val = q.dst - 248 then kept.writeCount[n] else x.writeCount[n]) }
  else q.regs.foldl (fun x n => (x.setReg n (kept.reg n)).unmark [n]) x

def Rod.takeLanded (r kept : Rod) (l : List (Nat × Joined)) : Rod :=
  l.foldl (fun r e => r.setLane e.1 ((r.lane e.1).takeLanded (kept.lane e.1) e.2)) r

/-- So do the counts of draws that the image does not show (R119). -/
def Rod.takeDrawn (r kept : Rod) (l : List Nat) : Rod :=
  l.foldl (fun r n => r.setLane n { r.lane n with rsCount := (kept.lane n).rsCount }) r

/-- The rod image in memory goes into a free slot beside its team. -/
def State.loadRod (s : State) (p : FrameId) (slot : Nat) (tk : TeamKey) (t : Team) (b : List Byte) : State :=
  let f := s.frame p
  let launch := fieldOf b 0x10 8
  let team := fieldOf b 0x20 8
  let rod := fieldOf b 0x28 1
  let old := f.savedRod launch team rod
  let kept := (old.map SavedRod.rod).getD Rod.reset
  let r := ((rodOfImage s b kept (some t) (rodKey p slot)).takeLanded kept ((old.map SavedRod.landed).getD [])).takeDrawn kept
    ((old.map SavedRod.drawn).getD [])
  let v : SavedRod :=
    { rod := { r with arrived := heldArrivals r.arrived old }
      contents := rowsOfImage b r.fast r.slow t.accCols
      epoch := fieldOf b 0x2C 4
      parked := (old.map SavedRod.parked).getD []
      wrapped := (old.map SavedRod.wrapped).getD ((List.finRange 32).any (fun l => r.lanes[l].phase))
      place := none, landed := [], drawn := [] }
  (s.modFrame p (fun f => (f.dropSavedRod launch team rod).nextEpoch)).attachRod p slot tk.slot v

/-- The team of an image that is on the frame. -/
def State.residentTeam (s : State) (p : FrameId) (launch number : Nat) : Option (TeamKey × Team) :=
  ((s.teamsOn p).find? (fun e => e.2.launch == launch && e.2.number == number)).map (fun e =>
    ({ frame := p, slot := e.1 }, e.2))

/-- Nothing of the launch loads any more: it has been killed, or D has passed (R99, R456). -/
def State.launchDead (s : State) (seq : Nat) : Bool := ((s.launch? seq).map (fun l => l.dead s.hub.now.toNat)).getD false

/-- The frame of a team of a launch: the only one its images load on (R36). -/
def State.teamFrame (s : State) (seq team : Nat) : Option FrameId :=
  (s.launch? seq).bind (fun l => l.frames[team % (max 1 l.frames.length)]?)

/-- CTXLD of a rod. It loads whatever the frame's free register blocks and rows: the spec names no outcome where they do not suffice,
DESIGN CHOICE (R377; log entry 81). -/
def ctxldBody (is : Issue) (o : Operands) (s : State) : Except Cause State :=
  let p := is.frame
  let slot := ((is.value o.b).extractLsb' 0 6).toNat
  let va := (is.value o.a).toNat
  if Config.slotsOf p.die ≤ slot || (s.rod? (rodKey p slot)).isSome then .error .illegalOperand
  else
    match s.loadImage p va 512 with
    | .error c => .error c
    | .ok (h, _) =>
      if !imageIs 0x7A100001 h then .error .illegalOperand
      -- the items are dead: nothing is loaded (log entry 41)
      else if s.launchDead (fieldOf h 0x10 8) then .ok s
      else
        match s.residentTeam p (fieldOf h 0x10 8) (fieldOf h 0x20 8) with
        | none => .error .illegalOperand
        | some (tk, t) =>
          match s.loadImage p va (rodImageSize (fieldOf h 6 1) (fieldOf h 7 1) t.accCols (fieldOf h 0x2A 2)) with
          | .error c => .error c
          | .ok (b, s1) => .ok (s1.loadRod p slot tk t b)

def execCtxld (w : RWord) (s : State) : Host.Outcome State Fault Refusal := sysOp (.ctxld w) ctxldBody s

def State.loadTeam (s : State) (tk : TeamKey) (b : List Byte) : State :=
  let launch := fieldOf b 0x10 8
  let number := fieldOf b 0x18 8
  let old := ((s.frame tk.frame).savedTeam launch number).getD
    { team := Team.reset, cmds := [], epoch := 0, wrapped := false, place := none, slots := [] }
  let v := teamOfImage s tk b old
  State.attachTeam { s.modFrame tk.frame (fun f => (f.dropSavedTeam launch number).nextEpoch) with
    free := s.free + 2 * v.cmds.length } tk v

/-- CTXLD of a team, whatever room its frame store, accumulator rows and queue entries find (log entry 81). -/
def ctxldTeamBody (is : Issue) (o : Operands) (s : State) : Except Cause State :=
  let p := is.frame
  let slot := ((is.value o.b).extractLsb' 0 8).toNat
  let tk : TeamKey := { frame := p, slot := slot }
  let va := (is.value o.a).toNat
  if Config.slotsOf p.die ≤ slot || (s.team? tk).isSome then .error .illegalOperand
  else
    match s.loadImage p va 256 with
    | .error c => .error c
    | .ok (h, _) =>
      if !imageIs 0x7A100002 h then .error .illegalOperand
      else if s.launchDead (fieldOf h 0x10 8) then .ok s
      else if s.teamFrame (fieldOf h 0x10 8) (fieldOf h 0x18 8) ≠ some p then .error .illegalOperand
      else
        let rows := (bitmapOf 128 ((h.drop 0x40).take 128)).length
        match s.loadImage p va (teamImageSize (fieldOf h 6 2) (fieldOf h 0x24 4) (Config.cellsOf p.die) rows) with
        | .error c => .error c
        | .ok (b, s1) => .ok (s1.loadTeam tk b)

def execCtxldTeam (w : RWord) (s : State) : Host.Outcome State Fault Refusal := sysOp (.ctxldTeam w) ctxldTeamBody s

/-! ## ENGRD, ENGWR (R376, R445) -/

/-- The fields of a selector. -/
structure Selector where
  kind : Nat
  slot : Nat
  number : Nat
  pos : Nat
  engine : Nat
  /-- Bits no kind uses. -/
  rest : Nat
  deriving DecidableEq, Repr

def selectorOf (v : Word) : Selector :=
  { kind := (v.extractLsb' 28 4).toNat, slot := (v.extractLsb' 20 8).toNat, number := (v.extractLsb' 16 4).toNat,
    pos := (v.extractLsb' 8 6).toNat, engine := (v.extractLsb' 0 2).toNat,
    rest := (v.extractLsb' 14 2).toNat + (v.extractLsb' 2 6).toNat }

def engineOfNum : Nat → Option EngineId
  | 0 => some .ve
  | 1 => some .ce
  | 2 => some .me
  | _ => none

/-- What a selector names; fields a kind does not use must be 0. -/
inductive Selected where
  | entry (e : EngineId) (pos : Nat)
  | team (kind : Nat) (tk : TeamKey) (t : Team) (n : Nat)

/-- What a selector chooses. Kinds 1 to 5 of a team slot that holds no team are an illegal operand: DESIGN CHOICE (R376 names no
cause; log entry 69). -/
def State.selected (s : State) (p : FrameId) (q : Selector) : Option Selected :=
  if q.rest ≠ 0 then none
  else if q.kind = 0 then
    if q.slot ≠ 0 ∨ q.number ≠ 0 then none else (engineOfNum q.engine).map (fun e => .entry e q.pos)
  else if 6 ≤ q.kind ∨ q.pos ≠ 0 ∨ q.engine ≠ 0 ∨ Config.slotsOf p.die ≤ q.slot ∨ (q.kind = 5 ∧ 8 ≤ q.number) then none
  else (s.team? { frame := p, slot := q.slot }).map (fun t => .team q.kind { frame := p, slot := q.slot } t q.number)

def State.readSelected (s : State) (p : FrameId) (x : Selected) : List Byte :=
  match x with
  | .entry e pos =>
    match s.entry? p e pos with
    | some c => cmdImage c (((s.frame p).engine e).head? == some pos) 0
    | none => zeros 64
  | .team kind tk t n =>
    padTo 64 (match kind with
      | 1 => windowImage (t.windows.toList.getD n Window.reset)
      | 2 => queueImage (t.queue n)
      | 3 => tokensImage (t.queue n)
      | 4 => joinImage s tk t n
      | _ => barrierImage (t.barrier n))

def engrdBody (dst : Nat) (is : Issue) (o : Operands) (s : State) : Except Cause State :=
  match s.selected is.frame (selectorOf ((is.value o.a).setWidth 32)) with
  | none => .error .illegalOperand
  | some x => .ok (s.modContext is.frame (fun l => l.setBlock dst (s.readSelected is.frame x)))

def execEngrd (w : RWord) (s : State) : Host.Outcome State Fault Refusal := sysOp (.engrd w) (engrdBody w.dst.toNat) s

/-- Every engine of the frame reports that it has stopped. -/
def Frame.allStopped (f : Frame) : Bool := f.engctl.extractLsb' 8 3 == 7#3

/-- Every entry of an engine goes; an entry in state 4 gives its reserved slot back. -/
def State.clearQueue (s : State) (p : FrameId) (e : EngineId) : State :=
  let gone := ((s.frame p).engine e).entries
  gone.foldl (fun s c => s.releaseSlots p c)
    ((s.modEngine p e (fun q => { q with entries := [] })).modFrame p (fun f => { f with removed := gone ++ f.removed }))

/-- What an image of an entry does not hold is that of the removed entry it is an image of (log entry 22). -/
def Frame.asRemoved (f : Frame) (c : Cmd) : Cmd :=
  match f.removed.find? (fun o => o.word == c.word && o.teamSlot == c.teamSlot && o.item == c.item) with
  | some o => { c with rod := o.rod, members := o.members, partials := o.partials }
  | none => c

/-- The slot that an appended entry had reserved in its team. -/
def reserveSlot (t : Team) (c : Cmd) : Team :=
  match c.produces with
  | some q => t.setQueue q { t.queue q with reserved := (t.queue q).reserved + 1 }
  | none => t

/-- Every queue has room for the slots that an appended entry had reserved, a CPPEER's remote one among them, in a peer that is
resident or saved (R121, R319, R445). -/
def State.slotsFree (s : State) (t : Team) (c : Cmd) : Bool :=
  (c.produces.map (fun q => (t.queue q).room)).getD true
    && ((s.anyTeam c.launch (hi32 c.e1)).map c.remoteRoom).getD true

/-- An entry is appended: in state 3 or 4 it goes on from its progress count when issue resumes, and stands in state 4 until
then (log entry 38); in state 1 or 2 it waits under R64. A state byte above 4, and a team slot that holds no team, are an illegal
operand: DESIGN CHOICE (R376 names no cause; log entry 69). -/
def State.appendEntry (s : State) (p : FrameId) (e : EngineId) (b : List Byte) : Except Cause State :=
  let code := fieldOf b 0x20 1
  let tk : TeamKey := { frame := p, slot := fieldOf b 0x21 1 }
  if 4 < code || s.queueFull p e || Config.slotsOf p.die ≤ tk.slot then .error .illegalOperand
  else
    match s.team? tk with
    | none => .error .illegalOperand
    | some t =>
      let c := (s.frame p).asRemoved (cmdOf s tk t b)
      if code < 3 then .ok (s.enqueue p e c)
      else if !s.slotsFree t c then .error .illegalOperand
      else .ok (((s.setTeam tk (reserveSlot t c)).reservePeer c).enqueue p e { c with st := .stopped })

/-- A team image kind written. In a queue's header a binding above 4 is an illegal operand, and tokens beyond those held get payload
0: DESIGN CHOICE (R376; log entry 69). -/
def State.writeTeamKind (s : State) (kind : Nat) (tk : TeamKey) (t : Team) (n : Nat) (b : List Byte) :
    Except Cause State :=
  match kind with
  | 1 => .ok (s.setTeam tk (t.setWindow n (windowOf b)))
  | 2 =>
    let held := fieldOf b 0 1
    if 16 < held + fieldOf b 1 1 || 4 < fieldOf b 2 1 || 4 < fieldOf b 3 1 then .error .illegalOperand
    else
      let old := (t.queue n).tokens
      .ok (s.setTeam tk (t.setQueue n (queueOf b ((old ++ List.replicate 16 0).take held))))
  | 3 => .ok (s.setTeam tk (t.setQueue n { t.queue n with tokens := tokenWords b (t.queue n).tokens.length }))
  | 4 =>
    let j := joinOf n b (t.join n)
    let keep (i : Instance) (k : Nat) : Instance :=
      match (t.join n).pending[k]? with
      | some o => { i with e0 := o.e0, e1 := o.e1, e2 := o.e2 }
      | none => { i with e0 := Config.freeBits (s.free + 3 * k), e1 := Config.freeBits (s.free + 3 * k + 1),
                         e2 := Config.freeBits (s.free + 3 * k + 2) }
    let j' := { j with pending := j.pending.zipIdx.map (fun e => keep e.1 e.2) }
    let s1 := { (s.setTeam tk (t.setJoin n j')) with free := s.free + 12 }
    -- signature counts of the team's rods, resident or saved
    .ok ((List.range 32).foldl (fun s rod =>
      s.modMember tk t.launch t.number rod (fun r =>
        { r with sigs := Vector.ofFn (fun q => if q.val = n then countOf j'.base (fieldOf b (8 + rod) 1) else r.sigs[q]) })) s1)
  | _ => .ok (s.setTeam tk (t.setBarrier n (barrierOf b (t.barrier n))))

def engwrBody (src : Nat) (is : Issue) (o : Operands) (s : State) : Except Cause State :=
  let p := is.frame
  let b := is.cap.block src
  if !(s.frame p).allStopped then .error .illegalOperand
  else
    match s.selected p { selectorOf ((is.value o.a).setWidth 32) with pos :=
        if (selectorOf ((is.value o.a).setWidth 32)).kind = 0 then 0 else (selectorOf ((is.value o.a).setWidth 32)).pos } with
    | none => .error .illegalOperand
    | some (.entry e _) => if fieldOf b 0x20 1 = 0 then .ok (s.clearQueue p e) else s.appendEntry p e b
    | some (.team kind tk t n) => s.writeTeamKind kind tk t n b

def execEngwr (w : RWord) (s : State) : Host.Outcome State Fault Refusal := sysOp (.engwr w) (engwrBody w.b.toNat) s

end Sys2Proof.Machine
end

