-- ==== Sys2Proof/Machine/Residence.lean ====
section
/-!
DEFINITION. Sys2Proof/Machine/Residence.lean: which teams and rods are on a frame: starts, waiting requests, eviction,
retirement of teams, the scheduler's choice and pre-emption (R34 to R40, R54 to R58, R132, R404 to R410, R449).
-/

namespace Sys2Proof.Machine

/-! ## Resources of a frame (R19, R20) -/

def State.freeRodSlot (s : State) (p : FrameId) : Option Nat :=
  (List.range (Config.slotsOf p.die)).find? (fun n => (s.rod? (rodKey p n)).isNone)

/-- The team that a request brings in, where it is one for residence. -/
def RequestKind.team : RequestKind → Option Nat
  | .rodStart t _ | .reload t _ | .reloadTeam t => some t
  | .grow _ _ _ _ | .acres _ _ _ _ => none

/-- The lowest free team slot (R363). -/
def State.freeTeamSlot (s : State) (p : FrameId) : Option Nat :=
  (List.range (Config.slotsOf p.die)).find? (fun n => (s.team? { frame := p, slot := n }).isNone)

/-- Frame store and accumulator of a further team are free. -/
def State.teamFits (s : State) (p : FrameId) (bytes rows : Nat) : Bool :=
  let used := s.teamsOn p
  used.foldl (fun a e => a + e.2.fsBytes) bytes ≤ Config.frameStoreOf p.die
    && used.foldl (fun a e => a + e.2.accRows) rows ≤ Config.accRowsOf p.die

/-! ## A rod at its start (R34, R35, R119, R132) -/

/-- Rods of a team (R35). -/
def LaunchRecord.rodsOf (l : LaunchRecord) (team : Nat) : Nat :=
  min l.teamRods ((l.count.toNat + 31) / 32 - team * l.teamRods)

/-- Rod `rod` of team `team` at the entry of the die's section. -/
def startRod (l : Launch) (team teamSlot rod die : Nat) : Rod :=
  let r := l.record
  let first := (team * r.teamRods + rod) * 32
  { Rod.reset with
    launch := l.seq, team := team, teamSlot := teamSlot, rod := rod
    item0 := r.base + BitVec.ofNat 64 first, fast := r.fast, slow := r.slow
    lanes := Vector.ofFn (fun n =>
      if first + n.val < r.count.toNat then
        { Lane.reset with st := .runnable, item := r.base + BitVec.ofNat 64 (first + n.val), pc := r.entryOn die }
      else Lane.reset) }

/-- A team at its start. -/
def startTeam (l : Launch) (team die : Nat) : Team :=
  let r := l.record
  { Team.reset with
    launch := l.seq, number := team, rods := r.rodsOf team, started := 1, fsBytes := 1024 * r.fsKib
    accRows := r.accRows, accCols := Config.cellsOf die
    bars := Vector.replicate 8 { expected := r.rodsOf team, arrivals := 0, gen := false, gone := 0 } }

/-! ## TEAM_START (R38 to R40, R105, R200) -/

/-- The index of a team's first item, for its age key. -/
def Launch.teamItem (l : Launch) (team : Nat) : Nat := l.record.base.toNat + 32 * l.record.teamRods * team

/-- The launch a frame runs. -/
def State.activeLaunch (s : State) (p : FrameId) : Option Launch :=
  match (s.frame p).active with
  | none => none
  | some b => s.launch? b.launch

/-- The slice of the launch's partition begins, or is renewed: sys.slice is the time now + Q (R410). -/
def State.beginSlice (s : State) (p : FrameId) (asid : Nat) : State :=
  let part := s.hub.partitions.toList.getD (s.asidEntry asid).part PartDesc.undefinedPart
  s.modFrame p (fun f =>
    { f with slice := s.frameTime p + BitVec.ofNat 64 (1000 * part.sliceUs), sliceArmed := true })

/-- The team becomes resident: its resources, its first rod, and the requests of its other rods. -/
def State.startTeamOn (s : State) (p : FrameId) (l : Launch) (ts slot : Nat) : State :=
  let n := l.nextTeam
  let rods := l.record.rodsOf n
  let s1 := s.acquireAt p l.scope
  let s2 := (s1.setTeam { frame := p, slot := ts } (startTeam l n p.die)).setRod (rodKey p slot) (startRod l n ts 0 p.die)
  let waits := (List.range' 1 (rods - 1)).map (fun r =>
    { launch := l.seq, item0 := l.teamItem n + 32 * r, kind := RequestKind.rodStart n r : Request })
  ((s2.modFrame p (fun f =>
    { f.nextEpoch with requests := f.requests ++ waits, stuckSince := none })).beginSlice p l.asid).modLaunch l.seq
    (fun x => { x with
      nextTeam := x.nextTeam + 1
      firstStart := if x.nextTeam = 0 then s.frameTime p else x.firstStart })

/-- The frame's next launch is chosen as the frame becomes free, and again while it stands free (R408, R411). -/
def State.freeChoice (s : State) (p : FrameId) : State := if s.activeBusy p then s else s.bankSwap p

/-- TEAM_START: nothing happens while no team of the frame's launch can start (log entry 4). -/
def State.teamStart (s0 : State) (p : FrameId) : State :=
  let s := s0.freeChoice p
  match s.activeLaunch p with
  | none => s
  | some l =>
    let r := l.record
    if !l.nextOn p (s.frameTime p).toNat || !s.takesWork p || (s.frame p).olderWaits (l.seq, l.teamItem l.nextTeam)
        || !s.teamFits p (1024 * r.fsKib) r.accRows || !s.blocksFree p 0 0 r.fast r.slow then s
    else
      match s.freeTeamSlot p, s.freeRodSlot p with
      | some ts, some slot => s.startTeamOn p l ts slot
      | _, _ => s

def execTeamStart (p : FrameId) (s : State) : Host.Outcome State Fault Refusal := .next (s.teamStart p)

/-! ## REQUEST_SERVE (R54, R55, R57, R58) -/

/-- A waiting request is gone. -/
def State.dropRequest (s : State) (p : FrameId) (q : Request) : State :=
  s.modFrame p (fun f => { f with requests := f.requests.erase q, stuckSince := none })

/-- Lanes of a rod that wait for just this go on. -/
def Rod.grantWait (r : Rod) (w : Wait) : Rod :=
  r.mapLanes 0xFFFFFFFF (fun _ x =>
    if x.st == .blocked && x.wait == w then ({ x with st := .runnable, wait := .none }).advance else x)

/-- A lane of the rod in a slot waits for just this, and does not owe its divert (R94). -/
def State.waitsIn (s : State) (p : FrameId) (q : Request) (slot : Nat) (w : Wait) : Bool :=
  ((s.rod? (rodKey p slot)).map (fun r =>
    r.launch == q.launch && r.item0.toNat == q.item0 && !r.divert
      && (List.finRange 32).any (fun l => r.lanes[l].st == .blocked && r.lanes[l].wait == w))).getD false

/-- Whether anything still waits for a request (R54, R94). -/
def State.requestLives (s : State) (p : FrameId) (q : Request) : Bool :=
  match q.kind with
  | .grow slot _ f sl => s.waitsIn p q slot (.grow f sl)
  | .acres slot _ row n => s.waitsIn p q slot (.acres row n)
  | .rodStart _ _ | .reload _ _ | .reloadTeam _ => true

/-- Requests that nothing waits for any more are gone: one grant serves every sub-rod of a rod that asked for the same. -/
def State.pruneRequests (s : State) (p : FrameId) : State :=
  s.modFrame p (fun f => { f with requests := f.requests.filter (s.requestLives p) })

def State.serveGrow (s : State) (p : FrameId) (slot f sl : Nat) : State :=
  match s.rod? (rodKey p slot) with
  | none => s
  | some r =>
    let f' := max r.fast f
    let s' := max r.slow sl
    if s.blocksFree p r.fast r.slow f' s' then
      (s.setRod (rodKey p slot) { (r.grantWait (.grow f sl)) with fast := f', slow := s' }).modFrame p
        (fun x => { x with stuckSince := none })
    else s

def State.serveAcres (s : State) (p : FrameId) (slot row n : Nat) : State :=
  match s.rod? (rodKey p slot) with
  | none => s
  | some r =>
    if rowsGrantable s (teamKeyOf (rodKey p slot) r) r row n then
      (s.setRod (rodKey p slot) (addRows (r.grantWait (.acres row n)) row n)).modFrame p
        (fun x => { x with stuckSince := none })
    else s

/-- The team of a saved rod on the frame, brought back first where it was saved. -/
def State.teamBack (s : State) (p : FrameId) (launch team : Nat) : Option (TeamKey × State) :=
  match s.residentTeam p launch team with
  | some (tk, _) => some (tk, s)
  | none =>
    match (s.frame p).savedTeam launch team, s.freeTeamSlot p with
    | some v, some ts =>
      if s.takesWork p && s.teamFits p v.team.fsBytes v.team.accRows && (s.frame p).roomFor v && s.placeReads p v.place then
        let tk : TeamKey := { frame := p, slot := ts }
        some (tk, ((s.modFrame p (fun f => (f.dropSavedTeam launch team).nextEpoch)).attachTeam tk v).beginSlice p
          (((s.launch? launch).map Launch.asid).getD 0))
      else none
    | _, _ => none

/-- A rod of a started team becomes resident, with the engine faults that wait for it (R40, R303); none does while the frame is
being emptied (R448, R449). -/
def State.serveStart (s : State) (p : FrameId) (q : Request) (team rod : Nat) : State :=
  match s.launch? q.launch with
  | none => s.dropRequest p q
  | some l =>
    if l.closed (s.frameTime p).toNat then s.dropRequest p q
    else if (s.frame p).preempting.isSome then s
    else
      match s.freeRodSlot p, s.teamBack p q.launch team with
      | some slot, some (tk, s1) =>
        if s1.blocksFree p 0 0 l.record.fast l.record.slow then
          let waiting := ((s1.team? tk).map Team.faults).getD []
          ((s1.setRod (rodKey p slot) { startRod l team tk.slot rod p.die with engineFaults := waiting }).modTeam tk
            (fun t => { t with started := t.started + 1, faults := [] })).dropRequest p q
        else s
      | _, _ => s

/-- RESUME.run of a slice stop ends a reload after a pre-emption; a rod saved by an eviction is not stopped (R454). -/
def State.releaseSlice (s : State) (k : RodKey) : State :=
  match s.rod? k with
  | none => s
  | some r =>
    if r.stop = .slice then
      -- a TKGET saved as blocked is a waiter again (R295, R298)
      ((s.setRod k { r with stop := .none }.regroupAll).modFrame k.frame (fun f => f.resolve (f.recSeq - 1))).serveTeam
        (teamKeyOf k r)
    else s

/-- A saved rod is reloaded from its image (R57, R323, R454); no reload begins after D (R456), nor while the image cannot be
read (R455), nor while the frame is being emptied (R448, R449). -/
def State.serveReload (s : State) (p : FrameId) (q : Request) (team rod : Nat) : State :=
  match (s.frame p).savedRod q.launch team rod, s.freeRodSlot p with
  | some v, some slot =>
    if ((s.launch? q.launch).map (fun l => l.dead (s.frameTime p).toNat)).getD true || !s.placeReads p v.place
        || (s.frame p).preempting.isSome then s
    else
    match s.teamBack p q.launch team with
    | none => s
    | some (tk, s1) =>
      if s1.blocksFree p 0 0 v.rod.fast v.rod.slow && v.rod.rows.all (s1.rowFree tk) then
        (((s1.modFrame p (fun f => f.dropSavedRod q.launch team rod)).attachRod p slot tk.slot v).releaseSlice
          (rodKey p slot)).dropRequest p q
      else s
  | none, _ => s.dropRequest p q
  | some _, none => s

/-- A saved team with commands but no rod left is reloaded (R409). -/
def State.serveTeamReload (s : State) (p : FrameId) (q : Request) (team : Nat) : State :=
  if ((s.launch? q.launch).map (fun l => l.dead (s.frameTime p).toNat)).getD true || (s.frame p).preempting.isSome then s
  else
    match s.teamBack p q.launch team with
    | some (_, s1) => s1.dropRequest p q
    | none => if ((s.frame p).savedTeam q.launch team).isNone then s.dropRequest p q else s

/-- The oldest request of the frame's launch. -/
def State.oldestRequest (s : State) (p : FrameId) : Option Request :=
  match (s.frame p).active with
  | none => none
  | some b =>
    (oldestOf (((s.frame p).requests.filter (fun q => q.launch == b.launch)).map (fun q => (requestKey q, q)))).map Prod.snd

/-- A request is granted if it fits now. -/
def State.serveOne (s : State) (p : FrameId) (q : Request) : State :=
  match q.kind with
  | .grow slot _ f sl => s.serveGrow p slot f sl
  | .acres slot _ row n => s.serveAcres p slot row n
  | .rodStart team rod => s.serveStart p q team rod
  | .reload team rod => s.serveReload p q team rod
  | .reloadTeam team => s.serveTeamReload p q team

/-- REQUEST_SERVE: the oldest request that something waits for is granted; nothing happens while it does not fit (R55; log
entry 4). -/
def State.requestServe (s : State) (p : FrameId) : State :=
  let s0 := s.pruneRequests p
  match s0.oldestRequest p with
  | none => s0
  | some q => (s0.serveOne p q).pruneRequests p

def execRequestServe (p : FrameId) (s : State) : Host.Outcome State Fault Refusal := .next (s.requestServe p)

/-! ## ROD_EVICTION (R56, R57) -/

/-- A rod none of whose sub-rods can issue, all of them in sync-wait or blocked. -/
def Rod.stuck (r : Rod) : Bool :=
  r.liveMask != 0 && (List.finRange 32).all (fun l =>
    let x := r.lanes[l]
    !x.live || x.st == .blocked
      || (x.st == .syncWait && (match x.marks with | m :: _ => !r.satisfied m | [] => true)))

/-- Rods of a team that are neither resident nor retired. -/
def State.absentRods (s : State) (tk : TeamKey) (t : Team) : BitVec 32 :=
  maskOf (fun l => decide (l.val < t.rods) && !t.retired.getLsbD l.val && (s.memberSlot tk l.val).isNone)

/-- A lane waits for blocks or rows, or on a barrier or join that counts a rod not resident. -/
def State.waitsForEviction (s : State) (tk : TeamKey) (x : Lane) : Bool :=
  x.st == .blocked && (match s.team? tk with
    | none => false
    | some t =>
      match x.wait with
      | .grow _ _ | .acres _ _ => true
      | .barMeet _ _ => s.absentRods tk t != 0
      | .jwait j | .jset j | .fullJoin j => (s.absentRods tk t &&& (t.join j).mask) != 0
      | _ => false)

/-- Every resident rod of the frame is stuck. -/
def State.frameStuck (s : State) (p : FrameId) : Bool :=
  let l := s.rodsOn p
  l != [] && l.all (fun e => e.2.stuck)

/-- The rods with their age keys. -/
def State.keyedRods (s : State) (p : FrameId) : List ((Nat × Nat) × (Nat × Rod)) :=
  (s.rodsOn p).map (fun e => (ageKey e.2, e))

/-- The youngest of a list of things with keys. -/
def youngestOf {α : Type} : List ((Nat × Nat) × α) → Option ((Nat × Nat) × α)
  | [] => none
  | x :: t =>
    match youngestOf t with
    | none => some x
    | some y => if older x.1 y.1 then some y else some x

/-- No event waits for the rod, it is not stopped, and it has not issued in this cycle: it may be evicted (R446). -/
def Rod.evictable (r : Rod) : Bool :=
  r.stop == .none && r.traps.isEmpty && r.engineFaults.isEmpty && !r.divert && !r.taken

/-- The rod that R56 evicts now, if any. -/
def State.evictee (s : State) (p : FrameId) : Option (Nat × Rod) :=
  if !s.frameStuck p || (s.oldestRequest p).isNone
      || !(s.rodsOn p).any (fun e => (List.range 32).any (fun l =>
        s.waitsForEviction (teamKeyOf (rodKey p e.1) e.2) (e.2.lane l))) then none
  else
    match youngestOf (s.keyedRods p), oldestOf (s.keyedRods p) with
    | some (ky, e), some (ko, _) => if ky = ko || !e.2.evictable then none else some e
    | _, _ => none

/-- Commands that must finish before the rod goes: started ones that name its rows, and, with the team's last rod, every
running one and every copy that is coming from a peer; a command stopped on a run fault stays stopped and is saved with the
team (R319, R323, R330). -/
def State.evictionReady (s : State) (p : FrameId) (slot : Nat) (r : Rod) : Bool :=
  if (s.rodsOn p).any (fun e => e.1 != slot && e.2.teamSlot == r.teamSlot) then s.rowsQuiet p r
  else s.commandsDone { frame := p, slot := r.teamSlot }

/-- The rod goes into the launch's context area, with its team when it was the last, and asks to be reloaded; nothing
happens where an image cannot be written (R455). -/
def State.evictRod (s : State) (p : FrameId) (slot : Nat) (r : Rod) : State :=
  let epoch := (s.frame p).epochNow
  match s.saveRod p slot epoch with
  | .error _ => s
  | .ok s1 =>
    let tk : TeamKey := { frame := p, slot := r.teamSlot }
    let s2 := s1.modFrame p (fun f =>
      { f with
        requests := f.requests ++ [{ launch := r.launch, item0 := r.item0.toNat, kind := .reload r.team r.rod }]
        stuckSince := none })
    if (s2.rodsOn p).any (fun e => e.2.teamSlot == r.teamSlot) then s2
    else
      match s2.saveTeam tk epoch with
      | .error _ => s
      | .ok s3 => s3.modFrame p Frame.nextEpoch

/-- ROD_EVICTION: nothing happens while a condition of R56 fails (log entry 4). -/
def State.rodEviction (s : State) (p : FrameId) : State :=
  match s.evictee p with
  | none => s
  | some (slot, r) => if s.evictionReady p slot r then s.evictRod p slot r else s

def execRodEviction (p : FrameId) (s : State) : Host.Outcome State Fault Refusal := .next (s.rodEviction p)

/-! ## TEAM_RETIRE (R37, R363, R404) -/

/-- A complete join instance of the team waits for room in its engine queue (R60). -/
def Team.instanceWaits (t : Team) : Bool := t.joins.toList.any (fun j => j.pending.any (fun i => i.complete j t))

/-- Every rod that has run has retired, none will come, and no command is left, neither in a queue nor complete and waiting
for one (R37, R60), nor one that copies into the team's frame store (R319). -/
def State.teamDone (s : State) (tk : TeamKey) (t : Team) : Bool :=
  let gone := popCount t.retired
  let stops := match s.launch? t.launch with
    | some l => l.wrapped || l.killed
    | none => true
  (gone == t.rods || (stops && gone == t.started))
    && ((s.frame tk.frame).teamEntries tk.slot).isEmpty && !t.instanceWaits && !s.copyComing t.launch t.number
    && !(s.rodsOn tk.frame).any (fun e => e.2.teamSlot == tk.slot)
    && !(s.frame tk.frame).savedRods.any (fun v => v.rod.launch == t.launch && v.rod.team == t.number)

def State.teamRetire (s : State) (tk : TeamKey) : State :=
  match s.team? tk with
  | none => s
  | some t =>
    if !s.teamDone tk t then s
    else
      let s1 := (s.eraseTeam tk).modFrame tk.frame (fun f =>
        { f with requests := f.requests.filter (fun q =>
            match q.kind with
            | .rodStart n _ => !(q.launch == t.launch && n == t.number)
            | _ => true) })
      ((s1.countFault t.launch t.faults.length).modLaunch t.launch (fun l =>
        { l with retired := l.retired ++ [t.number], lastRetire := s.frameTime tk.frame })).bankSwap tk.frame

def execTeamRetire (p : FrameId) (ts : Nat) (s : State) : Host.Outcome State Fault Refusal :=
  .next (s.teamRetire { frame := p, slot := ts })

/-! ## SCHEDULER_CHOICE (R405, R408) -/

/-- The launch of highest key enters the shadow bank; an empty frame swaps its banks at once. -/
def State.schedulerChoice (s : State) (p : FrameId) : State :=
  if !s.takesWork p then s
  else
    match bestLaunch s.hub.now.toNat (s.candidates p) with
    | none => s
    | some l => (s.modFrame p (fun f => { f with shadow := some l.bank })).bankSwap p

def execSchedulerChoice (p : FrameId) (s : State) : Host.Outcome State Fault Refusal := .next (s.schedulerChoice p)

/-! ## PREEMPTION (R409, R410, R448, R449) -/

/-- Every rod of the frame has stopped, every engine reports that it has, and no copy comes from another frame: a
pre-emption may save what is there (R319, R448, R449). -/
def State.quiet (s : State) (p : FrameId) : Bool :=
  (s.rodsOn p).all (fun e => e.2.stop != .none && e.2.atBoundary) && (s.frame p).allStopped
    && (s.teamsOn p).all (fun e => s.commandsDone { frame := p, slot := e.1 })

/-- A launch that waits for the frame takes it from the one that is on it: by priority, or at the end of a slice. -/
def preempts (now : Nat) (sliced : Bool) (l a : Launch) : Bool :=
  l.seq != a.seq && !a.record.notPreemptible
    && (a.priority < l.priority
      || (sliced && l.priority == a.priority && (l.slack now).toInt < (a.slack now).toInt))

/-- Step 1 of R449: the firmware context takes every cycle, no engine starts a command, and every rod gets TRAP.slice. -/
def State.startPreempt (s : State) (p : FrameId) (next : Option Bank) : State :=
  let s1 := s.modFrame p (fun f =>
    { f with preempting := some { next := next, share := f.share }, share := 64, engctl := f.engctl ||| 7#32 })
  (s1.rodsOn p).foldl (fun s e =>
    s.modRod (rodKey p e.1) (fun r =>
      if r.stop == .slice || r.traps.contains .slice then r else { r with traps := r.traps ++ [.slice] })) s1

/-- Saves one after the other, up to the first that fails. -/
def saveEach {α : Type} (f : α → State → Except Cause State) : List α → State → Option Cause × State
  | [], s => (none, s)
  | x :: t, s =>
    match f x s with
    | .error c => (some c, s)
    | .ok s1 => saveEach f t s1

/-- The rod of a slot goes and asks to come back. -/
def State.saveAsking (p : FrameId) (epoch : Nat) (e : Nat × Rod) (s : State) : Except Cause State :=
  match s.saveRod p e.1 epoch with
  | .error c => .error c
  | .ok s1 => .ok (s1.modFrame p (fun f =>
      { f with
        requests := f.requests ++
          [{ launch := e.2.launch, item0 := e.2.item0.toNat, kind := RequestKind.reload e.2.team e.2.rod }]
        stuckSince := none }))

/-- The team goes; where no saved rod of it asks for its return, it asks itself: a rod still to start may never come (R93, R409). -/
def State.saveTeamAsking (s : State) (tk : TeamKey) (t : Team) (epoch : Nat) : Except Cause State :=
  match s.saveTeam tk epoch with
  | .error c => .error c
  | .ok s1 =>
    if (s1.frame tk.frame).savedRods.any (fun v => v.rod.launch == t.launch && v.rod.team == t.number) then .ok s1
    else
      .ok (s1.modFrame tk.frame (fun f =>
        { f with requests := f.requests ++
            [{ launch := t.launch, item0 := ((s.launch? t.launch).map (fun l => l.teamItem t.number)).getD 0
               kind := .reloadTeam t.number }] }))

/-- Step 5 of R449: the engines and the share are as before, the hub hears of it, and the banks swap. -/
def State.endPreempt (s : State) (p : FrameId) (g : Preempting) : State :=
  let s1 := s.modFrame p (fun f =>
    { f.nextEpoch with
      event := withBit f.event 2 false, preempting := none, share := g.share, engctl := 0
      shadow := match g.next with | some b => some b | none => f.shadow })
  ((s1.settleFrame p).bankSwap p).report (.preempted p)

/-- Steps 3 to 5 of R449: every rod in slot order and every team in team order is saved. A save that fails is a fault of the
firmware context, and the pre-emption goes on when that runs again (R455). -/
def State.saveFrame (s : State) (p : FrameId) (g : Preempting) : State :=
  let epoch := (s.frame p).epochNow
  let rods := (s.rodsOn p).mergeSort (fun a b => decide (a.1 ≤ b.1))
  let teams := (s.teamsOn p).mergeSort (fun a b => decide (a.2.number ≤ b.2.number))
  match saveEach (State.saveAsking p epoch) rods s with
  | (some c, s1) => s1.contextFault p c (((s1.rod? (fwKey p)).getD Rod.firmware).lane 0).pc
  | (none, s1) =>
    match saveEach (fun e s => s.saveTeamAsking { frame := p, slot := e.1 } e.2 epoch) teams s1 with
    | (some c, s2) => s2.contextFault p c (((s2.rod? (fwKey p)).getD Rod.firmware).lane 0).pc
    | (none, s2) => s2.endPreempt p g

/-- At the end of a slice that nothing takes over, it is renewed (R410). -/
def State.renewSlice (s : State) (p : FrameId) (a : Launch) : State :=
  if (s.frame p).event.getLsbD 2 then
    (s.modFrame p (fun f => { f with event := withBit f.event 2 false })).beginSlice p a.asid
  else s

/-- The frame's launch gives way to the best waiting launch, or goes on. -/
def State.yieldFrame (s : State) (p : FrameId) (a : Launch) : State :=
  match bestLaunch s.hub.now.toNat (s.candidates p) with
  | none => s.renewSlice p a
  | some l =>
    if preempts s.hub.now.toNat ((s.frame p).event.getLsbD 2) l a && s.activeBusy p then s.startPreempt p (some l.bank)
    else s.renewSlice p a

/-- A die that drains for a reset empties its frames, but not of a launch that is not pre-emptible (R468). -/
def State.drainFrame (s : State) (p : FrameId) (a : Launch) : State :=
  if !a.record.notPreemptible && s.activeBusy p then s.startPreempt p none else s

/-- PREEMPTION stands for the work of Pliom device firmware on a frame (R409, R410, R449; log entry 43), a step of it at a time (R449): nothing happens while no launch pre-empts the frame's own and its die does not
drain, or while something still runs, or the firmware context has faulted (log entry 4). -/
def State.preemption (s : State) (p : FrameId) : State :=
  match (s.frame p).preempting with
  | some g =>
    let s0 := s.boundaries p
    if s0.quiet p && (s.frame p).fw != .faulted then s0.saveFrame p g else s
  | none =>
    match s.activeLaunch p with
    | none => s
    | some a => if (s.die p.die).phase = .drainingWork then s.drainFrame p a else s.yieldFrame p a

def execPreemption (p : FrameId) (s : State) : Host.Outcome State Fault Refusal := .next (s.preemption p)

end Sys2Proof.Machine
end

