-- ==== Sys2Proof/Machine/Deadline.lean ====
section
/-!
DEFINITION. Sys2Proof/Machine/Deadline.lean: what time does to a launch: the wrap-up threshold (R93), the deadline kill and hub
firmware's kill (R99, R442, R456), and the three watchdogs (R66, R442).
-/

namespace Sys2Proof.Machine

/-! ## Shared parts -/

/-- Every frame that holds something. -/
def State.framesInUse (s : State) : List FrameId :=
  (s.frames.map Prod.fst ++ s.teams.map (fun e => e.1.frame) ++ s.rods.map (fun e => e.1.frame)).eraseDups

/-- Registers that a cancelled joined reduction would have written let go with their old values (R250). -/
def Team.abandonedPartials (t : Team) : List (Nat × Partial) :=
  (List.finRange 16).flatMap (fun j => t.joins[j].pending.flatMap (fun i => i.partials.map (fun q => (j.val, q))))

/-- What the end of a launch's joins and barriers leaves of a rod of a team. -/
def Rod.stripped (r : Rod) (lost : List (Nat × Partial)) : Rod :=
  let r1 := (lost.filter (fun q => q.2.rod == r.rod)).foldl (fun r q => r.endReduce q.1 q.2 none) r
  { r1 with sigs := Vector.replicate 16 0, arrived := 0 }

/-- The joins of a resident team go, with its barriers' arrivals (R93, R94, R122). -/
def State.stripTeam (s : State) (tk : TeamKey) (t : Team) : State :=
  let lost := t.abandonedPartials
  ((s.rodsOn tk.frame).foldl (fun s e =>
    if e.2.teamSlot = tk.slot then s.modRod (rodKey tk.frame e.1) (fun r => r.stripped lost) else s) s).modTeam tk
      Team.stripped

/-- Every resident team of the launch on the frame loses its joins; of what lies saved, the images stay as they are, and
the loss is made up for at the reload (R456). -/
def State.stripTeams (s : State) (p : FrameId) (seq : Nat) : State :=
  ((s.teamsOn p).filter (fun e => e.2.launch == seq)).foldl (fun s e => s.stripTeam { frame := p, slot := e.1 } e.2) s

/-- Commands of the launch in the queues that satisfy a condition are cancelled. -/
def State.cancelLaunch (s : State) (p : FrameId) (seq : Nat) (pr : Cmd → Bool) : State :=
  engines.foldl (fun s e => s.cancelWhere p e (fun c => c.launch == seq && pr c)) s

/-- Rods that were never resident will not come, and requests for blocks and rows are withdrawn; the reloads stay (R93, R94,
R330). -/
def Frame.dropWaits (f : Frame) (seq : Nat) : Frame :=
  { f with requests := f.requests.filter (fun q =>
      match q.kind with
      | .reload _ _ | .reloadTeam _ => true
      | _ => q.launch != seq) }

/-! ## WRAP_UP_THRESHOLD (R93, R94, R298, R330) -/

/-- Every resident rod of the launch owes its divert. -/
def State.oweDiverts (s : State) (seq : Nat) (p : FrameId) : State :=
  (s.rodsOn p).foldl (fun s e =>
    if e.2.launch = seq then s.modRod (rodKey p e.1) (fun r => { r with divert := r.owesDivert }) else s) s

/-- The threshold on one frame: every rod owes its divert, and takes no token from then on; unstarted commands and pending
instances go. -/
def State.wrapFrame (s : State) (seq : Nat) (p : FrameId) : State :=
  let s1 := ((s.modFrame p (fun f => f.dropWaits seq)).oweDiverts seq p).stripTeams p seq
  s1.cancelLaunch p seq (fun c => !c.started)

/-- The launch enters wrap-up on every frame. -/
def State.enterWrapUp (s : State) (seq : Nat) : State :=
  (s.framesInUse).foldl (fun s p => s.wrapFrame seq p) (s.modLaunch seq (fun l => { l with wrapped := true }))

/-! ## The deadline kill (R99, R456) -/

/-- A resident rod is killed: its items retire with validity 0, and it counts once as a fault. -/
def State.killRod (s : State) (k : RodKey) : State :=
  match s.rod? k with
  | none => s
  | some r =>
    let s1 := (s.modFrame k.frame (fun f => f.withdrawRequests (slotNumber k) 0xFFFFFFFF)).retireLanes k r.liveMask
      (fun _ => .killed)
    (s1.countFault r.launch 1).retireRod k

/-- The live items of a saved rod, with their outcome. -/
def Rod.killedItems (r : Rod) : List Nat := (maskLanes r.liveMask).map (fun l => (r.lane l).item.toNat)

/-- A saved rod is killed where it lies; engine faults that still wait for it find no rod and are counted (R303, R403). -/
def State.killSavedRod (s : State) (p : FrameId) (r : Rod) : State :=
  let items := r.killedItems
  let s1 := s.modFrame p (fun f => (f.dropSavedRod r.launch r.team r.rod))
  let s2 : State := { s1 with carry := items.foldl (fun t i => closeSlots r.launch i 0xFF t) s1.carry }
  let s3 := (s2.modLaunch r.launch (fun l =>
    { l with outcomes := l.outcomes ++ items.map (fun i => (i, ItemOutcome.killed)), lastRetire := s.frameTime p })).countFault
      r.launch (1 + r.engineFaults.length)
  let gone (t : Team) : Team := { t with retired := t.retired ||| (1#32 <<< r.rod) }
  match s3.residentTeam p r.launch r.team with
  | some (tk, _) => s3.modTeam tk gone
  | none => s3.modFrame p (fun f => { f with savedTeams := f.savedTeams.map (fun v =>
      if v.team.launch = r.launch ∧ v.team.number = r.team then { v with team := gone v.team } else v) })

/-- A team that lies saved retires there; engine faults for its rods that never started are counted (R303). -/
def State.dropSavedTeams (s : State) (p : FrameId) (seq : Nat) : State :=
  match ((s.frame p).savedTeams.filter (fun v => v.team.launch == seq)).map SavedTeam.team with
  | [] => s
  | gone =>
    ((s.modFrame p (fun f => { f with savedTeams := f.savedTeams.filter (fun v => v.team.launch != seq) })).modLaunch seq
      (fun l => { l with
        retired := l.retired ++ (gone.map Team.number).filter (fun n => !l.retired.contains n)
        lastRetire := s.frameTime p })).countFault seq (gone.flatMap Team.faults).length

/-- The kill on one frame: records withdrawn, commands that are not running cancelled, items killed. -/
def State.killFrame (s : State) (seq : Nat) (p : FrameId) : State :=
  let s1 := (s.modFrame p (fun f =>
    (f.dropWaits seq).withdrawWhere .deadlineKill (fun x => x.launch == seq))).stripTeams p seq
  let s2 := s1.cancelLaunch p seq (fun c => c.st != .running)
  let s3 := (s2.rodsOn p).foldl (fun s e => if e.2.launch = seq then s.killRod (rodKey p e.1) else s) s2
  let s4 := ((s3.frame p).savedRods.filter (fun v => v.rod.launch == seq)).foldl (fun s v => s.killSavedRod p v.rod) s3
  let s5 := s4.dropSavedTeams p seq
  s5.modFrame p (fun f => { f with requests := f.requests.filter (fun q => q.launch != seq) })

/-- Every unretired item of the launch is killed, wherever it is. -/
def State.killLaunch (s : State) (seq : Nat) (all : Bool) : State :=
  (s.framesInUse).foldl (fun s p => s.killFrame seq p)
    (s.modLaunch seq (fun l => { l with killed := true, killAll := l.killAll || all }))

/-! ## The steps (R91, R93, R99, R442) -/

/-- DEADLINE_KILL: the threshold first, if it has not been taken; nothing happens before D (log entry 4). Which agent's copy of
package time D and T_w are compared with the spec does not say: the hub's, DESIGN CHOICE (log entry 44). -/
def State.deadlineKill (s : State) (seq : Nat) : State :=
  match s.launch? seq with
  | none => s
  | some l =>
    if !l.killDue s.hub.now.toNat then s
    else (s.modLaunch seq (fun l => { l with wrapped := true })).killLaunch seq false

def execDeadlineKill (seq : Nat) (s : State) : Host.Outcome State Fault Refusal := .next (s.deadlineKill seq)

/-- WRAP_UP_THRESHOLD: with W = 0 it is the kill (R99); nothing happens before T_w (log entry 4), on the hub's clock (log entry
44). -/
def State.wrapUpThreshold (s : State) (seq : Nat) : State :=
  match s.launch? seq with
  | none => s
  | some l =>
    if !l.wrapDue s.hub.now.toNat then s
    else if l.record.budget = 0#32 then s.deadlineKill seq
    else s.enterWrapUp seq

def execWrapUpThreshold (seq : Nat) (s : State) : Host.Outcome State Fault Refusal := .next (s.wrapUpThreshold seq)

/-- LAUNCH_KILL by hub firmware (R442): nothing happens to a launch that has completed (log entry 4). -/
def State.launchKill (s : State) (seq : Nat) : State :=
  match s.launch? seq with
  | none => s
  | some l => if l.completed || l.killed then s else s.killLaunch seq true

def execLaunchKill (seq : Nat) (s : State) : Host.Outcome State Fault Refusal := .next (s.launchKill seq)

/-! ## STUCK_FRAME_WATCHDOG (R442) -/

/-- The stuck frame's oldest rod parks under one record. -/
def State.stuckReport (s : State) (p : FrameId) : State :=
  match oldestOf (s.keyedRods p) with
  | none => s
  | some (_, (slot, r)) =>
    let k := rodKey p slot
    let m := r.maskWhere (fun x => x.live && x.st != .parked)
    let word := if m = 0 then 0 else s.wordAt k r (r.lane (lowest m)).pc
    ((s.modFrame p (fun f => { (f.withdrawRequests slot m).raise 4 with stuckSince := none })).takeFault k m
      (laneFault .watchdog word 0))

/-- Every resident rod is stuck and none can be evicted: what the watchdog times (R56, R442). -/
def State.frameHeld (s : State) (p : FrameId) : Bool := s.frameStuck p && (s.evictee p).isNone

/-- STUCK_FRAME_WATCHDOG: the first observation of a stuck frame starts the interval, a later one past its end reports
(log entry 4). -/
def State.stuckWatchdog (s : State) (p : FrameId) : State :=
  let f := s.frame p
  if !s.frameHeld p then s.modFrame p (fun f => { f with stuckSince := none })
  else
    match f.stuckSince with
    | none => s.modFrame p (fun f => { f with stuckSince := some s.hub.now.toNat })
    | some t => if t + 1000 * (f.wdog.extractLsb' 16 16).toNat ≤ s.hub.now.toNat then s.stuckReport p else s

def execStuckFrameWatchdog (p : FrameId) (s : State) : Host.Outcome State Fault Refusal := .next (s.stuckWatchdog p)

/-! ## ENGINE_WATCHDOG (R66, R442) -/

/-- The package time since which this very command has been seen to stall at the head: another head starts its own
interval (R66, R442). -/
def Engine.stalledFor (q : Engine) (c : Cmd) : Option Nat :=
  q.stalledSince.bind (fun m => if m.1 = c.stallKey then some m.2 else none)

/-- The stalled team's unstarted entries go, and the fault is delivered under R303. -/
def State.engineReport (s : State) (p : FrameId) (e : EngineId) (c : Cmd) : State :=
  ((s.cancelWhere p e (fun x => x.teamSlot == c.teamSlot && !x.started)).engineFaultTo (cmdTeam p c) c.launch c.rod
    { cause := .watchdog, orig := none, word := c.word, addr := 0, progress := 0, engine := e }).modFrame p
      (fun f => f.raise 4)

/-- ENGINE_WATCHDOG: as the stuck-frame watchdog, for the head of one engine queue. -/
def State.engineWatchdog (s : State) (p : FrameId) (e : EngineId) : State :=
  match s.stalledHead p e with
  | none => s.modEngine p e (fun q => { q with stalledSince := none })
  | some c =>
    match ((s.frame p).engine e).stalledFor c with
    | none => s.modEngine p e (fun q => { q with stalledSince := some (c.stallKey, s.hub.now.toNat) })
    | some t =>
      if t + 1000 * ((s.frame p).wdog.extractLsb' 0 16).toNat ≤ s.hub.now.toNat then s.engineReport p e c else s

def execEngineWatchdog (p : FrameId) (e : EngineId) (s : State) : Host.Outcome State Fault Refusal :=
  .next (s.engineWatchdog p e)

/-! ## The end of a step -/

/-- A stuck frame's interval is over as soon as a step ends with a rod that is not stuck, or with one to evict (R56, R442). -/
def State.noteStuck (s : State) (p : FrameId) : State :=
  if (s.frame p).stuckSince.isSome && !s.frameHeld p then s.modFrame p (fun f => { f with stuckSince := none }) else s

/-- At the end of a step: intervals whose state has ended are over, and images show what has changed of what lies saved. -/
def State.closeStep (s : State) : State :=
  (s.noteHeads.frames.map Prod.fst).foldl (fun s p => (s.noteStuck p).bringImagesUp p) s.noteHeads

/-- The end of a step. -/
def endStep : Host.Outcome State Fault Refusal → Host.Outcome State Fault Refusal
  | .next s => .next s.closeStep
  | .fault f => .fault f
  | .refused r => .refused r

/-! ## PARTITION_WATCHDOG (R441, R442) -/

/-- The partition of an ASID. -/
def State.partOf (s : State) (asid : Nat) : PartDesc := s.hub.partitions.toList.getD (s.asidEntry asid).part PartDesc.undefinedPart

/-- Whether a record still waits: no RESUME has acted on it, and it is in the park queue, or lanes stay parked under it
(R442). -/
def State.recordWaits (s : State) (p : FrameId) (x : Record) : Bool :=
  !x.resolved && (x.queued || (!x.withdrawn && (s.rodsOn p).any (fun e => e.2.parkedRecords.contains x.seq)))

/-- PARTITION_WATCHDOG: a record unresolved for the partition's interval is reported; the interval then starts afresh. -/
def State.partitionWatchdog (s : State) (p : FrameId) (seq : BitVec 16) : State :=
  match (s.frame p).records.find? (fun x => x.seq == seq && s.recordWaits p x) with
  | none => s
  | some x =>
    if x.since + 1000000 * (s.partOf x.asid.toNat).queueWdogMs ≤ s.hub.now.toNat then
      (s.modFrame p (fun f => { f with records := f.records.map (fun y =>
        if y.seq = seq then { y with since := s.hub.now.toNat } else y) })).report (.partitionWatchdog p seq)
    else s

def execPartitionWatchdog (p : FrameId) (recSeq : BitVec 16) (s : State) : Host.Outcome State Fault Refusal :=
  .next (s.partitionWatchdog p recSeq)

end Sys2Proof.Machine
end

