-- ==== Sys2Proof/Machine/Outside.lean ====
section
/-!
DEFINITION. Sys2Proof/Machine/Outside.lean: stores of core chiplets and hosts (R22, R427, R431, R472), and the evictions of
caches (R169, R170, R429).
-/

namespace Sys2Proof.Machine

/-- The sectors of a byte range with the bytes that fall in each. -/
def sectorRuns : Nat → Nat → List Byte → List (Nat × Nat × List Byte)
  | 0, _, _ => []
  | fuel + 1, a, b =>
    if b = [] then []
    else
      let k := min b.length (64 - a % 64)
      (a / 64, a % 64, b.take k) :: sectorRuns fuel (a + k) (b.drop k)

def runsOf (a : Nat) (b : List Byte) : List (Nat × Nat × List Byte) := sectorRuns (b.length + 1) a b

/-- Bytes of one sector from an agent that the directory does not track. -/
def State.ioWrite (s : State) (n off : Nat) (b : List Byte) : State :=
  if s.poisoned n || s.severed hubNode n then s else s.untrackedWrite n (segMask off b.length) (segData off b)

/-- Bytes of one sector from a core chiplet, a full peer: it holds the sector modified, or stores at the home of a
watched line (R387). -/
def State.coreWrite (s : State) (a n off : Nat) (b : List Byte) : State :=
  if s.poisoned n || s.severed hubNode n then s
  else if s.watched n || !deviceSector n then s.ioWrite n off b
  else
    let s1 := s.upgrade a n
    match s1.agentSector a n with
    | some x => s1.putAgentSector a { x.write (segMask off b.length) (segData off b) with st := .m }
    | none => s1

def State.setXl (s : State) (part : Nat) (g : XlPage → XlPage) : State :=
  s.modHub (fun h => { h with xl := Vector.ofFn (fun k => if k.val = part then g h.xl[k] else h.xl[k]) })

/-- A core chiplet stores bytes, unless it is isolated and left out (R433, R461). -/
def State.coreStore (s : State) (a addr : Nat) (b : List Byte) : State :=
  if (a = 8 ∨ a = 9) ∧ !s.agentOut a then (runsOf addr b).foldl (fun s x => s.coreWrite a x.1 x.2.1 x.2.2) s else s

/-- A core chiplet drops a sector that it holds S or E, silently: the directory keeps its bit (R429). -/
def State.coreDrop (s : State) (a n : Nat) : State :=
  match (if a = 8 ∨ a = 9 then s.agentSector a n else none) with
  | some x => if x.st = .s ∨ x.st = .e then s.dropAgentSector a n else s
  | none => s

/-- A die cache drops a sector, its dirty bytes first to the home; while they find no path it keeps it. -/
def State.evictDie (s : State) (d n : Nat) (u : Bool) : State :=
  if s.meetsError d n u = some .linkDown then s else s.dieDiscard d n u

end Sys2Proof.Machine
end

