-- ==== Sys2Proof/Machine/HubAccess.lean ====
section
/-!
DEFINITION. Sys2Proof/Machine/HubAccess.lean: the hub's own accesses to memory, performed at the homes: by physical address
(descriptors, R384), and in an address space (packets, launch records, completion records, R388, R402, R484).
-/

namespace Sys2Proof.Machine

/-! ## By physical address -/

/-- The sectors of a physical range: sector, offset, length. -/
def sectorSpans (pa n : Nat) : List (Nat × Nat × Nat) :=
  (splitSectors (n / 64 + 2) pa n).map (fun e => (e.1 / 64, e.1 % 64, e.2))

/-- Bytes of one sector at its home, a tracked owner written back first (R431). Where no route leads to the home, or its tower has
been left out, what the hub reads is free: the spec states nothing, DESIGN CHOICE (R461; log entry 83). -/
def State.homeSpan (s : State) (u : Bool) (n off len : Nat) : List Byte × State :=
  if s.severed hubNode n then s.drawBytes len
  else
    let (v, s1) := if u then (s.homeData n, s) else s.untrackedRead n
    (segBytes v off len, s1)

/-- Reads bytes at the home; the flag says that poison was met. -/
def State.homeRead (u : Bool) : List (Nat × Nat × Nat) → State → Bool × List Byte × State
  | [], s => (false, [], s)
  | (n, off, len) :: t, s =>
    let (v, s1) := s.homeSpan u n off len
    let (e, b, s2) := State.homeRead u t s1
    (s.poisoned n || e, v ++ b, s2)

/-- Writes bytes at the home; those that find no home are not written (log entry 83). -/
def State.homeWrite (u : Bool) : List (Nat × Nat × Nat) → List Byte → State → State
  | [], _, s => s
  | (n, off, len) :: t, b, s =>
    let m := segMask off len
    let v := segData off (b.take len)
    State.homeWrite u t (b.drop len)
      (if s.severed hubNode n then s else if u then s.homeMerge n m v else s.untrackedWrite n m v)

def State.readPhys (s : State) (pa n : Nat) : List Byte × State :=
  let (_, b, s1) := State.homeRead false (sectorSpans pa n) s
  (b, s1)

def State.writePhys (s : State) (pa : Nat) (b : List Byte) : State := State.homeWrite false (sectorSpans pa b.length) b s

/-! ## In an address space -/

/-- The translation of one page for the hub itself, checked; it serves this access only, so no holder gets an expiry. -/
def State.hubPage (s : State) (asid va : Nat) (need : Need) : Except Cause Xlat × State :=
  if !canonical va then (.error .notPresent, s)
  else
    match s.walk 52 asid va with
    | (.error c, s1) => (.error c, s1.modHub (fun h => { h with handed := s.hub.handed, given := s.hub.given }))
    | (.ok x, s1) =>
      let s2 := s1.modHub (fun h => { h with handed := s.hub.handed, given := s.hub.given })
      match x.check need with
      | some c => (.error c, s2)
      | none => (.ok x, s2)

/-- Every page of an access, ascending; the cause and the address of the first that fails. -/
def State.hubPages (asid : Nat) (need : Need) : List Nat → State → Except (Cause × Nat) (List Xlat) × State
  | [], s => (.ok [], s)
  | va :: t, s =>
    match s.hubPage asid va need with
    | (.error c, s1) => (.error (c, va), s1)
    | (.ok x, s1) =>
      match State.hubPages asid need t s1 with
      | (.error e, s2) => (.error e, s2)
      | (.ok l, s2) => (.ok (x :: l), s2)

/-- The pieces of an access: address, sector, offset, length, and whether its page is of class U. -/
structure HubPiece where
  va : Nat
  sector : Nat
  off : Nat
  len : Nat
  untracked : Bool
  deriving DecidableEq, Repr

def hubPieces (l : List Xlat) (va n : Nat) : List HubPiece :=
  (splitSectors (n / 64 + 2) va n).filterMap (fun e =>
    (physOf l e.1).map (fun q =>
      { va := e.1, sector := q.1 / 64, off := q.1 % 64, len := e.2, untracked := isUntracked q.2 }))

/-- The pieces of an access that may be made: its pages checked, no poison and no cut path met. -/
def State.hubAccess (s : State) (asid va n : Nat) (need : Need) : Except (Cause × Nat) (List HubPiece) × State :=
  match State.hubPages asid need (pageStarts va n) s with
  | (.error e, s1) => (.error e, s1)
  | (.ok l, s1) =>
    let ps := hubPieces l va n
    match ps.find? (fun q => s1.severed hubNode q.sector), ps.find? (fun q => s1.poisoned q.sector) with
    | some q, _ => (.error (.linkDown, q.va), s1)
    | none, some q => (.error (.poison, q.va), s1)
    | none, none => (.ok ps, s1)

def HubPiece.span (q : HubPiece) : Nat × Nat × Nat := (q.sector, q.off, q.len)

def State.hubGather : List HubPiece → State → List Byte × State
  | [], s => ([], s)
  | q :: t, s =>
    let (_, b, s1) := State.homeRead q.untracked [q.span] s
    let (b', s2) := State.hubGather t s1
    (b ++ b', s2)

def State.hubScatter : List HubPiece → List Byte → State → State
  | [], _, s => s
  | q :: t, b, s => State.hubScatter t (b.drop q.len) (State.homeWrite q.untracked [q.span] (b.take q.len) s)

/-- Reads `n` bytes, or none of them. -/
def State.hubRead (s : State) (asid va n : Nat) : Except (Cause × Nat) (List Byte) × State :=
  match s.hubAccess asid va n .read with
  | (.error e, s1) => (.error e, s1)
  | (.ok ps, s1) =>
    let (b, s2) := State.hubGather ps s1
    (.ok b, s2)

/-- Writes bytes, all of them or none; answers the address that fails. -/
def State.hubWrite (s : State) (asid va : Nat) (b : List Byte) : Option Nat × State :=
  match s.hubAccess asid va b.length .write with
  | (.error e, s1) => (some e.2, s1)
  | (.ok ps, s1) => (none, State.hubScatter ps b s1)

/-- An atomic 64-bit add (R394). -/
def State.hubAdd (s : State) (asid va : Nat) (v : DWord) : Option Nat × State :=
  match s.hubAccess asid va 8 .both with
  | (.error e, s1) => (some e.2, s1)
  | (.ok ps, s1) =>
    let (b, s2) := State.hubGather ps s1
    (none, State.hubScatter ps (leBytes 8 (BitVec.ofNat 64 (ofLe b + v.toNat)).toNat) s2)

/-- A signal write: a store or an add (R394). -/
def State.hubSignal (s : State) (asid va : Nat) (v : DWord) (add : Bool) : Option Nat × State :=
  if add then s.hubAdd asid va v else s.hubWrite asid va (leBytes 8 v.toNat)

end Sys2Proof.Machine
end

