-- ==== Sys2Proof/Machine/Queues.lean ====
section
/-!
DEFINITION. Sys2Proof/Machine/Queues.lean: queues and their packets (R383 to R400, R413, R483): registration, control word, tail,
slots and swapping, errors, the order in which packets start, and every packet but LAUNCH.
-/

namespace Sys2Proof.Machine

/-! ## A queue and its descriptor (R384, R385) -/

def State.queue? (s : State) (q : Nat) : Option Queue := tableFind q s.hub.queues
def State.setQueue (s : State) (q : Nat) (x : Queue) : State :=
  s.modHub (fun h => { h with queues := tableSet q x h.queues })
def State.modQueue (s : State) (q : Nat) (g : Queue → Queue) : State :=
  match s.queue? q with
  | some x => s.setQueue q (g x)
  | none => s

/-- Writes `n` bytes of a field of the descriptor. -/
def State.putDesc (s : State) (x : Queue) (off n v : Nat) : State := s.writePhys (x.desc + off) (leBytes n v)

/-- Reads a field of the descriptor. -/
def State.getDesc (s : State) (x : Queue) (off n : Nat) : Nat × State :=
  let (b, s1) := s.readPhys (x.desc + off) n
  (ofLe b, s1)

def State.now (s : State) : Nat := s.hub.now.toNat

def State.partition (s : State) (n : Nat) : PartDesc := s.hub.partitions.toList.getD n PartDesc.undefinedPart

/-! ## Indexes (R385, R389, R400) -/

/-- The first packet that has not completed: an open CALLQ has not. -/
def Queue.completedTo (x : Queue) : Nat :=
  x.started.foldl (fun m e => min m e.ring) (if x.levels = [] then x.issueIdx else x.issueIdx - 1)

/-- An active queue without live packets is idle. -/
def Queue.settle (x : Queue) (now : Nat) : Queue :=
  if x.state = 1 ∧ x.readIdx = x.tail then { x with state := 0, idleSince := now } else x

/-- The read index moves on and is published with the issue index. -/
def State.publishIndex (s : State) (q : Nat) : State :=
  match s.queue? q with
  | none => s
  | some x =>
    let y := ({ x with readIdx := x.completedTo }).settle s.now
    ((s.setQueue q y).putDesc y 0x10 8 y.readIdx).putDesc y 0x18 8 y.issueIdx

/-- The issue index is published: packets started (R384). -/
def State.publishIssue (s : State) (q : Nat) : State :=
  match s.queue? q with
  | none => s
  | some x => s.putDesc x 0x18 8 x.issueIdx

/-! ## Errors (R388) -/

/-- The queue takes an error: code, index and state are written in that order. -/
def State.queueError (s : State) (q code idx : Nat) : State :=
  match s.queue? q with
  | none => s
  | some x =>
    let s1 := s.setQueue q { x with state := 4, error := code, errorIndex := idx }
    ((s1.putDesc x 0x29 1 code).putDesc x 0x20 8 idx).putDesc x 0x28 1 4

/-- A tail that decreased or runs past the ring. -/
def Queue.badTail (x : Queue) (t : Nat) : Bool := decide (t < x.tail) || decide (x.readIdx + 2 ^ x.log2 < t)

/-- The reckoner reads the tail of a resident queue (R387). -/
def State.readTail (s : State) (q : Nat) : State :=
  match s.queue? q with
  | none => s
  | some x =>
    let (t, s1) := s.getDesc x 0x100 8
    if x.badTail t then s1.queueError q 3 x.readIdx
    else s1.setQueue q { x with tail := t, state := if x.state = 0 ∧ x.readIdx < t then 1 else x.state }

/-! ## Slots (R383, R391) -/

/-- A queue that holds a slot: idle, active, waiting, or in error with its slot. -/
def Queue.holdsSlot (x : Queue) : Bool := x.enabled && (x.state ≤ 2 || x.state == 4)

def State.slotsUsed (s : State) (part : Nat) : Nat :=
  (s.hub.queues.filter (fun e => e.2.part == part && e.2.holdsSlot)).length

/-- The queue of a list with the smallest key. -/
def minBy {α : Type} (f : α → Nat) : List α → Option α
  | [] => none
  | x :: t =>
    match minBy f t with
    | none => some x
    | some y => if f y < f x then some y else some x

/-- The queue that gives up its slot: the longest idle, else the one whose WAIT started earliest. -/
def State.slotVictim (s : State) (part : Nat) : Option Nat :=
  let mine := s.hub.queues.filter (fun e => e.2.part == part && e.2.enabled && !e.2.stopping)
  match minBy (fun e => e.2.idleSince) (mine.filter (fun e => e.2.state == 0)) with
  | some e => some e.1
  | none => (minBy (fun e => e.2.waitStart) (mine.filter (fun e => e.2.state == 2))).map Prod.fst

/-- A state is entered and written to the descriptor. -/
def State.enterState (s : State) (q n : Nat) : State :=
  match s.queue? q with
  | none => s
  | some x => (s.setQueue q { x with state := n }).putDesc x 0x28 1 n

/-- A slot of the partition's quota, taken from an idle or a waiting queue if none is free. -/
def State.takeSlot (s : State) (part : Nat) : Option State :=
  if s.slotsUsed part < (s.partition part).quota then some s
  else (s.slotVictim part).map (fun v => s.enterState v 3)

/-- A queue of the partition still asks for a slot: swapped, or with a start that waits for one (R390, R391). -/
def State.asks (s : State) (part n : Nat) : Bool :=
  match s.queue? n with
  | none => false
  | some x => x.part == part && (x.state == 3 || x.starting)

/-- Requests are served in the order they were made: no earlier one of the partition waits. -/
def State.swapTurn (s : State) (q part : Nat) : Bool :=
  let mine := s.hub.swapRequests.filter (s.asks part)
  mine.head? == some q || mine == []

def State.askSlot (s : State) (q : Nat) : State :=
  s.modHub (fun h =>
    { h with swapRequests := if h.swapRequests.contains q then h.swapRequests else h.swapRequests ++ [q] })
def State.dropAsk (s : State) (q : Nat) : State :=
  s.modHub (fun h => { h with swapRequests := h.swapRequests.filter (fun n => n != q) })

/-! ## QUEUE_REGISTER (R383, R384, R413) -/

/-- A queue as it is registered: stopped, without a slot. -/
def Queue.registered (desc part asid : Nat) : Queue :=
  { desc := desc, part := part, asid := asid, ring := 0, log2 := 4, host := false, enabled := false, prioCap := 0,
    state := 5, error := 0, errorIndex := 0, readIdx := 0, issueIdx := 0, tail := 0, waitStart := 0, wait := none,
    started := [], nextNum := 0, levels := [], idleSince := 0, stopping := false, starting := false, notified := false,
    ahead := [], doneFrames := [] }

/-- QUEUE_REGISTER: refused for a taken identifier, an undefined partition, a descriptor that is not aligned or not in
the partition's memory, and for ASID 0. The fields of the hub and of the reckoner are written. -/
def State.registerQueue (s : State) (q desc part asid : Nat) : State :=
  if (s.queue? q).isSome || 65536 ≤ q || 8 ≤ part || !(s.partition part).isDefined || desc % 256 != 0
      || !s.inPartition part desc || !s.inPartition part (desc + 511) || asid == 0 || 4096 ≤ asid then s
  else
    let x := Queue.registered desc part asid
    let s1 := s.setQueue q x
    (((((s1.putDesc x 0x0B 1 part).putDesc x 0x0E 2 q).putDesc x 0x10 16 0).putDesc x 0x20 9 (5 * 2 ^ 64)).putDesc x
      0x29 1 0).putDesc x 0x108 8 0

def execQueueRegister (q desc part asid : Nat) (s : State) : Host.Outcome State Fault Refusal :=
  .next (s.registerQueue q desc part asid)

/-! ## QUEUE_TAIL_WRITE (R387, R389) -/

/-- QUEUE_TAIL_WRITE: a resident queue reads its tail, a swapped one asks for a slot. -/
def State.tailWrite (s : State) (q : Nat) : State :=
  match s.queue? q with
  | none => s
  | some x =>
    if !x.notified then s
    else
      let s1 := s.setQueue q { x with notified := false }
      if x.state ≤ 2 then s1.readTail q
      else if x.state = 3 then s1.askSlot q
      else s1

def execQueueTailWrite (q : Nat) (s : State) : Host.Outcome State Fault Refusal := .next (s.tailWrite q)

/-! ## The control word (R390) -/

/-- A started WAIT is withdrawn: the issue index goes back to it. -/
def Queue.withdrawWait (x : Queue) : Queue :=
  match x.wait with
  | none => x
  | some w =>
    let y := { x with wait := none, started := x.started.filter (fun e => e.num != w.num), ahead := [] }
    match x.levels with
    | [] => { y with issueIdx := x.issueIdx - 1 }
    | (a, n) :: t => { y with levels := (a - 64, n + 1) :: t }

/-- The queue stops: a queue in error will go on at its read index. -/
def State.finishStop (s : State) (q : Nat) : State :=
  match s.queue? q with
  | none => s
  | some x =>
    let r := x.completedTo
    let y := { x with
      readIdx := r, enabled := false, state := 5, stopping := false, starting := false, ahead := []
      issueIdx := if x.state = 4 then r else x.issueIdx
      levels := if x.state = 4 then [] else x.levels }
    let (f, s1) := s.getDesc x 9 1
    let s2 := (s1.setQueue q y).dropAsk q
    ((((s2.putDesc y 9 1 (f / 2 * 2)).putDesc y 0x10 8 y.readIdx).putDesc y 0x18 8 y.issueIdx).putDesc y 0x28 1 5).putDesc
      y 0x108 8 0

/-- A store to the control word that sets both bits or a reserved bit is ignored. -/
def badControl (c : Nat) : Bool := 3 ≤ c

/-- A stop that is being served is complete once every started packet has completed. -/
def State.endStop (s : State) (q : Nat) : State :=
  match s.queue? q with
  | none => s
  | some x => if x.stopping ∧ x.started = [] then s.finishStop q else s

/-- The control word is read: a stop of a queue that is not stopped begins. What it begins no later word undoes. -/
def State.takeStop (s : State) (q : Nat) : State :=
  match s.queue? q with
  | none => s
  | some x =>
    let (c, s1) := s.getDesc x 0x108 8
    if badControl c then s1.putDesc x 0x108 8 0
    else if c != 1 then s1
    else if x.state = 5 then s1.putDesc x 0x108 8 0
    else s1.setQueue q { x.withdrawWait with stopping := true, state := if x.state = 2 then 1 else x.state }

/-- QUEUE_STOP_REQUEST: nothing more starts; when every started packet has completed the queue is stopped. -/
def State.stopRequest (s : State) (q : Nat) : State := (s.takeStop q).endStop q

def execQueueStopRequest (q : Nat) (s : State) : Host.Outcome State Fault Refusal := .next (s.stopRequest q)

/-- Error 8: a driver field of line 0 out of its range. -/
def badLine0 (d : PartDesc) (b : List Byte) : Bool :=
  let asid := fieldOf b 0xC 2
  fieldOf b 0 8 % 64 != 0 || fieldOf b 8 1 < 4 || 20 < fieldOf b 8 1 || 3 < fieldOf b 0xA 1 || 4 ≤ fieldOf b 9 1
    || 4096 ≤ asid || asid == 0 || asid < d.firstAsid || d.firstAsid + d.asidCount ≤ asid

/-- The driver's fields of line 0. -/
def Queue.withLine0 (x : Queue) (b : List Byte) : Queue :=
  { x with
    ring := fieldOf b 0 8, log2 := fieldOf b 8 1, host := (fieldOf b 9 1).testBit 1, prioCap := fieldOf b 0xA 1
    asid := fieldOf b 0xC 2 }

/-- Line 0 is read and checked: a queue whose fields are right asks for a slot, another takes error 8. -/
def State.checkLine0 (s : State) (q : Nat) (x : Queue) : State :=
  let (b, s1) := s.readPhys x.desc 64
  if badLine0 (s1.partition x.part) b then s1.queueError q 8 x.readIdx
  else (s1.setQueue q { x.withLine0 b with starting := true }).askSlot q

/-- A start that waits for a slot takes one in its turn: the queue becomes resident. -/
def State.serveQueue (s : State) (q : Nat) : State :=
  match s.queue? q with
  | none => s
  | some x =>
    if !x.starting || !s.swapTurn q x.part then s
    else
      match s.takeSlot x.part with
      | none => s
      | some s1 =>
        let y := { x with starting := false, enabled := true, state := 0, error := 0, idleSince := s.now }
        let s2 := ((s1.setQueue q y).dropAsk q).putDesc y 9 1 (if x.host then 3 else 1)
        (s2.putDesc y 0x108 8 0).readTail q

/-- The control word is read: a start of a stopped queue begins, unless one waits already. What it begins no later word
undoes. -/
def State.takeStart (s : State) (q : Nat) : State :=
  match s.queue? q with
  | none => s
  | some x =>
    let (c, s1) := s.getDesc x 0x108 8
    if badControl c then s1.putDesc x 0x108 8 0
    else if c != 2 then s1
    else if x.state != 5 then s1.putDesc x 0x108 8 0
    else if x.starting then s1
    else
      let s2 := s1.checkLine0 q x
      if ((s2.queue? q).map Queue.starting).getD false then s2 else s2.putDesc x 0x108 8 0

/-- QUEUE_START_REQUEST. -/
def State.startRequest (s : State) (q : Nat) : State := (s.takeStart q).serveQueue q

def execQueueStartRequest (q : Nat) (s : State) : Host.Outcome State Fault Refusal := .next (s.startRequest q)

/-! ## QUEUE_RESTART (R388) -/

/-- QUEUE_RESTART by hub firmware, at the read index, once every started packet has completed (log entry 4); the checks
that the error failed are made again. -/
def State.restartQueue (s : State) (q : Nat) : State :=
  match s.queue? q with
  | none => s
  | some x =>
    if x.state != 4 || x.started != [] then s
    else if x.enabled then
      let r := x.completedTo
      ((s.setQueue q ({ x with state := 1, error := 0, readIdx := r, issueIdx := r, levels := [], ahead := [] })).publishIssue
        q).readTail q
    else if x.starting then s.serveQueue q
    else (s.checkLine0 q x).serveQueue q

def execQueueRestart (q : Nat) (s : State) : Host.Outcome State Fault Refusal :=
  .next (let s1 := s.restartQueue q
    s1.modQueue q (fun x => x.settle s.now))

/-! ## QUEUE_SWAP_IN (R389, R391) -/

/-- The WAIT's time limit has passed (R395). -/
def Queue.timedOut (x : Queue) (now : Nat) : Bool :=
  match x.wait with
  | some w => w.timeout != 0#64 && decide (x.waitStart + w.timeout.toNat < now)
  | none => false

/-- A swapped queue whose WAIT has timed out asks for a slot (R389, R391). -/
def State.askTimedOut (s : State) (q : Nat) : State :=
  match s.queue? q with
  | none => s
  | some x => if x.state == 3 && x.timedOut s.now then s.askSlot q else s

/-- The package time that a WAIT's limit has passed. -/
def Queue.limit (x : Queue) : Option Nat :=
  match x.wait with
  | some w => if w.timeout = 0#64 then none else some (x.waitStart + w.timeout.toNat + 1)
  | none => none

/-- A list by a key, equal keys in their order. -/
def insertBy {α : Type} (f : α → Nat) (x : α) : List α → List α
  | [] => [x]
  | y :: t => if f x ≤ f y then x :: y :: t else y :: insertBy f x t
def sortBy {α : Type} (f : α → Nat) (l : List α) : List α := l.foldr (insertBy f) []

/-- The swapped queues whose WAITs have timed out ask in the order in which the limits passed (R391). -/
def State.askAllTimedOut (s : State) : State :=
  ((sortBy (fun e : Nat × Queue => e.2.limit.getD 0) s.hub.queues).map Prod.fst).foldl State.askTimedOut s

/-- QUEUE_SWAP_IN: a swapped queue that has asked takes a slot in its turn. -/
def State.swapIn (s : State) (q : Nat) : State :=
  match s.queue? q with
  | none => s
  | some x =>
    if x.state != 3 || !s.hub.swapRequests.contains q || !s.swapTurn q x.part then s
    else
      match s.takeSlot x.part with
      | none => s
      | some s1 =>
        let s2 := ((s1.dropAsk q).enterState q (if x.wait.isSome then 2 else 1)).readTail q
        s2.modQueue q (fun x => x.settle s.now)

def execQueueSwapIn (q : Nat) (s : State) : Host.Outcome State Fault Refusal := .next (s.swapIn q)

/-- QUEUE_WATCHDOG (R391): a queue that has waited too long is reported; its wait goes on. -/
def State.queueWatchdog (s : State) (q : Nat) : State :=
  match s.queue? q with
  | none => s
  | some x =>
    if x.wait.isSome && decide (x.waitStart + 1000000 * (s.partition x.part).queueWdogMs < s.now) then
      s.report (.queueWatchdog q)
    else s

def execQueueWatchdog (q : Nat) (s : State) : Host.Outcome State Fault Refusal := .next (s.queueWatchdog q)

/-! ## Packets (R392 to R398, R483) -/

def packetType (b : List Byte) : Nat := fieldOf b 3 1
def packetBarrier (b : List Byte) : Bool := (fieldOf b 2 1).testBit 7
def packetScope (b : List Byte) : Nat := fieldOf b 2 1 / 16 % 8

/-- Reserved bytes that are not zero. -/
def dirtyBytes (b : List Byte) (off n : Nat) : Bool := fieldOf b off n != 0

def packetKnown (b : List Byte) : Bool := 1 ≤ packetType b && packetType b ≤ 8

/-- The first code that a list of conditions gives. -/
def firstCode : List (Bool × Nat) → Option Nat
  | [] => none
  | (c, n) :: t => if c then some n else firstCode t

/-- The error a packet gives by its own bytes, if any; `depth` is the number of open CALLQ levels. -/
def packetError (depth : Nat) (b : List Byte) : Option Nat :=
  let header : List (Bool × Nat) :=
    [(!packetKnown b, 1), (fieldOf b 0 3 % 2 ^ 20 != 0 || dirtyBytes b 4 4 || 4 < packetScope b, 2)]
  let address : Nat := fieldOf b 8 8
  firstCode (header ++
    (match packetType b with
      | 1 =>
        let mode := fieldOf b 0x16 1
        let n := fieldOf b 0x14 2
        let list := fieldOf b 0x18 8
        [(2 < mode || 1152 < n || (mode == 2 && n == 0) || dirtyBytes b 0x17 1 || (mode != 2 && list != 0)
            || 1 < fieldOf b 0x28 1 || dirtyBytes b 0x29 23, 2),
          (address % 256 != 0 || list % 2 != 0, 7)]
      | 2 => [(1 < fieldOf b 0x18 1 || dirtyBytes b 0x19 39, 2), (address % 8 != 0, 7)]
      | 3 => [(1 < fieldOf b 0x20 1 || dirtyBytes b 0x21 31, 2), (address % 8 != 0, 7)]
      | 4 =>
        let c := fieldOf b 0x10 4
        [(dirtyBytes b 0x14 44, 2), (address % 64 != 0, 7), (4 ≤ depth || c == 0 || 2 ^ 20 < c, 5)]
      | 6 => [(dirtyBytes b 0x0C 52, 2)]
      | 8 => [(dirtyBytes b 0x10 48, 2), (address % 8 != 0, 7)]
      | _ => [(dirtyBytes b 0x08 56, 2)]))

/-- The number, in the queue, of the packet that would start next: a packet of a buffer counts as its CALLQ. -/
def Queue.packetIndex (x : Queue) : Nat := if x.levels = [] then x.issueIdx else x.issueIdx - 1

def Queue.hasNext (x : Queue) : Bool := x.levels != [] || decide (x.issueIdx < x.tail)

/-- Where the next packet lies (R385, R396). -/
def Queue.nextAddr (x : Queue) : Nat :=
  match x.levels with
  | (a, _) :: _ => a
  | [] => x.ring + 64 * (x.issueIdx % 2 ^ x.log2)

/-- The issue stage moves past the packet. -/
def Queue.pass (x : Queue) : Queue :=
  match x.levels with
  | [] => { x with issueIdx := x.issueIdx + 1, nextNum := x.nextNum + 1, ahead := x.ahead.drop 1 }
  | (a, n) :: t => { x with levels := (a + 64, n - 1) :: t, nextNum := x.nextNum + 1, ahead := x.ahead.drop 1 }

/-- Buffers whose packets have all started close. -/
def Queue.closeLevels (x : Queue) : Queue := { x with levels := x.levels.dropWhile (fun e => e.2 == 0) }

/-- The packet starts and does not complete yet. -/
def Queue.begin (x : Queue) : Queue :=
  { x.pass.closeLevels with started := x.started ++ [{ num := x.nextNum, ring := x.packetIndex }] }

/-- The packet completes as it starts. -/
def State.passPacket (s : State) (q : Nat) : State := (s.modQueue q (fun x => x.pass.closeLevels)).publishIndex q

/-- A started packet completes. -/
def State.completePacket (s : State) (q num : Nat) : State :=
  (s.modQueue q (fun x => { x with started := x.started.filter (fun e => e.num != num) })).publishIndex q

/-! ### The look-ahead (R399) -/

/-- CALLQ opens a level; its own packet is replaced by those of its buffer (R396). -/
def Queue.openBuffer (x : Queue) (b : List Byte) : Queue :=
  { x.pass with levels := (fieldOf b 8 8, fieldOf b 0x10 4) :: x.pass.levels }

/-- The place of the queue after packets that have been read ahead. -/
def Queue.replay (x : Queue) : List (List Byte) → Queue
  | [] => x
  | b :: t => Queue.replay (if packetType b = 4 then x.openBuffer b else x.pass.closeLevels) t

/-- The look-ahead goes on: it holds fewer than 256 packets, none a JOINQ that has not started, none malformed. -/
def Queue.looksOn (x : Queue) : Bool :=
  x.ahead.length < 256 && x.ahead.all (fun b => packetType b != 5 && (packetError 0 b).isNone)

/-- The look-ahead of a queue reads one packet more; a started WAIT does not stop it. -/
def State.lookAhead (s : State) (q : Nat) : State :=
  match s.queue? q with
  | none => s
  | some x =>
    let y := x.closeLevels.replay x.ahead
    if (x.state != 1 && x.state != 2) || x.stopping || !x.looksOn || !y.hasNext then s
    else
      match s.hubRead y.asid y.nextAddr 64 with
      | (.error _, s1) => s1
      | (.ok b, s1) => s1.modQueue q (fun z => { z with ahead := z.ahead ++ [b] })

/-- Each byte is the old or the new one, by free bits. -/
def mixBytes (old new junk : List Byte) : List Byte :=
  old.zipIdx.map (fun e => if (junk.getD e.2 0).getLsbD 0 then e.1 else new.getD e.2 e.1)

/-- The bytes of the next packet. Of one that the look-ahead has read they are unspecified between what it read and what
stands there now (R399). -/
def State.packetBytes (s : State) (x : Queue) : Except (Cause × Nat) (List Byte) × State :=
  match x.ahead, s.hubRead x.asid x.nextAddr 64 with
  | [], r => r
  | old :: _, (.error _, s1) => (.ok old, s1)
  | old :: _, (.ok new, s1) =>
    let (junk, s2) := s1.drawBytes 64
    (.ok (mixBytes old new junk), s2)

/-! ### The start of a packet -/

/-- The next packet of a queue, if it is of this type and may start under R398, is given to `body`; a packet that cannot
be read, or is malformed, gives its error. -/
def State.withPacket (s : State) (q type : Nat) (body : Queue → List Byte → State → State) : State :=
  match s.queue? q with
  | none => s
  | some x =>
    if x.state != 1 || x.stopping || x.wait.isSome || !x.hasNext then s
    else
      match s.packetBytes x with
      | (.error _, s1) => s1.queueError q 4 x.packetIndex
      | (.ok b, s1) =>
        if packetKnown b && packetType b != type then s
        else
          match packetError x.levels.length b with
          | some c => s1.queueError q c x.packetIndex
          | none => if packetBarrier b && x.started != [] then s else body x b s1

/-! ### SIGNAL (R394) -/

def signalPacket (q : Nat) (x : Queue) (b : List Byte) (s : State) : State :=
  match s.hubSignal x.asid (fieldOf b 8 8) (BitVec.ofNat 64 (fieldOf b 0x10 8)) (fieldOf b 0x18 1 == 1) with
  | (some _, s1) => s1.queueError q 4 x.packetIndex
  | (none, s1) => s1.passPacket q

def execSignal (q : Nat) (s : State) : Host.Outcome State Fault Refusal := .next (s.withPacket q 2 (signalPacket q))

/-! ### WAIT (R395) -/

/-- The WAIT starts: it completes at once if its word is there, else it holds the queue. -/
def waitPacket (q : Nat) (x : Queue) (b : List Byte) (s : State) : State :=
  let a := fieldOf b 8 8
  let v := BitVec.ofNat 64 (fieldOf b 0x10 8)
  match s.hubAccess x.asid a 8 .read with
  | (.error _, s1) => s1.queueError q 4 x.packetIndex
  | (.ok ps, s1) =>
    let (w, s2) := State.hubGather ps s1
    if v.toNat ≤ ofLe w then s2.passPacket q
    else
      let hold : WaitPacket :=
        { num := x.nextNum, addr := a, value := v, timeout := BitVec.ofNat 64 (fieldOf b 0x18 8)
          goOn := fieldOf b 0x20 1 == 1, sector := (ps.map HubPiece.sector).headD 0 }
      let y := { x.pass with
        state := 2, waitStart := s.now, wait := some hold
        started := x.started ++ [{ num := x.nextNum, ring := x.packetIndex }] }
      ((s2.setQueue q y).putDesc y 0x30 8 s.now).publishIssue q

def execWait (q : Nat) (s : State) : Host.Outcome State Fault Refusal := .next (s.withPacket q 3 (waitPacket q))

/-- The WAIT is over; its queue goes on, unless it stands in error (R388). -/
def State.endWait (s : State) (q : Nat) (w : WaitPacket) : State :=
  (s.modQueue q (fun x =>
    { x with wait := none, state := if x.state = 4 then 4 else 1 }.closeLevels)).completePacket q w.num

/-- A started WAIT that runs: its queue is waiting, or in error with the WAIT still to complete (R388). -/
def Queue.runningWait (x : Queue) : Option WaitPacket := if x.state = 2 ∨ x.state = 4 then x.wait else none

/-- The queue takes an error, unless it stands in error already. -/
def State.firstError (s : State) (q code idx : Nat) : State :=
  match s.queue? q with
  | none => s
  | some x => if x.state = 4 then s else s.queueError q code idx

/-- The WAIT's word cannot be read: the WAIT does not complete, and the issue index goes back to it (R388). -/
def State.failWait (s : State) (q : Nat) (x : Queue) : State :=
  ((s.modQueue q Queue.withdrawWait).publishIssue q).firstError q 4 x.withdrawWait.packetIndex

/-- WAIT_COMPLETE: a read of the word returns a value that is large enough. -/
def State.waitComplete (s : State) (q : Nat) : State :=
  match s.queue? q with
  | none => s
  | some x =>
    match x.runningWait with
    | some w =>
      match s.hubRead x.asid w.addr 8 with
      | (.error _, s1) => s1.failWait q x
      | (.ok b, s1) => if w.value.toNat ≤ ofLe b then s1.endWait q w else s1
    | none => s

def execWaitComplete (q : Nat) (s : State) : Host.Outcome State Fault Refusal := .next (s.waitComplete q)

/-- The number of the packet that holds the queue. -/
def Queue.waitIndex (x : Queue) (w : WaitPacket) : Nat :=
  ((x.started.find? (fun e => e.num == w.num)).map Started.ring).getD x.packetIndex

/-- WAIT_TIMEOUT: the WAIT completes as timed out; then the queue goes on, or takes error 6. A swapped queue first asks for a
slot (R389). -/
def State.waitTimeout (s : State) (q : Nat) : State :=
  match s.queue? q with
  | none => s
  | some x =>
    match x.runningWait with
    | some w =>
      if !x.timedOut s.now then s
      else if w.goOn || x.state == 4 then s.endWait q w
      else (s.endWait q w).queueError q 6 (x.waitIndex w)
    | none => s.askTimedOut q

def execWaitTimeout (q : Nat) (s : State) : Host.Outcome State Fault Refusal := .next (s.waitTimeout q)

/-! ### CALLQ, JOINQ, NOP (R392, R396, R399) -/

/-- CALLQ starts: its buffer stands in its place. -/
def callqPacket (q : Nat) (x : Queue) (b : List Byte) (s : State) : State :=
  (s.setQueue q (x.openBuffer b)).publishIssue q

def execCallq (q : Nat) (s : State) : Host.Outcome State Fault Refusal := .next (s.withPacket q 4 (callqPacket q))

def execJoinq (q : Nat) (s : State) : Host.Outcome State Fault Refusal :=
  .next (s.withPacket q 5 (fun _ _ s => s.passPacket q))

def execNopPacket (q : Nat) (s : State) : Host.Outcome State Fault Refusal :=
  .next (s.withPacket q 7 (fun _ _ s => s.passPacket q))

/-! ### FENCE, TIMESTAMP (R397) -/

/-- A dirty sector goes home; one whose write-back finds no path stays (R274, R289). -/
def State.sendHome (s : State) (d : Nat) (x : Sector) : State :=
  if s.meetsError d x.num x.untracked = some .linkDown then s else s.dieToHome d x.num x.untracked

/-- Every dirty byte of a die's caches goes home, as by CFLUSH.v over all memory. -/
def State.flushDie (s : State) (d : Nat) : State :=
  let s1 := (s.framesOfDie d).foldl (fun s p =>
    (dirtySectors (s.frame p).cache).foldl (fun s x => s.flushFrame p x.num x.untracked) s) s
  (dirtySectors (s1.die d).cache).foldl (fun s x => s.sendHome d x) s1

/-- FENCE: a release at its scope for the packets that have completed, which is one on every frame of their launches, then the
dies named write back. The reckoner itself holds no copy that the acquire would refresh. -/
def fencePacket (q : Nat) (x : Queue) (b : List Byte) (s : State) : State :=
  let s1 := x.doneFrames.foldl (fun s p => s.releaseAt p (packetScope b)) s
  ((maskLanes (BitVec.ofNat 32 (fieldOf b 8 4))).foldl (fun s d => s.flushDie d) s1).passPacket q

def execFencePacket (q : Nat) (s : State) : Host.Outcome State Fault Refusal := .next (s.withPacket q 6 (fencePacket q))

def timestampPacket (q : Nat) (x : Queue) (b : List Byte) (s : State) : State :=
  match s.hubWrite x.asid (fieldOf b 8 8) (leBytes 8 s.now) with
  | (some _, s1) => s1.queueError q 4 x.packetIndex
  | (none, s1) => s1.passPacket q

def execTimestamp (q : Nat) (s : State) : Host.Outcome State Fault Refusal :=
  .next (s.withPacket q 8 (timestampPacket q))

end Sys2Proof.Machine
end

