-- ==== Sys2Proof/Machine/Admission.lean ====
section
/-!
DEFINITION. Sys2Proof/Machine/Admission.lean: the LAUNCH packet: the launch record, its tests and refusals (R20, R32, R69, R91,
R401, R402), the frame list (R407, R486), the launch pool and the context area (R406, R450); and the completion of a
launch (R100 to R102, R200, R403, R484).
-/

namespace Sys2Proof.Machine

/-! ## The launch record (R401) -/

def dwordAt (b : List Byte) (off : Nat) : DWord := BitVec.ofNat 64 (fieldOf b off 8)
def wordField (b : List Byte) (off : Nat) : Word := BitVec.ofNat 32 (fieldOf b off 4)

/-- The record of 256 bytes, with the entries of a dispatch pair. -/
def launchRecordOf (b : List Byte) (pair : DWord × DWord) : LaunchRecord :=
  { entry := dwordAt b 0, count := dwordAt b 8, base := dwordAt b 0x10, code := fieldOf b 0x18 1
    teamRods := fieldOf b 0x19 1, fast := fieldOf b 0x1A 1, slow := fieldOf b 0x1B 1, fsKib := fieldOf b 0x1C 2
    accRows := fieldOf b 0x1E 2, param := dwordAt b 0x20, deadline := dwordAt b 0x28, wrapOff := wordField b 0x30
    budget := wordField b 0x34, estimate := wordField b 0x38, priority := fieldOf b 0x3C 1
    notPreemptible := fieldOf b 0x3D 1 % 2 == 1, vmap := dwordAt b 0x40, key := dwordAt b 0x48
    crec := dwordAt b 0x50, csig := dwordAt b 0x58
    carry := Vector.ofFn (fun n => (fieldOf b (0x60 + 8 * n.val) 1, wordField b (0x64 + 8 * n.val)))
    pair := pair }

/-! ## The tests (R402) -/

/-- The classes a code field allows: stream, matrix (R29). -/
def codeAllows (code : Nat) (stream : Bool) : Bool := code == 0xFF || (if stream then code == 0 else code == 1)

/-- The record fits one frame of a class (R20): `d` is a die of the class. -/
def LaunchRecord.fitsOn (l : LaunchRecord) (d : Nat) : Bool :=
  l.teamRods ≤ 32 && l.teamRods * l.fast ≤ Config.blocksOf d && l.teamRods * l.slow ≤ Config.blocksOf d
    && 1024 * l.fsKib ≤ Config.frameStoreOf d && l.accRows ≤ Config.accRowsOf d

/-- It fits every class it may use: dies 8 and 0 stand for the two. -/
def LaunchRecord.fits (l : LaunchRecord) : Bool :=
  (!codeAllows l.code true || l.fitsOn 8) && (!codeAllows l.code false || l.fitsOn 0)

/-- One entry of the carry map (R68, R69). -/
def carryEntryOk (b : List Byte) (n : Nat) : Bool :=
  let at_ := 0x60 + 8 * n
  let d := fieldOf b at_ 1
  d ≤ 8 && fieldOf b (at_ + 1) 3 == 0 && (d != 0 || fieldOf b (at_ + 4) 4 == 0)

/-- The reason of the first test of R402 that fails, reason 10 aside; `readable` is that of reason 9. -/
def refusalReason (l : LaunchRecord) (b : List Byte) (readable : Bool) : Option Nat :=
  let count := l.count.toNat
  firstCode [
    (!(l.code == 0 || l.code == 1 || l.code == 2 || l.code == 0xFF), 1),
    (count != 0 && 2 ^ 64 < l.base.toNat + count, 2),
    (l.teamRods == 0 || 32 < l.teamRods, 3),
    (l.fast == 0 || 8 < l.fast || 7 < l.slow, 4),
    (!l.fits, 5),
    (!(List.range 8).all (carryEntryOk b), 6),
    (l.deadline != 0#64 && l.wrapOff.toNat % 8 != 0, 7),
    (3 < l.priority || 2 ≤ fieldOf b 0x3D 1 || fieldOf b 0x3E 2 != 0 || fieldOf b 0xA0 96 != 0, 8),
    (l.entry.toNat % 8 != 0 || (l.code == 0xFF && (l.pair.1.toNat % 8 != 0 || l.pair.2.toNat % 8 != 0)) || !readable, 9)]

/-- Reason 11: the completion record's alignment. -/
def badRecordPointer (l : LaunchRecord) : Bool := l.crec.toNat % 64 != 0

/-! ## The frame list (R407, R486) -/

/-- A frame of an isolated agent or a disabled cluster is not eligible (R407, R478). -/
def State.frameUsable (s : State) (p : FrameId) : Bool :=
  !s.hub.isolated.getLsbD p.die && !(s.die p.die).disabled.contains (p.frame / 4)

/-- Whether a frame is eligible. -/
def State.eligible (s : State) (part : Nat) (mask : BitVec 32) (code : Nat) (p : FrameId) : Bool :=
  (s.partition part).dieMask.getLsbD p.die && mask.getLsbD p.die && codeAllows code (Config.isStream p.die)
    && p.frame < Config.framesOf p.die && p.die < 32 && s.frameUsable p && !(s.partition part).isolated

/-- The candidates in a mode's order: 0 spread, one frame of each die in turn; 1 pack, die by die. -/
def modeOrder (mode : Nat) : List FrameId :=
  if mode = 0 then
    (List.range 96).flatMap (fun f => (List.range 32).filterMap (fun d =>
      if f < Config.framesOf d then some ⟨d, f⟩ else none))
  else Config.allFrames

/-- The launch has an unstarted team assigned to the frame. -/
def Launch.awaits (l : Launch) (p : FrameId) : Bool :=
  let n := l.frames.length
  !l.wrapped && !l.killed && l.frames.zipIdx.any (fun e =>
    e.1 == p && decide (l.nextTeam + (e.2 + n - l.nextTeam % n) % n < l.record.teams))

/-- The highest effective priority among the launches the frame holds (R486). -/
def State.heldPriority (s : State) (p : FrameId) : Option Nat :=
  let mine := s.hub.launches.filter (fun l =>
    !l.completed && (l.awaits p || (s.teamsOn p).any (fun e => e.2.launch == l.seq)
      || (s.frame p).savedTeams.any (fun v => v.team.launch == l.seq)))
  match mine.map Launch.priority with
  | [] => none
  | a :: t => some (t.foldl max a)

/-- The list of modes 0 and 1, in three passes. -/
def State.pickFrames (s : State) (cands : List FrameId) (n prio : Nat) : List FrameId :=
  let lower (p : FrameId) : Bool := match s.heldPriority p with | some h => decide (h < prio) | none => false
  let free (p : FrameId) : Bool := (s.heldPriority p).isNone
  let order := cands.filter free ++ cands.filter (fun p => !free p && lower p)
    ++ cands.filter (fun p => !free p && !lower p)
  if n = 0 ∨ cands.length < n then order else order.take n

/-- An entry of an explicit list: none where its other bits are set. -/
def explicitEntry (v : Nat) : Option FrameId :=
  if v / 2 ^ 13 != 0 || v / 2 ^ 7 % 2 != 0 then none else some ⟨v / 256, v % 128⟩

/-- The explicit list of mode 2, if every entry is eligible. -/
def explicitFrames (ok : FrameId → Bool) (b : List Byte) (n : Nat) : Option (List FrameId) :=
  let l := (List.range n).map (fun k => explicitEntry (fieldOf b (2 * k) 2))
  if l.all (fun e => match e with | some p => ok p | none => false) then some (l.filterMap id) else none

/-! ## The context area (R450) -/

/-- Teams of the launch assigned to a frame of its list. -/
def teamsAssigned (frames : List FrameId) (teams : Nat) (p : FrameId) : Nat :=
  let n := frames.length
  (frames.zipIdx.filter (fun e => e.1 == p)).foldl (fun a e => a + (teams + n - 1 - e.2) / n) 0

/-- The last team of the launch, which may be short, is on the frame. -/
def lastOn (frames : List FrameId) (teams : Nat) (p : FrameId) : Bool :=
  teams != 0 && frames[(teams - 1) % (max 1 frames.length)]? == some p

/-- Most rods of the launch that a frame of the die holds at once (R19, R53), of `rods` on `teams` teams. -/
def LaunchRecord.rodsAtOnce (l : LaunchRecord) (die rods : Nat) : Nat :=
  let cap (total each : Nat) (bound : Nat) : Nat := if each = 0 then bound else min bound (total / each)
  let teams := cap (Config.frameStoreOf die) (1024 * l.fsKib) (cap (Config.accRowsOf die) l.accRows rods)
  min (l.teamRods * teams)
    (cap (Config.blocksOf die) l.slow (cap (Config.blocksOf die) l.fast (min rods (Config.slotsOf die))))

/-- The context area of a launch on one frame. -/
def LaunchRecord.areaOn (l : LaunchRecord) (frames : List FrameId) (p : FrameId) : Nat :=
  let teams := teamsAssigned frames l.teams p
  let short := lastOn frames l.teams p
  let rods := l.teamRods * teams - (if short then l.teamRods * l.teams - (l.count.toNat + 31) / 32 else 0)
  let items := 32 * l.teamRods * teams - (if short then 32 * l.teamRods * l.teams - l.count.toNat else 0)
  let n := l.rodsAtOnce p.die rods
  let cols := Config.cellsOf p.die
  n * rodImageSize l.fast l.slow cols l.accRows
    + min n (min 64 teams) * teamImageSize 128 (1024 * l.fsKib) cols l.accRows + 144 * items

def LaunchRecord.area (l : LaunchRecord) (frames : List FrameId) : Nat :=
  frames.eraseDups.foldl (fun a p => a + l.areaOn frames p) 0

def State.poolLeft (s : State) (part : Nat) : Nat :=
  (s.partition part).saveSize - s.hub.poolUsed.toList.getD part 0

def State.usePool (s : State) (part : Nat) (g : Nat → Nat) : State :=
  s.modHub (fun h => { h with poolUsed := Vector.ofFn (fun k => if k.val = part then g h.poolUsed[k] else h.poolUsed[k]) })

/-- A partition's save pool: first byte and bytes (R471). -/
def State.pool (s : State) (part : Nat) : Nat × Nat := ((s.partition part).saveBase, (s.partition part).saveSize)

/-- The places of the context areas of a partition's launches. -/
def State.poolAreas (s : State) (part : Nat) : List (Nat × Nat) :=
  s.hub.launches.flatMap (fun l =>
    if (s.queue? l.queue).map Queue.part = some part then l.areas.map Prod.snd else [])

/-- Each frame's area takes the lowest place of the pool that it fits in; an area for which no single run of bytes is left has
no place, and its images are kept apart from memory (log entry 42). -/
def placeAreas (l : LaunchRecord) (frames : List FrameId) (pool : Nat × Nat) :
    List FrameId → List (Nat × Nat) → List (FrameId × Nat × Nat)
  | [], _ => []
  | p :: t, used =>
    let n := l.areaOn frames p
    match placeIn pool used n with
    | some a => (p, a, n) :: placeAreas l frames pool t ((a, n) :: used)
    | none => placeAreas l frames pool t used

/-! ## Completion records (R403, R484) -/

structure CompletionCounts where
  normal : Nat
  wrappedValid : Nat
  wrappedInvalid : Nat
  notRun : Nat
  killed : Nat
  deriving DecidableEq, Repr

/-- R102: 0 on time, 1 wrapped, 2 overrun. -/
def CompletionCounts.status (c : CompletionCounts) : Nat :=
  if c.killed ≠ 0 then 2
  else if c.wrappedValid = 0 ∧ c.wrappedInvalid = 0 ∧ c.notRun = 0 then 0
  else 1

/-- The five counts of a launch (R101); hub firmware's kill counts what never ran as killed (R442). -/
def Launch.counts (l : Launch) : CompletionCounts :=
  let n (o : ItemOutcome) : Nat := (l.outcomes.filter (fun e => e.2 == o)).length
  let rest := l.record.count.toNat - l.outcomes.length
  { normal := n .normal, wrappedValid := n .wrappedValid, wrappedInvalid := n .wrappedInvalid
    notRun := if l.killAll then 0 else rest
    killed := n .killed + (if l.killAll then rest else 0) }

/-- The 64 bytes of a completion record. -/
def recordBytes (c : CompletionCounts) (status reason flags : Nat) (faults : Word) (first last : DWord) : List Byte :=
  leBytes 8 c.normal ++ leBytes 8 c.wrappedValid ++ leBytes 8 c.wrappedInvalid ++ leBytes 8 c.notRun
    ++ leBytes 8 c.killed ++ [byteOf status, byteOf reason, byteOf flags, 0] ++ leBytes 4 faults.toNat
    ++ leBytes 8 first.toNat ++ leBytes 8 last.toNat

/-- One of the writes at a completion: a failure is reported, and the launch completes all the same. -/
def completionWrite (seq : Nat) (r : Option Nat × State) : State :=
  match r with
  | (some a, s1) => s1.report (.writeFailed seq a)
  | (none, s1) => s1

/-- Writes the completion record and then the signal; an address of 0 writes neither. -/
def State.writeCompletion (s : State) (asid seq : Nat) (crec : DWord) (bytes : List Byte) (csig value : DWord) (add : Bool) :
    State :=
  let s1 := if crec = 0 then s else completionWrite seq (s.hubWrite asid crec.toNat bytes)
  if csig = 0 then s1 else completionWrite seq (s1.hubSignal asid csig.toNat value add)

/-! ## LAUNCH (R402, R406) -/

/-- Launches that hold a place in the pool: not all their teams have started (R406). -/
def State.poolSize (s : State) : Nat :=
  (s.hub.launches.filter (fun l => !l.completed && !l.wrapped && !l.killed && decide (l.nextTeam < l.record.teams))).length

/-- A refused launch: its record holds status, reason and not run = count; its packet completes. -/
def refuseLaunch (q : Nat) (x : Queue) (b : List Byte) (l : LaunchRecord) (reason : Nat) (s : State) : State :=
  let c : CompletionCounts := { normal := 0, wrappedValid := 0, wrappedInvalid := 0, notRun := l.count.toNat, killed := 0 }
  let crec := if badRecordPointer l then 0 else l.crec
  (s.writeCompletion x.asid 0 crec (recordBytes c 3 reason 0 0 0 0) l.csig (dwordAt b 0x20) (fieldOf b 0x28 1 == 1)).passPacket q

/-- A launch without items completes on time at once (R32, R403). -/
def emptyLaunch (q : Nat) (x : Queue) (b : List Byte) (l : LaunchRecord) (s : State) : State :=
  (s.writeCompletion x.asid 0 l.crec (zeros 64) l.csig (dwordAt b 0x20) (fieldOf b 0x28 1 == 1)).passPacket q

/-- ADMISSION: sequence, frame list, context area, and the packet starts. -/
def admitLaunch (q : Nat) (x : Queue) (b : List Byte) (l : LaunchRecord) (frames : List FrameId) (s : State) : State :=
  let area := l.area frames
  if 4096 ≤ s.poolSize || s.poolLeft x.part < area then s
  else
    let a : Launch :=
      { seq := s.hub.nextSeq, record := l, asid := x.asid, scope := packetScope b, queue := q, packet := x.nextNum
        priority := min l.priority x.prioCap, signal := dwordAt b 0x20, signalAdd := fieldOf b 0x28 1 == 1
        frames := frames, nextTeam := 0, retired := [], outcomes := [], faultCount := 0, faultSaturated := false
        firstStart := 0, lastRetire := 0, wrapped := false, killed := false, killAll := false, completed := false
        areas := placeAreas l frames (s.pool x.part) frames.eraseDups (s.poolAreas x.part) }
    let s1 := s.modHub (fun h => { h with launches := h.launches ++ [a], nextSeq := h.nextSeq + 1 })
    ((s1.usePool x.part (fun n => n + area)).modQueue q Queue.begin).publishIssue q

/-- What the packet's readable lists come to. -/
structure LaunchReads where
  pair : DWord × DWord
  list : List Byte
  readable : Bool
  deriving DecidableEq, Repr

/-- Reads the dispatch pair of code 0xFF and the explicit list of mode 2 (R402 reason 9). -/
def State.launchReads (s : State) (x : Queue) (b r : List Byte) : LaunchReads × State :=
  let (pair, ok1, s1) :=
    if fieldOf r 0x18 1 = 0xFF then
      match s.hubRead x.asid (fieldOf r 0 8) 16 with
      | (.ok p, s1) => ((dwordAt p 0, dwordAt p 8), true, s1)
      | (.error _, s1) => ((0, 0), false, s1)
    else ((0, 0), true, s)
  if fieldOf b 0x16 1 = 2 then
    match s1.hubRead x.asid (fieldOf b 0x18 8) (2 * fieldOf b 0x14 2) with
    | (.ok l, s2) => ({ pair := pair, list := l, readable := ok1 }, s2)
    | (.error _, s2) => ({ pair := pair, list := [], readable := false }, s2)
  else ({ pair := pair, list := [], readable := ok1 }, s1)

/-- The frame list a packet asks for; none where R402 refuses it with reason 10. -/
def State.frameList (s : State) (x : Queue) (b : List Byte) (l : LaunchRecord) (list : List Byte) : Option (List FrameId) :=
  let ok := s.eligible x.part (BitVec.ofNat 32 (fieldOf b 0x10 4)) l.code
  let n := fieldOf b 0x14 2
  let mode := fieldOf b 0x16 1
  let fs := if mode = 2 then explicitFrames ok list n
    else some (s.pickFrames ((modeOrder mode).filter ok) n (min l.priority x.prioCap))
  match fs with
  | some [] | none => none
  | some l => some l

/-- LAUNCH: the record is read once and tested; the launch is refused, passed to a core chiplet, completed at once, or
admitted. -/
def launchPacket (q : Nat) (x : Queue) (b : List Byte) (s : State) : State :=
  match s.hubRead x.asid (fieldOf b 8 8) 256 with
  | (.error _, s1) => (s1.report (.recordUnreadable q x.packetIndex)).passPacket q
  | (.ok r, s1) =>
    if fieldOf r 0x18 1 = 2 then (s1.report (.coreLaunch q (fieldOf b 8 8))).passPacket q
    else
      let (reads, s2) := s1.launchReads x b r
      let l := launchRecordOf r reads.pair
      let late := if badRecordPointer l then some 11 else none
      match refusalReason l r reads.readable with
      | some n => refuseLaunch q x b l n s2
      | none =>
        if l.count = 0 then
          match late with
          | some n => refuseLaunch q x b l n s2
          | none => emptyLaunch q x b l s2
        else
          match s2.frameList x b l reads.list, late with
          | none, _ => refuseLaunch q x b l 10 s2
          | some _, some n => refuseLaunch q x b l n s2
          | some fs, none => admitLaunch q x b l fs s2

/-- Kernels can be launched once the package is ready (R461). -/
def execLaunch (q : Nat) (s : State) : Host.Outcome State Fault Refusal :=
  .next (if s.hub.ready then s.withPacket q 1 (launchPacket q) else s)

/-! ## LAUNCH_COMPLETION (R100 to R102, R200, R403, R484) -/

/-- Every team that started has retired, and no other will start (R37, R93, R105). -/
def Launch.over (l : Launch) : Bool :=
  !l.completed && l.retired.length == l.nextTeam && (l.wrapped || l.killed || l.nextTeam == l.record.teams)

/-- The validity of an item position. -/
def Launch.validAt (l : Launch) (item : Nat) : Bool :=
  l.outcomes.any (fun e => e.1 == item && (e.2 == .normal || e.2 == .wrappedValid))

/-- The validity map (R100). -/
def Launch.validityMap (l : Launch) : List Byte :=
  let base := l.record.base.toNat
  let count := l.record.count.toNat
  (List.range ((count + 7) / 8)).map (fun k =>
    BitVec.ofFnLE (fun j : Fin 8 => decide (8 * k + j.val < count) && l.validAt (base + 8 * k + j.val)))

/-- The map is written, or none of it; the flag of the completion record. -/
def State.writeMap (s : State) (l : Launch) : Bool × State :=
  if l.record.vmap = 0 then (false, s)
  else
    match s.hubWrite l.asid l.record.vmap.toNat l.validityMap with
    | (none, s1) => (false, s1)
    | (some a, s1) => (true, s1.report (.writeFailed l.seq a))

/-- The release on behalf of every retired item (R200). -/
def State.launchRelease (s : State) (l : Launch) : State :=
  l.frames.eraseDups.foldl (fun s p => s.releaseAt p l.scope) s

def State.completeLaunch (s : State) (l : Launch) : State :=
  let (bad, s1) := (s.launchRelease l).writeMap l
  let c := l.counts
  let flags := (if bad then 1 else 0) + (if l.faultSaturated then 2 else 0)
  let bytes := recordBytes c c.status 0 flags l.faultCount l.firstStart l.lastRetire
  let s2 := s1.writeCompletion l.asid l.seq l.record.crec bytes l.record.csig l.signal l.signalAdd
  let s3 : State := { s2 with carry := s2.carry.filter (fun e => e.1.launch != l.seq) }
  let s4 := s3.modHub (fun h => { h with launches := h.launches.filter (fun x => x.seq != l.seq) })
  let part := ((s.queue? l.queue).map Queue.part).getD 0
  ((s4.usePool part (fun n => n - l.record.area l.frames)).modQueue l.queue (fun x =>
    { x with doneFrames := (l.frames ++ x.doneFrames).eraseDups })).completePacket l.queue l.packet

/-- LAUNCH_COMPLETION: nothing happens before the last team has retired (log entry 4). -/
def State.launchCompletion (s : State) (seq : Nat) : State :=
  match s.launch? seq with
  | none => s
  | some l => if l.over then s.completeLaunch l else s

def execLaunchCompletion (seq : Nat) (s : State) : Host.Outcome State Fault Refusal := .next (s.launchCompletion seq)

end Sys2Proof.Machine
end

