-- ==== Sys2Proof/Machine/MemOps.lean ====
section
/-!
DEFINITION. Sys2Proof/Machine/MemOps.lean: class 3 but for tokens and barriers: loads, stores, atomics, fences, cache
maintenance and prefetch (R270 to R290).
-/

namespace Sys2Proof.Machine

/-! ## A memory word, lane by lane -/

/-- What one enabled lane does: a fault with its address, or nothing to report; the state after it either way. -/
abbrev LaneStep := Issue → Nat → State → Option (Cause × DWord) × State

/-- The enabled lanes act in ascending order (R195, R277); one that faults parks, the others go on (R272). -/
def memBody (f : LaneStep) (is : Issue) (s : State) : State :=
  let s0 := s.modRod is.key (fun r => r.mapLanes (is.active &&& ~~~is.enabled) (fun _ x => x.advance))
  let (fails, s1) := (maskLanes is.enabled).foldl (fun a l =>
    match f is l a.2 with
    | (some e, s') => (a.1 ++ [(l, e.1, e.2)], s')
    | (none, s') => (a.1, s'.modRod is.key (fun r => r.setLane l (r.lane l).advance))) ([], s0)
  s1.takeFaults is.key is.word fails

/-- A memory word that first waits for outstanding loads (R177). -/
def drained (p : Lane → LoadEntry → Bool) (body : Issue → State → State) (is : Issue) (s : State) : State :=
  let s1 := s.drainWhere is.key is.enabled p
  match s1.rod? is.key with
  | some r => body { is with rod := r } s1
  | none => s1

def everyLoad : Lane → LoadEntry → Bool := fun _ _ => true

/-- The registers of a word of format M, in the order d, base, index (log entry 15). -/
def mFields (is : Issue) (x : Lane) (w : MWord) (d base : FieldUse) : Option Cause :=
  match fieldOperand is.rod x d w.d false 0 with
  | .error c => some c
  | .ok _ =>
    match fieldOperand is.rod x base w.base false 0 with
    | .error c => some c
    | .ok _ =>
      match fieldOperand is.rod x (idxUse w) w.idx false 0 with
      | .error c => some c
      | .ok _ => none

def State.modLane (s : State) (k : RodKey) (l : Nat) (f : Lane → Lane) : State :=
  s.modRod k (fun r => r.setLane l (f (r.lane l)))

/-- A write error to be raised at the item's next FENCE, release or EXIT (R274). -/
def State.defer (s : State) (k : RodKey) (l : Nat) (c : Cause) (addr : DWord) : State :=
  s.modLane k l (fun x => { x with deferred := x.deferred ++ [{ cause := c, addr := addr }] })

def mBytes (w : MWord) : Nat := (sizeBytes w.size.toNat).getD 1

/-- Where a failed check is reported: on the lane at the instruction (R272), or later, where R421 says, because the lease of
a cached translation was ending and the walk made in its place failed (R422). -/
inductive Failure where
  | now (c : Cause)
  | later (c : Cause)
  deriving DecidableEq, Repr

/-- The checks of R272 on pages. -/
def pagesCheck (s : State) (is : Issue) (need : Need) (pages : List Nat) : Except Failure (List Xlat) × State :=
  let asid := s.asidOf is.key is.rod
  match s.pages is.key.frame asid need pages with
  | (.ok xs, s1) => (.ok xs, s1)
  | (.error c, s1) => (.error (if s.failsLate is.key.frame asid need pages then .later c else .now c), s1)

/-- The checks of R272 on global memory: alignment, then every page. -/
def globalCheck (s : State) (is : Issue) (ea : DWord) (n : Nat) (aligned : Bool) (need : Need) :
    Except Failure (List Xlat) × State :=
  if aligned && ea.toNat % n != 0 then (.error (.now .misaligned), s)
  else pagesCheck s is need (pageStarts ea.toNat n)

/-! ## Loads (R275, R276, R279) -/

/-- The registers a load would have written are marked, and hold nothing the manual states (R274, R421). -/
def State.markLoad (s : State) (k : RodKey) (l : Nat) (e : LoadEntry) (c : Cause) : State :=
  let (junk, s1) := s.drawBytes 16
  s1.modLane k l (fun y => y.receive e (.mark c) (ofLe junk))

/-- The entry takes its place; an item holds at most sixteen. -/
def State.pushLoad (s : State) (k : RodKey) (l : Nat) (e : LoadEntry) : State :=
  let n := ((s.rod? k).map (fun r => (r.lane l).loads.length)).getD 0
  (s.drainLane k l (n - 15)).modLane k l (fun x =>
    { x with loads := x.loads ++ [{ e with ordinal := x.loadOrdinal }], loadOrdinal := x.loadOrdinal + 1 })

def loadEntry (kind : LoadKind) (w : MWord) (ea : DWord) (xs : List Xlat) : LoadEntry :=
  { addr := ea, kind := kind, size := mBytes w, scope := w.scope.toNat, dst := w.d.toNat, ordinal := 0, value := 0,
    xlats := xs, cut := false }

def loadLane (kind : LoadKind) (w : MWord) : LaneStep := fun is l s =>
  let x := is.rod.lane l
  match mFields is x w (sizeUse w.size.toNat) .pair with
  | some c => (some (c, 0), s)
  | none =>
    let ea := MWord.globalAddr w x
    match globalCheck s is ea (mBytes w) (kind == .lds || kind == .lda) .read with
    | (.error (.now c), s1) => (some (c, ea), s1)
    | (.error (.later c), s1) => (none, s1.markLoad is.key l (loadEntry kind w ea []) c)
    | (.ok xs, s1) => (none, s1.pushLoad is.key l (loadEntry kind w ea xs))

def execLd (w : MWord) (s : State) : Host.Outcome State Fault Refusal := issueWord (.ld w) (memBody (loadLane .ld w)) s
def execLds (w : MWord) (s : State) : Host.Outcome State Fault Refusal :=
  issueWord (.lds w) (memBody (loadLane .lds w)) s
def execLda (w : MWord) (s : State) : Host.Outcome State Fault Refusal :=
  issueWord (.lda w) (memBody (loadLane .lda w)) s

/-! ## First-fault loads (R278) -/

/-- The causes LDFF stops at (R278). -/
def Cause.firstFault (c : Cause) : Bool := c == .notPresent || c == .permission || c == .orderingReserved

/-- The lanes below the first that fails with a first-fault cause, with their translations or how their access fails, and the
failing lane's cause. -/
def ffScan (is : Issue) (w : MWord) :
    List Nat → State → List (Nat × Except Failure (List Xlat)) × Option (Nat × Cause) × State
  | [], s => ([], none, s)
  | l :: t, s =>
    match globalCheck s is (MWord.globalAddr w (is.rod.lane l)) (mBytes w) false .read with
    | (.ok xs, s1) =>
      let (a, f, s2) := ffScan is w t s1
      ((l, .ok xs) :: a, f, s2)
    | (.error (.later c), s1) =>
      let (a, f, s2) := ffScan is w t s1
      ((l, .error (.later c)) :: a, f, s2)
    | (.error (.now c), s1) =>
      if c.firstFault then ([], some (l, c), s1)
      else
        let (a, f, s2) := ffScan is w t s1
        ((l, .error (.now c)) :: a, f, s2)

/-- One lane that LDFF loads, as LD does; one that meets poison or a cut path in its walk parks afterwards (R274, R278). -/
def ffLoad (is : Issue) (w : MWord) (s : State) (e : Nat × Except Failure (List Xlat)) : State :=
  let ea := MWord.globalAddr w (is.rod.lane e.1)
  match e.2 with
  | .ok xs => s.pushLoad is.key e.1 (loadEntry .ldff w ea xs)
  | .error (.later c) => s.markLoad is.key e.1 (loadEntry .ldff w ea []) c
  | .error (.now _) => s

/-- The lanes that park, with cause and address. -/
def ffFails (is : Issue) (w : MWord) (l : List (Nat × Except Failure (List Xlat))) : List (Nat × Cause × DWord) :=
  l.filterMap (fun e =>
    match e.2 with
    | .error (.now c) => some (e.1, c, MWord.globalAddr w (is.rod.lane e.1))
    | _ => none)

def ldffBody (w : MWord) (is : Issue) (s : State) : State :=
  let lanes := maskLanes is.enabled
  let regs := lanes.filterMap (fun l =>
    (mFields is (is.rod.lane l) w (sizeUse w.size.toNat) .pair).map (fun c => (l, c, (0 : DWord))))
  let go (m : BitVec 32) (f : Lane → Lane) (s : State) : State :=
    s.modRod is.key (fun r => r.mapLanes m (fun _ x => (f x).advance))
  if regs ≠ [] then ((go (is.active &&& ~~~is.enabled) id) s).takeFaults is.key is.word regs
  else
    let (ok, bad, s1) := ffScan is w lanes s
    let fails := ffFails is w ok
    let parks : BitVec 32 := maskOf (fun k => fails.any (fun e => e.1 == k.val))
    match bad with
    | none => ((go (is.active &&& ~~~parks) id) (ok.foldl (ffLoad is w) s1)).takeFaults is.key is.word fails
    | some (f, c) =>
      if some f = lanes.head? then
        ((go (is.active &&& ~~~is.enabled) id) s1).takeFaults is.key is.word
          (lanes.map (fun l => (l, c, MWord.globalAddr w (is.rod.lane l))))
      else
        let above : BitVec 32 := maskOf (fun k => is.enabled.getLsbD k.val && decide (f ≤ k.val))
        (go above (fun x => x.setPred w.g.pred.toNat false)
          (go (is.active &&& ~~~(above ||| parks)) id (ok.foldl (ffLoad is w) s1))).takeFaults is.key is.word fails

def execLdff (w : MWord) (s : State) : Host.Outcome State Fault Refusal := issueWord (.ldff w) (ldffBody w) s

/-! ## Stores (R277) -/

/-- The bytes a store takes from its registers, the lowest register first. -/
def storeBytes (x : Lane) (d n : Nat) : List Byte :=
  let v := (List.range (max 1 (n / 4))).foldl (fun a k => a + (x.reg (d + k)).toNat * 2 ^ (32 * k)) 0
  leBytes n v

inductive StoreKind where
  | weak
  | strong
  | release
  deriving DecidableEq, Repr

/-- Writes on their way to a home slice, or to the sector's exclusive state: until the item's next FENCE, release or EXIT a
link that goes down may lose them (R274, R469). -/
def State.inFlight (s : State) (k : RodKey) (l scope : Nat) (weak : Bool) (ea : DWord) (ps : List Piece) : State :=
  let far := ps.filter (fun x =>
    let pl := s.storePlace k.frame.die x.sector (placeOf k.frame.die x.ord scope) weak
    pl == .home || pl == .own)
  if far.isEmpty then s
  else s.modLane k l (fun x => { x with writes := x.writes ++ far.map (fun q => (q.sector, ea)) })

/-- What a write met is raised at the item's next FENCE, release or EXIT (R274). -/
def State.deferMet (s : State) (k : RodKey) (l : Nat) (ea : DWord) : Option Cause → State
  | some c => s.defer k l c ea
  | none => s

def storeLane (kind : StoreKind) (w : MWord) : LaneStep := fun is l s =>
  let x := is.rod.lane l
  match mFields is x w (sizeUse w.size.toNat) .pair with
  | some c => (some (c, 0), s)
  | none =>
    let ea := MWord.globalAddr w x
    let n := mBytes w
    match globalCheck s is ea n (kind != .weak) .write with
    | (.error (.now c), s1) => (some (c, ea), s1)
    | (.error (.later c), s1) => (none, s1.defer is.key l c ea)
    | (.ok xs, s1) =>
      let s2 := if kind = .release then s1.releaseAt is.key.frame (widestScope xs w.scope.toNat) else s1
      let ps := piecesOf xs ea.toNat n
      let (bad, s3) := State.writePieces is.key.frame w.scope.toNat (kind == .weak) ps (storeBytes x w.d.toNat n) s2
      (none, (s3.deferMet is.key l ea bad).inFlight is.key l w.scope.toNat (kind == .weak) ea ps)

/-- A weak store waits for an acquire, for O-class loads, and for loads of the sectors it may share (R174, R177, R189):
addresses that agree in their page offset may name the same bytes. -/
def weakStoreWaits (w : MWord) : Lane → LoadEntry → Bool := fun x e =>
  let sectors (a n : Nat) : List Nat := (List.range ((a % 64 + n - 1) / 64 + 1)).map (fun k => (a / 64 + k) % 64)
  e.kind == .lda || e.xlats.isEmpty || e.xlats.any (fun y => y.ord == 1#2)
    || (sectors e.addr.toNat e.size).any (fun q => (sectors (MWord.globalAddr w x).toNat (mBytes w)).contains q)

/-- Whether the lane's store goes to an O-class page: it is then ordered as a strong store (R189). -/
def storesStrong (w : MWord) (is : Issue) (s : State) (x : Lane) : Bool :=
  match s.pages is.key.frame (s.asidOf is.key is.rod) .write (pageStarts (MWord.globalAddr w x).toNat (mBytes w)) with
  | (.ok xs, _) => xs.any (fun y => y.ord == 1#2)
  | (.error _, _) => false

/-- A weak store waits as `weakStoreWaits` says, to an O-class page for every load (R177, R189). -/
def stBody (w : MWord) (is : Issue) (s : State) : State :=
  drained (fun x e => weakStoreWaits w x e || storesStrong w is s x) (memBody (storeLane .weak w)) is s

/-- What waits for earlier acquires only (R177). -/
def acquiring : Lane → LoadEntry → Bool := fun _ e => e.kind == .lda

/-- A release first raises a deferred write error of its item (R274); it orders the item's earlier accesses (R178). -/
def releasing (body : Issue → State → State) (is : Issue) (s : State) : State :=
  let (m, s1) := takeDeferred is s
  match s1.rod? is.key with
  | none => s1
  | some r =>
    let act := (is.active &&& ~~~is.enabled) ||| m
    body { is with rod := r, active := act, enabled := m } (s1.orderItems is m)

def execSt (w : MWord) (s : State) : Host.Outcome State Fault Refusal :=
  issueWord (.st w) (stBody w) s
def execSts (w : MWord) (s : State) : Host.Outcome State Fault Refusal :=
  issueWord (.sts w) (drained everyLoad (memBody (storeLane .strong w))) s
def execStl (w : MWord) (s : State) : Host.Outcome State Fault Refusal :=
  issueWord (.stl w) (drained everyLoad (releasing (memBody (storeLane .release w)))) s

/-! ## The frame store (R123, R272, R281) -/

/-- The checks of the frame store (R272); the offset is exact. -/
def frameCheck (a : Int) (n size : Nat) : Option Cause :=
  if a % (n : Int) ≠ 0 then some .misaligned
  else if a < 0 ∨ (size : Int) < a + n then some .frameStoreBound
  else none

def teamOf (s : State) (is : Issue) : Team := (s.team? (teamKeyOf is.key is.rod)).getD Team.reset

def ldfLane (w : MWord) : LaneStep := fun is l s =>
  let x := is.rod.lane l
  match mFields is x w (sizeUse w.size.toNat) .reg with
  | some c => (some (c, 0), s)
  | none =>
    let a := MWord.frameAddr w x
    let n := mBytes w
    let t := teamOf s is
    match frameCheck a n t.fsBytes with
    | some c => (some (c, BitVec.ofInt 64 a), s)
    | none =>
      let (b, s1) := s.laneView t x.item a.toNat n
      let v := ofLe b
      (none, s1.modLane is.key l (fun y =>
        (y.setRegs w.d.toNat v (max 1 (n / 4))).unmark (List.range' w.d.toNat (max 1 (n / 4)))))

def stfLane (w : MWord) : LaneStep := fun is l s =>
  let x := is.rod.lane l
  match mFields is x w (sizeUse w.size.toNat) .reg with
  | some c => (some (c, 0), s)
  | none =>
    let a := MWord.frameAddr w x
    let n := mBytes w
    match frameCheck a n (teamOf s is).fsBytes with
    | some c => (some (c, BitVec.ofInt 64 a), s)
    | none =>
      (none, s.modTeam (teamKeyOf is.key is.rod) (fun t =>
        t.laneWrite x.item a.toNat (storeBytes x w.d.toNat n)))

def execLdf (w : MWord) (s : State) : Host.Outcome State Fault Refusal :=
  issueWord (.ldf w) (drained acquiring (memBody (ldfLane w))) s
def execStf (w : MWord) (s : State) : Host.Outcome State Fault Refusal :=
  issueWord (.stf w) (drained acquiring (memBody (stfLane w))) s

/-! ## WAITQ (R280) -/

/-- Loads return, the oldest first, until each enabled item holds at most `n`. -/
def waitqBody (n : Nat) (is : Issue) (s : State) : State :=
  passOver is ((maskLanes is.enabled).foldl (fun s l =>
    s.drainLane is.key l ((is.rod.lane l).loads.length - n)) s)

def execWaitq (w : RWord) (s : State) : Host.Outcome State Fault Refusal :=
  issueWord (.waitq w) (waitqBody (RMod.bits w.mod 14 4)) s

/-! ## Atomic operations (R283, R285, R286) -/

/-- A value of `bits` bits in a view. -/
def viewed (bits : Nat) (u : Bool) (v : Nat) : Int := if u then (v : Int) else (BitVec.ofNat bits v).toInt

/-- The sum of two encodings, rounded to nearest even, subnormals kept. -/
def atomicSum (f : FloatFmt) (a b : Nat) : Nat :=
  f.put .ieee { mode := 0, d := 0, ftz := false } (sumNum 0 [f.decode false a, f.decode false b])

/-- The new value of a location of `bits` bits; none where nothing is written. -/
def atomResult (op : AtomOp) (bits : Nat) (old b c : Nat) : Option Nat :=
  match op with
  | .add sat u =>
    if sat then
      some (BitVec.ofInt bits (clampView bits u (viewed bits u old + viewed bits u b))).toNat
    else some ((old + b) % 2 ^ bits)
  | .min u => some (if viewed bits u old ≤ viewed bits u b then old else b)
  | .max u => some (if viewed bits u old ≤ viewed bits u b then b else old)
  | .and => some (old &&& b)
  | .or => some (old ||| b)
  | .xor => some (old ^^^ b)
  | .exch => some b
  | .fadd => some (atomicSum (if bits = 64 then fp64Fmt else fp32Fmt) old b)
  | .cas => if old = b then some c else none
  | .halfAdd bf => some (atomicSum (if bf then bf16Fmt else fp16Fmt) old b)

/-- The operation field of ATOM, RED and ATOMF (R283, R287). -/
def atomOpOf (m : BitVec 18) : AtomOp :=
  match RMod.bits m 14 4 with
  | 0 => if RMod.f m then .fadd else .add (RMod.sat m) (RMod.u m)
  | 1 => .min (RMod.u m)
  | 2 => .max (RMod.u m)
  | 3 => .and
  | 4 => .or
  | 5 => .xor
  | 6 => .exch
  | _ => .cas

def atomBytes (m : BitVec 18) : Nat := if RMod.bits m 11 3 = 3 then 8 else 4

/-- One update of a location of global memory, where R194 places it. -/
def State.atomicAt (s : State) (p : FrameId) (scope : Nat) (x : Piece) (op : AtomOp) (b c : Nat) :
    Option Cause × Nat × State :=
  let (pl, s1) := s.atomicPlace p x.ord scope x.sector
  s1.atomicSeg p pl (isUntracked x.ord) x.sector x.off x.len (fun old => atomResult op (8 * x.len) old b c)

/-- Two updates of adjacent halves, each atomic by itself: another party's load may return after either (R286). -/
def State.atomicHalves (s : State) (p : FrameId) (scope : Nat) (x : Piece) (op : AtomOp) (b : Nat) :
    Option Cause × Nat × State :=
  let (e0, o0, s1) := s.atomicAt p scope { x with len := 2 } op (b % 65536) 0
  let (e1, o1, s2) := s1.between.atomicAt p scope { x with off := x.off + 2, len := 2 } op (b / 65536) 0
  (e0.or e1, o0 + 65536 * o1, s2.between)

/-- One lane of ATOM, CAS, ATADD2 and RED: the old value comes through the load queue (R279). -/
def atomLane (op : AtomOp) (n scope : Nat) (need : Need) (old : Bool) : LaneStep := fun is l s =>
  let x := is.rod.lane l
  match laneOperands is.rod x (planOf is.instr) with
  | .error c => (some (c, 0), s)
  | .ok o =>
    let ea := o.a.value x (fun _ => 0)
    let b := (o.b.value x (fun _ => 0)).toNat
    let c := (o.c.value x (fun _ => 0)).toNat
    let dst := (o.dst.registers).headD 0
    let entry (v : Nat) (xs : List Xlat) : LoadEntry :=
      { addr := ea, kind := .atomic, size := n, scope := scope, dst := dst, ordinal := 0, value := BitVec.ofNat 64 v,
        xlats := xs, cut := false }
    match globalCheck s is ea n true need with
    | (.error (.now e), s1) => (some (e, ea), s1)
    | (.error (.later e), s1) =>
      (none, if old then s1.markLoad is.key l (entry 0 []) e else s1.defer is.key l e ea)
    | (.ok xs, s1) =>
      match piecesOf xs ea.toNat n with
      | [] => (none, s1)
      | pc :: _ =>
        let (bad, v, s2) :=
          match op with
          | .halfAdd _ => s1.atomicHalves is.key.frame scope pc op b
          | _ => s1.atomicAt is.key.frame scope pc op b c
        (none,
          if old then
            match bad with
            | some e => s2.markLoad is.key l (entry 0 xs) e
            | none => s2.pushLoad is.key l (entry v xs)
          else (s2.deferMet is.key l ea bad).inFlight is.key l scope false ea [pc])

def execAtom (w : RWord) (s : State) : Host.Outcome State Fault Refusal :=
  issueWord (.atom w) (drained everyLoad (memBody
    (atomLane (atomOpOf w.mod) (atomBytes w.mod) (RMod.bits w.mod 8 3) .both true))) s
def execRed (w : RWord) (s : State) : Host.Outcome State Fault Refusal :=
  issueWord (.red w) (drained everyLoad (memBody
    (atomLane (atomOpOf w.mod) (atomBytes w.mod) (RMod.bits w.mod 8 3) .write false))) s
def execCas (w : RWord) (s : State) : Host.Outcome State Fault Refusal :=
  issueWord (.cas w) (drained everyLoad (memBody
    (atomLane .cas (atomBytes w.mod) (RMod.bits w.mod 8 3) .both true))) s
def execAtadd2 (w : RWord) (s : State) : Host.Outcome State Fault Refusal :=
  issueWord (.atadd2 w) (drained everyLoad (memBody
    (atomLane (.halfAdd (RMod.bits w.mod 14 4 == 1)) 4 (RMod.bits w.mod 8 3) .both true))) s

/-- ATOMF: an atomic of the team's frame store, its old value written at once (R287). Against an engine command that no token
orders, the bytes that are left are unspecified there: DESIGN CHOICE, each takes its whole effect in the order of the events
(log entry 35). -/
def atomfLane (m : BitVec 18) : LaneStep := fun is l s =>
  let x := is.rod.lane l
  match laneOperands is.rod x (planOf is.instr) with
  | .error c => (some (c, 0), s)
  | .ok o =>
    let n := atomBytes m
    let a := (o.a.value x (fun _ => 0)).toNat
    let t := teamOf s is
    match frameCheck a n t.fsBytes with
    | some c => (some (c, BitVec.ofNat 64 a), s)
    | none =>
      let old := ofLe (cellsRead t.fs a n)
      let new := atomResult (atomOpOf m) (8 * n) old (o.b.value x (fun _ => 0)).toNat (o.c.value x (fun _ => 0)).toNat
      let s1 := match new with
        | some v => s.modTeam (teamKeyOf is.key is.rod) (fun t => t.laneWrite x.item a (leBytes n v))
        | none => s
      (none, s1.modLane is.key l (fun y =>
        ((LaneWrite.value (decide (n = 8)) (BitVec.ofNat 64 old)).apply o.dst y).unmark o.dst.registers))

def execAtomf (w : RWord) (s : State) : Host.Outcome State Fault Refusal :=
  issueWord (.atomf w) (drained acquiring (memBody (atomfLane w.mod))) s

/-! ## FENCE (R288) -/

/-- FENCE holds its sub-rod at the word until it completes: items whose guard is false wait with the others, for a word
that waits does not part a sub-rod (R43, R204). -/
def fenceBody (order scope : Nat) (is : Issue) (s : State) : State :=
  if is.enabled = 0 then passOver is s
  else
    s.modRod is.key (fun r => r.mapLanes is.active (fun l x =>
      { x with fence := some { order := order, scope := scope, on := is.enabled.getLsbD l.val } }))

def execFence (w : RWord) (s : State) : Host.Outcome State Fault Refusal :=
  issueWord (.fence w) (fenceBody (RMod.bits w.mod 14 4) (RMod.bits w.mod 8 3)) s

/-- Whether an order acquires; whether it releases. Every order waits for the item's loads: what follows a `.rel` fence is
ordered behind them too (R177). -/
def FenceWait.acquires (f : FenceWait) : Bool := f.order != 1
def FenceWait.releases (f : FenceWait) : Bool := f.order != 0

/-- The lanes of one FENCE. -/
def FenceWait.same (f g : FenceWait) : Bool := f.order == g.order && f.scope == g.scope

/-- FENCE_COMPLETE: the fence of a sub-rod whose conditions hold completes; stores and flushes are done when they issue,
so only loads are waited for. Write errors deferred are raised now. Nothing happens while a load is outstanding (log
entry 4). -/
def State.completeFence (s : State) (k : RodKey) (r : Rod) (lane : Nat) (f : FenceWait) : State :=
  let m := r.subRod lane &&& r.maskWhere (fun x => x.fence.any f.same)
  let on := m &&& r.maskWhere (fun x => x.fence.any FenceWait.on)
  if (maskLanes on).any (fun l => (r.lane l).loads != []) then s
  else
    let s1 := if f.releases then s.releaseAt k.frame f.scope else s
    let s2 := if f.acquires then s1.acquireAt k.frame f.scope else s1
    let is : Issue := { key := k, rod := r, instr := .fence { g := { neg := false, pred := 7 }, dst := 0, a := 0, b := 0, c := 0, mod := BitVec.ofNat 18 (f.order * 2 ^ 14 + f.scope * 2 ^ 8) }, active := m, enabled := on, lost := 0 }
    let (m', s3) := takeDeferred is s2
    let s4 := if f.releases then s3.orderItems is m' else s3
    (s4.modRod k (fun q => q.mapLanes (m' ||| (m &&& ~~~on)) (fun _ x => { x with fence := none }.advance))).modRod k
      (fun q => q.regroup m)

def execFenceComplete (k : RodKey) (lane : Nat) (s : State) : Host.Outcome State Fault Refusal :=
  .next (match s.rod? k with
    | none => s
    | some r =>
      match (r.lane lane).fence with
      | none => s
      | some f => if (r.lane lane).st = .runnable then s.completeFence k r lane f else s)

/-! ## CFLUSH, CINV (R289), PREF (R290) -/

/-- The sectors of a range with the ordering classes of their pages. -/
def sectorsOf (xs : List Xlat) (ea n : Nat) : List (Nat × BitVec 2) :=
  (List.range ((ea % 64 + n - 1) / 64 + 1)).filterMap (fun k =>
    (physOf xs (if k = 0 then ea else ea / 64 * 64 + 64 * k)).map (fun q => (q.1 / 64, q.2)))

/-- One sector of a range is acted on. A write-back that finds no path is not made; what it meets is deferred (R274). -/
def rangeSector (act : State → Nat → Nat → Bool → Nat → State) (k : RodKey) (l scope : Nat) (ea : DWord) (s : State)
    (e : Nat × BitVec 2) : State :=
  let d := k.frame.die
  let u := isUntracked e.2
  if scope < 3 then act s d e.1 u scope
  else
    match s.meetsError d e.1 u with
    | some .linkDown => s.defer k l .linkDown ea
    | some c => (act s d e.1 u scope).defer k l c ea
    | none =>
      (act s d e.1 u scope).inFlight k l scope false ea [{ sector := e.1, off := 0, len := 64, ord := e.2 }]

def rangeLane (w : MWord) (act : State → Nat → Nat → Bool → Nat → State) : LaneStep := fun is l s =>
  let x := is.rod.lane l
  match mFields is x w .reg .pair with
  | some c => (some (c, 0), s)
  | none =>
    let ea := MWord.globalAddr w x
    let n := (x.reg w.d.toNat).toNat
    if n = 0 then (none, s)
    else if 2 ^ 64 < ea.toNat + n then (some (.illegalOperand, ea), s)
    else
      match pagesCheck s is .read (pageStarts ea.toNat n) with
      | (.error (.now c), s1) => (some (c, ea), s1)
      | (.error (.later c), s1) => (none, s1.defer is.key l c ea)
      | (.ok xs, s1) =>
        (none, (sectorsOf xs ea.toNat n).foldl (rangeSector act is.key l w.scope.toNat ea) s1)

def execCflush (w : MWord) (s : State) : Host.Outcome State Fault Refusal :=
  issueWord (.cflush w) (drained acquiring <| memBody (rangeLane w State.flushSector)) s
def execCinv (w : MWord) (s : State) : Host.Outcome State Fault Refusal :=
  issueWord (.cinv w) (drained acquiring <| memBody (rangeLane w State.discardSector)) s

/-- PREF brings the sector in, or does nothing: it changes no value and never faults. No cache keeps a sector of a host window
(R472). -/
def prefLane (w : MWord) : LaneStep := fun is l s =>
  let x := is.rod.lane l
  match mFields is x w .zero .pair with
  | some c => (some (c, 0), s)
  | none =>
    let ea := MWord.globalAddr w x
    match globalCheck s is ea 1 false .read with
    | (.error _, s1) => (none, s1)
    | (.ok xs, s1) =>
      match piecesOf xs ea.toNat 1 with
      | [] => (none, s1)
      | pc :: _ =>
        if pc.ord = 1#2 || !deviceSector pc.sector then (none, s1)
        else if w.nt then (none, (s1.dieFill is.key.frame.die pc.sector (isUntracked pc.ord)).2)
        else (none, (s1.readSeg is.key.frame .frame (isUntracked pc.ord) pc.sector pc.off 1).2.2)

def execPref (w : MWord) (s : State) : Host.Outcome State Fault Refusal := issueWord (.pref w) (memBody (prefLane w)) s

end Sys2Proof.Machine
end

