-- ==== Sys2Proof/Machine/Coherence.lean ====
section
/-!
DEFINITION. Sys2Proof/Machine/Coherence.lean: the steps of the package directory and of the homes (R427 to R431, R434): requests
of full peers, snoops, untracked traffic, home atomics, U-class accesses, and the decay of the contention predictor.
-/

namespace Sys2Proof.Machine

/-- A full peer that takes part, and a sector of device memory; an isolated one is left out (R433, R461). -/
def State.isPeer (s : State) (a n : Nat) : Bool := a < 10 && 64 * n < Config.deviceBytes && !s.agentOut a

/-- The node of the link graph at which an agent sits. -/
def agentNode (a : Nat) : Nat := (Config.dieOfAgent a).getD hubNode

/-- A full peer whose requests for a sector reach the home (R274, R433, R461). -/
def State.reachesHome (s : State) (a n : Nat) : Bool := s.isPeer a n && !s.severed (agentNode a) n

/-- The state in which an agent holds a sector; `i` where it does not. -/
def State.heldAs (s : State) (a n : Nat) : Moesi :=
  match s.agentSector a n with
  | some x => x.st
  | none => .i

/-- READ_SHARED: a read miss of an agent; a poisoned sector is not delivered, nor one that the request does not reach, and an
agent that holds the sector has no miss (log entry 4). -/
def State.readMiss (s : State) (a n : Nat) : State :=
  if s.reachesHome a n && s.heldAs a n == .i && !s.poisoned n then s.readShared a n else s

def execReadShared (agent sector : Nat) (s : State) : Host.Outcome State Fault Refusal := .next (s.readMiss agent sector)

/-- READ_UNIQUE: a write or a local atomic with the sector in I. -/
def State.writeMiss (s : State) (a n : Nat) : State :=
  if s.reachesHome a n && s.heldAs a n == .i && !s.poisoned n then s.readUnique a n else s

def execReadUnique (agent sector : Nat) (s : State) : Host.Outcome State Fault Refusal :=
  .next (s.writeMiss agent sector)

/-- UPGRADE: a write with the sector in S or O. -/
def State.writeShared (s : State) (a n : Nat) : State :=
  if s.reachesHome a n && (s.heldAs a n == .s || s.heldAs a n == .o) then s.upgrade a n else s

def execUpgrade (agent sector : Nat) (s : State) : Host.Outcome State Fault Refusal :=
  .next (s.writeShared agent sector)

/-- WRITE_BACK: eviction of M or O by its owner. -/
def State.ownedWrite (s : State) (a n : Nat) (keep : Bool) : State :=
  if s.reachesHome a n && (s.heldAs a n == .m || s.heldAs a n == .o) then
    if keep then s.writeBackKeep a n else s.writeBack a n
  else s

def execWriteBack (agent sector : Nat) (s : State) : Host.Outcome State Fault Refusal :=
  .next (s.ownedWrite agent sector false)

def execWriteBackKeep (agent sector : Nat) (s : State) : Host.Outcome State Fault Refusal :=
  .next (s.ownedWrite agent sector true)

/-! ## Snoops (R428, R430) -/

/-- The entry with an agent out of it. -/
def DirSector.without (g : DirSector) (a : Nat) : DirSector :=
  let rest := withBit g.sharers a false
  let shared : DirSector := DirSector.clean rest
  match g.st with
  | .dI => g
  | .dS => shared
  | .dX => if g.owner = a then DirSector.empty else g
  | .dO => if g.owner = a then shared else { g with sharers := rest }

/-- The entry after a snoop-share of its owner; a miss means that it had dropped an E copy, or that it is isolated, and then
its bit is cleared (R430, R433). -/
def State.afterShare (s : State) (a n : Nat) : DirSector :=
  let g := s.dir n
  if !g.st.owned || g.owner != a then (if s.agentOut a then g.without a else g)
  else
    match s.heldAs a n with
    | .o => { g with st := .dO }
    | .s => DirSector.clean (withBit g.sharers a true)
    | .i => DirSector.clean (withBit g.sharers a false)
    | .m | .e => g

/-- The entry after a snoop-clean of its owner. -/
def State.afterClean (s : State) (a n : Nat) : DirSector :=
  let g := s.dir n
  if g.st.owned && g.owner == a then DirSector.clean (s.keepers g) else if s.agentOut a then g.without a else g

/-- SNOOP: an agent that the directory names answers; one that has dropped the sector answers with a miss. A
snoop-invalidate of every agent an entry names is also the directory's eviction of the entry (R428). A home that has been left out
snoops nobody (R461). -/
def State.snoop (s : State) (a n : Nat) (k : SnoopKind) : State :=
  if !(s.dir n).holders.getLsbD a || s.unserved n then s
  else
    match k with
    | .invalidate => (s.snoopInvalidate a n).setDir n ((s.dir n).without a)
    | .share =>
      let s1 := s.snoopShare a n
      s1.setDir n (s1.afterShare a n)
    | .clean =>
      let s1 := s.snoopClean a n
      s1.setDir n (s1.afterClean a n)

def execSnoop (agent sector : Nat) (kind : SnoopKind) (s : State) : Host.Outcome State Fault Refusal :=
  .next (s.snoop agent sector kind)

/-! ## Untracked traffic (R431) -/

/-- UNTRACKED_READ; a home that has been left out serves none (R461). -/
def execUntrackedRead (sector : Nat) (s : State) : Host.Outcome State Fault Refusal :=
  .next (if s.unserved sector then s else (s.untrackedRead sector).2)

/-- UNTRACKED_WRITE: bytes by mask; a write that meets poison, or a home that has been left out, is not performed (R461; log
entry 18). -/
def execUntrackedWrite (sector : Nat) (mask : BitVec 64) (data : BitVec 512) (s : State) :
    Host.Outcome State Fault Refusal :=
  .next (if s.poisoned sector || s.unserved sector then s else s.untrackedWrite sector mask data)

/-- HOME_ATOMIC: every holder gives the sector up, then the operation is performed at the home (R431); the location lies
in one sector (R193), and poison or a home that has been left out leaves it as it is (R274, R461). -/
def State.homeAtomic (s : State) (op : AtomOp) (addr size : Nat) (b c : BitVec 64) : State :=
  let n := addr / 64
  let off := addr % 64
  if s.poisoned n || s.unserved n || 64 < off + size then s
  else
    let s1 := (s.invalidateOthers n none).setDir n DirSector.empty
    match atomResult op (8 * size) (ofLe (segBytes (s1.homeData n) off size)) b.toNat c.toNat with
    | none => s1
    | some v => s1.homeMerge n (segMask off size) (segData off (leBytes size v))

def execHomeAtomic (op : AtomOp) (addr size : Nat) (operand compare : BitVec 64) (s : State) :
    Host.Outcome State Fault Refusal := .next (s.homeAtomic op addr size operand compare)

/-- U_CLASS_ACCESS: bytes merged at the home by mask, with mask 0 for a read; the directory takes no part. A home that has been
left out serves none (R461). -/
def execUClassAccess (sector : Nat) (mask : BitVec 64) (data : BitVec 512) (s : State) :
    Host.Outcome State Fault Refusal :=
  .next (if s.poisoned sector || s.unserved sector || mask = 0 then s else s.homeMerge sector mask data)

/-! ## PREDICTOR_DECAY (R434) -/

/-- Every count falls by `n`, to 0 at least. -/
def Die.decay (n : Nat) (d : Die) : Die := { d with predictor := d.predictor.map (fun e => (e.1, e.2.1, e.2.2 - n)) }

/-- The decays that package time has reached: one every 100 µs. -/
def State.decaysDue (s : State) : Nat := (s.hub.now.toNat - s.hub.lastDecay) / 100000

def State.decay (s : State) : State :=
  if s.decaysDue = 0 then s
  else
    { s with
      dies := s.dies.map (fun e => (e.1, e.2.decay s.decaysDue))
      hub := { s.hub with lastDecay := s.hub.lastDecay + 100000 * s.decaysDue } }

/-- PREDICTOR_DECAY: nothing happens before its time (log entry 4). -/
def execPredictorDecay (s : State) : Host.Outcome State Fault Refusal := .next s.decay

end Sys2Proof.Machine
end

