-- ==== Sys2Proof/Machine/HubOps.lean ====
section
/-!
DEFINITION. Sys2Proof/Machine/HubOps.lean: what the hub does to translations, homes, dies and links: unmaps (R423 to R426), page
homes (R435), power gating (R432), isolation (R433), reset (R468, R469), links (R465, R469) and partitions (R470, R471).
-/

namespace Sys2Proof.Machine

/-! ## Unmap (R423 to R426) -/

/-- The request names the global translations of its partition in place of an ASID. -/
def XlPage.isGlobal (x : XlPage) : Bool := x.umctl.getLsbD 17
def XlPage.asid (x : XlPage) : Nat := (x.umctl.extractLsb' 0 12).toNat
def XlPage.busy (x : XlPage) : Bool := x.umstat.getLsbD 0
def XlPage.reclaim (x : XlPage) : Bool := x.umctl.getLsbD 16

/-- A range of pages meets the range of the request; length 0 means every page. -/
def XlPage.meets (x : XlPage) (va bytes : Nat) : Bool :=
  x.umlen == 0#64 || (decide (va < x.umva.toNat + x.umlen.toNat) && decide (x.umva.toNat < va + bytes))

/-- Entries of the walk cache for the request's range. -/
def State.dropWalks (s : State) (part : Nat) (x : XlPage) : State :=
  let mine (asid : Nat) : Bool := if x.isGlobal then (s.asidEntry asid).part == part else asid == x.asid
  s.modHub (fun h => { h with walks := h.walks.filter (fun e =>
    let bytes := 2 ^ (39 - 9 * e.1.2.1)
    !(mine e.1.1 && x.meets (e.1.2.2 * bytes % 2 ^ 48) bytes)) })

/-- A holder is clear of the range by time, or by a TLBI of its die (R423). -/
def State.clearOf (s : State) (part : Nat) (x : XlPage) (holder : Nat) : Bool :=
  let key := (x.isGlobal, (if x.isGlobal then part else x.asid), holder)
  x.cleared.contains holder || (match tableFind key s.hub.handed with
    | none => true
    | some h => decide (h + 40 ≤ s.now))

/-- The holders not yet clear: dies in bits 31:0, network chiplets in 35:32, management contexts in 51:36. -/
def State.holdersLeft (s : State) (part : Nat) (x : XlPage) : DWord :=
  (BitVec.ofFnLE (fun d : Fin 52 => !s.clearOf part x d.val)).setWidth 64

/-- A request that R425 calls bad. -/
def State.badUnmap (s : State) (part : Nat) (x : XlPage) : Bool :=
  let a := s.asidEntry x.asid
  !a.valid || a.part != part || decide (2 ^ 48 < x.umva.toNat + x.umlen.toNat)

/-- The request completes; a bad one with done and bad set. -/
def XlPage.finish (x : XlPage) (now : DWord) (bad poison : Bool) : XlPage :=
  let st := withBit (withBit x.umstat 0 false) 1 true
  { x with
    umctl := withBit x.umctl 31 false
    umstat := withBit (withBit st 2 (st.getLsbD 2 || bad)) 3 (st.getLsbD 3 || poison)
    umdone := now, umholders := 0, umseq := x.umseq + 1, cleared := [], clearAt := none }

/-- The fields of a write of xl.umctl; reserved bits are dropped. -/
def umctlBits : Word := 0x80030FFF#32

/-- UNMAP_REQUEST: a write of xl.umctl; go while busy has no effect. -/
def State.unmapRequest (s : State) (part : Nat) (v : BitVec 32) : State :=
  match s.hub.xl.toList[part]? with
  | none => s
  | some x =>
    if x.busy then s
    else
      let y := { x with umctl := v &&& umctlBits, cleared := [], clearAt := none }
      if !v.getLsbD 31 then s.setXl part (fun _ => y)
      else if s.badUnmap part y then s.setXl part (fun _ => y.finish s.hub.now true false)
      else
        (s.setXl part (fun _ =>
          { y with umstat := withBit y.umstat 0 true, umholders := s.holdersLeft part y })).dropWalks part y

def execUnmapRequest (part : Nat) (value : BitVec 32) (s : State) : Host.Outcome State Fault Refusal :=
  .next (s.unmapRequest part value)

/-- The physical sectors of the range's pages: those handed out for it (R426; log entry 25). -/
def State.reclaimPages (s : State) (part : Nat) (x : XlPage) : List (Nat × Nat) :=
  let key := (x.isGlobal, if x.isGlobal then part else x.asid)
  (s.hub.given.filter (fun e => e.1 == key && x.meets e.2.1 e.2.2.1)).map (fun e => (e.2.2.2, e.2.2.1))

/-- The sectors that a die's caches hold, tracked or not. -/
def State.sectorsOn (s : State) (d : Nat) : List (Nat × Bool) :=
  (((s.die d).cache ++ (s.framesOfDie d).flatMap (fun p => (s.frame p).cache)).map
    (fun x => (x.num, x.untracked))).eraseDups

/-- The die writes back and discards its sectors of the pages; a dirty one that meets poison is reported. -/
def State.reclaimDie (pages : List (Nat × Nat)) (a : Bool × State) (d : Nat) : Bool × State :=
  let mine := (a.2.sectorsOn d).filter (fun x => pages.any (fun q => q.1 ≤ 64 * x.1 && 64 * x.1 < q.1 + q.2))
  mine.foldl (fun a x =>
    let s1 := a.2.flushDieFrames d x.1 x.2
    let dirty := match s1.dieSector d x.1 x.2 with | some y => y.dirty != 0 | none => false
    (a.1 || (dirty && s1.poisoned x.1), s1.dieDiscard d x.1 x.2)) a

/-- The dies asked to reclaim: every NC die of the partition, and those not clear by TLBI alone. -/
def State.reclaimDies (s : State) (part : Nat) (x : XlPage) : List Nat :=
  (List.range 32).filter (fun d =>
    ((s.partition part).dieMask.getLsbD d && !Config.isStream d) || !x.cleared.contains d)

/-- A translation of the range that serves one access only (R420). -/
def Xlat.ending (x : Xlat) (part : Nat) (u : XlPage) : Bool :=
  x.expiry == 0 && u.meets x.va x.bytes && (if u.isGlobal then x.glob && x.part == part else !x.glob && x.asid == u.asid)

/-- A load under way with such a translation walks again: no access is made through it after the completion (R424). -/
def State.dropOnce (s : State) (part : Nat) (u : XlPage) : State :=
  { s with rods := s.rods.map (fun e =>
      if e.2.lanes.toList.any (fun x => x.loads.any (fun q => q.xlats.any (fun t => t.ending part u))) then
        (e.1, e.2.mapLanes 0xFFFFFFFF (fun _ x => { x with loads := x.loads.map (fun q =>
          if q.xlats.any (fun t => t.ending part u) then { q with xlats := [] } else q) }))
      else e) }

/-- UNMAP_COMPLETE: when every holder is clear; nothing but xl.umholders changes before (log entry 4). -/
def State.unmapComplete (s : State) (part : Nat) : State :=
  match s.hub.xl.toList[part]? with
  | none => s
  | some x =>
    if !x.busy then s
    else if s.holdersLeft part x != 0 then s.setXl part (fun y => { y with umholders := s.holdersLeft part x })
    else
      let (poison, s1) :=
        if x.reclaim then (s.reclaimDies part x).foldl (State.reclaimDie (s.reclaimPages part x)) (false, s)
        else (false, s)
      (s1.dropOnce part x).setXl part (fun y => y.finish s.hub.now false poison)

def execUnmapComplete (part : Nat) (s : State) : Host.Outcome State Fault Refusal := .next (s.unmapComplete part)

/-- A duration within the range of R425. -/
def leaseOk (v : BitVec 16) : Bool := 1 ≤ v.toNat && v.toNat ≤ 10000

/-- LEASE_WRITE: the whole write is ineffective when one duration is out of range. -/
def XlPage.writeLease (x : XlPage) (v : DWord) : XlPage :=
  if leaseOk (v.extractLsb' 0 16) && leaseOk (v.extractLsb' 16 16) && leaseOk (v.extractLsb' 32 16) then
    { x with lease := v &&& 0x0000FFFFFFFFFFFF#64 }
  else { x with umstat := withBit x.umstat 2 true }

def execLeaseWrite (part : Nat) (value : BitVec 64) (s : State) : Host.Outcome State Fault Refusal :=
  .next (s.setXl part (fun x => x.writeLease value))

/-- UNMAP_STATUS_CLEAR: bits 3:1 are cleared by writing 1. -/
def XlPage.clearStatus (x : XlPage) (v : Word) : XlPage := { x with umstat := x.umstat &&& ~~~(v &&& 0xE#32) }

def execUnmapStatusClear (part : Nat) (value : BitVec 32) (s : State) : Host.Outcome State Fault Refusal :=
  .next (s.setXl part (fun x => x.clearStatus value))

/-! ## Page-home migration (R435) -/

/-- The fields of a write of xl.mgctl. -/
def mgctlCount (v : DWord) : Nat := (v.extractLsb' 52 10).toNat
def mgctlTower (v : DWord) : Nat := (v.extractLsb' 48 4).toNat
def mgctlPage (v : DWord) : Nat := (v.extractLsb' 12 36).toNat

/-- The pages that are not yet in the override table. -/
def State.newPages (s : State) (l : List Nat) : List Nat := l.filter (fun q => (tableFind q s.hub.override).isNone)

/-- The pages that requests under way still have to move. -/
def State.pagesToMove (s : State) : List Nat := s.hub.migrations.flatMap (fun m => List.range' m.page m.left)

/-- A request that sets the error bit: a page outside the partition's memory, a table without room for the new pages of every
request, or a count outside 1 to 512. -/
def State.badMigration (s : State) (part : Nat) (v : DWord) : Bool :=
  let n := mgctlCount v
  n == 0 || decide (512 < n)
    || decide (2 ^ 20 < s.hub.override.length + (s.newPages (List.range' (mgctlPage v) n ++ s.pagesToMove)).eraseDups.length)
    || (List.range n).any (fun k => !s.inPartition part (4096 * (mgctlPage v + k)))

/-- MIGRATION_REQUEST: a write of xl.mgctl; a write while one runs has no effect. -/
def State.migrationRequest (s : State) (part : Nat) (v : BitVec 64) : State :=
  if s.hub.migrations.any (fun m => m.part == part) || 8 ≤ part then s
  else
    let kept := v &&& 0x3FFFFFFFFFFFF000#64
    if !v.getLsbD 63 then s.setXl part (fun x => { x with mgctl := kept })
    else if s.badMigration part v then s.setXl part (fun x => { x with mgctl := withBit kept 62 true })
    else
      let m : Migration := { part := part, page := mgctlPage v, left := mgctlCount v, tower := mgctlTower v }
      (s.setXl part (fun x => { x with mgctl := withBit kept 63 true })).modHub (fun h =>
        { h with migrations := h.migrations ++ [m] })

def execMigrationRequest (part : Nat) (value : BitVec 64) (s : State) : Host.Outcome State Fault Refusal :=
  .next (s.migrationRequest part value)

/-! ## Writes of a translation control page (R425) -/

/-- One half of a 64-bit register is written. -/
def putHalf (old v : DWord) (high : Bool) : DWord :=
  if high then (v.extractLsb' 0 32) ++ (old.extractLsb' 0 32) else (old.extractLsb' 32 32) ++ (v.extractLsb' 0 32)

/-- Bits 11:0 of xl.umva and of xl.umlen are zero. -/
def pageBits : DWord := ~~~0xFFF#64

/-- The low half of xl.mgctl holds no `go` and no error bit. -/
def State.migrationLow (s : State) (part : Nat) (v : DWord) : State :=
  if s.hub.migrations.any (fun m => m.part == part) then s
  else s.setXl part (fun x => { x with mgctl := putHalf x.mgctl (v &&& pageBits) false })

/-- A write of 4 or 8 bytes at an offset. One of 8 bytes over xl.umctl and xl.umstat clears status bits first; what lies
across other registers, and the read-only ones, take no write (log
entry 53); a range written while a request runs is the request's from then on (log entry 50). -/
def State.xlWrite (s : State) (part off size : Nat) (v : DWord) : State :=
  match s.hub.xl.toList[part]? with
  | none => s
  | some x =>
    let low := v.extractLsb' 0 32
    if size = 8 then
      match off with
      | 0x00 => s.setXl part (fun x => x.writeLease v)
      | 0x08 => s.setXl part (fun x => { x with umva := v &&& pageBits })
      | 0x10 => s.setXl part (fun x => { x with umlen := v &&& pageBits })
      | 0x18 => (s.setXl part (fun x => x.clearStatus (v.extractLsb' 32 32))).unmapRequest part low
      | 0x38 => s.migrationRequest part v
      | _ => s
    else if size = 4 then
      match off with
      | 0x00 => s.setXl part (fun x => x.writeLease (putHalf x.lease v false))
      | 0x04 => s.setXl part (fun x => x.writeLease (putHalf x.lease v true))
      | 0x08 => s.setXl part (fun x => { x with umva := putHalf x.umva v false &&& pageBits })
      | 0x0C => s.setXl part (fun x => { x with umva := putHalf x.umva v true })
      | 0x10 => s.setXl part (fun x => { x with umlen := putHalf x.umlen v false &&& pageBits })
      | 0x14 => s.setXl part (fun x => { x with umlen := putHalf x.umlen v true })
      | 0x18 => s.unmapRequest part low
      | 0x1C => s.setXl part (fun x => x.clearStatus low)
      | 0x38 => s.migrationLow part v
      | 0x3C => s.migrationRequest part (putHalf x.mgctl v true)
      | _ => s
    else s

/-- MIGRATION_SWITCH: the next page's home is the new tower; data and directory entries go with it, and the old home
answers with a redirect. -/
def State.migrationSwitch (s : State) (part : Nat) : State :=
  match s.hub.migrations.find? (fun m => m.part == part) with
  | none => s
  | some m =>
    let rest := s.hub.migrations.filter (fun x => x.part != part)
    let s1 := s.modHub (fun h =>
      { h with
        override := tableSet m.page m.tower h.override
        redirects := tableSet m.page s.now h.redirects
        migrations := if m.left ≤ 1 then rest else rest ++ [{ m with page := m.page + 1, left := m.left - 1 }] })
    let s2 := (List.range' (16 * m.page) 16).foldl State.moveLine s1
    if m.left ≤ 1 then s2.setXl part (fun x => { x with mgctl := withBit x.mgctl 63 false }) else s2

def execMigrationSwitch (part : Nat) (s : State) : Host.Outcome State Fault Refusal := .next (s.migrationSwitch part)

/-- MIGRATION_RETIRE: the redirect goes 20 µs and 40 ns after the switch. -/
def State.migrationRetire (s : State) (page : Nat) : State :=
  match tableFind page s.hub.redirects with
  | none => s
  | some t =>
    if t + 20040 ≤ s.now then s.modHub (fun h => { h with redirects := tableErase page h.redirects }) else s

def execMigrationRetire (page : Nat) (s : State) : Host.Outcome State Fault Refusal := .next (s.migrationRetire page)

/-! ## Power gating (R432) -/

/-- The frame's dirty sectors reach the die cache, the rest is dropped. -/
def State.emptyFrameCache (s : State) (p : FrameId) : State :=
  ((dirtySectors (s.frame p).cache).foldl (fun s x => s.flushFrame p x.num x.untracked) s).modFrame p
    (fun f => { f with cache := [] })

/-- FRAME_POWER_GATE of a frame without teams; nothing happens while it holds one (log entry 4). -/
def State.gateFrame (s : State) (p : FrameId) : State :=
  if (s.teamsOn p).isEmpty && (s.rodsOn p).isEmpty then
    (s.emptyFrameCache p).modFrame p (fun f => { f with gated := true })
  else s

def execFramePowerGate (p : FrameId) (s : State) : Host.Outcome State Fault Refusal := .next (s.gateFrame p)

/-- SLICE_POWER_GATE: the slice writes back, its frames' copies go, and slice s XOR 8 takes its share of the hash; that
slice must be up. -/
def State.gateSlice (s : State) (d slice : Nat) : State :=
  if 16 ≤ slice || (s.die d).gatedSlices.contains slice || (s.die d).gatedSlices.contains (slice ^^^ 8) then s
  else
    let mine := (s.sectorsOn d).filter (fun x => s.sliceOf d x.1 == slice)
    (mine.foldl (fun s x => s.dieDiscard d x.1 x.2) s).modDie d (fun q => { q with gatedSlices := slice :: q.gatedSlices })

def execSlicePowerGate (die slice : Nat) (s : State) : Host.Outcome State Fault Refusal := .next (s.gateSlice die slice)

/-- POWER_GATE_WAKE: a slice takes back its share. -/
def State.wake (s : State) (t : GateTarget) : State :=
  match t with
  | .frame p => s.modFrame p (fun f => { f with gated := false })
  | .slice d n => s.modDie d (fun q => { q with gatedSlices := q.gatedSlices.filter (fun x => x != n) })

def execPowerGateWake (t : GateTarget) (s : State) : Host.Outcome State Fault Refusal := .next (s.wake t)

/-! ## Isolation (R433) -/

def State.setIsolated (s : State) (agent : Nat) (on : Bool) : State :=
  s.modHub (fun h => { h with isolated := withBit h.isolated agent on })

/-- A counter rises, saturating (R479). -/
def State.count (s : State) (c : Counter) (n : Nat) : State :=
  s.modHub (fun h =>
    { h with counters := tableSet c (BitVec.ofNat 64 (min (2 ^ 64 - 1) ((tableGet 0 c h.counters).toNat + n))) h.counters })

/-- The directory bit of an agent number (R427, R463). -/
def peerBit (agent : Nat) : Option Nat :=
  if agent < 32 then Config.agentOfDie agent
  else if agent = 48 then some 8
  else if agent = 49 then some 9
  else none

/-- Drained isolation of one agent: every sector it holds goes home first. -/
def State.drainAgent (s : State) (agent : Nat) : State :=
  let s1 :=
    if agent < 32 then (s.sectorsOn agent).foldl (fun s x => s.dieDiscard agent x.1 x.2) s
    else if agent = 48 then s.hub.core0.foldl (fun s x => s.writeBack 8 x.num) s
    else if agent = 49 then s.hub.core1.foldl (fun s x => s.writeBack 9 x.num) s
    else s
  s1.setIsolated agent true

/-- The sectors whose directory entry names the agent as owner. -/
def State.ownedBy (s : State) (bit : Nat) : List Nat :=
  s.hub.directory.flatMap (fun e =>
    ((List.range 4).filter (fun k => (e.2.st k).owned && e.2.owner == bit)).map (fun k => 4 * e.1 + k))

/-- An agent's copies are lost. -/
def State.loseCopies (s : State) (agent : Nat) : State :=
  if agent < 32 then
    (s.framesOfDie agent).foldl (fun s p => s.modFrame p (fun f => { f with cache := [] }))
      (s.modDie agent (fun q => { q with cache := [] }))
  else
    s.modHub (fun h =>
      { h with core0 := if agent = 48 then [] else h.core0, core1 := if agent = 49 then [] else h.core1
               netTlb := tableErase agent h.netTlb })

/-- Forced isolation of one agent: what it owns is poisoned at the home. -/
def State.forceAgent (s : State) (agent : Nat) : State :=
  let owned := match peerBit agent with | some b => s.ownedBy b | none => []
  let s1 := s.modHub (fun h => { h with poisoned := (owned ++ h.poisoned).eraseDups })
  ((s1.count (.poisonRaised agent) owned.length).loseCopies agent).setIsolated agent true

/-- The agents an isolation names: one of numbers 0 to 53 (R463), or with 64 + p those of partition p. -/
def State.isolationAgents (s : State) (agent : Nat) : List Nat :=
  if agent < 54 then [agent]
  else if 64 ≤ agent ∧ agent < 72 then
    let d := s.partition (agent - 64)
    maskLanes d.dieMask ++ ((List.range 4).filter (fun n => d.netMask.getLsbD n)).map (fun n => 50 + n)
  else []

def State.markPartition (s : State) (agent : Nat) : State :=
  if 64 ≤ agent then
    s.modHub (fun h => { h with partitions := Vector.ofFn (fun k =>
      if k.val + 64 = agent then { h.partitions[k] with isolated := true } else h.partitions[k]) })
  else s

def execDrainedIsolation (agent : Nat) (s : State) : Host.Outcome State Fault Refusal :=
  .next (((s.isolationAgents agent).foldl (fun s a => s.drainAgent a) s).markPartition agent)

def execForcedIsolation (agent : Nat) (s : State) : Host.Outcome State Fault Refusal :=
  .next (((s.isolationAgents agent).foldl (fun s a => s.forceAgent a) s).markPartition agent)

/-! ## Routes that are lost (R274, R304, R469) -/

/-- A die whose reset has been accepted: its routes are about to go. -/
def State.leaving (s : State) (d : Nat) : Bool := (s.die d).phase != .running

/-- Removing an agent, beside those that are about to leave, leaves an enumerated agent without a route to the hub: a die beyond
it, or the tower it carries. -/
def State.cutsOff (s : State) (d : Nat) : Bool :=
  if 32 ≤ d then false
  else
    let gone (e : Nat) : Bool := e == d || (e != hubNode && s.leaving e)
    let reach := s.within gone hubNode longestRoute
    (List.range 32).any (fun e => !gone e && s.nodeUp e && !reach.contains e)
      || (match Config.towerDies.findIdx? (· == d) with
          | some t => !s.hub.isolated.getLsbD (32 + t)
          | none => false)

/-- Loads under way whose message is lost come back as link-down poison. `lost` names the routes on which messages are. -/
def State.cutLoads (s : State) (lost : List Nat → Bool) : State :=
  { s with rods := s.rods.map (fun e =>
      if e.2.lanes.toList.all (fun x => x.loads.isEmpty) then e
      else
        (e.1, e.2.mapLanes 0xFFFFFFFF (fun _ x => { x with loads := x.loads.map (fun q =>
          if (piecesOf q.xlats q.addr.toNat q.size).any (fun x =>
            s.needsMessage e.1.frame q.scope x && lost (s.path e.1.frame.die x.sector)) then { q with cut := true } else q) }))) }

/-- A write on a lost route may be among those that were not delivered: which are is free, and the error of one is
deferred (log entry 52). -/
def State.cutWrite (lost : List Nat → Bool) (s : State) (w : RodKey × Nat × Nat × DWord) : State :=
  let (k, l, n, addr) := w
  if !lost (s.path k.frame.die n) then s
  else
    let (v, s1) := s.draw
    if v.getLsbD 0 then
      s1.modRod k (fun r => r.setLane l { r.lane l with
        writes := (r.lane l).writes.erase (n, addr), deferred := (r.lane l).deferred ++ [{ cause := .linkDown, addr := addr }] })
    else s1

/-- Every write under way. -/
def State.writesUnderWay (s : State) : List (RodKey × Nat × Nat × DWord) :=
  s.rods.flatMap (fun e => (List.range 32).flatMap (fun l => (e.2.lane l).writes.map (fun w => (e.1, l, w.1, w.2))))

/-- The accesses that a running command still has to make, with the count at which each stands: global address, and whether
its route is lost. -/
def State.lostAt (s : State) (p : FrameId) (c : Cmd) (lost : List Nat → Bool) : List (Nat × Nat) :=
  let asid := ((s.launch? c.launch).map Launch.asid).getD 0
  let part := (s.asidEntry asid).part
  let gone (va : Nat) : Bool :=
    match ((s.frame p).tlb ++ (s.die p.die).tlb).find? (fun x => x.covers asid part va) with
    | none => false
    | some x => lost (s.path p.die ((x.pa + (va - x.va)) / 64))
  let rest := List.range' c.progress (c.total - c.progress)
  let row (r : Nat) : Nat × Nat :=
    if c.index = 0x23 then
      ((BitVec.ofInt 64 ((c.e1.toNat : Int) + (r : Int) * (c.e2.extractLsb' 0 32).toInt)).toNat, hi32 c.e0 % 2 ^ 16)
    else
      (c.e1.toNat + r * (if (Cmd.eword c).j || lo32 c.e2 = 0 then c.window.rowBytes else lo32 c.e2),
        if r < c.window.rows then c.window.rowBytes else 0)
  match c.index with
  | 0x20 | 0x21 =>
    ((splitSectors (rest.length / 64 + 2) (c.e1.toNat + c.progress) rest.length).filter (fun e => gone e.1)).map
      (fun e => (e.1 - c.e1.toNat, e.1))
  | 0x22 => (rest.map (fun r => (r, c.e1.toNat + r * 2 ^ c.mode))).filter (fun e => gone e.2)
  | 0x23 | 0x24 =>
    (rest.flatMap (fun r => (splitSectors ((row r).2 / 64 + 2) (row r).1 (row r).2).map (fun e => (r, e.1)))).filter
      (fun e => gone e.2)
  | _ =>
    match s.teamOf c.launch (hi32 c.e1) with
    | some (pk, _) => if lost ((s.route p.die pk.frame.die).getD []) then rest.map (fun r => (r, 0)) else []
    | none => []

/-- A running command some of whose accesses are lost stops at one of them with link down, or has none of them under way:
which is free (R304; log entry 52). A CPPEER names no global address: its record's address is 0. -/
def State.cutCommand (p : FrameId) (e : EngineId) (lost : List Nat → Bool) (s : State) (n : Nat) : State :=
  match s.entry? p e n with
  | none => s
  | some c =>
    match s.team? (cmdTeam p c) with
    | none => s
    | some t =>
      if c.st != .running || !c.reaching then s
      else
        let at_ := s.lostAt p c lost
        if at_ = [] then s
        else
          let (v, s1) := s.draw
          match at_[v.toNat % (at_.length + 1)]? with
          | none => s1
          | some (k, va) =>
            let r := s1.reachTo p t c k
            match r.fault with
            | some (cause, a) => r.s.faultCommand p e n { c with progress := r.progress } cause (BitVec.ofNat 64 a)
            | none => r.s.faultCommand p e n { c with progress := r.progress } .linkDown (BitVec.ofNat 64 va)

/-- The running commands of every engine, from the youngest, so that an entry that goes moves none still to come. -/
def State.cutCommands (s : State) (lost : List Nat → Bool) : State :=
  s.framesInUse.foldl (fun t p =>
    engines.foldl (fun t e =>
      (List.range ((t.frame p).engine e).entries.length).reverse.foldl (State.cutCommand p e lost) t) t) s

/-- MESSAGES ARE LOST on some routes: loads and commands meet link down, and writes may. Whether a write was performed before
the cut its cause does not tell (R469). -/
def State.cutMessages (s : State) (lost : List Nat → Bool) : State :=
  let s1 := s.cutLoads lost
  (s1.writesUnderWay.foldl (State.cutWrite lost) s1).cutCommands lost

/-! ## Links (R465, R469, R479) -/

/-- LINK_DOWN: messages over the link that are not delivered complete as link-down poison. -/
def State.linkDown (s : State) (a b : Nat) : State :=
  if !isLink a b || !s.linkUp a b then s
  else
    let s1 := s.cutMessages (crossesLink a b)
    (s1.modHub (fun h =>
      { h with linksDown := linkKey a b :: h.linksDown, routeEpoch := h.routeEpoch + 1 })).count
        (.linkDowns (linkKey a b).1 (linkKey a b).2) 1

def execLinkDown (a b : Nat) (s : State) : Host.Outcome State Fault Refusal := .next (s.linkDown a b)

/-- LINK_RETRAIN: the link carries traffic again, and routes through it may be restored. -/
def State.linkRetrain (s : State) (a b : Nat) : State :=
  if !isLink a b then s
  else
    (s.modHub (fun h =>
      { h with linksDown := h.linksDown.filter (fun k => k != linkKey a b), routeEpoch := h.routeEpoch + 1 })).count
        (.linkRetrains (linkKey a b).1 (linkKey a b).2) 1

def execLinkRetrain (a b : Nat) (s : State) : Host.Outcome State Fault Refusal := .next (s.linkRetrain a b)

/-! ## Reset of a die (R468, R469) -/

def State.setPhase (s : State) (d : Nat) (ph : ResetPhase) : State := s.modDie d (fun q => { q with phase := ph })

/-- A die whose frames hold no team. -/
def State.dieEmpty (s : State) (d : Nat) : Bool :=
  s.rods.all (fun e => e.1.frame.die != d || e.1.slot == .firmware) && s.teams.all (fun e => e.1.frame.die != d)

/-- The agents that have a reset of their own: compute dies, towers, core chiplets and network chiplets (R463). -/
def agentCount : Nat := 54

/-- RESET_REQUEST: refused when it would cut an agent off; held while another agent is in drain-forward. -/
def State.resetRequest (s : State) (d : Nat) : State :=
  if agentCount ≤ d || (s.die d).phase != .running || s.hub.isolated.getLsbD d then s
  else if (List.range agentCount).any (fun e => (s.die e).phase == .drainForward) then
    s.modHub (fun h => { h with heldResets := h.heldResets.filter (fun e => e != d) ++ [d] })
  else if s.cutsOff d then s.report (.resetRefused d)
  else s.setPhase d .drainingWork

def execResetRequest (die : Nat) (s : State) : Host.Outcome State Fault Refusal := .next (s.resetRequest die)

/-- The requests that were held are made, in order, once a route change has ended. -/
def State.releaseResets (s : State) : State :=
  s.hub.heldResets.foldl State.resetRequest (s.modHub (fun h => { h with heldResets := [] }))

/-- A route passes through the die (R468). -/
def State.isHop (s : State) (d : Nat) : Bool :=
  decide (d < 32) && nodes.any (fun a => nodes.any (fun b => a != d && b != d && ((s.route a b).getD []).contains d))

/-- Drain-forward may last so long, in ns (R468). -/
def forwardBound : Nat := 10000

/-- DRAIN_FORWARD: an empty die forwards while its routes are rewritten, and is then ready to be isolated; a die that is no
hop is so at once. Past its bound the reset is refused (R469). -/
def State.drainForward (s : State) (d : Nat) : State :=
  match (s.die d).phase with
  | .drainingWork =>
    if !s.dieEmpty d then s
    else if s.isHop d then s.modDie d (fun q => { q with phase := .drainForward, forwardSince := s.hub.now.toNat })
    else s.setPhase d .isolating
  | .drainForward =>
    if s.hub.now.toNat ≤ (s.die d).forwardSince + forwardBound then
      ((s.modHub (fun h => { h with routeEpoch := h.routeEpoch + 1 })).setPhase d .isolating).releaseResets
    else ((s.report (.resetRefused d)).setPhase d .running).releaseResets
  | .running | .isolating => s

def execDrainForward (die : Nat) (s : State) : Host.Outcome State Fault Refusal := .next (s.drainForward die)

/-- The hub starts a frame's firmware context at an address (R357, R461 step 7). -/
def State.startContext (s : State) (p : FrameId) (addr : DWord) : State :=
  (s.modFrame p (fun f => { f with fw := .running })).setRod (fwKey p)
    (Rod.firmware.setLane 0 { Rod.firmware.lane 0 with pc := addr &&& ~~~7#64 })

/-- What a reset of its die leaves of a frame: the state saved in the context areas (R468). -/
def Frame.afterReset (f : Frame) : Frame :=
  { Frame.reset with
    savedRods := f.savedRods, savedTeams := f.savedTeams, saveEpoch := f.saveEpoch
    requests := f.requests.filter (fun q => match q.kind with | .reload _ _ | .reloadTeam _ => true | _ => false) }

def dieFrames (d : Nat) : List FrameId := (List.range (Config.framesOf d)).map (fun f => ⟨d, f⟩)

/-- The kind of an agent of a capability entry (R462). -/
def agentKind (agent : Nat) : Nat :=
  if agent < 32 then (if Config.isStream agent then 2 else 1)
  else if agent < 48 then 3
  else if agent < 50 then 4
  else 5

/-- The tested fields of an agent's capability entry as they should be (R462). -/
def goodEntry (agent : Nat) : EntryTest := { kind := agentKind agent, reserved := 0 }

/-- Enumeration isolates the agent: its kind or a reserved field of its capability entry is wrong, or its firmware image fails
verification (R463, R476). -/
def Hub.entryFails (h : Hub) (agent : Nat) : Bool := tableGet (goodEntry agent) agent h.entries != goodEntry agent

/-- An image loads only when its signature verifies under the root key and its version is no lower than the rollback count
(R476). -/
def BootImage.loads (i : BootImage) (rollback : Nat) : Bool :=
  Config.imageVerifies Config.rootKeyDigest i.digest i.signature && decide (rollback ≤ i.version)

/-- The image of an agent for which none was written is the one it is delivered with: it verifies, with version 0 (log entry
13). -/
def Hub.imageFails (h : Hub) (agent : Nat) : Bool :=
  match tableFind agent h.images with
  | some i => !i.loads h.rollback
  | none => decide (0 < h.rollback)

/-- What enumeration reads of an agent's capability entry: the digest is that of the image the agent boots (R462). -/
def Hub.readEntry (h : Hub) (agent : Nat) : EntryRead :=
  { test := tableGet (goodEntry agent) agent h.entries
    digest := ((tableFind agent h.images).map BootImage.digest).getD (Config.firmwareDigest agent) }

/-- The hub reads an agent's capability entry (R461 step 3). -/
def Hub.enumerate (h : Hub) (agent : Nat) : Hub := { h with known := tableSet agent (h.readEntry agent) h.known }

def Hub.agentFails (h : Hub) (agent : Nat) : Bool := h.entryFails agent || h.imageFails agent

/-- The agent's links are trained: those that were down carry traffic again. -/
def State.trainLinks (s : State) (d : Nat) : State :=
  let down := s.hub.linksDown.filter (fun k => k.1 == d || k.2 == d)
  down.foldl (fun s k => s.count (.linkRetrains k.1 k.2) 1)
    (s.modHub (fun h => { h with linksDown := h.linksDown.filter (fun k => !down.contains k) }))

/-- DIE_RESET of an isolated agent: every sector in I, its links trained, a die's frames at reset, and the agent enumerated
again; its contexts start, unless enumeration isolates it. -/
def State.resetDie (s : State) (d : Nat) : State :=
  if (s.die d).phase != .isolating || !s.hub.isolated.getLsbD d then s
  else
    let q := s.die d
    let s1 := (s.setDie d { Die.reset with disabled := q.disabled, supplySteps := q.supplySteps }).trainLinks d
    let s2 := ((s1.loseCopies d).count (.resets d) 1).modHub (fun h => h.enumerate d)
    let frames := if d < 32 then dieFrames d else []
    let s3 := frames.foldl (fun s p => (s.modFrame p Frame.afterReset).setRod (fwKey p) Rod.firmware) s2
    if s.hub.agentFails d then s3
    else (frames.foldl (fun s p => s.startContext p (Config.firmwareEntry p)) s3).setIsolated d false

def execDieReset (die : Nat) (s : State) : Host.Outcome State Fault Refusal := .next (s.resetDie die)

/-! ### Forced reset (R469) -/

/-- The items of a rod of a team, by the rod's number. -/
def LaunchRecord.itemsOf (l : LaunchRecord) (team rod : Nat) : List Nat :=
  let first := (team * l.teamRods + rod) * 32
  ((List.range' first 32).filter (fun n => n < l.count.toNat)).map (fun n => l.base.toNat + n)

/-- Items are killed: their slots close and their outcome is recorded. -/
def State.killItems (s : State) (launch : Nat) (items : List Nat) : State :=
  let s1 : State := { s with carry := items.foldl (fun t i => closeSlots launch i 0xFF t) s.carry }
  s1.modLaunch launch (fun l => { l with outcomes := l.outcomes ++ items.map (fun i => (i, ItemOutcome.killed)) })

/-- A resident rod is lost with its die; with it the engine faults that waited for it (R303, R403). -/
def State.loseRod (s : State) (k : RodKey) (r : Rod) : State :=
  ((s.killItems r.launch r.killedItems).countFault r.launch (1 + r.engineFaults.length)).eraseRod k

/-- A resident team is lost with its die: its resident and its evicted rods, and those not yet started; each rod adds a fault to
the launch's count, and so does each engine fault that waited for one of its rods (R403). -/
def State.loseTeam (s : State) (tk : TeamKey) (t : Team) : State :=
  let p := tk.frame
  let rods := (s.rodsOn p).filter (fun e => e.2.teamSlot == tk.slot)
  let evicted := (s.frame p).savedRods.filter (fun v => v.rod.launch == t.launch && v.rod.team == t.number)
  let here := rods.map (fun e => e.2.rod) ++ evicted.map (fun v => v.rod.rod)
  let unborn := (List.range t.rods).filter (fun n => !t.retired.getLsbD n && !here.contains n)
  let s1 := rods.foldl (fun s e => s.loseRod (rodKey p e.1) e.2) s
  let s2 := evicted.foldl (fun s v => s.killSavedRod p v.rod) s1
  let s3 := (s2.killItems t.launch (unborn.flatMap ((s.recordOfLaunch t.launch).itemsOf t.number))).countFault t.launch
    (unborn.length + t.faults.length)
  ((s3.eraseTeam tk).modFrame p (fun f => f.dropTeam tk.slot)).modLaunch t.launch (fun l =>
    { l with retired := l.retired ++ [t.number], lastRetire := s.frameTime p })

/-- FORCED_RESET: forced isolation at once, undelivered messages cut, resident teams killed. -/
def State.forcedReset (s : State) (d : Nat) : State :=
  if agentCount ≤ d then s
  else
    let s1 := s.cutMessages (fun route => route.contains d)
    let s2 := (s1.teams.filter (fun e => e.1.frame.die == d)).foldl (fun s e => s.loseTeam e.1 e.2) s1
    let s3 := s2.modHub (fun h => { h with routeEpoch := h.routeEpoch + 1 })
    ((s3.forceAgent d).setPhase d .isolating).releaseResets

def execForcedReset (die : Nat) (s : State) : Host.Outcome State Fault Refusal := .next (s.forcedReset die)

/-! ## Partitions (R470, R471) -/

/-- Two ranges of positive length share a number. -/
def overlapping (a la b lb : Nat) : Bool := decide (0 < la) && decide (0 < lb) && decide (a < b + lb) && decide (b < a + la)

/-- The ranges of a memory that are none: every field is a multiple of 1 GiB, and there are at most four (R471). -/
def rangesOk (l : List (Nat × Nat)) : Bool :=
  decide (l.length ≤ 4) && l.all (fun r => r.1 % 2 ^ 30 == 0 && r.2 % 2 ^ 30 == 0)

/-- The bytes from `a` up to `b` lie in ranges, one adjoining the next. -/
def inRanges (l : List (Nat × Nat)) (b : Nat) : Nat → Nat → Bool
  | 0, a => decide (b ≤ a)
  | n + 1, a =>
    decide (b ≤ a) || (match l.find? (fun r => r.1 ≤ a && a < r.1 + r.2) with
      | some r => inRanges l b n (r.1 + r.2)
      | none => false)

/-- A descriptor that fits by itself: its ranges are as R471 lays them out, and hold its save pool. -/
def fitDesc (d : PartDesc) : Bool :=
  rangesOk d.ranges && inRanges d.ranges (d.saveBase + d.saveSize) 5 d.saveBase

/-- Two partitions of which R471 rejects one: their dies, network chiplets, memories or ASID spans overlap. -/
def clashDesc (d o : PartDesc) : Bool :=
  (o.dieMask &&& d.dieMask) != 0 || (o.netMask &&& d.netMask) != 0
    || overlapping o.firstAsid o.asidCount d.firstAsid d.asidCount
    || o.ranges.any (fun r => d.ranges.any (fun q => overlapping r.1 r.2 q.1 q.2))

/-- What is wrong with a table of partitions: an unfit descriptor, two that clash, too many queue slots, or a die or network
chiplet that belongs to no partition (R470, R471). -/
def badTable (l : List PartDesc) : Bool :=
  let d := l.filter PartDesc.isDefined
  d.any (fun x => !fitDesc x)
    || (List.range d.length).any (fun i => (List.range i).any (fun j =>
        match d[i]?, d[j]? with
        | some x, some y => clashDesc x y
        | _, _ => false))
    || decide (1024 < d.foldl (fun a x => a + x.quota) 0)
    || d.foldl (fun m x => m ||| x.dieMask) 0 != 0xFFFFFFFF#32 || d.foldl (fun m x => m ||| x.netMask) 0 != 0xF#4

/-- A die holds a launch: a team on it, one saved from it, or an unstarted team assigned to it. -/
def State.dieHolds (s : State) (d : Nat) : Bool :=
  !s.dieEmpty d || s.frames.any (fun e => e.1.die == d && e.2.savedTeams != [])
    || s.hub.launches.any (fun l => !l.completed && l.frames.any (fun p => p.die == d && l.awaits p))

/-- The table of partitions with new descriptors in it; one that is not defined removes its partition. -/
def Hub.tableWith (h : Hub) (changes : List (Nat × PartDesc)) : Vector PartDesc 8 :=
  Vector.ofFn (fun k =>
    match tableFind k.val changes with
    | some d => if d.isDefined then d else PartDesc.undefinedPart
    | none => h.partitions[k])

/-- The dies that a change of descriptors affects. -/
def State.affected (s : State) (changes : List (Nat × PartDesc)) : List Nat :=
  maskLanes (changes.foldl (fun m c => m ||| (s.partition c.1).dieMask ||| c.2.dieMask) 0)

/-- PARTITION_CHANGE: partitions are formed, changed or removed only while every die affected holds no launch, and only where
the table they make is a good one (log entry 56). -/
def State.partitionChange (s : State) (changes : List (Nat × PartDesc)) : State :=
  if changes.any (fun c => decide (8 ≤ c.1)) || (s.affected changes).any s.dieHolds
      || badTable (s.hub.tableWith changes).toList then s.report (.partitionRefused ((changes.map Prod.fst).headD 0))
  else s.modHub (fun h => { h with partitions := h.tableWith changes })

def execPartitionChange (first : Nat × PartDesc) (more : List (Nat × PartDesc)) (s : State) :
    Host.Outcome State Fault Refusal := .next (s.partitionChange (first :: more))

end Sys2Proof.Machine
end

