-- ==== Sys2Proof/Machine/Service.lean ====
section
/-!
DEFINITION. Sys2Proof/Machine/Service.lean: the package's life: bring-up (R461 to R463), package time (R474, R475), the hub link
(R473), boot security (R476, R477), re-planning and lifetime counters (R478, R479), shutdown and loss of power.
-/

namespace Sys2Proof.Machine

/-! ## POWER_ON_RESET (R461) -/

/-- A source of R474; another code selects the hub's own oscillator. -/
def sourceOf (n : Nat) : BitVec 3 := if n ≤ 5 then BitVec.ofNat 3 n else 0

/-- The hub after power-on or a package reset: what non-volatile storage and fuses hold is kept, and the counters, which only a
loss of power takes back to what was stored (R479). -/
def Hub.poweredOn (h : Hub) (source : Nat) : Hub :=
  { Hub.reset with
    stored := h.stored, counters := h.counters, rollback := h.rollback, timeSource := sourceOf source, now := h.now
    lastDecay := h.lastDecay, lastStore := h.lastStore, lastHour := h.lastHour, images := h.images, entries := h.entries
    identity := h.identity }

/-- The span in progress since a moment, carried over to a new value of package time. -/
def carriedOver (now v : DWord) (since : Int) : Int := v.toNat - (now.toNat - since)

/-- Package time is acquired from a source: a value of the outside world (log entry 26); free-running it goes on. The spans in
progress for the store of the counters and for the powered hour go on (R479). -/
def State.acquireTime (s : State) : State :=
  if s.hub.timeSource = 0 then s
  else
    let (v, s1) := s.draw
    s1.modHub (fun h => { h with
      now := v, lastDecay := v.toNat, lastStore := carriedOver h.now v h.lastStore, lastHour := carriedOver h.now v h.lastHour
      timeStatus := withBit h.timeStatus 0 true })

/-- The firmware contexts of every die that is not isolated start (R461 step 7). -/
def State.startContexts (s : State) : State :=
  (Config.allFrames.filter (fun p => !s.hub.isolated.getLsbD p.die)).foldl
    (fun s p => s.startContext p (Config.firmwareEntry p)) s

/-- The capability entries that differ from the defaults are read. -/
def Hub.enumerateAll (h : Hub) : Hub :=
  ((h.entries.map Prod.fst ++ h.images.map Prod.fst).eraseDups).foldl Hub.enumerate h

/-- The identity derived from the device secret (R477). -/
def Identity.derived : Identity :=
  let k := Config.identityKeys Config.deviceSecret
  { secretKey := k.1, publicKey := k.2, certificate := Config.certificate k.2 }

/-- The hub has its identity from its first boot on. -/
def Hub.identify (h : Hub) : Hub := { h with identity := some (h.identity.getD Identity.derived) }

/-- The steps of R461: agents that fail one, those of `failed` and those that enumeration isolates (R463, R476), are isolated;
when the hub's own image fails (54 among `failed`, or by its test) it stays in recovery. -/
def State.bringUp (s : State) (failed : List Nat) (source : Nat) : State :=
  let s1 : State := { State.reset with agenda := s.agenda, free := s.free, hub := s.hub.poweredOn source }
  if failed.contains 54 || s.hub.imageFails 54 then s1.modHub (fun h => { h with recovery := true })
  else
    let s2 := ((List.range 54).filter (fun a => failed.contains a || s.hub.agentFails a)).foldl (fun s a => s.setIsolated a true)
      (s1.modHub (fun h => h.enumerateAll.identify))
    ((s2.acquireTime.startContexts).modHub (fun h => { h with ready := true })).count .packageResets 1

def execPowerOnReset (failed : List Nat) (source : Nat) (s : State) : Host.Outcome State Fault Refusal :=
  .next (s.bringUp failed source)

/-! ## Package time (R474, R475) -/

/-- TIME_SOURCE_SELECT: a code that R474 does not list selects nothing. Corrections towards the old source end (log entry 45). -/
def execTimeSourceSelect (source : BitVec 3) (s : State) : Host.Outcome State Fault Refusal :=
  .next (if source.toNat ≤ 5 then
      s.modHub (fun h => { h with
        timeSource := source, stepDue := 0, hold := 0, timeStatus := withBit (withBit h.timeStatus 0 false) 1 false })
    else s)

/-- TIME_STATUS_READ clears the stepped bit. -/
def Hub.statusRead (h : Hub) : Hub := { h with timeStatus := withBit h.timeStatus 2 false }

def execTimeStatusRead (s : State) : Host.Outcome State Fault Refusal := .next (s.modHub Hub.statusRead)

/-- TIME_SOURCE_LOSS: the hub holds over, and no correction goes on; free-running it has no source to lose. -/
def execTimeSourceLoss (s : State) : Host.Outcome State Fault Refusal :=
  .next (if s.hub.timeSource = 0 then s
    else s.modHub (fun h => { h with
      stepDue := 0, hold := 0, timeStatus := withBit (withBit h.timeStatus 0 false) 1 true }))

/-- OFFSET_MEASUREMENT: the offset of the source from package time. One of 1 ms or more is corrected, a forward one by a step,
a backward one by a hold; a smaller one by rate, and the correction before it is over (R474). -/
def execOffsetMeasurement (offset : BitVec 64) (s : State) : Host.Outcome State Fault Refusal :=
  .next (if s.hub.timeSource = 0 then s
    else s.modHub (fun h =>
      { h with
        timeOffset := offset
        hold := if offset.toInt ≤ -1000000 then offset.toInt.natAbs else 0
        stepDue := if 1000000 ≤ offset.toInt then offset.toNat else 0
        timeStatus := withBit (withBit h.timeStatus 0 true) 1 false }))

/-! ## Attestation (R477) -/

/-- An agent's capability entry as the hub has read it. -/
def Hub.entry (h : Hub) (agent : Nat) : EntryRead :=
  tableGet { test := goodEntry agent, digest := Config.firmwareDigest agent } agent h.known

def Hub.digestBytes (h : Hub) (agent : Nat) : List Byte := leBytes 32 (h.entry agent).digest.toNat

/-- The signed bytes 0x000 to 0x70F. -/
def State.attested (s : State) (nonce : BitVec 256) : List Byte :=
  leBytes 32 nonce.toNat ++ leBytes 8 s.now ++ leBytes 8 s.hub.isolated.toNat ++ s.hub.digestBytes 54
    ++ (List.range 54).flatMap s.hub.digestBytes

/-- The signature of bytes by the hub's identity key. -/
def State.signed (s : State) (b : List Byte) : List Byte :=
  padTo 2420 ((Config.signature (s.hub.identity.getD Identity.derived).secretKey b).take 2420)

/-- ATTESTATION_REQUEST: the report with its signature of 2420 bytes. -/
def execAttestationRequest (nonce : BitVec 256) (s : State) : Host.Outcome State Fault Refusal :=
  .next (s.report (.attestation (s.attested nonce ++ s.signed (s.attested nonce))))

/-- ROLLBACK_COUNT_RAISE: fuses are only ever added, at most 64 (R476). -/
def execRollbackCountRaise (count : Nat) (s : State) : Host.Outcome State Fault Refusal :=
  .next (s.modHub (fun h => { h with rollback := max h.rollback (min count 64) }))

/-! ## The package information page (R462, R464) -/

/-- The capability entry of an agent, with what enumeration has read of it: a die's links are those of R15; those of another
agent, and the maximum power, are not in the manual (log entry 13). -/
def Hub.capabilityEntry (h : Hub) (agent : Nat) : List Byte :=
  let v := Config.capability agent
  let e := (h.entry agent).test
  let links := if agent < 32 then byteOf (linksOf agent).length else v.extractLsb' 0 8
  let pos := if agent < 32 then 16 * (Config.gridPos agent).1 + (Config.gridPos agent).2 else 0xFF
  [byteOf e.kind, 1, byteOf pos, links]
    ++ leBytes 2 (if agent < 32 then Config.framesOf agent else 0) ++ leBytes 2 (e.reserved.extractLsb' 0 16).toNat
    ++ leBytes 8 (if agent < 32 then (featOf agent).toNat else 0)
    ++ leBytes 8 (if 32 ≤ agent ∧ agent < 48 then 2 ^ 37 else 0) ++ leBytes 2 (v.extractLsb' 16 16).toNat
    ++ leBytes 6 (e.reserved.extractLsb' 16 48).toNat ++ h.digestBytes agent

/-- A partition descriptor as 256 bytes (R471). -/
def PartDesc.bytes (d : PartDesc) : List Byte :=
  leBytes 4 d.dieMask.toNat ++ leBytes 1 d.netMask.toNat
    ++ [byteOf ((if d.isDefined then 1 else 0) + (if d.isolated then 2 else 0))] ++ leBytes 2 d.quota
    ++ leBytes 2 d.firstAsid ++ leBytes 2 d.asidCount ++ leBytes 4 d.sliceUs ++ leBytes 4 d.queueWdogMs ++ zeros 12
    ++ padTo 64 ((d.ranges.take 4).flatMap (fun r => leBytes 8 r.1 ++ leBytes 8 r.2))
    ++ leBytes 8 d.saveBase ++ leBytes 8 d.saveSize ++ zeros 144

/-- A translation control page as it reads: xl.umholders shows the holders that are not clear now (R425). -/
def State.xlShown (s : State) (part : Nat) (x : XlPage) : XlPage :=
  { x with umholders := if x.busy then s.holdersLeft part x else 0 }

/-- A translation control page as 64 bytes (R425). -/
def XlPage.bytes (x : XlPage) : List Byte :=
  leBytes 8 x.lease.toNat ++ leBytes 8 x.umva.toNat ++ leBytes 8 x.umlen.toNat ++ leBytes 4 x.umctl.toNat
    ++ leBytes 4 x.umstat.toNat ++ leBytes 8 x.umdone.toNat ++ leBytes 8 x.umholders.toNat ++ leBytes 4 x.umseq.toNat
    ++ zeros 4 ++ leBytes 8 x.mgctl.toNat

/-- The time page as 64 bytes (R475). -/
def Hub.timePage (h : Hub) : List Byte :=
  leBytes 8 h.timeSource.toNat ++ leBytes 8 h.now.toNat ++ leBytes 8 h.timeOffset.toNat ++ leBytes 4 h.timeStatus.toNat
    ++ zeros 36

/-! The lifetime counters (R479): the manual gives their page no layout, and has more of them than it can hold; which counter a
word holds is free (log entry 13). -/

/-- Bins of 5 °C from 0 to 125 °C. -/
def temperatureBins : Nat := 25

def allCounters : List Counter :=
  let agents := List.range 54
  [.poweredHours, .packageResets]
    ++ agents.flatMap (fun a => [.energy a, .maxTemperature a, .correctedErrors a, .uncorrectedErrors a, .poisonRaised a]
        ++ (List.range temperatureBins).map (Counter.temperature a))
    ++ nodes.flatMap (fun a => ((linksOf a).filter (fun b => a < b)).flatMap (fun b => [.linkRetrains a b, .linkDowns a b]))
    ++ (List.range 32).flatMap (fun d => [.replans d, .clustersDisabled d, .resets d])

def Hub.counterPage (h : Hub) : List Byte :=
  (List.range 512).flatMap (fun k =>
    match allCounters[Config.counterSlot k]? with
    | some c => leBytes 8 (tableGet 0 c h.counters).toNat
    | none => zeros 8)

/-- The package information page (R464). -/
def State.infoPage (s : State) : List Byte :=
  let h := s.hub
  padTo 0x1000
    (leBytes 4 0x514E5450 ++ leBytes 4 ((if h.ready then 1 else 0) + (if h.recovery then 2 else 0))
      ++ leBytes 8 h.isolated.toNat ++ leBytes 1 ((h.partitions.toList.filter PartDesc.isDefined).length) ++ zeros 47
      ++ (List.range 54).flatMap h.capabilityEntry)
    ++ padTo 0x1000 (h.partitions.toList.flatMap PartDesc.bytes)
    ++ padTo 0x1000 (h.xl.toList.zipIdx.flatMap (fun e => (s.xlShown e.2 e.1).bytes))
    ++ padTo 0x1000 h.timePage
    ++ h.counterPage

/-! ## The hub link (R473) -/

/-- HUB_LINK_FRAME: a copy arrives as a write, then the signal it names; a failure is reported to the driver. -/
def State.hubFrame (s : State) (asid addr : Nat) (b : List Byte) (sig : Option SignalWrite) : State :=
  let s1 := if b = [] then s else completionWrite 0 (s.hubWrite asid addr b)
  match sig with
  | none => s1
  | some w => completionWrite 0 (s1.hubSignal asid w.addr w.value w.isAdd)

def execHubLinkFrame (asid addr : Nat) (bytes : List (BitVec 8)) (signal : Option SignalWrite) (s : State) :
    Host.Outcome State Fault Refusal := .next (s.hubFrame asid addr bytes signal)

/-! ## Ageing and lifetime counters (R478, R479) -/

/-- A re-plan of one die that holds no launch. -/
def State.replan (s : State) (d : Nat) (r : ReplanResult) : State :=
  let s1 :=
    match r with
    | .raise n => s.modDie d (fun q => { q with supplySteps := q.supplySteps + n })
    | .disable cs =>
      let fresh := cs.filter (fun c => !(s.die d).disabled.contains c && c < Config.framesOf d / 4)
      (s.modDie d (fun q => { q with disabled := fresh.eraseDups ++ q.disabled })).count (.clustersDisabled d)
        fresh.eraseDups.length
  s1.count (.replans d) 1

/-- MAINTENANCE_REPLAN of the dies named, in order, that hold no launch. -/
def execMaintenanceReplan (dies : List Nat) (results : List ReplanResult) (s : State) : Host.Outcome State Fault Refusal :=
  .next ((dies.zip results).foldl (fun s e => if 32 ≤ e.1 || s.dieHolds e.1 then s else s.replan e.1 e.2) s)

/-- The counters reach non-volatile storage. -/
def State.storeCounters (s : State) : State := s.modHub (fun h => { h with stored := h.counters, lastStore := (h.now.toNat : Int) })

/-- The counters are stored every 60 s, in ns; and the length of an hour. -/
def storeInterval : Nat := 60000000000
def hourLength : Nat := 3600000000000

/-- The powered hours that have passed are counted, on package time. -/
def State.hoursDue (s : State) : State :=
  let n := (((s.hub.now.toNat : Int) - s.hub.lastHour) / hourLength).toNat
  if n = 0 then s
  else (s.count .poweredHours n).modHub (fun h => { h with lastHour := h.lastHour + ((n * hourLength : Nat) : Int) })

/-- The store of every 60 s is made. -/
def State.storeDue (s : State) : State :=
  if s.hub.lastStore + storeInterval ≤ (s.hub.now.toNat : Int) then s.storeCounters else s

/-- A temperature is taken: the maximum and the histogram follow. -/
def State.temperatureTaken (s : State) (agent degrees : Nat) : State :=
  let top := max degrees (tableGet 0 (.maxTemperature agent) s.hub.counters).toNat
  let s1 := s.modHub (fun h =>
    { h with counters := tableSet (.maxTemperature agent) (BitVec.ofNat 64 (min (2 ^ 64 - 1) top)) h.counters })
  if degrees < 125 then s1.count (.temperature agent (degrees / 5)) 1 else s1

def execCounterFlush (s : State) : Host.Outcome State Fault Refusal := .next s.storeCounters

/-- What is left without power: non-volatile storage, with the images and the identity, fuses, and what the agents' capability
entries hold. -/
def State.unpowered (s : State) : State :=
  { State.reset with
    agenda := s.agenda, free := s.free
    hub := { Hub.reset with
      powered := false, stored := s.hub.stored, counters := s.hub.stored, rollback := s.hub.rollback
      images := s.hub.images, entries := s.hub.entries, identity := s.hub.identity } }

/-- ORDERLY_SHUTDOWN: the counters are stored, then the package is off. -/
def execOrderlyShutdown (s : State) : Host.Outcome State Fault Refusal := .next s.storeCounters.unpowered

/-- POWER_LOSS: counts since the last store are lost. -/
def execPowerLoss (s : State) : Host.Outcome State Fault Refusal := .next s.unpowered

end Sys2Proof.Machine
end

