-- ==== Sys2Proof/Machine/Clock.lean ====
section
/-!
DEFINITION. Sys2Proof/Machine/Clock.lean: package time (R12, R474, R475) with all that must happen at a moment of it, the accesses
of network chiplets and management contexts (R412, R419, R423), and what else comes from outside the compute dies.
-/

namespace Sys2Proof.Machine

/-! ## What is due (R93, R95, R99, R424, R434, R469) -/

/-- A divert is taken within so many ns of T_w (R95). -/
def divertBound : Nat := 2000

/-- An unmap completes within so many ns of the moment every holder is clear (R424). -/
def unmapBound : Nat := 1000

/-- A rod that owes its divert, is not stopped, and has no FENCE under way (R94, R95). -/
def Rod.mayDivert (r : Rod) : Bool := r.divert && r.stop == .none

/-- The package time at which a frame's copy of it reaches `t` (R12). -/
def whenCopyReads (p : FrameId) (t : Nat) : Nat := t + 20 - Config.clockSkew p % 41

/-- The package time by which a launch's rods on a frame have diverted: 2 µs after T_w by the frame's own copy (R95). -/
def Launch.divertBy (l : Launch) (p : FrameId) : Nat := whenCopyReads p (l.record.threshold + divertBound)

/-- The moments of a launch: T_w, D, and the last at which each divert is taken. -/
def State.launchMoments (s : State) (l : Launch) : List Nat :=
  if l.record.deadline = 0#64 || l.completed then []
  else
    (if l.wrapped || l.killed then [] else [l.record.threshold]) ++ (if l.killed then [] else [l.record.deadline.toNat])
      ++ (s.rods.filter (fun e => e.2.launch == l.seq && e.2.mayDivert)).map (fun e => l.divertBy e.1.frame)

/-- The moments of an unmap under way: each holder's end, and the last at which it completes. -/
def State.unmapMoments (s : State) (part : Nat) (x : XlPage) : List Nat :=
  if !x.busy then []
  else
    (s.hub.handed.filter (fun e => e.1.1 == x.isGlobal && e.1.2.1 == (if x.isGlobal then part else x.asid))).map
      (fun e => e.2 + 40) ++ (match x.clearAt with | some t => [t + unmapBound] | none => [])

/-- The moments at which something must happen. -/
def State.moments (s : State) : List Nat :=
  s.hub.launches.flatMap s.launchMoments ++ [s.hub.lastDecay + 100000]
    ++ (s.hub.xl.toList.zipIdx.flatMap (fun e => s.unmapMoments e.2 e.1))
    ++ (s.dies.filter (fun e => e.2.phase == .drainForward)).map (fun e => e.2.forwardSince + forwardBound + 1)
    ++ s.hub.queues.filterMap (fun e => e.2.limit) ++ [(s.hub.lastStore + storeInterval).toNat, (s.hub.lastHour + hourLength).toNat]

/-- The FENCEs that a rod has under way finish: the loads they wait for return, and they complete (R288, R298). -/
def State.finishFences (s : State) (k : RodKey) : State :=
  (List.range 32).foldl (fun s l =>
    match s.rod? k with
    | none => s
    | some r =>
      match (r.lane l).fence with
      | none => s
      | some f =>
        let s1 := s.drainAll k (r.subRod l &&& r.maskWhere (fun x => x.fence.any FenceWait.on))
        match s1.rod? k with
        | none => s1
        | some r1 => s1.completeFence k r1 l f) s

/-- The diverts of a launch that have not been taken 2 µs after T_w, by the frame's copy of package time, are taken: a FENCE under
way finishes first, and the rod comes to its boundary (R95, R298; log entry 51). -/
def State.forceDiverts (s : State) (l : Launch) : State :=
  (s.rods.filter (fun e => e.2.launch == l.seq && e.2.mayDivert && decide (l.divertBy e.1.frame ≤ s.hub.now.toNat))).foldl
    (fun s e => (s.finishFences e.1).boundary e.1) s

/-- What package time does to a launch: the threshold, then the kill, and the diverts that are late. -/
def State.launchDue (s : State) (seq : Nat) : State :=
  let s1 := (s.wrapUpThreshold seq).deadlineKill seq
  match s1.launch? seq with
  | some l => if l.record.deadline = 0#64 || l.completed then s1 else s1.forceDiverts l
  | none => s1

/-- An unmap under way: the moment at which every holder is clear is noted, and the completion that is late is made. -/
def State.unmapDue (s : State) (part : Nat) : State :=
  match s.hub.xl.toList[part]? with
  | none => s
  | some x =>
    if !x.busy || s.holdersLeft part x != 0 then s
    else
      match x.clearAt with
      | none => s.setXl part (fun y => { y with clearAt := some s.hub.now.toNat })
      | some t => if t + unmapBound ≤ s.hub.now.toNat then s.unmapComplete part else s

/-- A drain-forward past its bound ends (R469). -/
def State.forwardDue (s : State) (d : Nat) : State :=
  if (s.die d).phase == .drainForward && decide ((s.die d).forwardSince + forwardBound < s.hub.now.toNat) then s.drainForward d
  else s

/-- ALL THAT IS DUE at the present package time. -/
def State.takeDue (s : State) : State :=
  let s1 := (s.hub.launches.map Launch.seq).foldl State.launchDue s
  let s2 := ((List.range 8).foldl State.unmapDue s1).decay
  let s3 := (s2.dies.map Prod.fst).foldl State.forwardDue s2
  s3.askAllTimedOut.hoursDue.storeDue

/-! ## Package time goes on (R12, R474) -/

/-- The first moment after the present one, if it comes before `t`; else `t`. -/
def State.nextMoment (s : State) (t : Nat) : Nat :=
  s.moments.foldl (fun a m => if s.hub.now.toNat < m then min a m else a) t

/-- Package time advances by `ns`, less what a backward correction still holds it; it stops where something must happen
(log entry 51). -/
def State.tick (s : State) (ns : Nat) : State :=
  let s0 := s.takeDue
  let held := min s0.hub.hold ns
  let t := s0.nextMoment (s0.hub.now.toNat + (ns - held))
  (s0.modHub (fun h => { h with hold := h.hold - held, now := BitVec.ofNat 64 t })).takeDue

/-- TIME_STEP: a measured forward offset of 1 ms or more is corrected at once, and what lies in it takes effect as if that
time had passed; no other step is made (log entry 4). -/
def State.timeStep (s : State) (ns : Nat) : State :=
  if ns ≠ 0 ∧ ns = s.hub.stepDue then
    (s.modHub (fun h =>
      { h with now := h.now + BitVec.ofNat 64 ns, stepDue := 0, timeStatus := withBit h.timeStatus 2 true })).takeDue
  else s

def execTimeStep (ns : Nat) (s : State) : Host.Outcome State Fault Refusal := .next (s.timeStep ns)

/-! ## Network chiplets and management contexts (R412, R419, R422, R423) -/

/-- A network chiplet by its holder number. -/
def isChiplet (holder : Nat) : Bool := 32 ≤ holder && holder < 36

/-- Its agent number. -/
def chipletAgent (holder : Nat) : Nat := holder + 18

/-- A fresh translation for a holder; a network chiplet keeps it. -/
def State.agentWalk (s : State) (holder asid va : Nat) (need : Need) : Except Cause Xlat × State :=
  match s.walk holder asid va with
  | (.error c, s1) => (.error c, s1)
  | (.ok x, s1) =>
    let a := chipletAgent holder
    let s2 := if isChiplet holder then
        s1.modHub (fun h => { h with netTlb := tableSet a (keepXlat 1024 x (tableGet [] a h.netTlb)) h.netTlb })
      else s1
    (match x.check need with | some c => .error c | none => .ok x, s2)

/-- The translation of one page: cached, on the chiplet's clock, or fresh; a fault found through a cached one is confirmed
(R418). Of a cache of the management contexts the manual says nothing: they walk (log entry 55). -/
def State.agentPage (s : State) (holder asid va : Nat) (need : Need) : Except Cause Xlat × State :=
  let a := chipletAgent holder
  let part := (s.asidEntry asid).part
  if !canonical va then (.error .notPresent, s)
  else if !isChiplet holder then s.agentWalk holder asid va need
  else
    match usable (tableGet [] a s.hub.netTlb) asid part va (s.agentTime a) with
    | none => s.agentWalk holder asid va need
    | some x =>
      match x.check need with
      | none => (.ok x, s)
      | some _ =>
        (s.modHub (fun h => { h with
          netTlb := tableSet a ((tableGet [] a h.netTlb).filter (fun y => !y.covers asid part va)) h.netTlb })).agentWalk
          holder asid va need

def State.agentPages (holder asid : Nat) (need : Need) : List Nat → State → Option (List Xlat) × State
  | [], s => (some [], s)
  | va :: t, s =>
    match s.agentPage holder asid va need with
    | (.error _, s1) => (none, s1)
    | (.ok x, s1) =>
      let (l, s2) := State.agentPages holder asid need t s1
      (l.map (fun l => x :: l), s2)

/-- The agent that a holder stands for takes part. -/
def State.agentIn (s : State) (holder : Nat) : Bool :=
  if isChiplet holder then !s.hub.isolated.getLsbD (chipletAgent holder) else 36 ≤ holder && holder < 52

/-- The pieces of an access, where every page may be used and neither poison nor a cut path is met; else the access is not
made, and the agent outside sees its failure. -/
def State.agentPieces (s : State) (holder asid va n : Nat) (need : Need) : List HubPiece × State :=
  if !s.agentIn holder then ([], s)
  else
    match State.agentPages holder asid need (pageStarts va n) s with
    | (none, s1) => ([], s1)
    | (some l, s1) =>
      let ps := hubPieces l va n
      if ps.any (fun q => s1.severed hubNode q.sector || s1.poisoned q.sector) then ([], s1) else (ps, s1)

def State.agentLoad (s : State) (holder asid va n : Nat) : State :=
  let (ps, s1) := s.agentPieces holder asid va n .read
  (State.hubGather ps s1).2

def State.agentStore (s : State) (holder asid va : Nat) (b : List Byte) : State :=
  let (ps, s1) := s.agentPieces holder asid va b.length .write
  State.hubScatter ps b s1

/-! ## What comes from outside (R22) -/

/-- A driver reads bytes of the package information page; reading the time status clears its stepped bit (R464, R475). -/
def State.infoRead (s : State) (off n : Nat) : State :=
  let s1 := s.report (.pageRead ((s.infoPage.drop off).take n))
  if off ≤ 0x3018 ∧ 0x3018 < off + n then s1.modHub Hub.statusRead else s1

/-- A copy to another package: its bytes leave in frames of the hub link, with the signal that the request names (R473). -/
def State.copyOut (s : State) (asid addr n farAsid farAddr : Nat) (sig : Option SignalWrite) : State :=
  match s.hubRead asid addr n with
  | (.ok b, s1) => s1.report (.linkSent farAsid farAddr b sig)
  | (.error e, s1) => s1.report (.copyFailed e.2)

/-- A store of control pages: one of 4 or 8 bytes in a translation control page; the rest of them takes no write (R425, R464). -/
def State.controlStore (s : State) (off : Nat) (b : List Byte) : State :=
  if 0x2000 ≤ off ∧ off < 0x2200 then s.xlWrite ((off - 0x2000) / 64) (off % 64) b.length (BitVec.ofNat 64 (ofLe b)) else s

/-- A store of a core chiplet that takes part, or of a host: of control pages, or of memory. -/
def State.driverStore (s : State) (addr : Nat) (b : List Byte) (memory : State) : State :=
  match controlOffset addr with
  | some off => s.controlStore off b
  | none => memory

def State.outside (s : State) (a : OutsideAccess) : State :=
  match a with
  | .coreStore agent addr b => if s.agentOut agent then s else s.driverStore addr b (s.coreStore agent addr b)
  | .coreDrop agent n => s.coreDrop agent n
  | .hostStore addr b => s.driverStore addr b ((runsOf addr b).foldl (fun s x => s.ioWrite x.1 x.2.1 x.2.2) s)
  | .agentLoad holder asid va n => s.agentLoad holder asid va n
  | .agentStore holder asid va b => s.agentStore holder asid va b
  | .xlWrite part off size v => s.xlWrite part off size v
  | .asidWrite asid root part v =>
    let e : AsidEntry := { root := root / 4096 * 4096 % 2 ^ 48, part := part % 8, valid := v }
    s.modHub (fun h => { h with asids := tableSet (asid % 4096) e h.asids })
  | .infoRead off n => s.infoRead off n
  | .copyOut asid addr n farAsid farAddr sig => s.copyOut asid addr n farAsid farAddr sig
  | .imageWrite agent version digest signature =>
    s.modHub (fun h => { h with
      images := tableSet agent { version := version, digest := digest, signature := signature } h.images })
  | .entrySet agent kind reserved =>
    s.modHub (fun h => { h with entries := tableSet agent { kind := kind, reserved := reserved } h.entries })
  | .energyUsed agent joules => s.count (.energy agent) joules
  | .temperatureTaken agent degrees => s.temperatureTaken agent degrees
  | .softError agent corrected => s.count (if corrected then .correctedErrors agent else .uncorrectedErrors agent) 1

/-- What still works in recovery (R476): CXL.io and the recovery mailbox, through which an image may be written and the page
read, a package reset, and the loss of power; and time goes on. -/
def worksInRecovery : Turn → Bool
  | .event (.powerOnReset _ _) | .event .orderlyShutdown | .event .powerLoss => true
  | .outside (.infoRead _ _) | .outside (.imageWrite _ _ _ _) | .tick _ => true
  | _ => false

end Sys2Proof.Machine
end

