-- ==== Sys2Proof/Machine/SyncOps.lean ====
section
/-!
DEFINITION. Sys2Proof/Machine/SyncOps.lean: token queues and frame barriers as lanes use them (R291 to R297), once per issue
(R480).
-/

namespace Sys2Proof.Machine

/-- A word that acts once per issue through the lowest active lane: nothing happens when that lane's guard is false;
its register operands are checked there (R480). Every earlier load of the enabled items has returned (R197, R198). -/
def onceBody (f : Issue → Operands → Team → State → State) (is : Issue) (s : State) : State :=
  if !is.capOn then passOver is s
  else
    match laneOperands is.rod is.cap (planOf is.instr) with
    | .error c => faultEnabled is c s
    | .ok o =>
      match s.team? (teamKeyOf is.key is.rod) with
      | none => passOver is s
      | some t => f is o t s

def onceOp (i : Instr) (f : Issue → Operands → Team → State → State) (s : State) :
    Host.Outcome State Fault Refusal :=
  issueWord i (drained everyLoad (onceBody f)) s

def Issue.team (is : Issue) : TeamKey := teamKeyOf is.key is.rod

/-- TKPUT (R292): what its items have written is ordered before what the token's consumer does (R197). -/
def tkputBody (q : Nat) (is : Issue) (o : Operands) (t : Team) (s : State) : State :=
  if !admits (t.queue q).producer 1 then faultEnabled is .illegalOperand s
  else if !(t.queue q).room then faultEnabled is .tokenOverflow s
  else ((passOver is s).orderItems is is.enabled).putToken is.team q ((o.a.value is.cap (fun _ => 0)).setWidth 32)

def execTkput (w : RWord) (s : State) : Host.Outcome State Fault Refusal :=
  onceOp (.tkput w) (tkputBody w.b.toNat) s

/-- The payload is written in every enabled lane, with `p` set where the word names a predicate. -/
def takePayload (is : Issue) (dst : Nat) (v : Word) (p : Option Nat) (s : State) : State :=
  s.modRod is.key (fun r => r.mapLanes is.active (fun l x =>
    (if is.enabled.getLsbD l.val then
      let y := (x.setReg dst v).unmark [dst]
      match p with
      | some n => y.setPred n true
      | none => y
    else x).advance))

/-- TKGET (R293). Under an indirect dst every lane writes the register that the lowest active lane's index names: DESIGN CHOICE
(log entry 48). -/
def tkgetBody (q : Nat) (is : Issue) (o : Operands) (t : Team) (s : State) : State :=
  let dst := o.dst.registers.headD 0
  if !admits (t.queue q).consumer 1 then faultEnabled is .illegalOperand s
  else if s.laneTokens is.team q = 0 then blockEnabled is (.tkget q dst) s
  else
    let (v, s1) := s.popToken is.team q
    takePayload is dst v none s1

def execTkget (w : RWord) (s : State) : Host.Outcome State Fault Refusal :=
  onceOp (.tkget w) (tkgetBody w.b.toNat) s

/-- TKTRY (R294); dst as in TKGET (log entry 48). -/
def tktryBody (q p : Nat) (is : Issue) (o : Operands) (t : Team) (s : State) : State :=
  if !admits (t.queue q).consumer 1 then faultEnabled is .illegalOperand s
  else if s.laneTokens is.team q = 0 then
    s.modRod is.key (fun r => r.mapLanes is.active (fun l x =>
      (if is.enabled.getLsbD l.val then x.setPred p false else x).advance))
  else
    let (v, s1) := s.popToken is.team q
    takePayload is (o.dst.registers.headD 0) v (some p) s1

def execTktry (w : RWord) (s : State) : Host.Outcome State Fault Refusal :=
  onceOp (.tktry w) (tktryBody w.b.toNat w.c.toNat) s

/-- TKSET (R291). -/
def tksetBody (q producer consumer : Nat) (is : Issue) (_o : Operands) (_t : Team) (s : State) : State :=
  (passOver is s).modTeam is.team (fun t =>
    t.setQueue q { t.queue q with producer := producer, consumer := consumer })

def execTkset (w : RWord) (s : State) : Host.Outcome State Fault Refusal :=
  onceOp (.tkset w) (tksetBody w.b.toNat (RMod.bits w.mod 14 4) (RMod.bits w.mod 11 3)) s

/-- BAR.meet: the enabled items wait on the current generation, which the rod's arrival may complete (R296); the arrival is a
release (R198). -/
def barMeetBody (n : Nat) (is : Issue) (_o : Operands) (t : Team) (s : State) : State :=
  ((blockEnabled is (.barMeet n (t.barrier n).gen) s).orderItems is is.enabled).arrive is.key is.rod n

def execBarMeet (w : RWord) (s : State) : Host.Outcome State Fault Refusal :=
  onceOp (.barMeet w) (barMeetBody w.b.toNat) s

/-- BAR.pass (R296). -/
def barPassBody (n : Nat) (is : Issue) (_o : Operands) (_t : Team) (s : State) : State :=
  ((passOver is s).orderItems is is.enabled).arrive is.key is.rod n

def execBarPass (w : RWord) (s : State) : Host.Outcome State Fault Refusal :=
  onceOp (.barPass w) (barPassBody w.b.toNat) s

/-- BAR.size (R296); the rods already retired may complete the generation at once (R297). -/
def barSizeBody (n : Nat) (is : Issue) (o : Operands) (t : Team) (s : State) : State :=
  let e := (o.a.value is.cap (fun _ => 0)).toNat
  if e = 0 || (s.recordOfLaunch is.rod.launch).teamRods < e || (t.barrier n).arrivals != 0 then
    faultEnabled is .illegalOperand s
  else
    ((passOver is s).modTeam is.team (fun t =>
      t.setBarrier n { t.barrier n with expected := e })).settleBarrier is.team n

def execBarSize (w : RWord) (s : State) : Host.Outcome State Fault Refusal :=
  onceOp (.barSize w) (barSizeBody w.b.toNat) s

end Sys2Proof.Machine
end

