-- ==== Sys2Proof/Machine/Dispatch.lean ====
section
/-!
DEFINITION. Sys2Proof/Machine/Dispatch.lean: one arm per row of the opcode table: the meaning of each instruction and step.
-/

namespace Sys2Proof.Machine

def exec (i : Instr) (s : State) : Host.Outcome State Fault Refusal :=
  match i with
  | .iadd w => Sys2Proof.Machine.execIadd w s
  | .isub w => Sys2Proof.Machine.execIsub w s
  | .imul w => Sys2Proof.Machine.execImul w s
  | .imulh w => Sys2Proof.Machine.execImulh w s
  | .imad w => Sys2Proof.Machine.execImad w s
  | .idiv w => Sys2Proof.Machine.execIdiv w s
  | .irem w => Sys2Proof.Machine.execIrem w s
  | .imin w => Sys2Proof.Machine.execImin w s
  | .imax w => Sys2Proof.Machine.execImax w s
  | .iabs w => Sys2Proof.Machine.execIabs w s
  | .ineg w => Sys2Proof.Machine.execIneg w s
  | .lea w => Sys2Proof.Machine.execLea w s
  | .and w => Sys2Proof.Machine.execAnd w s
  | .or w => Sys2Proof.Machine.execOr w s
  | .xor w => Sys2Proof.Machine.execXor w s
  | .andn w => Sys2Proof.Machine.execAndn w s
  | .lmux w => Sys2Proof.Machine.execLmux w s
  | .shl w => Sys2Proof.Machine.execShl w s
  | .shr w => Sys2Proof.Machine.execShr w s
  | .sar w => Sys2Proof.Machine.execSar w s
  | .rol w => Sys2Proof.Machine.execRol w s
  | .shf w => Sys2Proof.Machine.execShf w s
  | .bfx w => Sys2Proof.Machine.execBfx w s
  | .bfi w => Sys2Proof.Machine.execBfi w s
  | .popc w => Sys2Proof.Machine.execPopc w s
  | .clz w => Sys2Proof.Machine.execClz w s
  | .ctz w => Sys2Proof.Machine.execCtz w s
  | .brev w => Sys2Proof.Machine.execBrev w s
  | .bperm w => Sys2Proof.Machine.execBperm w s
  | .icmp w => Sys2Proof.Machine.execIcmp w s
  | .plop w => Sys2Proof.Machine.execPlop w s
  | .sel w => Sys2Proof.Machine.execSel w s
  | .pmovGet w => Sys2Proof.Machine.execPmovGet w s
  | .pmovSet w => Sys2Proof.Machine.execPmovSet w s
  | .mov w => Sys2Proof.Machine.execMov w s
  | .lxch w => Sys2Proof.Machine.execLxch w s
  | .pagg w => Sys2Proof.Machine.execPagg w s
  | .pfx w => Sys2Proof.Machine.execPfx w s
  | .rred w => Sys2Proof.Machine.execRred w s
  | .rredJoined w => Sys2Proof.Machine.execRredJoined w s
  | .xset w => Sys2Proof.Machine.execXset w s
  | .xadd w => Sys2Proof.Machine.execXadd w s
  | .iaddImm w => Sys2Proof.Machine.execIaddImm w s
  | .isubImm w => Sys2Proof.Machine.execIsubImm w s
  | .imulImm w => Sys2Proof.Machine.execImulImm w s
  | .iminImm w => Sys2Proof.Machine.execIminImm w s
  | .imaxImm w => Sys2Proof.Machine.execImaxImm w s
  | .leaImm w => Sys2Proof.Machine.execLeaImm w s
  | .andImm w => Sys2Proof.Machine.execAndImm w s
  | .orImm w => Sys2Proof.Machine.execOrImm w s
  | .xorImm w => Sys2Proof.Machine.execXorImm w s
  | .andnImm w => Sys2Proof.Machine.execAndnImm w s
  | .shlImm w => Sys2Proof.Machine.execShlImm w s
  | .shrImm w => Sys2Proof.Machine.execShrImm w s
  | .sarImm w => Sys2Proof.Machine.execSarImm w s
  | .rolImm w => Sys2Proof.Machine.execRolImm w s
  | .bfxImm w => Sys2Proof.Machine.execBfxImm w s
  | .bpermImm w => Sys2Proof.Machine.execBpermImm w s
  | .icmpImm w => Sys2Proof.Machine.execIcmpImm w s
  | .movi w => Sys2Proof.Machine.execMovi w s
  | .movhi w => Sys2Proof.Machine.execMovhi w s
  | .xaddImm w => Sys2Proof.Machine.execXaddImm w s
  | .fadd w => Sys2Proof.Machine.execFadd w s
  | .fsub w => Sys2Proof.Machine.execFsub w s
  | .fmul w => Sys2Proof.Machine.execFmul w s
  | .ffma w => Sys2Proof.Machine.execFfma w s
  | .fmin w => Sys2Proof.Machine.execFmin w s
  | .fmax w => Sys2Proof.Machine.execFmax w s
  | .fminn w => Sys2Proof.Machine.execFminn w s
  | .fmaxn w => Sys2Proof.Machine.execFmaxn w s
  | .frnd w => Sys2Proof.Machine.execFrnd w s
  | .fdiv w => Sys2Proof.Machine.execFdiv w s
  | .fsqrt w => Sys2Proof.Machine.execFsqrt w s
  | .frcp w => Sys2Proof.Machine.execFrcp w s
  | .frsq w => Sys2Proof.Machine.execFrsq w s
  | .fcmp w => Sys2Proof.Machine.execFcmp w s
  | .fclass w => Sys2Proof.Machine.execFclass w s
  | .hadd2 w => Sys2Proof.Machine.execHadd2 w s
  | .hmul2 w => Sys2Proof.Machine.execHmul2 w s
  | .hfma2 w => Sys2Proof.Machine.execHfma2 w s
  | .hmin2 w => Sys2Proof.Machine.execHmin2 w s
  | .hmax2 w => Sys2Proof.Machine.execHmax2 w s
  | .cvt w => Sys2Proof.Machine.execCvt w s
  | .logc w => Sys2Proof.Machine.execLogc w s
  | .expc w => Sys2Proof.Machine.execExpc w s
  | .lmul w => Sys2Proof.Machine.execLmul w s
  | .ldiv w => Sys2Proof.Machine.execLdiv w s
  | .lpow w => Sys2Proof.Machine.execLpow w s
  | .lroot w => Sys2Proof.Machine.execLroot w s
  | .fex2 w => Sys2Proof.Machine.execFex2 w s
  | .flg2 w => Sys2Proof.Machine.execFlg2 w s
  | .fsin w => Sys2Proof.Machine.execFsin w s
  | .fcos w => Sys2Proof.Machine.execFcos w s
  | .ftanh w => Sys2Proof.Machine.execFtanh w s
  | .fsigm w => Sys2Proof.Machine.execFsigm w s
  | .ld w => Sys2Proof.Machine.execLd w s
  | .lds w => Sys2Proof.Machine.execLds w s
  | .lda w => Sys2Proof.Machine.execLda w s
  | .ldff w => Sys2Proof.Machine.execLdff w s
  | .st w => Sys2Proof.Machine.execSt w s
  | .sts w => Sys2Proof.Machine.execSts w s
  | .stl w => Sys2Proof.Machine.execStl w s
  | .ldf w => Sys2Proof.Machine.execLdf w s
  | .stf w => Sys2Proof.Machine.execStf w s
  | .waitq w => Sys2Proof.Machine.execWaitq w s
  | .atom w => Sys2Proof.Machine.execAtom w s
  | .red w => Sys2Proof.Machine.execRed w s
  | .cas w => Sys2Proof.Machine.execCas w s
  | .atadd2 w => Sys2Proof.Machine.execAtadd2 w s
  | .atomf w => Sys2Proof.Machine.execAtomf w s
  | .fence w => Sys2Proof.Machine.execFence w s
  | .cflush w => Sys2Proof.Machine.execCflush w s
  | .cinv w => Sys2Proof.Machine.execCinv w s
  | .pref w => Sys2Proof.Machine.execPref w s
  | .tkput w => Sys2Proof.Machine.execTkput w s
  | .tkget w => Sys2Proof.Machine.execTkget w s
  | .tktry w => Sys2Proof.Machine.execTktry w s
  | .tkset w => Sys2Proof.Machine.execTkset w s
  | .barMeet w => Sys2Proof.Machine.execBarMeet w s
  | .barPass w => Sys2Proof.Machine.execBarPass w s
  | .barSize w => Sys2Proof.Machine.execBarSize w s
  | .bra w => Sys2Proof.Machine.execBra w s
  | .brx w => Sys2Proof.Machine.execBrx w s
  | .call w => Sys2Proof.Machine.execCall w s
  | .ret w => Sys2Proof.Machine.execRet w s
  | .exit w => Sys2Proof.Machine.execExit w s
  | .rcv w => Sys2Proof.Machine.execRcv w s
  | .rsync w => Sys2Proof.Machine.execRsync w s
  | .syncRelease k lane => Sys2Proof.Machine.execSyncRelease k lane s
  | .nop w => Sys2Proof.Machine.execNop w s
  | .yield w => Sys2Proof.Machine.execYield w s
  | .grow w => Sys2Proof.Machine.execGrow w s
  | .shrink w => Sys2Proof.Machine.execShrink w s
  | .jset w => Sys2Proof.Machine.execJset w s
  | .jwait w => Sys2Proof.Machine.execJwait w s
  | .cstat w => Sys2Proof.Machine.execCstat w s
  | .cdone w => Sys2Proof.Machine.execCdone w s
  | .valid w => Sys2Proof.Machine.execValid w s
  | .slack w => Sys2Proof.Machine.execSlack w s
  | .srd w => Sys2Proof.Machine.execSrd w s
  | .rngc w => Sys2Proof.Machine.execRngc w s
  | .carryWaitRelease k lane => Sys2Proof.Machine.execCarryWaitRelease k lane s
  | .vadd w => Sys2Proof.Machine.execVadd w s
  | .vsub w => Sys2Proof.Machine.execVsub w s
  | .vmul w => Sys2Proof.Machine.execVmul w s
  | .vfma w => Sys2Proof.Machine.execVfma w s
  | .vmin w => Sys2Proof.Machine.execVmin w s
  | .vmax w => Sys2Proof.Machine.execVmax w s
  | .vscl w => Sys2Proof.Machine.execVscl w s
  | .vcvt w => Sys2Proof.Machine.execVcvt w s
  | .vmov w => Sys2Proof.Machine.execVmov w s
  | .vfill w => Sys2Proof.Machine.execVfill w s
  | .vcmp w => Sys2Proof.Machine.execVcmp w s
  | .vsel w => Sys2Proof.Machine.execVsel w s
  | .vsum w => Sys2Proof.Machine.execVsum w s
  | .vmaxr w => Sys2Proof.Machine.execVmaxr w s
  | .vlogc w => Sys2Proof.Machine.execVlogc w s
  | .vexpc w => Sys2Proof.Machine.execVexpc w s
  | .vex2 w => Sys2Proof.Machine.execVex2 w s
  | .vsigm w => Sys2Proof.Machine.execVsigm w s
  | .vtanh w => Sys2Proof.Machine.execVtanh w s
  | .cpin w => Sys2Proof.Machine.execCpin w s
  | .cpout w => Sys2Proof.Machine.execCpout w s
  | .cpff w => Sys2Proof.Machine.execCpff w s
  | .cp2d w => Sys2Proof.Machine.execCp2d w s
  | .cppl w => Sys2Proof.Machine.execCppl w s
  | .cpacc w => Sys2Proof.Machine.execCpacc w s
  | .cpaci w => Sys2Proof.Machine.execCpaci w s
  | .cppeer w => Sys2Proof.Machine.execCppeer w s
  | .windef w => Sys2Proof.Machine.execWindef w s
  | .winrel w => Sys2Proof.Machine.execWinrel w s
  | .acres w => Sys2Proof.Machine.execAcres w s
  | .acrel w => Sys2Proof.Machine.execAcrel w s
  | .aczero w => Sys2Proof.Machine.execAczero w s
  | .mma w => Sys2Proof.Machine.execMma w s
  | .mscl w => Sys2Proof.Machine.execMscl w s
  | .mchk w => Sys2Proof.Machine.execMchk w s
  | .engineCommandStart p e => Sys2Proof.Machine.execEngineCommandStart p e s
  | .engineCommandFinish p e pos => Sys2Proof.Machine.execEngineCommandFinish p e pos s
  | .commandRunFault p e pos => Sys2Proof.Machine.execCommandRunFault p e pos s
  | .engineFaultDelivery k => Sys2Proof.Machine.execEngineFaultDelivery k s
  | .trapHalt w => Sys2Proof.Machine.execTrapHalt w s
  | .trapSlice w => Sys2Proof.Machine.execTrapSlice w s
  | .trapWdog w => Sys2Proof.Machine.execTrapWdog w s
  | .rett w => Sys2Proof.Machine.execRett w s
  | .sysrd w => Sys2Proof.Machine.execSysrd w s
  | .syswr w => Sys2Proof.Machine.execSyswr w s
  | .engineIssueStop p e => Sys2Proof.Machine.execEngineIssueStop p e s
  | .engineIssueResume p e => Sys2Proof.Machine.execEngineIssueResume p e s
  | .engineStopped p e => Sys2Proof.Machine.execEngineStopped p e s
  | .eventClear w => Sys2Proof.Machine.execEventClear w s
  | .rodWindowWrite w => Sys2Proof.Machine.execRodWindowWrite w s
  | .engrd w => Sys2Proof.Machine.execEngrd w s
  | .engwr w => Sys2Proof.Machine.execEngwr w s
  | .ctxsv w => Sys2Proof.Machine.execCtxsv w s
  | .ctxsvTeam w => Sys2Proof.Machine.execCtxsvTeam w s
  | .ctxld w => Sys2Proof.Machine.execCtxld w s
  | .ctxldTeam w => Sys2Proof.Machine.execCtxldTeam w s
  | .tlbiVa w => Sys2Proof.Machine.execTlbiVa w s
  | .tlbiAsid w => Sys2Proof.Machine.execTlbiAsid w s
  | .tlbiAll w => Sys2Proof.Machine.execTlbiAll w s
  | .tlbiComplete p => Sys2Proof.Machine.execTlbiComplete p s
  | .bkpt w => Sys2Proof.Machine.execBkpt w s
  | .fwcall w => Sys2Proof.Machine.execFwcall w s
  | .fwcallReply p status reply => Sys2Proof.Machine.execFwcallReply p status reply s
  | .parkq w => Sys2Proof.Machine.execParkq w s
  | .resumeRetry w => Sys2Proof.Machine.execResumeRetry w s
  | .resumeSkip w => Sys2Proof.Machine.execResumeSkip w s
  | .resumeAbort w => Sys2Proof.Machine.execResumeAbort w s
  | .resumeRun w => Sys2Proof.Machine.execResumeRun w s
  | .idle w => Sys2Proof.Machine.execIdle w s
  | .idleWake p => Sys2Proof.Machine.execIdleWake p s
  | .handlerEntry p => Sys2Proof.Machine.execHandlerEntry p s
  | .dadd w => Sys2Proof.Machine.execDadd w s
  | .dmul w => Sys2Proof.Machine.execDmul w s
  | .dfma w => Sys2Proof.Machine.execDfma w s
  | .ddiv w => Sys2Proof.Machine.execDdiv w s
  | .dsqrt w => Sys2Proof.Machine.execDsqrt w s
  | .dcvt w => Sys2Proof.Machine.execDcvt w s
  | .loadReturn k lane pos => Sys2Proof.Machine.execLoadReturn k lane pos s
  | .fenceComplete k lane => Sys2Proof.Machine.execFenceComplete k lane s
  | .teamStart p => Sys2Proof.Machine.execTeamStart p s
  | .requestServe p => Sys2Proof.Machine.execRequestServe p s
  | .rodEviction p => Sys2Proof.Machine.execRodEviction p s
  | .teamRetire p ts => Sys2Proof.Machine.execTeamRetire p ts s
  | .wrapUpThreshold seq => Sys2Proof.Machine.execWrapUpThreshold seq s
  | .itemDivert k => Sys2Proof.Machine.execItemDivert k s
  | .deadlineKill seq => Sys2Proof.Machine.execDeadlineKill seq s
  | .launchCompletion seq => Sys2Proof.Machine.execLaunchCompletion seq s
  | .stuckFrameWatchdog p => Sys2Proof.Machine.execStuckFrameWatchdog p s
  | .engineWatchdog p e => Sys2Proof.Machine.execEngineWatchdog p e s
  | .partitionWatchdog p recSeq => Sys2Proof.Machine.execPartitionWatchdog p recSeq s
  | .sliceTimeReached p => Sys2Proof.Machine.execSliceTimeReached p s
  | .timerReached p => Sys2Proof.Machine.execTimerReached p s
  | .hubDoorbell p => Sys2Proof.Machine.execHubDoorbell p s
  | .debugRequest p => Sys2Proof.Machine.execDebugRequest p s
  | .preemption p => Sys2Proof.Machine.execPreemption p s
  | .schedulerChoice p => Sys2Proof.Machine.execSchedulerChoice p s
  | .launchKill seq => Sys2Proof.Machine.execLaunchKill seq s
  | .queueRegister q desc part asid => Sys2Proof.Machine.execQueueRegister q desc part asid s
  | .queueTailWrite q => Sys2Proof.Machine.execQueueTailWrite q s
  | .queueStopRequest q => Sys2Proof.Machine.execQueueStopRequest q s
  | .queueStartRequest q => Sys2Proof.Machine.execQueueStartRequest q s
  | .queueRestart q => Sys2Proof.Machine.execQueueRestart q s
  | .queueSwapIn q => Sys2Proof.Machine.execQueueSwapIn q s
  | .queueWatchdog q => Sys2Proof.Machine.execQueueWatchdog q s
  | .launch q => Sys2Proof.Machine.execLaunch q s
  | .signal q => Sys2Proof.Machine.execSignal q s
  | .wait q => Sys2Proof.Machine.execWait q s
  | .waitComplete q => Sys2Proof.Machine.execWaitComplete q s
  | .waitTimeout q => Sys2Proof.Machine.execWaitTimeout q s
  | .callq q => Sys2Proof.Machine.execCallq q s
  | .joinq q => Sys2Proof.Machine.execJoinq q s
  | .fencePacket q => Sys2Proof.Machine.execFencePacket q s
  | .nopPacket q => Sys2Proof.Machine.execNopPacket q s
  | .timestamp q => Sys2Proof.Machine.execTimestamp q s
  | .readShared agent sector => Sys2Proof.Machine.execReadShared agent sector s
  | .readUnique agent sector => Sys2Proof.Machine.execReadUnique agent sector s
  | .upgrade agent sector => Sys2Proof.Machine.execUpgrade agent sector s
  | .writeBack agent sector => Sys2Proof.Machine.execWriteBack agent sector s
  | .writeBackKeep agent sector => Sys2Proof.Machine.execWriteBackKeep agent sector s
  | .snoop agent sector kind => Sys2Proof.Machine.execSnoop agent sector kind s
  | .untrackedRead sector => Sys2Proof.Machine.execUntrackedRead sector s
  | .untrackedWrite sector mask data => Sys2Proof.Machine.execUntrackedWrite sector mask data s
  | .homeAtomic op addr size operand compare => Sys2Proof.Machine.execHomeAtomic op addr size operand compare s
  | .uClassAccess sector mask data => Sys2Proof.Machine.execUClassAccess sector mask data s
  | .predictorDecay => Sys2Proof.Machine.execPredictorDecay s
  | .unmapRequest part value => Sys2Proof.Machine.execUnmapRequest part value s
  | .unmapComplete part => Sys2Proof.Machine.execUnmapComplete part s
  | .leaseWrite part value => Sys2Proof.Machine.execLeaseWrite part value s
  | .unmapStatusClear part value => Sys2Proof.Machine.execUnmapStatusClear part value s
  | .migrationRequest part value => Sys2Proof.Machine.execMigrationRequest part value s
  | .migrationSwitch part => Sys2Proof.Machine.execMigrationSwitch part s
  | .migrationRetire page => Sys2Proof.Machine.execMigrationRetire page s
  | .framePowerGate p => Sys2Proof.Machine.execFramePowerGate p s
  | .slicePowerGate die slice => Sys2Proof.Machine.execSlicePowerGate die slice s
  | .drainedIsolation agent => Sys2Proof.Machine.execDrainedIsolation agent s
  | .forcedIsolation agent => Sys2Proof.Machine.execForcedIsolation agent s
  | .resetRequest die => Sys2Proof.Machine.execResetRequest die s
  | .drainForward die => Sys2Proof.Machine.execDrainForward die s
  | .dieReset die => Sys2Proof.Machine.execDieReset die s
  | .forcedReset die => Sys2Proof.Machine.execForcedReset die s
  | .linkDown a b => Sys2Proof.Machine.execLinkDown a b s
  | .powerOnReset failed source => Sys2Proof.Machine.execPowerOnReset failed source s
  | .partitionChange first more => Sys2Proof.Machine.execPartitionChange first more s
  | .timeSourceSelect source => Sys2Proof.Machine.execTimeSourceSelect source s
  | .timeStatusRead => Sys2Proof.Machine.execTimeStatusRead s
  | .timeSourceLoss => Sys2Proof.Machine.execTimeSourceLoss s
  | .timeStep ns => Sys2Proof.Machine.execTimeStep ns s
  | .attestationRequest nonce => Sys2Proof.Machine.execAttestationRequest nonce s
  | .maintenanceReplan dies results => Sys2Proof.Machine.execMaintenanceReplan dies results s
  | .counterFlush => Sys2Proof.Machine.execCounterFlush s
  | .hubLinkFrame asid addr bytes signal => Sys2Proof.Machine.execHubLinkFrame asid addr bytes signal s
  | .firmwareContextRestart p addr => Sys2Proof.Machine.execFirmwareContextRestart p addr s
  | .debugAgentRelease p => Sys2Proof.Machine.execDebugAgentRelease p s
  | .powerGateWake t => Sys2Proof.Machine.execPowerGateWake t s
  | .linkRetrain a b => Sys2Proof.Machine.execLinkRetrain a b s
  | .offsetMeasurement offset => Sys2Proof.Machine.execOffsetMeasurement offset s
  | .rollbackCountRaise count => Sys2Proof.Machine.execRollbackCountRaise count s
  | .orderlyShutdown => Sys2Proof.Machine.execOrderlyShutdown s
  | .powerLoss => Sys2Proof.Machine.execPowerLoss s

end Sys2Proof.Machine
end

