-- ==== Sys2Proof/Machine/Program.lean ====
section
/-!
DEFINITION. Sys2Proof/Machine/Program.lean: a small program placed by hand: one word in memory under an identity page, and a
sub-rod, or for class 6 the firmware context, whose next fetch is that word (log entry 21).
-/

namespace Sys2Proof.Machine

/-- The frame that runs a placed word: frame 0 of S-die 8. -/
def placedFrame : FrameId := { die := 8, frame := 0 }

/-- Where the word stands: below 1 GiB, so its virtual and physical addresses are one. -/
def placedAt : Nat := 0x100000

/-- A level 0 table at 0x10000 and a level 1 table at 0x11000 whose entry 0 is a 1 GiB leaf of lease class 3, which serves
one access (R414, R415, R420). -/
def placedTables : List (Nat × DWord) := [(0x10000, 0x11001), (0x11000, 0x61F)]

def putDword (m : Memory) (a : Nat) (v : DWord) : Memory := cellsWrite m a (leBytes 8 v.toNat)

/-- A launch of one rod of 32 items. -/
def placedLaunch : Launch :=
  { seq := 1
    record := { LaunchRecord.empty with entry := BitVec.ofNat 64 placedAt, count := 32, fast := 8, slow := 7, fsKib := 4,
                                        accRows := 64 }
    asid := 1, scope := 3, queue := 0, packet := 0, priority := 0, signal := 0, signalAdd := false,
    frames := [placedFrame], nextTeam := 1, retired := [], outcomes := [], faultCount := 0, faultSaturated := false,
    firstStart := 0, lastRetire := 0, wrapped := false, killed := false, killAll := false, completed := false, areas := [] }

/-- A team of one rod. -/
def placedTeam : Team :=
  { Team.reset with
    launch := 1, rods := 1, started := 1, fsBytes := 4096, accRows := 64, accCols := 32
    bars := Vector.replicate 8 { expected := 1, arrivals := 0, gen := false, gone := 0 } }

/-- A rod whose 32 items form one sub-rod at the placed word. -/
def placedRod : Rod :=
  { Rod.reset with
    launch := 1, fast := 8, slow := 7
    lanes := Vector.ofFn (fun l => { Lane.reset with
      st := .runnable, item := BitVec.ofNat 64 l.val, pc := BitVec.ofNat 64 placedAt }) }

/-- The firmware context at the placed word. -/
def placedContext : Rod :=
  { Rod.firmware with lanes := Rod.firmware.lanes.set 0 { Rod.firmware.lane 0 with pc := BitVec.ofNat 64 placedAt } }

/-- The word, its page, and an address space that maps it. -/
def State.placeWord (s : State) (w : Nat) : State :=
  { s with
    mem := putDword (placedTables.foldl (fun m e => putDword m e.1 e.2) s.mem) placedAt (BitVec.ofNat 64 w)
    hub := { s.hub with asids := tableSet 1 { root := 0x10000, part := 0, valid := true } s.hub.asids } }

/-- The word runs next: in the firmware context for class 6, else on a rod of a launch of its own. -/
def State.placeProgram (s : State) (w : Nat) : State :=
  let s1 := s.placeWord w
  if fieldClass (BitVec.ofNat 64 w) = 6 then
    { ((s1.modFrame placedFrame (fun f => { f with fw := .running, asid := 1 })).setRod (fwKey placedFrame)
        placedContext) with agenda := .firmware placedFrame :: s.agenda }
  else
    { ((s1.setRod (rodKey placedFrame 0) placedRod).setTeam { frame := placedFrame, slot := 0 } placedTeam) with
      hub := { s1.hub with launches := placedLaunch :: s1.hub.launches, ready := true }
      agenda := .issue placedFrame 0 :: s.agenda }

end Sys2Proof.Machine
end

