-- ==== Sys2Proof/Machine/Step.lean ====
section
/-!
DEFINITION. Sys2Proof/Machine/Step.lean: one step of the package: what moves next (log entry 3) acts once.
-/

namespace Sys2Proof.Machine

/-- What moves next: the head of the agenda, or an input of the outside world. -/
def State.nextTurn (s : State) : Turn × State :=
  match s.agenda with
  | t :: rest => (t, { s with agenda := rest })
  | [] => (Config.nextTurn s.free, { s with free := s.free + 1 })

/-- The word a sub-rod fetched acts, or the fault of its fetch parks the sub-rod. -/
def runFetched (who : Issuer) (f : Fetched) (s : State) : Host.Outcome State Fault Refusal :=
  match f with
  | .instr i => exec i { s with cur := some who }
  | .fault c word addr => .next (s.fetchFault who c word addr)

/-- The sub-rod fetches and issues one word. -/
def issueOne (who : Issuer) (s : State) : Host.Outcome State Fault Refusal :=
  match s.rod? who.key with
  | none => .next s
  | some r =>
    let (f, s1) := s.fetch who.key r (r.lane who.lane).pc
    runFetched who f s1

/-- An issue port's turn: events that wait for a boundary of the frame's rods come first (R446). -/
def portTurn (p : FrameId) (port : Nat) (s : State) : Host.Outcome State Fault Refusal :=
  let s0 := s.boundaries p
  match s0.select p port with
  | none => .next s0
  | some who => issueOne who (s0.markIssued port who)

/-- The firmware context's turn: a CTXSV.team that waits may complete; handler entry comes before the next word (R364, R377). -/
def firmwareTurn (p : FrameId) (s0 : State) : Host.Outcome State Fault Refusal :=
  let s := s0.finishSave p
  if !s.firmwareMay p then .next s
  else if s.handlerDue p then .next (s.enterHandler p)
  else issueOne { key := fwKey p, lane := 0 } (s.markFirmware p)

/-- A turn acts. An instruction word is no event. -/
def takeTurn (t : Turn) (s : State) : Host.Outcome State Fault Refusal :=
  match t with
  | .issue p port => portTurn p port s
  | .firmware p => firmwareTurn p s
  | .cycle p late => .next ((s.boundaries p).endCycle p late)
  | .evictFrame p n u => .next (s.evictFrame p n u)
  | .evictDie d n u => .next (s.evictDie d n u)
  | .land p e pos n => .next (s.landCommand p e pos n)
  | .landByte p e pos n => .next (s.landByte p e pos n)
  | .codeAhead p pc => .next (s.holdCode p pc)
  | .between k lane pos n => .next { s with mid := some { key := k, lane := lane, pos := pos, after := n } }
  | .event i => if (encode i).isSome then .next s else exec i s
  | .lookAhead q => .next (s.lookAhead q)
  | .tick ns => .next (s.tick ns)
  | .outside a => .next (s.outside a)

/-- One step. Without power nothing moves (R479); in recovery little does. -/
def step (s : State) : Host.Outcome State Fault Refusal :=
  let (t, s1) := s.nextTurn
  if s.hub.powered then (if !s.hub.recovery || worksInRecovery t then endStep (takeTurn t s1) else .next s1)
  else
    match t with
    | .event (.powerOnReset failed source) => exec (.powerOnReset failed source) s1
    | _ => .next s1

/-- `s` with the instruction of the bits `w` placed where the next step fetches it (log entry 21). -/
def State.withFetchWord (s : State) (nbits w : Nat) : State := s.placeProgram (w % 2 ^ nbits)

end Sys2Proof.Machine
end

