-- ==== Sys2Proof/Safety.lean ====
section
/-!
DEFINITION. Sys2Proof/Safety.lean: what a safe run keeps, and the terms the statements use: when a word issues with
nothing to hold it up, and what a completed lane instruction leaves.
-/

namespace Sys2Proof.Machine

/-! ## What every step keeps -/

/-- The home's memory is in its canonical form. -/
def State.memoryWf (s : State) : Prop := s.mem.wf = true

/-- A step that answers is never a refusal: every instruction has its meaning. -/
def answersNext (o : Host.Outcome State Fault Refusal) : Prop := ∃ t, o = .next t

/-! ## When a word issues (R204, R219, R237) -/

/-- Whether the word acts on a lane: its guard is true there (R203). -/
def actsOn (i : Instr) (x : Lane) : Bool :=
  match guardOf i with
  | some g => x.guard g
  | none => true

/-- No lane of the mask waits for a load or a joined reduction, or holds a marked register. -/
abbrev Rod.quiet (r : Rod) (m : BitVec 32) : Prop :=
  ∀ n : Fin 32, m.getLsbD n.val = true →
    r.lanes[n].loads = [] ∧ r.lanes[n].marked = [] ∧ r.lanes[n].joined = []

/-- The lanes of the mask stand where lane `l` stands. -/
abbrev Rod.together (r : Rod) (m : BitVec 32) (l : Nat) : Prop :=
  ∀ n : Fin 32, m.getLsbD n.val = true → (r.lane l).sameOutcome r.lanes[n] = true

/-- THE WORD ISSUES: the sub-rod of lane `l` of rod `k` is the one that acts, it is runnable, and the word passes the
checks of R219 that depend on the word. -/
abbrev Issues (s : State) (k : RodKey) (l : Nat) (r : Rod) (i : Instr) : Prop :=
  s.cur = some { key := k, lane := l } ∧ s.rod? k = some r ∧ l < 32 ∧ (r.lane l).st = .runnable
    ∧ wordCause s k r i = none

/-- The word issues, its lanes stand together, and nothing outstanding holds it up (R237, R250, R274). -/
abbrev IssuesFreely (s : State) (k : RodKey) (l : Nat) (r : Rod) (i : Instr) : Prop :=
  Issues s k l r i ∧ r.quiet (r.subRod l) ∧ r.together (r.subRod l) l

/-- The word issues freely for a sub-rod of one item, and acts on it. Memory words act lane by lane in ascending order
(R195, R277); this is one such lane. A firmware context that has run stands in the table of rods like any rod. -/
abbrev IssuesAlone (s : State) (k : RodKey) (l : Nat) (r : Rod) (i : Instr) : Prop :=
  IssuesFreely s k l r i ∧ tableFind k s.rods = some r ∧ r.subRod l = 1#32 <<< l ∧ actsOn i (r.lane l) = true

/-- The word issues freely for a sub-rod of the items of two lanes, and acts on both: memory words act in ascending lane order
(R195, R277). -/
abbrev IssuesPair (s : State) (k : RodKey) (a b : Fin 32) (r : Rod) (i : Instr) : Prop :=
  IssuesFreely s k a.val r i ∧ tableFind k s.rods = some r ∧ a.val < b.val
    ∧ r.subRod a.val = (1#32 <<< a.val) ||| (1#32 <<< b.val) ∧ actsOn i r.lanes[a] = true ∧ actsOn i r.lanes[b] = true

/-- The firmware context of frame `p` issues a class 6 word with the operands `o` (R356, R368). -/
abbrev FirmwareIssues (s : State) (p : FrameId) (r : Rod) (i : Instr) (o : Operands) : Prop :=
  IssuesAlone s (fwKey p) 0 r i ∧ laneOperands r (r.lane 0) (planOf i) = .ok o

/-- The context of frame `p` at its next word. -/
def State.contextNext (s : State) (p : FrameId) : State := s.modContext p (fun x => { x with pc := x.pc + 8 })

/-- One change of one lane of a rod. -/
def State.onLane (s : State) (k : RodKey) (l : Nat) (f : Lane → Lane) : State :=
  s.modRod k (fun q => q.setLane l (f (q.lane l)))

/-- The items of the lanes of a mask whose guard is true. -/
def onItems (r : Rod) (m : BitVec 32) (g : Guard) : List DWord :=
  (maskLanes (m &&& r.maskWhere (fun x => x.guard g))).map (fun n => (r.lane n).item)

/-- Items of some lanes have ordered their frame-store writes: their rod's team keeps no old value of theirs (R65, R197,
R198; log entry 72). A firmware context has no team. -/
def State.itemsOrdered (s : State) (k : RodKey) (r : Rod) (m : BitVec 32) : State :=
  match k.slot with
  | .firmware => s
  | .rod _ => s.modTeam (teamKeyOf k r) (fun t => t.ordered ((maskLanes m).map (fun n => (r.lane n).item)))

/-- The register fields of a word of format M are held (R53, R207). -/
abbrev mwHeld (w : MWord) (r : Rod) (base : FieldUse) : Prop :=
  ∀ n ∈ (sizeUse w.size.toNat).regs w.d ++ base.regs w.base ++ (idxUse w).regs w.idx, r.holds n = true

/-- Bytes that a format M word moves (R207). -/
def mwBytes (w : MWord) : Nat := 2 ^ w.size.toNat

/-- The global address of R207: base pair plus index plus offset, modulo 2^64. -/
def mwAddress (w : MWord) (x : Lane) : Nat :=
  ((((x.pair w.base.toNat).toNat : Int) + (if w.idxv then (x.reg w.idx.toNat).toInt else 0) + w.off.toInt)
    % (2 : Int) ^ 64).toNat

/-- The frame-store offset of R207, exact. -/
def mwOffset (w : MWord) (x : Lane) : Int :=
  ((x.reg w.base.toNat).toNat : Int) + (if w.idxv then (x.reg w.idx.toNat).toInt else 0) + w.off.toInt

/-- The value a store takes from its registers, the lowest first (R277). -/
def mwStored (w : MWord) (x : Lane) : Nat :=
  ((List.range (max 1 ((mwBytes w) / 4))).map (fun j => (x.reg (w.d.toNat + j)).toNat * 2 ^ (32 * j))).sum
    % 2 ^ (8 * (mwBytes w))

/-- A lane with the words of `v` in consecutive registers from `d` (R276). -/
def loadedRegs (x : Lane) (d bytes v : Nat) : Cells 32 :=
  (List.range (max 1 (bytes / 4))).foldl (fun c j => cellSet (d + j) (BitVec.ofNat 32 (v / 2 ^ (32 * j))) c) x.regs

/-- The translations of an access answer without changing anything: every page it touches is held by a translation cache
(R419). -/
abbrev Translated (s : State) (k : RodKey) (r : Rod) (need : Need) (va n : Nat) (xs : List Xlat) : Prop :=
  s.pages k.frame (s.asidOf k r) need (pageStarts va n) = (.ok xs, s)

/-- Nothing on the frame waits for an engine queue, for a token or for rows: no join instance is pending, no release of
rows waits, and no lane is blocked (R60, R63, R293, R323). -/
abbrev State.nothingWaits (s : State) (p : FrameId) : Prop :=
  (∀ e ∈ s.teams, e.1.frame = p → e.2.releasing = [] ∧ ∀ n : Fin 16, e.2.joins[n].pending = [])
  ∧ ∀ e ∈ s.rods, e.1.frame = p → ∀ l : Fin 32, e.2.lanes[l].st ≠ .blocked

/-- The next packet of queue `q` is the 64 bytes `b`, well formed and of this type, and may start; `s1` is the machine once
it is read (R388, R392, R398). -/
abbrev PacketStarts (s : State) (q type : Nat) (x : Queue) (b : List Byte) (s1 : State) : Prop :=
  s.queue? q = some x ∧ x.state = 1 ∧ x.stopping = false ∧ x.wait = none ∧ x.hasNext = true
    ∧ s.packetBytes x = (.ok b, s1) ∧ packetType b = type ∧ packetError x.levels.length b = none
    ∧ (packetBarrier b = true → x.started = [])

/-! ## Lane instructions (R204, R235) -/

/-- The operands of every lane on which the word acts pass their checks (R53, R115). -/
abbrev OperandsHold (r : Rod) (m : BitVec 32) (i : Instr) : Prop :=
  ∀ n : Fin 32, m.getLsbD n.val = true → actsOn i r.lanes[n] = true →
    (laneOperands r r.lanes[n] (planOf i)).isOk = true

/-- What a lane holds after a word that writes `f` of its operands there. -/
def written (r : Rod) (kb : DWord) (i : Instr) (f : LaneIn → LaneWrite) (n : Nat) (x : Lane) : Lane :=
  match laneOperands r x (planOf i) with
  | .ok o => ((f (laneIn kb x n o (fun _ => 0))).apply o.dst x).advance
  | .error _ => x

/-- THE RESULT OF A LANE INSTRUCTION: where the word issues freely, names no carry, and its operands hold, it completes.
Each lane it acts on has `f` of its own operands in its destination, the others are as they were, every lane of the
sub-rod goes on to the next word, and nothing else in the machine changes. -/
def CompletesWith (i : Instr) (f : State → RodKey → Rod → LaneIn → LaneWrite) : Prop :=
  ∀ (s : State) (k : RodKey) (l : Nat) (r : Rod),
    IssuesFreely s k l r i → (planOf i).hasCarry = false → OperandsHold r (r.subRod l) i →
    exec i s = .next (s.setRod k (r.mapLanes (r.subRod l) (fun n x =>
      if actsOn i x then written r (keyOf s r) i (f s k r) n.val x else x.advance)))

/-- As `CompletesWith`, for a word that rounds: under stochastic rounding (mode 5) a lane counts `draws` roundings, and
the count must not pass its end (R119, R153). -/
def CompletesRounding (i : Instr) (m : BitVec 18) (draws : Nat) (f : LaneIn → LaneWrite) : Prop :=
  ∀ (s : State) (k : RodKey) (l : Nat) (r : Rod),
    IssuesFreely s k l r i → (planOf i).hasCarry = false → OperandsHold r (r.subRod l) i →
    (RMod.rm m = 5 → ∀ n : Fin 32, (r.subRod l).getLsbD n.val = true → actsOn i r.lanes[n] = true →
      r.lanes[n].rsCount.toNat + draws ≤ 2 ^ 20 - 1) →
    exec i s = .next (s.setRod k (r.mapLanes (r.subRod l) (fun n x =>
      if actsOn i x then
        { written r (keyOf s r) i f n.val x with
          rsCount := if RMod.rm m = 5 then x.rsCount + BitVec.ofNat 20 draws else x.rsCount }
      else x.advance)))

/-! ## Operands that fail, and operands that are carries -/

/-- The lanes `bad` of the acting sub-rod of an item's rod park under one record of cause `c` and address `addr`, with no other
effect on them; the others are as `rest` says, and the teams are `teams` (R43, R366). -/
def ParksAt (s : State) (p : FrameId) (slot l : Nat) (r : Rod) (i : Instr) (bad : BitVec 32) (c : Cause) (addr : DWord)
    (teams : List (TeamKey × Team)) (rest : Fin 32 → Lane → Lane) : Prop :=
  ∃ t q x, exec i s = .next t ∧ t.rod? (rodKey p slot) = some q ∧ (t.frame p).records = (s.frame p).records ++ [x]
    ∧ x.cause = c.code ∧ x.lanes = bad ∧ x.pc = (r.lane l).pc ∧ x.word = wordOf i ∧ x.addr = addr
    ∧ t.mem = s.mem ∧ t.teams = teams ∧ t.carry = s.carry ∧ t.hub = s.hub
    ∧ ∀ n : Fin 32, { q.lanes[n] with group := r.lanes[n].group } =
        if bad.getLsbD n.val then
          { r.lanes[n] with st := .parked, wait := .none, fence := none, record := some (s.frame p).recSeq }
        else { rest n r.lanes[n] with group := r.lanes[n].group }

/-- The same for a fault that has no address, and that touches no team. -/
abbrev ParksLanes (s : State) (p : FrameId) (slot l : Nat) (r : Rod) (i : Instr) (bad : BitVec 32) (c : Cause)
    (rest : Fin 32 → Lane → Lane) : Prop := ParksAt s p slot l r i bad c 0 s.teams rest

/-- A memory word of one item parks that item, at an address, and does nothing else (R272, R366). -/
abbrev ParksItem (s : State) (p : FrameId) (slot l : Nat) (r : Rod) (i : Instr) (c : Cause) (addr : DWord) : Prop :=
  ParksAt s p slot l r i (1#32 <<< l) c addr s.teams (fun _ x => x)

/-- The first page of an access that fails its check gives cause `c` at the instruction, and the translations met before it
change nothing: every page is held by a translation cache, or is none to walk to (R272, R421). -/
abbrev PageFails (s : State) (k : RodKey) (r : Rod) (need : Need) (va n : Nat) (c : Cause) : Prop :=
  s.pages k.frame (s.asidOf k r) need (pageStarts va n) = (.error c, s)
    ∧ s.failsLate k.frame (s.asidOf k r) need (pageStarts va n) = false

/-- What a word that names no carry makes of a lane it acts on, or the cause the lane parks with: an operand that fails, or a
count of stochastic roundings that would pass its end (R53, R115, R119). -/
def laneResult (r : Rod) (kb : DWord) (i : Instr) (f : LaneIn → LaneOut) (n : Nat) (x : Lane) : Except Cause Lane :=
  match laneOperands r x (planOf i) with
  | .error c => .error c
  | .ok o =>
    let out := f (laneIn kb x n o (fun _ => 0))
    if drawsFault x out.draws then .error .illegalOperand
    else .ok { (out.write.apply o.dst x).advance with rsCount := x.rsCount + BitVec.ofNat 20 out.draws }

/-- A LANE WORD WITHOUT CARRIES: each lane it acts on has its result, the lanes that fail park and the others complete (R43, R53,
R115, R204). -/
def PlainWord (i : Instr) (f : State → RodKey → Rod → LaneIn → LaneOut) : Prop :=
  ∀ (s : State) (p : FrameId) (slot l : Nat) (r : Rod) (c : Cause) (bad : BitVec 32),
    let k := rodKey p slot
    let result (n : Fin 32) (x : Lane) : Except Cause Lane := laneResult r (keyOf s r) i (f s k r) n.val x
    let rest (n : Fin 32) (x : Lane) : Lane :=
      if (r.subRod l).getLsbD n.val then
        if actsOn i x then (match result n x with | .ok y => y | .error _ => x) else x.advance
      else x
    IssuesFreely s k l r i → (planOf i).hasCarry = false →
    (∀ n : Fin 32, bad.getLsbD n.val = true ↔
      (r.subRod l).getLsbD n.val = true ∧ actsOn i r.lanes[n] = true ∧ (result n r.lanes[n]).isOk = false) →
    (∀ n : Fin 32, bad.getLsbD n.val = true → result n r.lanes[n] = .error c) →
    (bad = 0 → exec i s = .next (s.setRod k (r.mapLanes (r.subRod l) rest)))
    ∧ (bad ≠ 0 → ParksLanes s p slot l r i bad c rest)

/-- A WORD THAT NAMES CARRIES, ON ONE ITEM: it reads every source slot or waits at the word, then writes its result or waits,
and acts as on register operands otherwise (R70, R75, R83). The slots are read and written as `carryRead` and `publishKind`
say, which statements of their own pin down. -/
def CarryWord (i : Instr) (f : State → RodKey → Rod → LaneIn → LaneOut) : Prop :=
  ∀ (s : State) (p : FrameId) (slot l : Nat) (r : Rod),
    let k := rodKey p slot
    let x := r.lane l
    let parks (c : Cause) : Prop := ParksLanes s p slot l r i (1#32 <<< l) c (fun _ y => y)
    let waits (w : Wait) : Prop :=
      exec i s = .next (s.setRod k (r.mapLanes (1#32 <<< l) (fun _ y => { y with st := .carryWait, wait := w })))
    IssuesAlone s k l r i → (planOf i).hasCarry = true →
    (∀ c, laneOperands r x (planOf i) = .error c → parks c)
    ∧ ∀ o, laneOperands r x (planOf i) = .ok o →
      let hold := writeHold s s.carry r.launch x o
      let sources := gatherCarries s s.carry r.launch x o.slots
      (hold ≠ .fault → sources = none → waits (.carryRead (planOf i).slots))
      ∧ ∀ got, sources = some got →
        let out := f s k r (laneIn (keyOf s r) x l o (carryValue got))
        let done := commitLane s r.launch x o got out s.carry
        (hold = .fault → parks .carryMisuse)
        ∧ (hold ≠ .fault → drawsFault x out.draws = true → parks .illegalOperand)
        ∧ (hold = .wait → drawsFault x out.draws = false → waits (.carryWrite ((planOf i).vdst.toNat - 248)))
        ∧ (hold = .store ∨ hold = .discard → drawsFault x out.draws = false →
          exec i s = .next { s.setRod k (r.setLane l done.1) with carry := done.2 })

/-- ON TWO ITEMS a word that names carries acts in ascending lane order: the second reads what the first has just published
(R84), and waits where there is nothing yet. -/
def CarryOrder (i : Instr) (f : State → RodKey → Rod → LaneIn → LaneOut) : Prop :=
  ∀ (s : State) (p : FrameId) (slot : Nat) (a b : Fin 32) (r : Rod) (o o' : Operands) (got : List (Nat × CarryRead)),
    let k := rodKey p slot
    let out (n : Fin 32) (o : Operands) (got : List (Nat × CarryRead)) : LaneOut :=
      f s k r (laneIn (keyOf s r) r.lanes[n] n.val o (carryValue got))
    let free (t : List (CarryKey × CarryBuf)) (n : Fin 32) (o : Operands) (got : List (Nat × CarryRead)) : Prop :=
      (writeHold s t r.launch r.lanes[n] o = .store ∨ writeHold s t r.launch r.lanes[n] o = .discard)
        ∧ drawsFault r.lanes[n] (out n o got).draws = false
    let first := commitLane s r.launch r.lanes[a] o got (out a o got) s.carry
    IssuesPair s k a b r i → (planOf i).hasCarry = true →
    laneOperands r r.lanes[a] (planOf i) = .ok o → laneOperands r r.lanes[b] (planOf i) = .ok o' →
    gatherCarries s s.carry r.launch r.lanes[a] o.slots = some got → free s.carry a o got →
    (∀ got', gatherCarries s first.2 r.launch r.lanes[b] o'.slots = some got' → free first.2 b o' got' →
      let second := commitLane s r.launch r.lanes[b] o' got' (out b o' got') first.2
      exec i s = .next { s.setRod k ((r.setLane a.val first.1).setLane b.val second.1) with carry := second.2 })
    ∧ (gatherCarries s first.2 r.launch r.lanes[b] o'.slots = none → writeHold s first.2 r.launch r.lanes[b] o' ≠ .fault →
      ∃ t q, exec i s = .next t ∧ t.rod? k = some q ∧ t.carry = first.2 ∧ t.mem = s.mem ∧ t.teams = s.teams
        ∧ { q.lanes[a] with group := first.1.group } = first.1
        ∧ { q.lanes[b] with group := r.lanes[b].group } =
            { r.lanes[b] with st := .carryWait, wait := .carryRead (planOf i).slots })

/-! ## What lane instructions write -/

/-- The result of an integer entry: `v` of the width and of the operands in the view, written under R236 to the register
or, under `.w`, the pair. -/
def integerWrite (m : BitVec 18) (u sat : Bool) (v : Nat → Int → Int → Int → Int) (x : LaneIn) : LaneWrite :=
  if RMod.w m then .value true (intResult 64 sat u (v 64 (viewOf u x.a) (viewOf u x.b) (viewOf u x.c)))
  else
    .value false ((intResult 32 sat u (v 32 (viewOf u (x.a.setWidth 32)) (viewOf u (x.b.setWidth 32))
      (viewOf u (x.c.setWidth 32)))).setWidth 64)

/-- A result that is `f` of the operands at width 32 or, under `.w`, 64. -/
def bitsWrite (m : BitVec 18) (f : (w : Nat) → BitVec w → BitVec w → BitVec w → BitVec w) (x : LaneIn) : LaneWrite :=
  if RMod.w m then .value true (f 64 x.a x.b x.c)
  else .value false ((f 32 (x.a.setWidth 32) (x.b.setWidth 32) (x.c.setWidth 32)).setWidth 64)

/-- A shift: the count is the low 32 bits of b, modulo the width (R242). -/
def shiftWrite (m : BitVec 18) (f : (w : Nat) → BitVec w → Nat → BitVec w) (x : LaneIn) : LaneWrite :=
  if RMod.w m then .value true (f 64 x.a ((x.b.setWidth 32).toNat % 64))
  else .value false ((f 32 (x.a.setWidth 32) ((x.b.setWidth 32).toNat % 32)).setWidth 64)

/-- The 32-bit operands of a lane. -/
def LaneIn.wa (x : LaneIn) : Word := x.a.setWidth 32
def LaneIn.wb (x : LaneIn) : Word := x.b.setWidth 32
def LaneIn.wc (x : LaneIn) : Word := x.c.setWidth 32

/-- A test of the six integer conditions, in the order of their codes (R246). -/
def conditionHolds (code : Nat) (a b : Int) : Bool :=
  [decide (a = b), decide (a ≠ b), decide (a < b), decide (a ≤ b), decide (b < a), decide (b ≤ a)].getD code false

/-- The exact value `v` rounded once into a format under the word's rounding fields: mode, draw number `k`, `.ftz`
(R150 to R153, R254). -/
def roundsTo (f : FloatFmt) (m : BitVec 18) (x : LaneIn) (k : Nat) (v : Num) : Nat :=
  f.put .ieee (laneRounding m x k) v

/-! ## The results of the lane words, one by one (R204) -/

/-- The result function of a word. -/
abbrev LaneResult := State → RodKey → Rod → LaneIn → LaneOut

/-- A word that writes `f` and rounds nothing. -/
def gives (f : LaneIn → LaneWrite) : LaneResult := fun _ _ _ x => { write := f x, draws := 0 }

/-- A word that rounds `n` results: under stochastic rounding it takes as many draws (R153). -/
def givesRounded (m : BitVec 18) (n : Nat) (f : LaneIn → LaneWrite) : LaneResult := fun _ _ _ x =>
  { write := f x, draws := if RMod.rm m = 5 then n else 0 }

/-- Integer arithmetic and division (R239 to R241). -/
def arithmeticResults (w : RWord) : List (Instr × LaneResult) :=
  let u := RMod.u w.mod
  let sat := RMod.sat w.mod
  let q (a b : Int) : Int := if (a < 0) = (b < 0) then ((a.natAbs / b.natAbs : Nat) : Int)
    else -((a.natAbs / b.natAbs : Nat) : Int)
  let least (n : Nat) : Int := -(2 : Int) ^ (n - 1)
  [(.iadd w, gives (integerWrite w.mod u sat (fun _ a b _ => a + b))),
   (.isub w, gives (integerWrite w.mod u sat (fun _ a b _ => a - b))),
   (.imul w, gives (integerWrite w.mod u sat (fun _ a b _ => a * b))),
   (.imulh w, gives (integerWrite w.mod u false (fun n a b _ => a * b / (2 : Int) ^ n))),
   (.imad w, gives (integerWrite w.mod u sat (fun _ a b c => a * b + c))),
   (.imin w, gives (integerWrite w.mod u false (fun _ a b _ => if a ≤ b then a else b))),
   (.imax w, gives (integerWrite w.mod u false (fun _ a b _ => if a ≤ b then b else a))),
   (.iabs w, gives (integerWrite w.mod false sat (fun _ a _ _ => if a < 0 then -a else a))),
   (.ineg w, gives (integerWrite w.mod false sat (fun _ a _ _ => 0 - a))),
   (.lea w, gives (fun x => .pair (BitVec.ofInt 64 ((x.a.toNat : Int)
      + (if u then (x.wb.toNat : Int) else x.wb.toInt) * (2 : Int) ^ RMod.bits w.mod 8 3)))),
   (.idiv w, gives (integerWrite w.mod u false (fun n a b _ =>
      if b = 0 then (2 : Int) ^ n - 1
      else if u = false ∧ a = least n ∧ b = -1 then (if sat then (2 : Int) ^ (n - 1) - 1 else least n)
      else q a b))),
   (.irem w, gives (integerWrite w.mod u false (fun n a b _ =>
      if b = 0 then a else if u = false ∧ a = least n ∧ b = -1 then 0 else a - q a b * b)))]

/-- Logic, shifts and bit fields (R242 to R245). -/
def bitResults (w : RWord) : List (Instr × LaneResult) :=
  let width : Nat := if RMod.w w.mod then 64 else 32
  [(.and w, gives (bitsWrite w.mod (fun _ a b _ => a &&& b))), (.or w, gives (bitsWrite w.mod (fun _ a b _ => a ||| b))),
   (.xor w, gives (bitsWrite w.mod (fun _ a b _ => a ^^^ b))), (.andn w, gives (bitsWrite w.mod (fun _ a b _ => a &&& ~~~b))),
   (.lmux w, gives (bitsWrite w.mod (fun n a b c => BitVec.ofFnLE (fun k : Fin n =>
      (if c.getLsbD k.val then RMod.bits w.mod 12 4 else RMod.bits w.mod 8 4).testBit
        (2 * (a.getLsbD k.val).toNat + (b.getLsbD k.val).toNat))))),
   (.shl w, gives (shiftWrite w.mod (fun v a n => BitVec.ofNat v (a.toNat * 2 ^ n)))),
   (.shr w, gives (shiftWrite w.mod (fun v a n => BitVec.ofNat v (a.toNat / 2 ^ n)))),
   (.sar w, gives (shiftWrite w.mod (fun v a n => BitVec.ofInt v (a.toInt / (2 : Int) ^ n)))),
   (.rol w, gives (shiftWrite w.mod (fun v a n => BitVec.ofFnLE (fun k : Fin v => a.getLsbD ((k.val + (v - n)) % v))))),
   (.shf w, gives (fun x =>
      let f := x.wb.toNat * 2 ^ 32 + x.wa.toNat
      let n := x.wc.toNat % 32
      .reg (BitVec.ofNat 32 (if w.mod.getLsbD 8 then f * 2 ^ n / 2 ^ 32 else f / 2 ^ n)))),
   (.bfx w, gives (fun x =>
      let p := min (x.wb.toNat % 256) 32
      let n := min (x.wb.toNat / 256 % 256) 32
      let f : Int := (if RMod.u w.mod then (x.wa.toNat : Int) else x.wa.toInt) / (2 : Int) ^ p % (2 : Int) ^ n
      .reg (if n = 0 then 0 else BitVec.ofInt 32 (if RMod.u w.mod ∨ f < (2 : Int) ^ (n - 1) then f else f - (2 : Int) ^ n)))),
   (.bfi w, gives (fun x =>
      let p := min (x.wb.toNat % 256) 32
      let n := min (x.wb.toNat / 256 % 256) 32
      let m : Word := BitVec.ofNat 32 ((2 ^ n - 1) * 2 ^ p)
      .reg ((x.wc &&& ~~~m) ||| BitVec.ofNat 32 (x.wa.toNat % 2 ^ n * 2 ^ p)))),
   (.popc w, gives (fun x => .reg (BitVec.ofNat 32 ((List.range width).countP (fun k => x.a.getLsbD k))))),
   (.clz w, gives (fun x => .reg (BitVec.ofNat 32 (clzFn width x.a)))),
   (.ctz w, gives (fun x => .reg (BitVec.ofNat 32 (ctzFn width x.a)))),
   (.brev w, gives (bitsWrite w.mod (fun n a _ _ => BitVec.ofFnLE (fun k : Fin n => a.getLsbD (n - 1 - k.val))))),
   (.bperm w, gives (fun x => .reg (bpermFn x.wa x.wb x.wc)))]

/-- Compares, predicates, selects, moves and index registers (R246 to R248, R251). -/
def moveResults (w : RWord) : List (Instr × LaneResult) :=
  [(.icmp w, gives (fun x =>
      let u := w.mod.getLsbD 13
      let t := if RMod.w w.mod then conditionHolds (RMod.bits w.mod 8 3) (viewOf u x.a) (viewOf u x.b)
        else conditionHolds (RMod.bits w.mod 8 3) (viewOf u x.wa) (viewOf u x.wb)
      let p := x.c != 0
      .pred ([t, t && p, t || p, t ^^ p].getD (RMod.bits w.mod 11 2) t))),
   (.plop w, gives (fun x => .pred ((if x.c = 0 then RMod.bits w.mod 8 4 else RMod.bits w.mod 12 4).testBit
      (2 * (x.a != 0).toNat + (x.b != 0).toNat)))),
   (.sel w, gives (fun x => .value (RMod.w w.mod) (if x.c = 0 then x.b else x.a))),
   (.pmovGet w, gives (fun x => .reg (BitVec.ofFnLE (fun k : Fin 32 => decide (k.val < 7) && x.lane.pred k.val)))),
   (.pmovSet w, gives (fun x => .preds (w.mod.extractLsb' 9 7) (x.wa.extractLsb' 0 7))),
   (.mov w, gives (fun x => .value (RMod.w w.mod) x.a)), (.pfx w, gives (fun x => .pred (decide (x.num < x.wa.toNat)))),
   (.xset w, gives (fun x => .xreg (x.wb.extractLsb' 0 16 ++ x.wa.extractLsb' 0 16))),
   (.xadd w, gives (fun x =>
      let old := x.lane.xreg w.dst.toNat
      .xreg (old.extractLsb' 16 16 ++ (old.extractLsb' 0 16 + x.wb.extractLsb' 0 16))))]

/-- FP32 arithmetic and tests (R253 to R256). -/
def floatResults (w : RWord) : List (Instr × LaneResult) :=
  let mode := RMod.rm w.mod
  let v (z : DWord) : Num := fp32Fmt.decode (RMod.ftz w.mod) (z.setWidth 32 : Word).toNat
  let out (f : Num → Num → Num → Num) : LaneResult := givesRounded w.mod 1 (fun x =>
    .reg (BitVec.ofNat 32 (roundsTo fp32Fmt w.mod x 0 (f (v x.a) (v x.b) (v x.c)))))
  [(.fadd w, out (fun a b _ => sumNum mode [a, b])), (.fsub w, out (fun a b _ => sumNum mode [a, b.negate])),
   (.fmul w, out (fun a b _ => a.mul b)), (.ffma w, out (fun a b c => sumNum mode [a.mul b, c])),
   (.fdiv w, out (fun a b _ => Num.div 48 a b)), (.fsqrt w, out (fun a _ _ => Num.sqrt 48 a)),
   (.frcp w, out (fun a _ _ => Num.div 48 (.fin false 1 0 false) a)), (.frsq w, out (fun a _ _ => Num.rsqrt 48 a)),
   (.frnd w, fun s k r x => out (fun a _ _ => a.roundIntegral mode (laneRounding w.mod x 0).d) s k r x),
   (.fmin w, out (fun a b _ => if a.isNan || b.isNan then .nan else a.pick false b)),
   (.fmax w, out (fun a b _ => if a.isNan || b.isNan then .nan else a.pick true b)),
   (.fminn w, out (fun a b _ => if a.isNan then b else if b.isNan then a else a.pick false b)),
   (.fmaxn w, out (fun a b _ => if a.isNan then b else if b.isNan then a else a.pick true b)),
   (.fcmp w, gives (fun x =>
      let un := (v x.a).isNan || (v x.b).isNan
      let c := (v x.a).cmp (v x.b)
      .pred ([!un && c == .eq, un || c != .eq, !un && c == .lt, !un && (c == .lt || c == .eq),
        !un && c == .gt, !un && (c == .gt || c == .eq), un, !un].getD (RMod.bits w.mod 10 3) false))),
   (.fclass w, gives (fun x => .reg (1#32 <<< classOfFloat fp32Fmt x.wa.toNat)))]

/-- Packed halves, conversions, L32 and the functions (R257 to R260). -/
def formatResults (w : RWord) : List (Instr × LaneResult) :=
  let fmt : FloatFmt := if w.mod.getLsbD 9 then bf16Fmt else fp16Fmt
  let v (z : DWord) (k : Nat) : Num := fmt.decode (RMod.ftz w.mod) (z.toNat / 2 ^ (16 * k) % 2 ^ 16)
  let half (f : Num → Num → Num → Num) (x : LaneIn) (k : Nat) : BitVec 16 :=
    BitVec.ofNat 16 (roundsTo fmt w.mod x k (f (v x.a k) (v x.b k) (v x.c k)))
  let out (f : Num → Num → Num → Num) : LaneResult := givesRounded w.mod 2 (fun x => .reg (half f x 1 ++ half f x 0))
  let fn (f : Func) : LaneResult := givesRounded w.mod 1 (fun x => .reg (f.apply (laneRounding w.mod x 0) x.wa))
  let ints := (intFmt (RMod.bits w.mod 13 5)).isSome && (intFmt w.b.toNat).isSome
  [(.hadd2 w, out (fun a b _ => sumNum (RMod.rm w.mod) [a, b])), (.hmul2 w, out (fun a b _ => a.mul b)),
   (.hfma2 w, out (fun a b c => sumNum (RMod.rm w.mod) [a.mul b, c])), (.hmin2 w, out (fun a b _ => a.minMax false b)),
   (.hmax2 w, out (fun a b _ => a.minMax true b)),
   (.cvt w, givesRounded w.mod (if ints then 0 else 1) (fun x => .reg (BitVec.ofNat 32 (convert (RMod.bits w.mod 13 5) w.b.toNat
      (if ints then { mode := 0, d := 0, ftz := false } else laneRounding w.mod x 0)
      (w.mod.getLsbD 8) (w.mod.getLsbD 12) (RMod.ftz w.mod) x.wa.toNat)))),
   (.logc w, givesRounded w.mod 1 (fun x => .reg (logc (laneRounding w.mod x 0) x.wa))),
   (.expc w, givesRounded w.mod 1 (fun x => .reg (expc (laneRounding w.mod x 0) x.wa))),
   (.lmul w, gives (fun x => .reg (L32.enc ((l32Of x.wa).mul (l32Of x.wb))))),
   (.ldiv w, gives (fun x => .reg (L32.enc ((l32Of x.wa).div (l32Of x.wb))))),
   (.lpow w, gives (fun x => .reg (L32.enc ((l32Of x.wa).pow (w.b ++ w.c).toInt)))),
   (.lroot w, gives (fun x => .reg (L32.enc ((l32Of x.wa).root (RMod.bits w.mod 10 3 + 1))))),
   (.fex2 w, fn .exp2), (.flg2 w, fn .log2), (.fsin w, fn .sin), (.fcos w, fn .cos), (.ftanh w, fn .tanh), (.fsigm w, fn .sigm)]

/-- Special reads and the FP64 extension (R266 to R269). -/
def specialResults (w : RWord) : List (Instr × LaneResult) :=
  let mode := RMod.rm w.mod
  let v (z : DWord) : Num := fp64Fmt.decode (RMod.ftz w.mod) z.toNat
  let out (f : Num → Num → Num → Num) : LaneResult := givesRounded w.mod 1 (fun x =>
    .pair (BitVec.ofNat 64 (roundsTo fp64Fmt w.mod x 0 (f (v x.a) (v x.b) (v x.c)))))
  let d := RMod.bits w.mod 13 5
  [(.srd w, fun s k r x =>
      let l := s.recordOfLaunch r.launch
      { write := .value (srWide w.a.toNat) ([x.lane.item, BitVec.ofNat 64 x.num, BitVec.ofNat 64 r.rod, BitVec.ofNat 64 r.team,
          BitVec.ofNat 64 k.frame.frame, BitVec.ofNat 64 k.frame.die, BitVec.ofNat 64 r.launch, s.frameTime k.frame,
          l.deadline, (if x.lane.phase then 1 else 0), l.param, l.count, (if Config.isStream k.frame.die then 0 else 1),
          x.lane.carryBits.setWidth 64].getD w.a.toNat (x.lane.carryBits.setWidth 64))
        draws := 0 }),
   (.cstat w, fun s _ r x =>
      let slot := RMod.bits w.mod 8 3
      let l := s.recordOfLaunch r.launch
      let first := decide (x.lane.item.toNat < l.base.toNat + (l.slot slot).1)
      let b := carryBuf s.carry r.launch (x.lane.item.toNat - (l.slot slot).1) slot
      let low : Word := if first then 16
        else BitVec.ofNat 32 b.gens.length ||| (if b.closed || s.wrapped r.launch then 8 else 0)
      { write := .pair (x.lane.readCount.toList.getD slot 0 ++ low), draws := 0 }),
   (.slack w, fun s k r _ =>
      { write := .pair (match s.launch? r.launch with
          | some l => if l.record.deadline = 0 then 0x7FFFFFFFFFFFFFFF else l.slack (s.frameTime k.frame).toNat
          | none => 0x7FFFFFFFFFFFFFFF)
        draws := 0 }),
   (.rngc w, gives (fun x =>
      let g := rngc x.a x.wb x.key
      match RMod.bits w.mod 8 2 with
      | 0 => .reg g.1
      | 1 => .pair (g.2 ++ g.1)
      | _ => .reg (BitVec.ofNat 32 (fp32Fmt.put .ieee { mode := 0, d := 0, ftz := false }
          (Num.mk' false (g.1.toNat / 256) (-24)))))),
   (.dadd w, out (fun a b _ => sumNum mode [a, b])), (.dmul w, out (fun a b _ => a.mul b)),
   (.dfma w, out (fun a b c => sumNum mode [a.mul b, c])), (.ddiv w, out (fun a b _ => Num.div 80 a b)),
   (.dsqrt w, out (fun a _ _ => Num.sqrt 80 a)),
   (.dcvt w, givesRounded w.mod 1 (fun x => .value (d == 0 || d == 30) (BitVec.ofNat 64
      (convert d w.b.toNat (laneRounding w.mod x 0) false false (RMod.ftz w.mod) x.a.toNat))))]

/-- THE LANE WORDS of format R or S with their results: each enabled lane's is made of its own operands, by the functions that the
statements on the families give (R204). -/
def laneResults (w : RWord) : List (Instr × LaneResult) :=
  arithmeticResults w ++ bitResults w ++ moveResults w ++ floatResults w ++ formatResults w ++ specialResults w

/-- The lane words of format I with their results (R252). -/
def immediateResults (w : IWord) : List (Instr × LaneResult) :=
  let b : Word := w.imm.extractLsb' 0 32
  let h : Word := (w.imm.extractLsb' 0 24).signExtend 32
  let one (f : Word → Word) : LaneResult := gives (fun x => .value false ((f x.wa).setWidth 64))
  [(.iaddImm w, one (fun a => a + b)), (.isubImm w, one (fun a => a - b)), (.imulImm w, one (fun a => a * b)),
   (.iminImm w, one (fun a => if a.toInt ≤ b.toInt then a else b)), (.imaxImm w, one (fun a => if a.toInt ≤ b.toInt then b else a)),
   (.leaImm w, gives (fun x => .pair (x.a + b.signExtend 64))), (.andImm w, one (fun a => a &&& b)),
   (.orImm w, one (fun a => a ||| b)), (.xorImm w, one (fun a => a ^^^ b)), (.andnImm w, one (fun a => a &&& ~~~b)),
   (.shlImm w, one (fun a => a <<< (b.toNat % 32))), (.shrImm w, one (fun a => a >>> (b.toNat % 32))),
   (.sarImm w, one (fun a => a.sshiftRight (b.toNat % 32))), (.rolImm w, one (fun a => a.rotateLeft (b.toNat % 32))),
   (.bfxImm w, gives (fun x => .reg (bfxFn false x.wa h))), (.bpermImm w, gives (fun x => .reg (bpermFn x.wa h 0))),
   (.icmpImm w, gives (fun x =>
      let u := w.imm.getLsbD 29
      .pred (conditionHolds (w.imm.extractLsb' 24 3).toNat (viewOf u x.wa) (viewOf u h)))),
   (.movi w, gives (fun _ => .reg b)), (.movhi w, gives (fun _ => .high b)),
   (.xaddImm w, gives (fun x =>
      let old := x.lane.xreg w.dst.toNat
      .xreg (old.extractLsb' 16 16 ++ (old.extractLsb' 0 16 + w.imm.extractLsb' 0 16))))]

/-- The cross-lane words, on one item (R248, R249): it is its own source, and all that takes part. -/
def aloneResults (w : RWord) : List (Instr × LaneResult) :=
  [(.lxch w, gives (fun x => .value (RMod.w w.mod) x.a)),
   (.pagg w, gives (fun x =>
      let set := x.a != 0
      match RMod.bits w.mod 8 3 with
      | 0 => .reg (if set then 1#32 <<< x.num else 0)
      | 1 => .reg (if set then 1 else 0)
      | 2 | 3 => .pred set
      | _ => .pred true)),
   (.rred w, gives (fun x => .value (RMod.w w.mod)
      (rredFn (RMod.bits w.mod 12 3) (RMod.w w.mod) (RMod.u w.mod) (RMod.sat w.mod) [x.a])))]

/-! ## Copies of a sector (R169, R185, R186) -/

/-- The dirty bytes of a copy have reached the home, and no other byte of memory has changed. -/
def bytesMerged (s t : State) (n : Nat) (x : Sector) : Prop :=
  (∀ k, k < 64 → cellGet t.mem (64 * n + k) =
      if x.dirty.getLsbD k then x.data.extractLsb' (8 * k) 8 else cellGet s.mem (64 * n + k))
    ∧ ∀ a, a / 64 ≠ n → cellGet t.mem a = cellGet s.mem a

/-- The dirty bytes of a copy `x` have gone over what a cache held of the sector, which keeps its other bytes. -/
def bytesTaken (old x y : Sector) : Prop :=
  ∀ k, k < 64 → y.valid.getLsbD k = (old.valid.getLsbD k || x.dirty.getLsbD k)
    ∧ y.dirty.getLsbD k = (old.dirty.getLsbD k || x.dirty.getLsbD k)
    ∧ y.data.extractLsb' (8 * k) 8 = (if x.dirty.getLsbD k then x.data else old.data).extractLsb' (8 * k) 8

/-- A copy whose dirty bytes have gone elsewhere: it holds what it held, clean. -/
def keptClean (x y : Sector) : Prop := y.valid = x.valid ∧ y.dirty = 0 ∧ y.data = x.data

/-- What an acquire at a scope leaves of a copy: its dirty bytes, where it has any; at V and S all of an untracked one (R187,
R190). -/
def refreshedCopy (scope : Nat) (x : Sector) : Option Sector :=
  if 3 ≤ scope ∧ x.untracked = true then some x else if x.dirty = 0 then none else some { x with valid := x.dirty }

/-- A cache after an acquire at a scope. -/
def refreshes (scope : Nat) (old new : List Sector) : Prop :=
  ∀ y, y ∈ new ↔ ∃ x ∈ old, refreshedCopy scope x = some y

/-- No frame of a die holds a dirty byte of a sector. -/
abbrev State.framesClean (s : State) (d n : Nat) (u : Bool) : Prop :=
  ∀ q ∈ s.framesOfDie d, ∀ x, s.frameSector q n u = some x → x.dirty = 0

/-! ## Translation tables (R413 to R417) -/

/-- The eight bytes of a table entry in memory. -/
def tableWord (s : State) (pa : Nat) : DWord := BitVec.ofNat 64 (ofLe (cellsRead s.mem pa 8))

/-- The hub can read an entry as it stands in memory: nobody owns its sector, and nothing stops the read (R417). -/
abbrev State.entryReads (s : State) (pa : Nat) : Prop :=
  s.severed hubNode (pa / 64) = false ∧ s.poisoned (pa / 64) = false ∧ ((s.dir (pa / 64)).st = .dI ∨ (s.dir (pa / 64)).st = .dS)

end Sys2Proof.Machine
end

