-- ==== Sys2Proof/Certificates/Slice0/Obligations.lean ====
section
/-!
DEFINITION. Sys2Proof/Certificates/Slice0/Obligations.lean: the statements for the provers. Each docstring says what it
formalises and cites its rules.
-/

open Sys2Proof Sys2Proof.Machine

/-- Integer arithmetic entries write the exact result in the view, wrapped or saturated (R239, R236, R235, R241). -/
def Obligations.IntegerArithmetic : Prop :=
  (∀ w : RWord,
    CompletesWith (.iadd w) (fun _ _ _ => integerWrite w.mod (RMod.u w.mod) (RMod.sat w.mod) (fun _ a b _ => a + b))
    ∧ CompletesWith (.isub w) (fun _ _ _ => integerWrite w.mod (RMod.u w.mod) (RMod.sat w.mod) (fun _ a b _ => a - b))
    ∧ CompletesWith (.imul w) (fun _ _ _ => integerWrite w.mod (RMod.u w.mod) (RMod.sat w.mod) (fun _ a b _ => a * b))
    ∧ CompletesWith (.imulh w) (fun _ _ _ =>
        integerWrite w.mod (RMod.u w.mod) false (fun n a b _ => a * b / (2 : Int) ^ n))
    ∧ CompletesWith (.imad w) (fun _ _ _ =>
        integerWrite w.mod (RMod.u w.mod) (RMod.sat w.mod) (fun _ a b c => a * b + c))
    ∧ CompletesWith (.imin w) (fun _ _ _ =>
        integerWrite w.mod (RMod.u w.mod) false (fun _ a b _ => if a ≤ b then a else b))
    ∧ CompletesWith (.imax w) (fun _ _ _ =>
        integerWrite w.mod (RMod.u w.mod) false (fun _ a b _ => if a ≤ b then b else a))
    ∧ CompletesWith (.iabs w) (fun _ _ _ =>
        integerWrite w.mod false (RMod.sat w.mod) (fun _ a _ _ => if a < 0 then -a else a))
    ∧ CompletesWith (.ineg w) (fun _ _ _ => integerWrite w.mod false (RMod.sat w.mod) (fun _ a _ _ => 0 - a))
    ∧ CompletesWith (.lea w) (fun _ _ _ x =>
        .pair (BitVec.ofInt 64 ((x.a.toNat : Int)
          + (if RMod.u w.mod then (x.wb.toNat : Int) else x.wb.toInt) * (2 : Int) ^ RMod.bits w.mod 8 3))))
  ∧ (∀ (w : Nat) (u : Bool), 0 < w →
    (∀ a b c : BitVec w,
      intResult w false u (viewOf u a + viewOf u b) = a + b
      ∧ intResult w false u (viewOf u a - viewOf u b) = a - b
      ∧ intResult w false u (viewOf u a * viewOf u b) = a * b
      ∧ intResult w false u (viewOf u a * viewOf u b + viewOf u c) = a * b + c)
    ∧ (∀ v : Int, viewOf u (intResult w true u v)
        = if v < (if u then 0 else -(2 : Int) ^ (w - 1)) then (if u then 0 else -(2 : Int) ^ (w - 1))
          else if (if u then (2 : Int) ^ w - 1 else (2 : Int) ^ (w - 1) - 1) < v then
            (if u then (2 : Int) ^ w - 1 else (2 : Int) ^ (w - 1) - 1)
          else v)
    ∧ (∀ v : Int, (2 : Int) ^ w ∣ viewOf u (intResult w false u v) - v))

/-- IDIV and IREM complete for every operand value with the quotient and remainder of R240 (R240). -/
def Obligations.IntegerDivision : Prop :=
  ∀ w : RWord,
    let q (a b : Int) : Int := if (a < 0) = (b < 0) then ((a.natAbs / b.natAbs : Nat) : Int)
      else -((a.natAbs / b.natAbs : Nat) : Int)
    let least (n : Nat) : Int := -(2 : Int) ^ (n - 1)
    CompletesWith (.idiv w) (fun _ _ _ => integerWrite w.mod (RMod.u w.mod) false (fun n a b _ =>
      if b = 0 then (2 : Int) ^ n - 1
      else if RMod.u w.mod = false ∧ a = least n ∧ b = -1 then
        (if RMod.sat w.mod then (2 : Int) ^ (n - 1) - 1 else least n)
      else q a b))
    ∧ CompletesWith (.irem w) (fun _ _ _ => integerWrite w.mod (RMod.u w.mod) false (fun n a b _ =>
      if b = 0 then a
      else if RMod.u w.mod = false ∧ a = least n ∧ b = -1 then 0
      else a - q a b * b))

/-- Logic and shift entries compute each bit position and shift by b modulo the width (R242, R235). -/
def Obligations.LogicAndShifts : Prop :=
  ∀ w : RWord,
    CompletesWith (.and w) (fun _ _ _ => bitsWrite w.mod (fun _ a b _ => a &&& b))
    ∧ CompletesWith (.or w) (fun _ _ _ => bitsWrite w.mod (fun _ a b _ => a ||| b))
    ∧ CompletesWith (.xor w) (fun _ _ _ => bitsWrite w.mod (fun _ a b _ => a ^^^ b))
    ∧ CompletesWith (.andn w) (fun _ _ _ => bitsWrite w.mod (fun _ a b _ => a &&& ~~~b))
    ∧ CompletesWith (.lmux w) (fun _ _ _ => bitsWrite w.mod (fun n a b c => BitVec.ofFnLE (fun k : Fin n =>
        (if c.getLsbD k.val then RMod.bits w.mod 12 4 else RMod.bits w.mod 8 4).testBit
          (2 * (a.getLsbD k.val).toNat + (b.getLsbD k.val).toNat))))
    ∧ CompletesWith (.shl w) (fun _ _ _ => shiftWrite w.mod (fun v a n => BitVec.ofNat v (a.toNat * 2 ^ n)))
    ∧ CompletesWith (.shr w) (fun _ _ _ => shiftWrite w.mod (fun v a n => BitVec.ofNat v (a.toNat / 2 ^ n)))
    ∧ CompletesWith (.sar w) (fun _ _ _ => shiftWrite w.mod (fun v a n => BitVec.ofInt v (a.toInt / (2 : Int) ^ n)))
    ∧ CompletesWith (.rol w) (fun _ _ _ => shiftWrite w.mod (fun v a n =>
        BitVec.ofFnLE (fun k : Fin v => a.getLsbD ((k.val + (v - n)) % v))))
    ∧ CompletesWith (.shf w) (fun _ _ _ x =>
        let f := x.wb.toNat * 2 ^ 32 + x.wa.toNat
        let n := x.wc.toNat % 32
        .reg (BitVec.ofNat 32 (if w.mod.getLsbD 8 then f * 2 ^ n / 2 ^ 32 else f / 2 ^ n)))

/-- Bit-field, counting and permutation entries compute the results of R243 to R245 (R243, R244, R245). -/
def Obligations.BitFields : Prop :=
  ∀ w : RWord,
    let width : Nat := if RMod.w w.mod then 64 else 32
    CompletesWith (.bfx w) (fun _ _ _ x =>
      let p := min (x.wb.toNat % 256) 32
      let n := min (x.wb.toNat / 256 % 256) 32
      let f : Int := (if RMod.u w.mod then (x.wa.toNat : Int) else x.wa.toInt) / (2 : Int) ^ p % (2 : Int) ^ n
      .reg (if n = 0 then 0
        else BitVec.ofInt 32 (if RMod.u w.mod ∨ f < (2 : Int) ^ (n - 1) then f else f - (2 : Int) ^ n)))
    ∧ CompletesWith (.bfi w) (fun _ _ _ x =>
      let p := min (x.wb.toNat % 256) 32
      let n := min (x.wb.toNat / 256 % 256) 32
      let m : Word := BitVec.ofNat 32 ((2 ^ n - 1) * 2 ^ p)
      .reg ((x.wc &&& ~~~m) ||| BitVec.ofNat 32 (x.wa.toNat % 2 ^ n * 2 ^ p)))
    ∧ CompletesWith (.popc w) (fun _ _ _ x =>
      .reg (BitVec.ofNat 32 ((List.range width).countP (fun k => x.a.getLsbD k))))
    ∧ CompletesWith (.clz w) (fun _ _ _ x => .reg (BitVec.ofNat 32 (clzFn width x.a)))
    ∧ CompletesWith (.ctz w) (fun _ _ _ x => .reg (BitVec.ofNat 32 (ctzFn width x.a)))
    ∧ (∀ a : DWord,
        (∀ k, k < width → width - 1 - clzFn width a < k → a.getLsbD k = false)
        ∧ (clzFn width a < width → a.getLsbD (width - 1 - clzFn width a) = true)
        ∧ (clzFn width a = width → ∀ k, k < width → a.getLsbD k = false)
        ∧ (∀ k, k < ctzFn width a → a.getLsbD k = false)
        ∧ (ctzFn width a < width → a.getLsbD (ctzFn width a) = true)
        ∧ clzFn width a ≤ width ∧ ctzFn width a ≤ width)
    ∧ CompletesWith (.brev w) (fun _ _ _ =>
      bitsWrite w.mod (fun n a _ _ => BitVec.ofFnLE (fun k : Fin n => a.getLsbD (n - 1 - k.val))))
    ∧ CompletesWith (.bperm w) (fun _ _ _ x => .reg (bpermFn x.wa x.wb x.wc))
    ∧ (∀ (a b c : Word) (k : Fin 4),
        let nib := (b.toNat / 16 ^ k.val) % 16
        let t := ((c.toNat * 2 ^ 32 + a.toNat) / 256 ^ (nib % 8)) % 256
        ((bpermFn a b c).extractLsb' (8 * k.val) 8).toNat
          = if 8 ≤ nib then (if 128 ≤ t then 255 else 0) else t)

/-- Compares, predicate entries, selects, moves and index-register entries write what R246, R247, R248 and R251 say (R246,
R247, R248, R251, R113, R114). -/
def Obligations.ComparesSelectsMoves : Prop :=
  ∀ w : RWord,
    CompletesWith (.icmp w) (fun _ _ _ x =>
      let u := w.mod.getLsbD 13
      let t := if RMod.w w.mod then conditionHolds (RMod.bits w.mod 8 3) (viewOf u x.a) (viewOf u x.b)
        else conditionHolds (RMod.bits w.mod 8 3) (viewOf u x.wa) (viewOf u x.wb)
      let p := x.c != 0
      .pred ([t, t && p, t || p, t ^^ p].getD (RMod.bits w.mod 11 2) t))
    ∧ CompletesWith (.plop w) (fun _ _ _ x =>
      .pred ((if x.c = 0 then RMod.bits w.mod 8 4 else RMod.bits w.mod 12 4).testBit
        (2 * (x.a != 0).toNat + (x.b != 0).toNat)))
    ∧ CompletesWith (.sel w) (fun _ _ _ x => .value (RMod.w w.mod) (if x.c = 0 then x.b else x.a))
    ∧ CompletesWith (.pmovGet w) (fun _ _ _ x =>
      .reg (BitVec.ofFnLE (fun k : Fin 32 => decide (k.val < 7) && x.lane.pred k.val)))
    ∧ CompletesWith (.pmovSet w) (fun _ _ _ x => .preds (w.mod.extractLsb' 9 7) (x.wa.extractLsb' 0 7))
    ∧ CompletesWith (.mov w) (fun _ _ _ x => .value (RMod.w w.mod) x.a)
    ∧ CompletesWith (.pfx w) (fun _ _ _ x => .pred (decide (x.num < x.wa.toNat)))
    ∧ CompletesWith (.xset w) (fun _ _ _ x => .xreg (x.wb.extractLsb' 0 16 ++ x.wa.extractLsb' 0 16))
    ∧ CompletesWith (.xadd w) (fun _ _ _ x =>
      let old := x.lane.xreg w.dst.toNat
      .xreg (old.extractLsb' 16 16 ++ (old.extractLsb' 0 16 + x.wb.extractLsb' 0 16)))
    ∧ (∀ (x : Lane) (b : Bool), (LaneWrite.pred b).apply (.pred 7) x = x)
    ∧ (∀ (x : Lane) (m v : BitVec 7) (k : Fin 7), ((LaneWrite.preds m v).apply .none x).pred k.val
        = if m.getLsbD k.val then v.getLsbD k.val else x.pred k.val)

/-- Immediate forms compute their counterpart with the immediate in place of b (R252, R215, R206). -/
def Obligations.ImmediateForms : Prop :=
  ∀ w : IWord,
    let b : Word := w.imm.extractLsb' 0 32
    let h : Word := (w.imm.extractLsb' 0 24).signExtend 32
    CompletesWith (.iaddImm w) (fun _ _ _ x => .value false ((x.wa + b).setWidth 64))
    ∧ CompletesWith (.isubImm w) (fun _ _ _ x => .value false ((x.wa - b).setWidth 64))
    ∧ CompletesWith (.imulImm w) (fun _ _ _ x => .value false ((x.wa * b).setWidth 64))
    ∧ CompletesWith (.iminImm w) (fun _ _ _ x =>
        .value false ((if x.wa.toInt ≤ b.toInt then x.wa else b).setWidth 64))
    ∧ CompletesWith (.imaxImm w) (fun _ _ _ x =>
        .value false ((if x.wa.toInt ≤ b.toInt then b else x.wa).setWidth 64))
    ∧ CompletesWith (.leaImm w) (fun _ _ _ x => .pair (x.a + b.signExtend 64))
    ∧ CompletesWith (.andImm w) (fun _ _ _ x => .value false ((x.wa &&& b).setWidth 64))
    ∧ CompletesWith (.orImm w) (fun _ _ _ x => .value false ((x.wa ||| b).setWidth 64))
    ∧ CompletesWith (.xorImm w) (fun _ _ _ x => .value false ((x.wa ^^^ b).setWidth 64))
    ∧ CompletesWith (.andnImm w) (fun _ _ _ x => .value false ((x.wa &&& ~~~b).setWidth 64))
    ∧ CompletesWith (.shlImm w) (fun _ _ _ x => .value false ((x.wa <<< (b.toNat % 32)).setWidth 64))
    ∧ CompletesWith (.shrImm w) (fun _ _ _ x => .value false ((x.wa >>> (b.toNat % 32)).setWidth 64))
    ∧ CompletesWith (.sarImm w) (fun _ _ _ x => .value false ((x.wa.sshiftRight (b.toNat % 32)).setWidth 64))
    ∧ CompletesWith (.rolImm w) (fun _ _ _ x => .value false ((x.wa.rotateLeft (b.toNat % 32)).setWidth 64))
    ∧ CompletesWith (.bfxImm w) (fun _ _ _ x => .reg (bfxFn false x.wa h))
    ∧ CompletesWith (.bpermImm w) (fun _ _ _ x => .reg (bpermFn x.wa h 0))
    ∧ CompletesWith (.icmpImm w) (fun _ _ _ x =>
        let u := w.imm.getLsbD 29
        .pred (conditionHolds (w.imm.extractLsb' 24 3).toNat (viewOf u x.wa) (viewOf u h)))
    ∧ CompletesWith (.movi w) (fun _ _ _ _ => .reg b)
    ∧ CompletesWith (.movhi w) (fun _ _ _ _ => .high b)
    ∧ CompletesWith (.xaddImm w) (fun _ _ _ x =>
        let old := x.lane.xreg w.dst.toNat
        .xreg (old.extractLsb' 16 16 ++ (old.extractLsb' 0 16 + w.imm.extractLsb' 0 16)))

/-- FP32 entries round the exact result once (R253, R254, R157, R138, R153). -/
def Obligations.FloatArithmetic : Prop :=
  ∀ w : RWord,
    let mode := RMod.rm w.mod
    let v (z : DWord) : Machine.Num := fp32Fmt.decode (RMod.ftz w.mod) (z.setWidth 32 : Word).toNat
    let out (f : Machine.Num → Machine.Num → Machine.Num → Machine.Num) (x : LaneIn) : LaneWrite :=
      .reg (BitVec.ofNat 32 (roundsTo fp32Fmt w.mod x 0 (f (v x.a) (v x.b) (v x.c))))
    CompletesRounding (.fadd w) w.mod 1 (out (fun a b _ => sumNum mode [a, b]))
    ∧ CompletesRounding (.fsub w) w.mod 1 (out (fun a b _ => sumNum mode [a, b.negate]))
    ∧ CompletesRounding (.fmul w) w.mod 1 (out (fun a b _ => a.mul b))
    ∧ CompletesRounding (.ffma w) w.mod 1 (out (fun a b c => sumNum mode [a.mul b, c]))
    ∧ CompletesRounding (.fdiv w) w.mod 1 (out (fun a b _ => Machine.Num.div 48 a b))
    ∧ CompletesRounding (.fsqrt w) w.mod 1 (out (fun a _ _ => Machine.Num.sqrt 48 a))
    ∧ CompletesRounding (.frcp w) w.mod 1 (out (fun a _ _ => Machine.Num.div 48 (.fin false 1 0 false) a))
    ∧ CompletesRounding (.frsq w) w.mod 1 (out (fun a _ _ => Machine.Num.rsqrt 48 a))
    ∧ CompletesRounding (.frnd w) w.mod 1 (fun x =>
        out (fun a _ _ => a.roundIntegral mode (laneRounding w.mod x 0).d) x)
    ∧ CompletesRounding (.fmin w) w.mod 1 (out (fun a b _ =>
        if a.isNan || b.isNan then .nan else a.pick false b))
    ∧ CompletesRounding (.fmax w) w.mod 1 (out (fun a b _ =>
        if a.isNan || b.isNan then .nan else a.pick true b))
    ∧ CompletesRounding (.fminn w) w.mod 1 (out (fun a b _ =>
        if a.isNan then b else if b.isNan then a else a.pick false b))
    ∧ CompletesRounding (.fmaxn w) w.mod 1 (out (fun a b _ =>
        if a.isNan then b else if b.isNan then a else a.pick true b))

/-- FCMP and FCLASS write the condition and the class of R255 and R256 (R255, R256). -/
def Obligations.FloatTests : Prop :=
  (∀ w : RWord,
    let v (z : DWord) : Machine.Num := fp32Fmt.decode (RMod.ftz w.mod) (z.setWidth 32 : Word).toNat
    CompletesWith (.fcmp w) (fun _ _ _ x =>
      let a := v x.a
      let b := v x.b
      let un := a.isNan || b.isNan
      let c := a.cmp b
      .pred ([!un && c == .eq, un || c != .eq, !un && c == .lt, !un && (c == .lt || c == .eq),
        !un && c == .gt, !un && (c == .gt || c == .eq), un, !un].getD (RMod.bits w.mod 10 3) false))
    ∧ CompletesWith (.fclass w) (fun _ _ _ x => .reg (1#32 <<< classOfFloat fp32Fmt x.wa.toNat)))
  -- the relations are those of the exact values, and the two zeros are equal
  ∧ (∀ (ftz : Bool) (x y : Word),
    let value (z : Machine.Num) : ℚ := match z with
      | .fin n m e _ => (if n then -(m : ℚ) else m) * 2 ^ e
      | .nan | .inf _ | .zero _ => 0
    let a := fp32Fmt.decode ftz x.toNat
    let b := fp32Fmt.decode ftz y.toNat
    a.isNan = false → b.isNan = false →
    (a.isInf = false → b.isInf = false →
      (a.cmp b = .lt ↔ value a < value b) ∧ (a.cmp b = .eq ↔ value a = value b) ∧ (a.cmp b = .gt ↔ value b < value a))
    ∧ (a = .inf true → a.cmp b = (if b = .inf true then .eq else .lt))
    ∧ (a = .inf false → a.cmp b = (if b = .inf false then .eq else .gt))
    ∧ (b = .inf true → a.cmp b = (if a = .inf true then .eq else .gt))
    ∧ (b = .inf false → a.cmp b = (if a = .inf false then .eq else .lt)))
  -- the classes of the raw encoding
  ∧ (∀ e : Word,
    let c := classOfFloat fp32Fmt e.toNat
    let exp := (e.extractLsb' 23 8).toNat
    let frac := (e.extractLsb' 0 23).toNat
    c ≤ 8 ∧ (c = 0 ↔ e = 0xFF800000) ∧ (c = 7 ↔ e = 0x7F800000) ∧ (c = 3 ↔ e = 0x80000000) ∧ (c = 4 ↔ e = 0)
    ∧ (c = 8 ↔ exp = 255 ∧ frac ≠ 0)
    ∧ (c = 1 ↔ e.getLsbD 31 = true ∧ 0 < exp ∧ exp < 255) ∧ (c = 6 ↔ e.getLsbD 31 = false ∧ 0 < exp ∧ exp < 255)
    ∧ (c = 2 ↔ e.getLsbD 31 = true ∧ exp = 0 ∧ frac ≠ 0) ∧ (c = 5 ↔ e.getLsbD 31 = false ∧ exp = 0 ∧ frac ≠ 0))
  ∧ (∀ (s : State) (k : RodKey) (r : Rod) (w : RWord), w.g.legal = true → RMod.ftz w.mod = true →
    wordCause s k r (.fclass w) = some .illegalOperand)

/-- Every rounding mode takes the value of the format that R150 to R152 name, a magnitude overflows exactly beyond the largest
finite value as its mode rounds, and what is representable is kept (R135, R136, R150, R151, R152). -/
def Obligations.RoundingModes : Prop :=
  -- precision, least quantum and largest finite value of the float formats
  ((List.range 11).map (fun c => (floatFmt c).map (fun f => (f.m, f.qmin, f.maxSig, f.maxQ)))
    = [some (53, -1074, 2 ^ 53 - 1, 971), some (24, -149, 2 ^ 24 - 1, 104), some (11, -136, 2047, 117), some (11, -24, 2047, 5),
       some (8, -133, 255, 120), some (3, -16, 7, 13), some (4, -9, 14, 5), some (5, -6, 31, -1), some (3, -4, 7, 2),
       some (4, -3, 15, -1), some (2, -1, 3, 1)])
  ∧ (∀ (code : Nat) (f : FloatFmt) (o : Machine.Overflow) (r : Rounding) (neg : Bool) (m : Nat) (e : Int),
    floatFmt code = some f → 0 < m → r.mode ≤ 5 →
    let x : ℚ := (m : ℚ) * 2 ^ e
    let step : ℚ := 2 ^ f.maxQ
    let most : ℚ := (f.maxSig : ℚ) * step
    let down : Prop := r.mode = 1 ∨ (r.mode = 2 ∧ neg = false) ∨ (r.mode = 3 ∧ neg = true)
    let up : Prop := (r.mode = 2 ∧ neg = true) ∨ (r.mode = 3 ∧ neg = false)
    let has (n : Nat) (v : ℚ) : Prop := ∃ a b, f.decode false n = .fin neg a b false ∧ (a : ℚ) * 2 ^ b = v
    (f.round r neg m e false = .overflow ↔
      ((r.mode = 0 ∨ r.mode = 5) ∧ (most + step / 2 < x ∨ x = most + step / 2 ∧ f.maxSig % 2 = 1))
      ∨ (r.mode = 4 ∧ most + step / 2 ≤ x) ∨ (down ∧ most + step ≤ x) ∨ (up ∧ most < x))
    ∧ (f.round r neg m e false = .overflow →
      (down → has (f.put .ieee r (.fin neg m e false)) most)
      ∧ (¬ down → f.hasInf = true → f.decode false (f.put .ieee r (.fin neg m e false)) = .inf neg)
      ∧ has (f.put .narrow r (.fin neg m e false)) most ∧ f.put .narrowNan r (.fin neg m e false) = f.nanEnc)
    ∧ ∀ sig q, f.round r neg m e false = .value sig q →
      let v : ℚ := (sig : ℚ) * 2 ^ q
      sig ≤ 2 ^ f.m ∧ f.qmin ≤ q ∧ (q = f.qmin ∨ 2 ^ (f.m - 1) ≤ sig) ∧ v ≤ most
      ∧ (r.mode = 0 → |x - v| ≤ 2 ^ q / 2 ∧ (|x - v| = 2 ^ q / 2 → sig % 2 = 0))
      ∧ (r.mode = 4 → |x - v| ≤ 2 ^ q / 2 ∧ (|x - v| = 2 ^ q / 2 → x < v))
      ∧ (down → v ≤ x ∧ x < v + 2 ^ q) ∧ (up → x ≤ v ∧ v < x + 2 ^ q)
      ∧ (r.mode = 5 → most < x → v = most)
      ∧ (r.mode = 5 → x ≤ most →
        (sig : Int) = ⌊x / 2 ^ q⌋ + (if (r.d : Int) < ⌊(x / 2 ^ q - ⌊x / 2 ^ q⌋) * 2 ^ 16⌋ then 1 else 0))
      ∧ f.put o r (.fin neg m e false) = f.encode neg sig q r.ftz
      ∧ (sig = 0 → f.decode false (f.encode neg sig q false) = .zero neg)
      ∧ (sig ≠ 0 → has (f.encode neg sig q false) v))
  ∧ (∀ (x : Word) (mode d : Nat), fp32Fmt.decode false x.toNat ≠ .nan →
    fp32Fmt.put .ieee { mode := mode, d := d, ftz := false } (fp32Fmt.decode false x.toNat) = x.toNat)

/-- Packed entries act on the two halves of each operand, each rounded by itself; an overflow under RTZ, RDN and RUP follows
R151's first bullet by the model's choice (log entry 47) (R257, R153, R151). -/
def Obligations.PackedHalves : Prop :=
  ∀ w : RWord,
    let fmt : FloatFmt := if w.mod.getLsbD 9 then bf16Fmt else fp16Fmt
    let v (z : DWord) (k : Nat) : Machine.Num := fmt.decode (RMod.ftz w.mod) (z.toNat / 2 ^ (16 * k) % 2 ^ 16)
    let half (f : Machine.Num → Machine.Num → Machine.Num → Machine.Num) (x : LaneIn) (k : Nat) : BitVec 16 :=
      BitVec.ofNat 16 (roundsTo fmt w.mod x k (f (v x.a k) (v x.b k) (v x.c k)))
    let out (f : Machine.Num → Machine.Num → Machine.Num → Machine.Num) (x : LaneIn) : LaneWrite := .reg (half f x 1 ++ half f x 0)
    CompletesRounding (.hadd2 w) w.mod 2 (out (fun a b _ => sumNum (RMod.rm w.mod) [a, b]))
    ∧ CompletesRounding (.hmul2 w) w.mod 2 (out (fun a b _ => a.mul b))
    ∧ CompletesRounding (.hfma2 w) w.mod 2 (out (fun a b c => sumNum (RMod.rm w.mod) [a.mul b, c]))
    ∧ CompletesRounding (.hmin2 w) w.mod 2 (out (fun a b _ => a.minMax false b))
    ∧ CompletesRounding (.hmax2 w) w.mod 2 (out (fun a b _ => a.minMax true b))

/-- CVT and DCVT convert once between their formats: integer targets wrap or saturate, floats round to an integer with
NaN as 0, and float targets take the rounded value, the largest finite value, an infinity or the canonical NaN (R258,
R269, R155, R156, R151, R136). -/
def Obligations.Conversions : Prop :=
  (∀ w : RWord,
    let d := RMod.bits w.mod 13 5
    let ints := (intFmt d).isSome && (intFmt w.b.toNat).isSome
    CompletesRounding (.cvt w) w.mod (if ints then 0 else 1) (fun x =>
      .reg (BitVec.ofNat 32 (convert d w.b.toNat
        (if ints then { mode := 0, d := 0, ftz := false } else laneRounding w.mod x 0)
        (w.mod.getLsbD 8) (w.mod.getLsbD 12) (RMod.ftz w.mod) x.wa.toNat)))
    ∧ CompletesRounding (.dcvt w) w.mod 1 (fun x =>
      .value (d == 0 || d == 30) (BitVec.ofNat 64
        (convert d w.b.toNat (laneRounding w.mod x 0) false false (RMod.ftz w.mod) x.a.toNat))))
  ∧ (∀ (d s wd ws x : Nat) (sd ss nan sat ftz : Bool) (r : Rounding),
      intFmt d = some (wd, sd) → intFmt s = some (ws, ss) →
      let v := intValue ws ss x
      let lo : Int := if sd then -(2 : Int) ^ (wd - 1) else 0
      let hi : Int := if sd then (2 : Int) ^ (wd - 1) - 1 else (2 : Int) ^ wd - 1
      (convert d s r nan sat ftz x : Int)
        = (if sat then (if v < lo then lo else if hi < v then hi else v) else v) % (2 : Int) ^ wd)
  -- a float source to an integer target: rounded to an integer, saturating, NaN to 0 (R156)
  ∧ (∀ (d s wd x : Nat) (sd nan sat ftz : Bool) (r : Rounding) (fs : FloatFmt),
      intFmt d = some (wd, sd) → floatFmt s = some fs →
      let lo : Int := if sd then -(2 : Int) ^ (wd - 1) else 0
      let hi : Int := if sd then (2 : Int) ^ (wd - 1) - 1 else (2 : Int) ^ wd - 1
      let y : Int := (convert d s r nan sat ftz x : Int)
      match fs.decode ftz (x % 2 ^ (fs.width + fs.pad)) with
      | .nan => y = 0
      | .zero _ => y = 0
      | .inf n => y = (if n then lo else hi) % (2 : Int) ^ wd
      | .fin n m e _ =>
        let v : Int := if n then -(roundMag r.mode r.d n m e false : Int) else (roundMag r.mode r.d n m e false : Int)
        y = (if v < lo then lo else if hi < v then hi else v) % (2 : Int) ^ wd)
  ∧ (∀ (mode m d : Nat) (n : Bool) (e : Int), 0 < m → mode < 5 →
      let x : ℚ := (m : ℚ) * 2 ^ e
      let v : ℚ := (roundMag mode d n m e false : ℚ)
      let down : Bool := mode == 1 || (mode == 2 && !n) || (mode == 3 && n)
      (mode = 0 ∨ mode = 4 → |x - v| ≤ 1 / 2)
      ∧ (mode = 0 → |x - v| = 1 / 2 → roundMag mode d n m e false % 2 = 0) ∧ (mode = 4 → |x - v| = 1 / 2 → x < v)
      ∧ (mode ∈ [1, 2, 3] → down = true → v ≤ x ∧ x < v + 1) ∧ (mode ∈ [2, 3] → down = false → x ≤ v ∧ v < x + 1))
  -- a float target from a float or an integer source (R155, R151)
  ∧ (∀ (d s x : Nat) (nan sat ftz : Bool) (r : Rounding) (f : FloatFmt) (v : Machine.Num), floatFmt d = some f →
      ((∃ fs, floatFmt s = some fs ∧ v = fs.decode ftz (x % 2 ^ (fs.width + fs.pad)))
        ∨ ∃ ws ss, intFmt s = some (ws, ss) ∧ v = Machine.Num.ofInt (intValue ws ss x)) →
      let y := convert d s r nan sat ftz x
      let narrow := decide (2 ≤ d)
      let canonical := (f.nan.getD 0) <<< f.pad
      let most (n : Bool) : Nat := if narrow && nan then canonical else f.maxEnc n
      match v with
      | .nan => y = canonical
      | .zero n => y = f.zeroEnc n
      | .inf n => y = (if f.hasInf then f.infEnc n else most n)
      | .fin n m e more =>
        (∀ sig q, f.round r n m e more = .value sig q → y = f.encode n sig q r.ftz)
        ∧ (f.round r n m e more = .overflow → narrow = true → y = most n)
        ∧ (f.round r n m e more = .overflow → narrow = false →
            y = (if r.mode = 1 ∨ (r.mode = 2 ∧ n = false) ∨ (r.mode = 3 ∧ n = true) then f.maxEnc n else f.infEnc n)))
  -- the largest finite value, the infinity and the canonical NaN of each float format (R136)
  ∧ ((List.range 11).map (fun c => (floatFmt c).map (fun f => (f.maxEnc false, (f.nan.getD 0) <<< f.pad,
        if f.hasInf then some (f.infEnc false) else none))))
      = [some (0x7FEFFFFFFFFFFFFF, 0x7FF8000000000000, some 0x7FF0000000000000), some (0x7F7FFFFF, 0x7FC00000, some 0x7F800000),
         some (0x7F7FE000, 0x7FC00000, some 0x7F800000), some (0x7BFF, 0x7E00, some 0x7C00), some (0x7F7F, 0x7FC0, some 0x7F80),
         some (0x7B, 0x7E, some 0x7C), some (0x7E, 0x7F, none), some (0x6F, 0x7F, none), some (0x1F, 0, none),
         some (0x1F, 0, none), some (0x7, 0, none)]

/-- L32 entries and the function entries complete: the whole tables of LMUL, LDIV, LPOW and LROOT, the L32 encodings and
their saturation, LOGC and EXPC on special inputs and powers of two, and the special inputs of the function entries;
elsewhere the value is the model's `logc`, `expc` and `Func.apply`, a free value where its brackets never meet (log entry
9) (R259, R260, R146 to R149, R158). -/
def Obligations.LogDomainAndFunctions : Prop :=
  (∀ w : RWord,
    let fn (f : Func) (x : LaneIn) : LaneWrite := .reg (f.apply (laneRounding w.mod x 0) x.wa)
    CompletesRounding (.logc w) w.mod 1 (fun x => .reg (logc (laneRounding w.mod x 0) x.wa))
    ∧ CompletesRounding (.expc w) w.mod 1 (fun x => .reg (expc (laneRounding w.mod x 0) x.wa))
    ∧ CompletesWith (.lmul w) (fun _ _ _ x => .reg (L32.enc ((l32Of x.wa).mul (l32Of x.wb))))
    ∧ CompletesWith (.ldiv w) (fun _ _ _ x => .reg (L32.enc ((l32Of x.wa).div (l32Of x.wb))))
    ∧ CompletesWith (.lpow w) (fun _ _ _ x => .reg (L32.enc ((l32Of x.wa).pow (w.b ++ w.c).toInt)))
    ∧ CompletesWith (.lroot w) (fun _ _ _ x => .reg (L32.enc ((l32Of x.wa).root (RMod.bits w.mod 10 3 + 1))))
    ∧ CompletesRounding (.fex2 w) w.mod 1 (fn .exp2) ∧ CompletesRounding (.flg2 w) w.mod 1 (fn .log2)
    ∧ CompletesRounding (.fsin w) w.mod 1 (fn .sin) ∧ CompletesRounding (.fcos w) w.mod 1 (fn .cos)
    ∧ CompletesRounding (.ftanh w) w.mod 1 (fn .tanh) ∧ CompletesRounding (.fsigm w) w.mod 1 (fn .sigm))
  -- the L32 tables of R148
  ∧ (∀ (s t : Bool) (e f : Int) (y : L32),
      L32.mul .nan y = .nan ∧ y.mul .nan = .nan ∧ L32.div .nan y = .nan ∧ y.div .nan = .nan
      ∧ (L32.zero s).mul (.inf t) = .nan ∧ (L32.inf s).mul (.zero t) = .nan
      ∧ (L32.zero s).mul (.zero t) = .zero (s ^^ t) ∧ (L32.zero s).mul (.fin t f) = .zero (s ^^ t)
      ∧ (L32.fin s e).mul (.zero t) = .zero (s ^^ t) ∧ (L32.inf s).mul (.inf t) = .inf (s ^^ t)
      ∧ (L32.inf s).mul (.fin t f) = .inf (s ^^ t) ∧ (L32.fin s e).mul (.inf t) = .inf (s ^^ t)
      ∧ (L32.fin s e).mul (.fin t f) = .fin (s ^^ t) (e + f)
      ∧ (L32.zero s).div (.zero t) = .nan ∧ (L32.inf s).div (.inf t) = .nan
      ∧ (L32.inf s).div (.zero t) = .inf (s ^^ t) ∧ (L32.fin s e).div (.zero t) = .inf (s ^^ t)
      ∧ (L32.zero s).div (.inf t) = .zero (s ^^ t) ∧ (L32.zero s).div (.fin t f) = .zero (s ^^ t)
      ∧ (L32.fin s e).div (.inf t) = .zero (s ^^ t) ∧ (L32.inf s).div (.fin t f) = .inf (s ^^ t)
      ∧ (L32.fin s e).div (.fin t f) = .fin (s ^^ t) (e - f))
  ∧ (∀ (s : Bool) (e n : Int), L32.pow .nan n = .nan
      ∧ (n = 0 → (L32.zero s).pow n = .fin false 0 ∧ (L32.inf s).pow n = .fin false 0 ∧ (L32.fin s e).pow n = .fin false 0)
      ∧ (n ≠ 0 → let sign := s && decide (n % 2 = 1)
          (L32.fin s e).pow n = .fin sign (e * n)
          ∧ (L32.zero s).pow n = (if 0 < n then .zero sign else .inf sign)
          ∧ (L32.inf s).pow n = (if 0 < n then .inf sign else .zero sign)))
  ∧ (∀ (s : Bool) (e : Int) (q : Nat), L32.root .nan q = .nan ∧ (L32.zero s).root q = .zero s
      ∧ (L32.inf true).root q = .nan ∧ (L32.inf false).root q = .inf false ∧ (L32.fin true e).root q = .nan
      ∧ ∃ v : Int, (L32.fin false e).root q = .fin false v
        ∧ |(e : ℚ) / 2 ^ q - v| ≤ 1 / 2 ∧ (|(e : ℚ) / 2 ^ q - v| = 1 / 2 → v % 2 = 0))
  -- the encodings and the saturation (R146 to R148)
  ∧ (∀ x : Word, L32.enc (l32Of x) = x ∨ l32Of x = .nan)
  ∧ (∀ x : Word, l32Of x = .nan ↔ x = 0x40000001 ∨ x = 0xC0000001)
  ∧ L32.enc .nan = 0x40000001
  ∧ (∀ n : Bool, L32.enc (.inf n) = (if n then 0xBFFFFFFF else 0x3FFFFFFF)
      ∧ L32.enc (.zero n) = (if n then 0xC0000000 else 0x40000000) ∧ l32Of (L32.enc (.inf n)) = .inf n
      ∧ l32Of (L32.enc (.zero n)) = .zero n
      ∧ ∀ e : Int, ((2 : Int) ^ 30 - 2 < e → L32.enc (.fin n e) = L32.enc (.inf n))
        ∧ (e < -(2 : Int) ^ 30 + 2 → L32.enc (.fin n e) = L32.enc (.zero n))
        ∧ (-(2 : Int) ^ 30 + 2 ≤ e → e ≤ (2 : Int) ^ 30 - 2 → l32Of (L32.enc (.fin n e)) = .fin n e))
  -- LOGC and EXPC: the special inputs and the powers of two (R149)
  ∧ (∀ (r : Rounding) (x : Word) (n : Bool),
      (fp32Fmt.decode false x.toNat = .nan → logc r x = 0x40000001)
      ∧ logc r (if n then 0xFF800000 else 0x7F800000) = L32.enc (.inf n)
      ∧ logc r (if n then 0x80000000 else 0) = L32.enc (.zero n)
      ∧ (∀ k : Nat, 1 ≤ k → k ≤ 254 →
          logc r (BitVec.ofNat 32 (fp32Fmt.pack n k 0)) = L32.enc (.fin n (((k : Int) - 127) * 2 ^ 23)))
      ∧ (l32Of x = .nan → expc r x = 0x7FC00000)
      ∧ expc r (L32.enc (.inf n)) = (if n then 0xFF800000 else 0x7F800000)
      ∧ expc r (L32.enc (.zero n)) = (if n then 0x80000000 else 0)
      ∧ ∀ k : Nat, 1 ≤ k → k ≤ 254 →
          expc r (L32.enc (.fin n (((k : Int) - 127) * 2 ^ 23))) = BitVec.ofNat 32 (fp32Fmt.pack n k 0))
  -- the special inputs of the function entries (R260)
  ∧ (∀ (r : Rounding) (x : Word) (f : Func), (fp32Fmt.decode false x.toNat = .nan → f.apply r x = 0x7FC00000)
      ∧ ∀ n : Bool,
        let inf : Word := if n then 0xFF800000 else 0x7F800000
        let zero : Word := if n then 0x80000000 else 0
        Func.exp2.apply r inf = (if n then 0 else 0x7F800000) ∧ Func.exp2.apply r zero = 0x3F800000
        ∧ (x ∈ [0x43000000#32, 0x44000000#32, 0x7F7FFFFF#32] →
            Func.exp2.apply r x = (if r.mode = 1 ∨ r.mode = 2 then 0x7F7FFFFF else 0x7F800000))
        ∧ (∀ k : Nat, 1 ≤ k → k ≤ 254 → Func.exp2.apply r
            (BitVec.ofNat 32 (fp32Fmt.put .ieee { mode := 0, d := 0, ftz := false } (Machine.Num.ofInt ((k : Int) - 127))))
              = BitVec.ofNat 32 (fp32Fmt.pack false k 0))
        ∧ Func.log2.apply r inf = (if n then 0x7FC00000 else 0x7F800000) ∧ Func.log2.apply r zero = 0xFF800000
        ∧ (x.getLsbD 31 = true → fp32Fmt.decode r.ftz x.toNat ≠ .zero true → Func.log2.apply r x = 0x7FC00000)
        ∧ Func.log2.apply r 0x3F800000 = 0
        ∧ Func.sin.apply r inf = 0x7FC00000 ∧ Func.sin.apply r zero = zero
        ∧ Func.cos.apply r inf = 0x7FC00000 ∧ Func.cos.apply r zero = 0x3F800000
        ∧ Func.tanh.apply r inf = (if n then 0xBF800000 else 0x3F800000) ∧ Func.tanh.apply r zero = zero
        ∧ Func.sigm.apply r inf = (if n then 0 else 0x3F800000) ∧ Func.sigm.apply r zero = 0x3F000000)

/-- F64 entries round the exact result once to FP64 on the dies that have them (R268, R254, R219). -/
def Obligations.DoublePrecision : Prop :=
  (∀ w : RWord,
    let mode := RMod.rm w.mod
    let v (z : DWord) : Machine.Num := fp64Fmt.decode (RMod.ftz w.mod) z.toNat
    let out (f : Machine.Num → Machine.Num → Machine.Num → Machine.Num) (x : LaneIn) : LaneWrite :=
      .pair (BitVec.ofNat 64 (roundsTo fp64Fmt w.mod x 0 (f (v x.a) (v x.b) (v x.c))))
    CompletesRounding (.dadd w) w.mod 1 (out (fun a b _ => sumNum mode [a, b]))
    ∧ CompletesRounding (.dmul w) w.mod 1 (out (fun a b _ => a.mul b))
    ∧ CompletesRounding (.dfma w) w.mod 1 (out (fun a b c => sumNum mode [a.mul b, c]))
    ∧ CompletesRounding (.ddiv w) w.mod 1 (out (fun a b _ => Machine.Num.div 80 a b))
    ∧ CompletesRounding (.dsqrt w) w.mod 1 (out (fun a _ _ => Machine.Num.sqrt 80 a)))
  ∧ (∀ (s : State) (k : RodKey) (r : Rod) (w : RWord) (n : Nat), k.slot = .rod n → w.g.legal = true →
      Config.isStream k.frame.die = false →
      ∀ i ∈ [Instr.dadd w, .dmul w, .dfma w, .ddiv w, .dsqrt w, .dcvt w],
        wordCause s k r i = some .extensionEmulation)

/-- SRD, CSTAT, SLACK and RNGC write what R266 and R267 say (R266, R267, R116, R103). -/
def Obligations.SpecialReads : Prop :=
  ∀ w : RWord,
    CompletesWith (.srd w) (fun s k r x =>
      let l := s.recordOfLaunch r.launch
      .value (srWide w.a.toNat) ([x.lane.item, BitVec.ofNat 64 x.num, BitVec.ofNat 64 r.rod, BitVec.ofNat 64 r.team,
        BitVec.ofNat 64 k.frame.frame, BitVec.ofNat 64 k.frame.die, BitVec.ofNat 64 r.launch, s.frameTime k.frame,
        l.deadline, (if x.lane.phase then 1 else 0), l.param, l.count, (if Config.isStream k.frame.die then 0 else 1),
        x.lane.carryBits.setWidth 64].getD w.a.toNat (x.lane.carryBits.setWidth 64)))
    ∧ CompletesWith (.cstat w) (fun s _ r x =>
      let slot := RMod.bits w.mod 8 3
      let l := s.recordOfLaunch r.launch
      let first := decide (x.lane.item.toNat < l.base.toNat + (l.slot slot).1)
      let b := carryBuf s.carry r.launch (x.lane.item.toNat - (l.slot slot).1) slot
      let low : Word := if first then 16
        else BitVec.ofNat 32 b.gens.length ||| (if b.closed || s.wrapped r.launch then 8 else 0)
      .pair (x.lane.readCount.toList.getD slot 0 ++ low))
    ∧ CompletesWith (.slack w) (fun s k r _ =>
      .pair (match s.launch? r.launch with
        | some l => if l.record.deadline = 0 then 0x7FFFFFFFFFFFFFFF else l.slack (s.frameTime k.frame).toNat
        | none => 0x7FFFFFFFFFFFFFFF))
    ∧ CompletesWith (.rngc w) (fun _ _ _ x =>
      let g := rngc x.a x.wb x.key
      match RMod.bits w.mod 8 2 with
      | 0 => .reg g.1
      | 1 => .pair (g.2 ++ g.1)
      | _ => .reg (BitVec.ofNat 32 (fp32Fmt.put .ieee { mode := 0, d := 0, ftz := false }
          (Machine.Num.mk' false (g.1.toNat / 256) (-24)))))
    -- the rounds of the generator (R267)
    ∧ ∀ (counter kb : DWord) (stream : Word),
      let k0 : Word := kb.extractLsb' 0 32 ^^^ stream
      let k1 : Word := kb.extractLsb' 32 32
      rngc counter stream kb = [0, 1, 2, 3].foldl (fun (p : Word × Word) (rnd : Nat) =>
          let x := (p.1 * 0xCD9E8D57#32) ^^^ p.2 ^^^ ((if rnd % 2 = 0 then k0 else k1) + BitVec.ofNat 32 rnd * 0x9E3779B9#32)
          (x, p.2.rotateLeft 13 + x))
        (counter.extractLsb' 0 32 ^^^ k0, counter.extractLsb' 32 32 ^^^ k1)

/-- After an instruction the lanes of a sub-rod part by what became of them, and nothing else changes (R42, R43). -/
def Obligations.SubRodsPartByOutcome : Prop :=
  ∀ (r : Rod) (m : BitVec 32) (g : Nat),
    (∀ n : Fin 32, m.getLsbD n.val = true → r.lanes[n].group = g) → (∀ n : Fin 32, r.lanes[n].group < r.nextGroup) →
    (∀ a b : Fin 32, m.getLsbD a.val = true → m.getLsbD b.val = true →
      ((r.regroup m).lanes[a].group = (r.regroup m).lanes[b].group ↔
        r.lanes[a].st = r.lanes[b].st ∧ r.lanes[a].pc = r.lanes[b].pc ∧ r.lanes[a].wait = r.lanes[b].wait
          ∧ r.lanes[a].record = r.lanes[b].record))
    ∧ (∀ n : Fin 32, { (r.regroup m).lanes[n] with group := r.lanes[n].group } = r.lanes[n]
        ∧ (m.getLsbD n.val = false → (r.regroup m).lanes[n] = r.lanes[n])
        ∧ (r.regroup m).lanes[n].group < (r.regroup m).nextGroup)
    ∧ (∀ a b : Fin 32, m.getLsbD a.val = true → m.getLsbD b.val = false →
        (r.regroup m).lanes[a].group ≠ g → (r.regroup m).lanes[a].group ≠ (r.regroup m).lanes[b].group)
    ∧ { r.regroup m with lanes := r.lanes, nextGroup := r.nextGroup } = r

/-- Branches send enabled lanes to their targets and the others to the next word (R262, R202). -/
def Obligations.Branches : Prop :=
  (∀ (w : BWord) (s : State) (k : RodKey) (l : Nat) (r : Rod), IssuesFreely s k l r (.bra w) →
    exec (.bra w) s = .next (s.setRod k ((r.mapLanes (r.subRod l) (fun _ x =>
      if x.guard w.g then { x with pc := BitVec.ofInt 64 ((x.pc.toNat : Int) + 8 + 8 * w.tgt.toInt) }
      else x.advance)).regroup (r.subRod l))))
  ∧ (∀ (w : BWord) (s : State) (k : RodKey) (l : Nat) (r : Rod), IssuesFreely s k l r (.call w) →
    r.holds w.a.toNat = true → r.holds (w.a.toNat + 1) = true →
    exec (.call w) s = .next (s.setRod k ((r.mapLanes (r.subRod l) (fun _ x =>
      if x.guard w.g then
        { x.setPair w.a.toNat (x.pc + 8) with pc := BitVec.ofInt 64 ((x.pc.toNat : Int) + 8 + 8 * w.tgt.toInt) }
      else x.advance)).regroup (r.subRod l))))
  ∧ (∀ (w : RWord) (i : Instr) (s : State) (k : RodKey) (l : Nat) (r : Rod), i = .brx w ∨ i = .ret w →
    IssuesFreely s k l r i → r.holds w.a.toNat = true → r.holds (w.a.toNat + 1) = true →
    (∀ n : Fin 32, (r.subRod l).getLsbD n.val = true → r.lanes[n].guard w.g = true →
      (r.lanes[n].pair w.a.toNat).toNat % 8 = 0) →
    exec i s = .next (s.setRod k ((r.mapLanes (r.subRod l) (fun _ x =>
      if x.guard w.g then { x with pc := x.pair w.a.toNat } else x.advance)).regroup (r.subRod l))))
  ∧ (∀ (w : RWord) (i : Instr) (s : State) (k : RodKey) (l n : Nat) (r : Rod), i = .brx w ∨ i = .ret w →
    IssuesFreely s k l r i → k.slot = .rod n → r.subRod l = 1#32 <<< l → (r.lane l).guard w.g = true →
    r.holds w.a.toNat = true → r.holds (w.a.toNat + 1) = true → ((r.lane l).pair w.a.toNat).toNat % 8 ≠ 0 →
    ∃ t q, exec i s = .next t ∧ t.rod? k = some q ∧ (q.lane l).st = .parked ∧ (q.lane l).pc = (r.lane l).pc
      ∧ (t.frame k.frame).records.getLast?.map (fun x => (x.cause, x.addr, x.lanes))
          = some (0x06, (r.lane l).pair w.a.toNat, 1#32 <<< l))

/-- RCV pushes marks, RSYNC waits on them, and a satisfied mark lets its items go on together (R44, R45, R264). -/
def Obligations.Reconvergence : Prop :=
  (∀ (w : BWord) (s : State) (k : RodKey) (l : Nat) (r : Rod), IssuesFreely s k l r (.rcv w) →
    exec (.rcv w) s = .next (s.setRod k { (r.mapLanes (r.subRod l) (fun _ x =>
      if x.guard w.g then
        { x with marks := ({ addr := BitVec.ofInt 64 ((x.pc.toNat : Int) + 8 + 8 * w.tgt.toInt), seq := r.markSeq }
            :: x.marks).take 8, pc := x.pc + 8 }
      else x.advance)) with markSeq := r.markSeq + 1 }))
  ∧ (∀ (w : RWord) (s : State) (k : RodKey) (l : Nat) (r : Rod), IssuesFreely s k l r (.rsync w) →
    exec (.rsync w) s = .next (s.setRod k ((r.mapLanes (r.subRod l) (fun _ x =>
      if x.guard w.g && x.marks.any (fun e => e.addr == x.pc) then
        { x with st := .syncWait, wait := .none, marks := x.marks.dropWhile (fun e => e.addr != x.pc) }
      else x.advance)).regroup (r.subRod l))))
  ∧ (∀ (s : State) (k : RodKey) (r : Rod) (lane : Fin 32) (e : Mark) (rest : List Mark), s.rod? k = some r →
    r.lanes[lane].st = .syncWait → r.lanes[lane].marks = e :: rest →
    (∀ n : Fin 32, r.lanes[n].live = true → e ∈ r.lanes[n].marks →
      r.lanes[n].st = .syncWait ∧ r.lanes[n].marks.head? = some e) →
    ∃ q, exec (.syncRelease k lane.val) s = .next (s.setRod k q) ∧
      { q with lanes := r.lanes, nextGroup := r.nextGroup } = r ∧
      ∀ n : Fin 32, q.lanes[n] =
        if r.lanes[n].st = .syncWait ∧ r.lanes[n].marks.head? = some e then
          { r.lanes[n] with st := .runnable, marks := r.lanes[n].marks.tail, pc := r.lanes[n].pc + 8,
                            group := q.lanes[lane].group }
        else r.lanes[n])

/-- EXIT retires every enabled item, closes its slots, records its outcome, and the last item takes its rod off the frame
(R263, R37, R78, R101). -/
def Obligations.ItemsExit : Prop :=
  ∀ (w : RWord) (s : State) (p : FrameId) (slot l : Nat) (r : Rod),
    let k := rodKey p slot
    let on := r.subRod l &&& r.maskWhere (fun x => x.guard w.g)
    let what (x : Lane) : ItemOutcome := if x.phase then (if x.valid then .wrappedValid else .wrappedInvalid) else .normal
    IssuesFreely s k l r (.exit w) → on ≠ 0 → (∀ n : Fin 32, on.getLsbD n.val = true → r.lanes[n].deferred = []) →
    (∃ t, exec (.exit w) s = .next t ∧ t.mem = s.mem
      ∧ (∀ n : Fin 32, on.getLsbD n.val = true →
          (∀ x, s.launch? r.launch = some x →
            ∃ y, t.launch? r.launch = some y ∧ (r.lanes[n].item.toNat, what r.lanes[n]) ∈ y.outcomes)
          ∧ ∀ c : Fin 8, (carryBuf t.carry r.launch r.lanes[n].item.toNat c.val).closed = true)
      ∧ (r.liveMask &&& ~~~on = 0 → t.rod? k = none
          ∧ ∀ tm, s.team? (teamKeyOf k r) = some tm →
              ∃ tm', t.team? (teamKeyOf k r) = some tm' ∧ tm'.retired = tm.retired ||| (1#32 <<< r.rod)))
    ∧ (r.liveMask &&& ~~~on ≠ 0 →
        exec (.exit w) s = .next ({ (((s.setRod k ((r.mapLanes (r.subRod l) (fun _ x =>
            if x.guard w.g then
              { x with st := .retired, wait := .none, marks := [], loads := [], writes := [], joined := [], fence := none,
                       record := none }
            else x.advance)).regroup (r.subRod l))).modTeam (teamKeyOf k r) (fun t =>
              (t.freezeDraws ((maskLanes on).map (fun n => ((r.lane n).item, (r.lane n).rsCount)))).ordered
                ((maskLanes on).map (fun n => (r.lane n).item)))).modLaunch r.launch (fun y =>
              { y with
                outcomes := y.outcomes ++ (maskLanes on).map (fun n => ((r.lane n).item.toNat, what (r.lane n)))
                lastRetire := s.frameTime p })) with
          carry := (maskLanes on).foldl (fun c n => closeSlots r.launch (r.lane n).item.toNat 0xFF c) s.carry }))

/-- NOP and YIELD change no value, and a YIELD of which no lane is enabled has no effect; GROW sets the block counts or waits,
SHRINK sets them; JSET sets a join register or waits, JWAIT waits on it (R264, R204, R54, R55, R59, R62, R265). -/
def Obligations.PlainControl : Prop :=
  (∀ (w : RWord) (s : State) (k : RodKey) (l : Nat) (r : Rod), IssuesFreely s k l r (.nop w) →
    exec (.nop w) s = .next (s.setRod k (r.mapLanes (r.subRod l) (fun _ x => x.advance))))
  ∧ (∀ (w : RWord) (s : State) (k : RodKey) (l : Nat) (r : Rod), IssuesFreely s k l r (.yield w) →
    let on := r.subRod l &&& r.maskWhere (fun x => x.guard w.g)
    let next := r.mapLanes (r.subRod l) (fun _ x => x.advance)
    (on ≠ 0 → exec (.yield w) s = .next (s.setRod k { next with yielded := true }))
    ∧ (on = 0 → exec (.yield w) s = .next (s.setRod k next)))
  ∧ (∀ (w : RWord) (s : State) (p : FrameId) (slot l : Nat) (r : Rod),
    let f := max r.fast (RMod.bits w.mod 8 4)
    let g := max r.slow (RMod.bits w.mod 12 3)
    let n := (s.recordOfLaunch r.launch).teamRods
    IssuesFreely s (rodKey p slot) l r (.grow w) → r.subRod l &&& r.maskWhere (fun x => x.guard w.g) ≠ 0 →
    n * f ≤ Config.blocksOf p.die → n * g ≤ Config.blocksOf p.die → s.blocksFree p r.fast r.slow f g = true →
    (s.frame p).olderWaits (ageKey r) = false →
    exec (.grow w) s = .next (s.setRod (rodKey p slot)
      { (r.mapLanes (r.subRod l) (fun _ x => x.advance)) with fast := f, slow := g }))
  ∧ (∀ (w : RWord) (s : State) (p : FrameId) (slot l : Nat) (r : Rod),
    let a := RMod.bits w.mod 8 4
    let b := RMod.bits w.mod 12 3
    let f := max r.fast a
    let g := max r.slow b
    let n := (s.recordOfLaunch r.launch).teamRods
    let on := r.subRod l &&& r.maskWhere (fun x => x.guard w.g)
    IssuesFreely s (rodKey p slot) l r (.grow w) → on ≠ 0 → n * f ≤ Config.blocksOf p.die → n * g ≤ Config.blocksOf p.die →
    (f = r.fast → g = r.slow →
      exec (.grow w) s = .next (s.setRod (rodKey p slot) (r.mapLanes (r.subRod l) (fun _ x => x.advance))))
    ∧ (f ≠ r.fast ∨ g ≠ r.slow → s.blocksFree p r.fast r.slow f g = false ∨ (s.frame p).olderWaits (ageKey r) = true →
      exec (.grow w) s = .next ((s.setRod (rodKey p slot) ((r.mapLanes (r.subRod l) (fun _ x =>
          if x.guard w.g then { x with st := .blocked, wait := .grow a b } else x.advance)).regroup (r.subRod l))).modFrame p
        (fun q => { q with requests := q.requests ++
          [{ launch := r.launch, item0 := r.item0.toNat, kind := .grow slot (lowest on) a b }] }))))
  ∧ (∀ (w : RWord) (s : State) (k : RodKey) (l : Nat) (r : Rod),
    let f := min r.fast (RMod.bits w.mod 8 4)
    let g := min r.slow (RMod.bits w.mod 12 3)
    let kept (a : Nat) : Bool := decide (a < 16 * f) || (decide (128 ≤ a) && decide (a < 128 + 16 * g))
    IssuesFreely s k l r (.shrink w) → r.subRod l &&& r.maskWhere (fun x => x.guard w.g) ≠ 0 →
    ((∀ n : Fin 32, r.lanes[n].loads = [] ∧ r.lanes[n].marked = [] ∧ r.lanes[n].joined = []) →
      exec (.shrink w) s = .next (s.setRod k
        { (r.mapLanes 0xFFFFFFFF (fun n x =>
            let y := if (r.subRod l).getLsbD n.val then x.advance else x
            { y with regs := y.regs.filter (fun e => kept e.1) })) with
          fast := f, slow := g }))
    ∧ ∃ t q, exec (.shrink w) s = .next t ∧ t.rod? k = some q ∧ q.fast = f ∧ q.slow = g
      ∧ ∀ n : Fin 32, ∀ a, kept a = false →
          (q.lanes[n].reg a = 0 ∧ ∀ m ∈ q.lanes[n].marked, m.reg ≠ a) ∧ ∀ e ∈ q.lanes[n].loads, a ∉ e.regs)
  ∧ (∀ (w : RWord) (s : State) (k : RodKey) (l : Nat) (r : Rod) (t : Team),
    let cap := r.lane (lowest (r.subRod l))
    let m := cap.reg w.a.toNat
    IssuesFreely s k l r (.jset w) → s.team? (teamKeyOf k r) = some t → cap.guard w.g = true →
    isCarry w.a.toNat = false → r.holds w.a.toNat = true → m ≠ 0 →
    (∀ b, m.getLsbD b = true → b < (s.recordOfLaunch r.launch).teamRods) →
    ((t.join w.dst.toNat).pending = [] →
      exec (.jset w) s = .next ((s.setRod k (r.mapLanes (r.subRod l) (fun _ x => x.advance))).setTeam (teamKeyOf k r)
        (t.setJoin w.dst.toNat { t.join w.dst.toNat with mask := m })))
    ∧ ((t.join w.dst.toNat).pending ≠ [] →
      exec (.jset w) s = .next (s.setRod k ((r.mapLanes (r.subRod l) (fun _ x =>
        if x.guard w.g then { x with st := .blocked, wait := .jset w.dst.toNat } else x.advance)).regroup (r.subRod l)))))
  ∧ (∀ (w : RWord) (s : State) (k : RodKey) (l : Nat) (r : Rod) (t : Team),
    IssuesFreely s k l r (.jwait w) → s.team? (teamKeyOf k r) = some t →
    (r.sigs.toList.getD w.dst.toNat 0 ≤ (t.join w.dst.toNat).base →
      exec (.jwait w) s = .next (s.setRod k (r.mapLanes (r.subRod l) (fun _ x => x.advance))))
    ∧ ((t.join w.dst.toNat).base < r.sigs.toList.getD w.dst.toNat 0 →
      r.subRod l &&& r.maskWhere (fun x => x.guard w.g) ≠ 0 →
      exec (.jwait w) s = .next (s.setRod k ((r.mapLanes (r.subRod l) (fun _ x =>
        if x.guard w.g then { x with st := .blocked, wait := .jwait w.dst.toNat } else x.advance)).regroup
          (r.subRod l)))))

/-- CDONE closes slots, VALID decides validity in phase 1, and a carry wait ends when the lane can go on (R81, R98, R266,
R75, R79). -/
def Obligations.CarryAndDeadlineWords : Prop :=
  (∀ (w : RWord) (s : State) (k : RodKey) (l : Nat) (r : Rod), IssuesFreely s k l r (.cdone w) →
    exec (.cdone w) s = .next ({ (s.setRod k (r.mapLanes (r.subRod l) (fun _ x =>
        if x.guard w.g then { x with cdone := withBit x.cdone (RMod.bits w.mod 8 3) true, pc := x.pc + 8 }
        else x.advance))) with
      carry := (maskLanes (r.subRod l &&& r.maskWhere (fun x => x.guard w.g))).foldl (fun c n =>
        closeSlots r.launch (r.lane n).item.toNat (1#8 <<< RMod.bits w.mod 8 3) c) s.carry }))
  ∧ (∀ (w : RWord) (s : State) (k : RodKey) (l : Nat) (r : Rod), IssuesFreely s k l r (.valid w) →
    exec (.valid w) s = .next (s.setRod k (r.mapLanes (r.subRod l) (fun _ x =>
      if x.guard w.g ∧ x.phase = true then { x with valid := x.pred w.a.toNat, pc := x.pc + 8 } else x.advance))))
  ∧ (∀ (s : State) (k : RodKey) (r : Rod) (lane : Nat), s.rod? k = some r → (r.lane lane).st = .carryWait →
    ((∃ slots, (r.lane lane).wait = .carryRead slots
        ∧ ∀ n ∈ slots, (carryRead s s.carry r.launch (r.lane lane) n).isSome = true)
      ∨ (∃ n, (r.lane lane).wait = .carryWrite n ∧ publishKind s s.carry r.launch (r.lane lane) n ≠ .wait)) →
    exec (.carryWaitRelease k lane) s = .next (s.setRod k (r.mapLanes (r.subRod lane) (fun _ x =>
      { x with st := .runnable, wait := .none }))))

/-- A read of a carry slot takes the default, the oldest generation, or the last value of a closed slot, and else waits;
every lane word acts on carries as on registers once it has read them, in ascending lane order (R70, R71, R72, R79, R80,
R83). -/
def Obligations.CarryReads : Prop :=
  (∀ (s : State) (r : Rod) (x : Lane) (n : Nat),
    let l := s.recordOfLaunch r.launch
    let d := (l.slot n).1
    let b := carryBuf s.carry r.launch (x.item.toNat - d) n
    carryRead s s.carry r.launch x n =
      if x.item.toNat < l.base.toNat + d then some { value := (l.slot n).2, sticky := false, consumes := false }
      else if b.gens ≠ [] then some { value := b.gens.headD 0, sticky := false, consumes := true }
      else if b.closed = true ∨ s.wrapped r.launch = true then
        some { value := b.last.getD (l.slot n).2, sticky := true, consumes := false }
      else none)
  ∧ (∀ (w : RWord) (s : State) (p : FrameId) (slot l n : Nat) (r : Rod) (c : CarryRead),
    let k := rodKey p slot
    let x := r.lane l
    IssuesFreely s k l r (.mov w) → r.subRod l = 1#32 <<< l → x.guard w.g = true → RMod.w w.mod = false →
    RMod.indDst w.mod = false → RMod.indA w.mod = false → n < 8 → w.a.toNat = 248 + n → w.dst.toNat < 240 →
    r.holds w.dst.toNat = true →
    (carryRead s s.carry r.launch x n = some c →
      ∃ t q, exec (.mov w) s = .next t ∧ t = { s.setRod k q with carry := t.carry }
        ∧ (∀ a : Fin 32, a.val ≠ l → q.lanes[a] = r.lanes[a])
        ∧ (q.lane l).pc = x.pc + 8 ∧ (q.lane l).st = .runnable ∧ (q.lane l).reg w.dst.toNat = c.value
        ∧ (∀ g, g ≠ w.dst.toNat → (q.lane l).reg g = x.reg g)
        ∧ (q.lane l).preds = x.preds ∧ (q.lane l).xregs = x.xregs ∧ (q.lane l).writeCount = x.writeCount
        ∧ (q.lane l).readCount.toList.getD n 0 = x.readCount.toList.getD n 0 + 1
        ∧ (q.lane l).carryBits.getLsbD n = (x.carryBits.getLsbD n || c.sticky)
        ∧ t.carry = (if c.consumes then
            tableSet { launch := r.launch, item := x.item.toNat - ((s.recordOfLaunch r.launch).slot n).1, slot := n }
              { carryBuf s.carry r.launch (x.item.toNat - ((s.recordOfLaunch r.launch).slot n).1) n with
                gens := (carryBuf s.carry r.launch
                  (x.item.toNat - ((s.recordOfLaunch r.launch).slot n).1) n).gens.drop 1 } s.carry
          else s.carry))
    ∧ (carryRead s s.carry r.launch x n = none →
      exec (.mov w) s = .next (s.setRod k (r.mapLanes (1#32 <<< l) (fun _ y =>
        { y with st := .carryWait, wait := .carryRead [n] })))))
  -- every lane word acts on carry operands with the result it has on registers, which the tables of Safety name
  ∧ (∀ w : RWord, ∀ e ∈ laneResults w, CarryWord e.1 e.2 ∧ CarryOrder e.1 e.2)
  ∧ (∀ w : IWord, ∀ e ∈ immediateResults w, CarryWord e.1 e.2 ∧ CarryOrder e.1 e.2)
  ∧ (∀ w : RWord, ∀ e ∈ aloneResults w, CarryWord e.1 e.2)

/-- A carry write publishes a generation, waits behind four unread ones, is dropped where nobody reads it, or faults (R70,
R75, R76, R81, R82). -/
def Obligations.CarryWrites : Prop :=
  (∀ (s : State) (r : Rod) (x : Lane) (n : Nat),
    let l := s.recordOfLaunch r.launch
    publishKind s s.carry r.launch x n =
      if x.phase = true then .discard
      else if x.cdone.getLsbD n = true ∨ (x.writeCount.toList.getD n 0).toNat = 2 ^ 32 - 1 then .fault
      else if itemGone s r.launch (x.item.toNat + (l.slot n).1) = true then .discard
      else if 4 ≤ (carryBuf s.carry r.launch x.item.toNat n).gens.length then .wait
      else .store)
  ∧ (∀ (w : RWord) (s : State) (p : FrameId) (slot l n : Nat) (r : Rod),
    let k := rodKey p slot
    let x := r.lane l
    let b := carryBuf s.carry r.launch x.item.toNat n
    let v := x.reg w.a.toNat
    IssuesFreely s k l r (.mov w) → r.subRod l = 1#32 <<< l → x.guard w.g = true → RMod.w w.mod = false →
    RMod.indDst w.mod = false → RMod.indA w.mod = false → n < 8 → w.dst.toNat = 248 + n → w.a.toNat < 240 →
    r.holds w.a.toNat = true → x.phase = false →
    (publishKind s s.carry r.launch x n = .store ∨ publishKind s s.carry r.launch x n = .discard →
      exec (.mov w) s = .next { s.setRod k (r.setLane l
          { x with pc := x.pc + 8
                   writeCount := Vector.ofFn (fun a =>
                     if a.val = n then x.writeCount[a] + 1 else x.writeCount[a]) }) with
        carry := tableSet { launch := r.launch, item := x.item.toNat, slot := n }
          { b with last := some v
                   gens := if publishKind s s.carry r.launch x n = .store then b.gens ++ [v] else b.gens } s.carry })
    ∧ (publishKind s s.carry r.launch x n = .wait →
      exec (.mov w) s = .next (s.setRod k (r.mapLanes (1#32 <<< l) (fun _ y =>
        { y with st := .carryWait, wait := .carryWrite n })))))

/-- Cross-lane entries combine the values of the participating lanes alone, RRED by the seven operations of its table (R248,
R249). -/
def Obligations.CrossLane : Prop :=
  ∀ (w : RWord) (s : State) (k : RodKey) (l : Nat) (r : Rod) (i : Instr),
    IssuesFreely s k l r i → (planOf i).hasCarry = false → OperandsHold r (r.subRod l) i →
    let on : List (Fin 32) := (List.finRange 32).filter (fun n =>
      (r.subRod l).getLsbD n.val && r.lanes[n].guard w.g)
    let opd (n : Fin 32) : Operands := (laneOperands r r.lanes[n] (planOf i)).toOption.getD
      { dst := .none, a := .none, b := .none, c := .none }
    let av (n : Fin 32) : DWord := (opd n).a.value r.lanes[n] (fun _ => 0)
    let bv (n : Fin 32) : DWord := (opd n).b.value r.lanes[n] (fun _ => 0)
    let result (f : Fin 32 → LaneWrite) : Prop :=
      exec i s = .next (s.setRod k (r.mapLanes (r.subRod l) (fun n x =>
        if x.guard w.g then ((f n).apply (opd n).dst x).advance else x.advance)))
    (i = .lxch w → result (fun n =>
      let b := (bv n).setWidth 32
      let t : Int := [(b.toNat : Int) % 32, (n.val : Int) + (b.setWidth 32 : Word).toInt, ((n.val : Int) + b.toNat) % 32,
        ((n.val ^^^ (b.toNat % 32) : Nat) : Int)].getD (RMod.bits w.mod 8 2) 0
      .value (RMod.w w.mod) (((on.find? (fun o => (o.val : Int) = t)).map av).getD (av n))))
    ∧ (i = .pagg w → result (fun _ =>
      let set := on.filter (fun o => av o != 0)
      match RMod.bits w.mod 8 3 with
      | 0 => .reg (BitVec.ofFnLE (fun o : Fin 32 => decide (o ∈ set)))
      | 1 => .reg (BitVec.ofNat 32 set.length)
      | 2 => .pred (decide (set = on))
      | 3 => .pred (decide (set ≠ []))
      | _ => .pred (decide (set = on ∨ set = []))))
    ∧ (i = .rred w → result (fun _ =>
      .value (RMod.w w.mod) (rredFn (RMod.bits w.mod 12 3) (RMod.w w.mod) (RMod.u w.mod) (RMod.sat w.mod)
        (on.map av))))
    -- the operations of R249 over the values in ascending lane order, 32 and 64 bits wide
    ∧ (let step (n op : Nat) (u : Bool) (a b : BitVec n) : BitVec n :=
        [a + b, if (if u then b.ult a else b.slt a) then b else a, if (if u then a.ult b else a.slt b) then b else a,
          a &&& b, a ||| b, a ^^^ b].getD op a
      let clamped (n : Nat) (u : Bool) (l : List (BitVec n)) : BitVec n :=
        let v : Int := (l.map (fun x => if u then (x.toNat : Int) else x.toInt)).sum
        let lo : Int := if u then 0 else -(2 : Int) ^ (n - 1)
        let hi : Int := if u then (2 : Int) ^ n - 1 else (2 : Int) ^ (n - 1) - 1
        BitVec.ofInt n (if v < lo then lo else if hi < v then hi else v)
      ∀ (u : Bool) (v : Word) (vs : List Word) (q : DWord) (qs : List DWord),
        let vs64 := (v :: vs).map (fun x => x.setWidth 64)
        (∀ op < 6, rredFn op false u false vs64 = (vs.foldl (step 32 op u) v).setWidth 64
          ∧ rredFn op true u false (q :: qs) = qs.foldl (step 64 op u) q)
        ∧ rredFn 0 false u true vs64 = (clamped 32 u (v :: vs)).setWidth 64
        ∧ rredFn 0 true u true (q :: qs) = clamped 64 u (q :: qs)
        ∧ rredFn 6 false u false vs64 = (vs.foldl (fun acc x => BitVec.ofNat 32 (fp32Fmt.put .ieee
            { mode := 0, d := 0, ftz := false }
            (sumNum 0 [fp32Fmt.decode false acc.toNat, fp32Fmt.decode false x.toNat]))) v).setWidth 64)

/-- Loads take a load-queue entry and go on, or park where their address fails; LDFF clears its predicate from the first lane
that fails; WAITQ bounds the entries (R275, R276, R278, R279, R280, R270, R272, R273). -/
def Obligations.LoadsTakeEntries : Prop :=
  (∀ (w : MWord) (s : State) (k : RodKey) (l : Nat) (r : Rod) (xs : List Xlat) (i : Instr) (kind : LoadKind),
    (i = .ld w ∧ kind = .ld) ∨ (i = .lds w ∧ kind = .lds) ∨ (i = .lda w ∧ kind = .lda) ∨ (i = .ldff w ∧ kind = .ldff) →
    IssuesAlone s k l r i → (mwHeld w r .pair) →
    (kind = .lds ∨ kind = .lda → (mwAddress w (r.lane l)) % (mwBytes w) = 0) →
    Translated s k r .read ((mwAddress w (r.lane l))) (mwBytes w) xs →
    exec i s = .next (s.onLane k l (fun x =>
      { x with
        loads := [{ addr := BitVec.ofNat 64 ((mwAddress w x)), kind := kind, size := (mwBytes w), scope := w.scope.toNat,
                    dst := w.d.toNat, ordinal := x.loadOrdinal, value := 0, xlats := xs, cut := false }]
        loadOrdinal := x.loadOrdinal + 1
        pc := x.pc + 8 })))
  ∧ (∀ (w : MWord) (s : State) (k : RodKey) (l : Nat) (r : Rod) (xs : Fin 32 → List Xlat) (i : Instr) (kind : LoadKind),
    (i = .ld w ∧ kind = .ld) ∨ (i = .lds w ∧ kind = .lds) ∨ (i = .lda w ∧ kind = .lda) ∨ (i = .ldff w ∧ kind = .ldff) →
    IssuesFreely s k l r i → tableFind k s.rods = some r → (mwHeld w r .pair) →
    (∀ n : Fin 32, (r.subRod l).getLsbD n.val = true → r.lanes[n].guard w.g = true →
      (kind = .lds ∨ kind = .lda → (mwAddress w r.lanes[n]) % (mwBytes w) = 0)
      ∧ Translated s k r .read (mwAddress w r.lanes[n]) (mwBytes w) (xs n)) →
    exec i s = .next (s.setRod k (r.mapLanes (r.subRod l) (fun n x =>
      if x.guard w.g then
        { x with
          loads := [{ addr := BitVec.ofNat 64 (mwAddress w x), kind := kind, size := (mwBytes w), scope := w.scope.toNat,
                      dst := w.d.toNat, ordinal := x.loadOrdinal, value := 0, xlats := xs n, cut := false }]
          loadOrdinal := x.loadOrdinal + 1
          pc := x.pc + 8 }
      else x.advance))))
  ∧ (∀ (w : MWord) (s : State) (p : FrameId) (slot : Nat) (a b : Fin 32) (r : Rod) (xs : List Xlat) (c : Cause),
    let k := rodKey p slot
    IssuesFreely s k a.val r (.ldff w) → a.val < b.val → r.subRod a.val = (1#32 <<< a.val) ||| (1#32 <<< b.val) →
    r.lanes[a].guard w.g = true → r.lanes[b].guard w.g = true → (mwHeld w r .pair) →
    Translated s k r .read ((mwAddress w r.lanes[a])) (mwBytes w) xs →
    s.pages k.frame (s.asidOf k r) .read (pageStarts ((mwAddress w r.lanes[b])) (mwBytes w)) = (.error c, s) →
    s.failsLate k.frame (s.asidOf k r) .read (pageStarts ((mwAddress w r.lanes[b])) (mwBytes w)) = false →
    let stops : Prop := c = .notPresent ∨ c = .permission ∨ c = .orderingReserved
    (stops → ∃ t q, exec (.ldff w) s = .next t ∧ t = s.setRod k q ∧ q.lanes[a].loads.length = 1
      ∧ q.lanes[a].preds = r.lanes[a].preds ∧ q.lanes[b].loads = [] ∧ q.lanes[b].pred w.g.pred.toNat = false
      ∧ q.lanes[b].regs = r.lanes[b].regs ∧ q.lanes[b].st = .runnable
      ∧ q.lanes[a].pc = r.lanes[a].pc + 8 ∧ q.lanes[b].pc = r.lanes[b].pc + 8)
    -- poison or a cut path is no first fault: the lane parks, the other loads (R274, R278)
    ∧ (¬ stops → ParksAt s p slot a.val r (.ldff w) (1#32 <<< b.val) c (BitVec.ofNat 64 (mwAddress w r.lanes[b])) s.teams
      (fun n x => if n = a then
        { x with
          loads := [{ addr := BitVec.ofNat 64 (mwAddress w x), kind := .ldff, size := mwBytes w, scope := w.scope.toNat,
                      dst := w.d.toNat, ordinal := x.loadOrdinal, value := 0, xlats := xs, cut := false }]
          loadOrdinal := x.loadOrdinal + 1
          pc := x.pc + 8 }
        else x)))
  -- an address that is not aligned, or that is not translated, parks its item (R272, R273)
  ∧ (∀ (w : MWord) (s : State) (p : FrameId) (slot l : Nat) (r : Rod) (c : Cause) (i : Instr),
    let k := rodKey p slot
    let ea := mwAddress w (r.lane l)
    i = .ld w ∨ i = .lds w ∨ i = .lda w ∨ i = .ldff w → IssuesAlone s k l r i → mwHeld w r .pair →
    (i = .lds w ∨ i = .lda w → ea % mwBytes w ≠ 0 → ParksItem s p slot l r i .misaligned (BitVec.ofNat 64 ea))
    ∧ ((i = .lds w ∨ i = .lda w → ea % mwBytes w = 0) → PageFails s k r .read ea (mwBytes w) c →
      ParksItem s p slot l r i c (BitVec.ofNat 64 ea)))
  ∧ (∀ (w : RWord) (s : State) (k : RodKey) (l : Nat) (r : Rod), Issues s k l r (.waitq w) →
    ∃ t q, exec (.waitq w) s = .next t ∧ t.rod? k = some q ∧ ∀ n : Fin 32, (r.subRod l).getLsbD n.val = true →
      q.lanes[n].pc = r.lanes[n].pc + 8
      ∧ (r.lanes[n].guard w.g = true → q.lanes[n].loads.length ≤ RMod.bits w.mod 14 4))

/-- A load that returns writes its registers, or marks them where its data is lost, and gives its entry up; what it reads, of
its pieces at their places (R276, R274, R177, R279, R169, R182, R184, R421). -/
def Obligations.LoadReturns : Prop :=
  (∀ (s : State) (k : RodKey) (r : Rod) (l : Fin 32) (pos : Nat) (e : LoadEntry), s.rod? k = some r →
    r.lanes[l].loads[pos]? = some e → mayReturn r.lanes[l].loads pos = true →
    (∀ (v : Nat) (s1 : State), s.performLoad k r e = (.value v, s1) → s1.rods = s.rods →
      ∃ q, exec (.loadReturn k l.val pos) s = .next (s1.setRod k q)
        ∧ { q with lanes := r.lanes } = r ∧ (∀ n : Fin 32, n ≠ l → q.lanes[n] = r.lanes[n])
        ∧ q.lanes[l] = { r.lanes[l] with
            loads := r.lanes[l].loads.eraseIdx pos
            regs := loadedRegs r.lanes[l] e.dst e.size v
            marked := r.lanes[l].marked.filter (fun m => !((List.range' e.dst (max 1 (e.size / 4))).contains m.reg)) })
    ∧ (∀ (c : Cause) (s1 : State), s.performLoad k r e = (.mark c, s1) → s1.rods = s.rods →
      ∃ t q, exec (.loadReturn k l.val pos) s = .next t ∧ t.rod? k = some q
        ∧ t = { s1 with rods := t.rods, free := t.free } ∧ (∀ n : Fin 32, n ≠ l → q.lanes[n] = r.lanes[n])
        ∧ q.lanes[l].loads = r.lanes[l].loads.eraseIdx pos ∧ q.lanes[l].pc = r.lanes[l].pc
        ∧ (∀ g, g < e.dst ∨ e.dst + max 1 (e.size / 4) ≤ g → q.lanes[l].reg g = r.lanes[l].reg g)
        ∧ ∀ j, j < max 1 (e.size / 4) → { reg := e.dst + j, cause := c, addr := e.addr } ∈ q.lanes[l].marked)
    -- the access: its bytes at its place and scope, and an acquire as it returns (R182); a translation that has ended is walked
    -- again (R421)
    ∧ (e.kind ≠ .atomic → e.cut = false →
      let done (xs : List Xlat) (s0 : State) : Returned × State :=
        match State.readPieces k.frame e.scope (piecesOf xs e.addr.toNat e.size) s0 with
        | (bad, b, s1) =>
          (match bad with | some c => .mark c | none => .value (ofLe b),
           if e.kind = .lda then s1.acquireAt k.frame (widestScope xs e.scope) else s1)
      let lives : Prop := e.xlats ≠ [] ∧ ∀ x ∈ e.xlats, s.leaseLives k.frame e.scope e.addr.toNat e.size x = true
      (lives → s.performLoad k r e = done e.xlats s)
      ∧ (¬ lives → ∀ (ys : List Xlat) (s0 : State) (c : Cause),
        let walked := s.pages k.frame (s.asidOf k r) .read (pageStarts e.addr.toNat e.size)
        (walked = (.ok ys, s0) → s.performLoad k r e = done ys s0)
        ∧ (walked = (.error c, s0) → s.performLoad k r e = (.mark c, s0))))
    ∧ (e.kind = .atomic → e.cut = false → s.performLoad k r e = (.value e.value.toNat, s))
    ∧ (e.cut = true → s.performLoad k r e = (.mark .linkDown, s)))
  -- the pieces of an access: one in a sector, two over a sector's end, each read at the place of its page and scope
  ∧ (∀ (xs : List Xlat) (va n pa pb : Nat) (o o' : BitVec 2), va + n < 2 ^ 64 → 0 < n → n ≤ 64 → physOf xs va = some (pa, o) →
    (va % 64 + n ≤ 64 → piecesOf xs va n = [{ sector := pa / 64, off := pa % 64, len := n, ord := o }])
    ∧ (64 < va % 64 + n → physOf xs (va / 64 * 64 + 64) = some (pb, o') →
      piecesOf xs va n = [{ sector := pa / 64, off := pa % 64, len := 64 - va % 64, ord := o },
        { sector := pb / 64, off := pb % 64, len := n - (64 - va % 64), ord := o' }]))
  ∧ (∀ (s : State) (p : FrameId) (scope : Nat) (x y : Piece) (a b : Option Cause × List Byte × State),
    let seg (q : Piece) (s : State) : Option Cause × List Byte × State :=
      s.readSeg p (placeOf p.die q.ord scope) (isUntracked q.ord) q.sector q.off q.len
    seg x s = a → seg y a.2.2 = b →
    State.readPieces p scope [x] s = a
    ∧ State.readPieces p scope [x, y] s = (a.1.or b.1, a.2.1 ++ b.2.1, b.2.2))
  ∧ (∀ (die scope : Nat) (o : BitVec 2),
    let v := if o = 1 then max scope 3 else scope
    placeOf die o scope = if v = 0 then .frame else if v ≤ 2 then .die
      else if o = 2 ∨ Config.isStream die = false then .home else .own)
  -- what is read: the home's bytes where no cache of the die holds the sector, else the copy at the place (R169, R184)
  ∧ (∀ (s : State) (p : FrameId) (pl : Place) (u : Bool) (n off len : Nat),
    (pl = .own → u = false) → s.severed p.die n = false → off + len ≤ 64 →
    (deviceSector n = false → s.readSeg p pl u n off len = (none, cellsRead s.mem (64 * n + off) len, s))
    ∧ (deviceSector n = true → s.frameSector p n u = none → (∀ q ∈ s.framesOfDie p.die, s.frameSector q n u = none) →
      s.dieSector p.die n u = none → s.poisoned n = false → (u = true ∨ (s.dir n).st = .dI) →
      ∃ t, s.readSeg p pl u n off len = (none, cellsRead s.mem (64 * n + off) len, t) ∧ t.rods = s.rods ∧ t.teams = s.teams))
  ∧ (∀ (s : State) (p : FrameId) (u : Bool) (n off len : Nat) (x : Sector), deviceSector n = true →
    (s.frameSector p n u = some x → x.valid &&& segMask off len = segMask off len →
      s.readSeg p .frame u n off len = (none, segBytes x.data off len, s))
    ∧ (s.dieSector p.die n u = some x → s.framesClean p.die n u →
      (x.valid = allBytes → s.readSeg p .die u n off len = (none, segBytes x.data off len, s))
      ∧ (Config.isStream p.die = true → u = false → x.st = .m ∨ x.st = .e →
        s.readSeg p .own u n off len = (none, segBytes x.data off len, s))))

/-- ST, STS and STL write their bytes at the place their page and scope name, several lanes in ascending order, or park where
their address fails; that a store is performed when it issues is log entry 7 (DEDUCED) (R275, R277, R207, R182, R184, R272,
R273). -/
def Obligations.GlobalStores : Prop :=
  (∀ (w : MWord) (s s1 s3 : State) (k : RodKey) (a b : Fin 32) (r : Rod) (xs ys : List Xlat) (i : Instr),
    i = .st w ∨ i = .sts w → IssuesPair s k a b r i → (mwHeld w r .pair) →
    (i = .sts w → (mwAddress w r.lanes[a]) % (mwBytes w) = 0 ∧ (mwAddress w r.lanes[b]) % (mwBytes w) = 0) →
    let weak := decide (i = .st w)
    let scope := w.scope.toNat
    let ps (n : Fin 32) (l : List Xlat) : List Piece := piecesOf l (mwAddress w r.lanes[n]) (mwBytes w)
    let write (n : Fin 32) (l : List Xlat) (s : State) : Option Cause × State :=
      State.writePieces k.frame scope weak (ps n l) (leBytes (mwBytes w) (mwStored w r.lanes[n])) s
    let after (n : Fin 32) (l : List Xlat) (s : State) : State :=
      (s.inFlight k n.val scope weak (BitVec.ofNat 64 (mwAddress w r.lanes[n])) (ps n l)).onLane k n.val
        (fun x => { x with pc := x.pc + 8 })
    Translated s k r .write (mwAddress w r.lanes[a]) (mwBytes w) xs → write a xs s = (none, s1) →
    Translated (after a xs s1) k r .write (mwAddress w r.lanes[b]) (mwBytes w) ys → write b ys (after a xs s1) = (none, s3) →
    exec i s = .next (after b ys s3))
  ∧ (∀ (w : MWord) (s s3 : State) (k : RodKey) (l : Nat) (r : Rod) (xs : List Xlat) (i : Instr),
    i = .st w ∨ i = .sts w ∨ i = .stl w → IssuesAlone s k l r i → (mwHeld w r .pair) →
    (i ≠ .st w → (mwAddress w (r.lane l)) % (mwBytes w) = 0) → (r.lane l).deferred = [] →
    let weak := decide (i = .st w)
    let s0 := if i = .stl w then (s.settleWrites k (1#32 <<< l)).itemsOrdered k r (1#32 <<< l) else s
    let ps := piecesOf xs ((mwAddress w (r.lane l))) (mwBytes w)
    Translated s0 k r .write ((mwAddress w (r.lane l))) (mwBytes w) xs →
    let s2 := if i = .stl w then s0.releaseAt k.frame (widestScope xs w.scope.toNat) else s0
    State.writePieces k.frame w.scope.toNat weak ps (leBytes (mwBytes w) ((mwStored w (r.lane l)))) s2 = (none, s3) →
    exec i s = .next ((s3.inFlight k l w.scope.toNat weak (BitVec.ofNat 64 (mwAddress w (r.lane l))) ps).onLane k l
      (fun x => { x with pc := x.pc + 8 })))
  -- an address that is not aligned, or that is not translated, parks its item, and nothing is stored (R272, R273)
  ∧ (∀ (w : MWord) (s : State) (p : FrameId) (slot l : Nat) (r : Rod) (c : Cause) (i : Instr),
    let k := rodKey p slot
    let ea := mwAddress w (r.lane l)
    let s0 := if i = .stl w then s.itemsOrdered k r (1#32 <<< l) else s
    let parks (c : Cause) : Prop :=
      ParksAt s p slot l r i (1#32 <<< l) c (BitVec.ofNat 64 ea) s0.teams (fun _ x => x)
    i = .st w ∨ i = .sts w ∨ i = .stl w → IssuesAlone s k l r i → mwHeld w r .pair →
    (i = .stl w → (r.lane l).deferred = [] ∧ (r.lane l).writes = []) →
    (i ≠ .st w → ea % mwBytes w ≠ 0 → parks .misaligned)
    ∧ ((i ≠ .st w → ea % mwBytes w = 0) → PageFails s0 k r .write ea (mwBytes w) c → parks c))
  -- the bytes go over the pieces in their order, each at the place of its page and scope
  ∧ (∀ (s : State) (p : FrameId) (scope : Nat) (weak : Bool) (x y : Piece) (b : List Byte) (e e' : Option Cause) (s1 s2 : State),
    let seg (q : Piece) (b : List Byte) (s : State) : Option Cause × State :=
      s.writeSeg p (placeOf p.die q.ord scope) weak (isUntracked q.ord) q.sector q.off b
    seg x (b.take x.len) s = (e, s1) → seg y ((b.drop x.len).take y.len) s1 = (e', s2) →
    State.writePieces p scope weak [x] b s = (e, s1) ∧ State.writePieces p scope weak [x, y] b s = (e.or e', s2))
  -- a write at the die cache, by a die that may write the sector there
  ∧ (∀ (s : State) (p : FrameId) (pl : Place) (weak u : Bool) (n off : Nat) (b : List Byte),
    let old := (s.dieSector p.die n u).getD (Sector.empty n u)
    pl = .die ∨ pl = .own → deviceSector n = true → s.watched n = false → s.framesClean p.die n u →
    u = true ∨ Config.isStream p.die = false ∨ (∃ x, s.dieSector p.die n u = some x ∧ (x.st = .m ∨ x.st = .e)) →
    off + b.length ≤ 64 →
    ∃ t y, s.writeSeg p pl weak u n off b = (none, t) ∧ t.mem = s.mem ∧ t.hub = s.hub ∧ t.rods = s.rods ∧ t.teams = s.teams
      ∧ (∀ q ∈ s.framesOfDie p.die, t.frameSector q n u = none) ∧ t.dieSector p.die n u = some y ∧ y.st = .m
      ∧ ∀ j, j < 64 → y.data.extractLsb' (8 * j) 8 =
            (if off ≤ j ∧ j < off + b.length then b.getD (j - off) 0 else old.data.extractLsb' (8 * j) 8)
          ∧ y.dirty.getLsbD j = (decide (off ≤ j ∧ j < off + b.length) || old.dirty.getLsbD j)
          ∧ y.valid.getLsbD j = (decide (off ≤ j ∧ j < off + b.length) || old.valid.getLsbD j))

/-- A write in a frame's cache, at the home or from outside changes its bytes and no others, other copies give way to it, and
an evicted sector's dirty bytes move on (R169, R170, R184, R185, R277, R427, R431, R22). Which copies of a die give way at a
frame's write is log entry 7's reading. -/
def Obligations.StoresStayInPlace : Prop :=
  (∀ (s : State) (p : FrameId) (weak u : Bool) (n off : Nat) (b : List Byte),
    u = true ∨ Config.isStream p.die = false → deviceSector n = true → s.storePlace p.die n .frame weak = .frame →
    (∀ q ∈ s.framesOfDie p.die, q ≠ p → s.frameSector q n u = none) → (s.frame p).cache.length < 1024 →
    s.poisoned n = false → s.severed p.die n = false → 0 < b.length → off + b.length ≤ 64 →
    ∃ t, s.writeSeg p .frame weak u n off b = (none, t) ∧ t = { s with frames := t.frames }
      ∧ (∀ q, q ≠ p → t.frame q = s.frame q)
      ∧ { t.frame p with cache := [] } = { s.frame p with cache := [] }
      ∧ (t.readSeg p .frame u n off b.length).2.1 = b
      ∧ (∀ (m a : Nat) (v : Bool), a < 64 → (m ≠ n ∨ v ≠ u ∨ a < off ∨ off + b.length ≤ a) →
          (t.readSeg p .frame v m a 1).2.1 = (s.readSeg p .frame v m a 1).2.1))
  ∧ (∀ (s t : State) (p : FrameId) (weak u : Bool) (n off : Nat) (b : List Byte), deviceSector n = true →
    s.storePlace p.die n .frame weak = .frame → s.writeSeg p .frame weak u n off b = (none, t) →
    ∀ q, q.die = p.die → q ≠ p → t.frameSector q n u = none)
  ∧ (∀ (s : State) (p : FrameId) (weak u : Bool) (n off : Nat) (b : List Byte),
    s.dieSector p.die n u = none → (∀ q ∈ s.framesOfDie p.die, s.frameSector q n u = none) →
    s.poisoned n = false → s.severed p.die n = false → (u = true ∨ (s.dir n).st = .dI) → s.mem.wf = true →
    off + b.length ≤ 64 →
    ∃ t, s.writeSeg p .home weak u n off b = (none, t) ∧ t.mem.wf = true
      ∧ (∀ j, j < b.length → cellGet t.mem (64 * n + off + j) = b.getD j 0)
      ∧ (∀ a, a < 64 * n + off ∨ 64 * n + off + b.length ≤ a → cellGet t.mem a = cellGet s.mem a)
      ∧ t.rods = s.rods ∧ t.teams = s.teams ∧ t.carry = s.carry)
  ∧ (∀ (s : State) (p : FrameId) (n : Nat) (u : Bool),
    let t := s.evictFrame p n u
    t.frameSector p n u = none ∧ t.mem = s.mem ∧ t.hub = s.hub ∧ t.rods = s.rods
      ∧ (∀ x, s.frameSector p n u = some x → ∀ k, k < 64 → x.dirty.getLsbD k = true →
          ∃ y, t.dieSector p.die n u = some y ∧ y.dirty.getLsbD k = true
            ∧ y.data.extractLsb' (8 * k) 8 = x.data.extractLsb' (8 * k) 8)
      ∧ ∀ (m : Nat) (v : Bool), m ≠ n ∨ v ≠ u →
          t.frameSector p m v = s.frameSector p m v ∧ t.dieSector p.die m v = s.dieSector p.die m v)
  ∧ (∀ (s : State) (d n : Nat) (x : Sector),
    let t := s.evictDie d n true
    s.dieSector d n true = some x → (∀ q ∈ s.framesOfDie d, s.frameSector q n true = none) →
    (x.dirty ≠ 0 → s.severed d n = false) →
    t.dieSector d n true = none
      ∧ (∀ k, k < 64 → cellGet t.mem (64 * n + k) =
          if x.dirty.getLsbD k then x.data.extractLsb' (8 * k) 8 else cellGet s.mem (64 * n + k))
      ∧ ∀ a, a / 64 ≠ n → cellGet t.mem a = cellGet s.mem a)
  ∧ (∀ (s : State) (addr : Nat) (b : List Byte),
    let n := addr / 64
    let t := s.outside (.hostStore addr b)
    0 < b.length → addr % 64 + b.length ≤ 64 → controlOffset addr = none → s.poisoned n = false →
    s.severed hubNode n = false →
    ((∀ j, j < b.length → cellGet t.mem (addr + j) = b.getD j 0)
      ∧ (∀ a, a / 64 ≠ n → cellGet t.mem a = cellGet s.mem a)
      ∧ (∀ a, (s.dir n).holders.getLsbD a = true → t.agentSector a n = none) ∧ t.rods = s.rods ∧ t.teams = s.teams)
    ∧ (∀ agent, agent = 8 ∨ agent = 9 → s.agentOut agent = false → s.watched n = false → deviceSector n = true →
      ∃ x, (s.outside (.coreStore agent addr b)).agentSector agent n = some x ∧ x.st = .m
        ∧ ∀ j, j < b.length → x.dirty.getLsbD (addr % 64 + j) = true
            ∧ x.data.extractLsb' (8 * (addr % 64 + j)) 8 = b.getD j 0))

/-- LDF, STF and ATOMF read and write the team's frame store, and nothing beyond the bytes they name; the atomics act as
R283's operations, lane by lane. What LDF may still read of a byte that another item has replaced is kept by the model's own
field, log entry 72 (DESIGN CHOICE) (R281, R287, R276, R277, R123, R179, R272). -/
def Obligations.FrameStoreAccess : Prop :=
  (∀ (w : MWord) (s : State) (k : RodKey) (l : Nat) (r : Rod) (t : Team), IssuesFreely s k l r (.ldf w) →
    s.team? (teamKeyOf k r) = some t → (mwHeld w r .reg) →
    (∀ n : Fin 32, (r.subRod l).getLsbD n.val = true → r.lanes[n].guard w.g = true →
      (mwOffset w r.lanes[n]) % ((mwBytes w) : Int) = 0 ∧ 0 ≤ (mwOffset w r.lanes[n])
        ∧ (mwOffset w r.lanes[n]) + (mwBytes w) ≤ t.fsBytes) →
    ((∀ n : Fin 32, (r.subRod l).getLsbD n.val = true → r.lanes[n].guard w.g = true →
        t.staleFor r.lanes[n].item (mwOffset w r.lanes[n]).toNat (mwBytes w) = []) →
      exec (.ldf w) s = .next (s.setRod k (r.mapLanes (r.subRod l) (fun _ x =>
        if x.guard w.g then
          { x with regs := loadedRegs x w.d.toNat (mwBytes w) (ofLe (cellsRead t.fs ((mwOffset w x)).toNat (mwBytes w))),
                   pc := x.pc + 8 }
        else x.advance))))
    -- bytes that others have replaced, and that nothing orders yet, may read as they stood (R179)
    ∧ ∃ (u : State) (f : Nat → Nat), exec (.ldf w) s = .next u ∧ { u with free := s.free, rods := s.rods } = s
      ∧ u.rods = (s.setRod k (r.mapLanes (r.subRod l) (fun n x =>
          if x.guard w.g then
            { x with regs := loadedRegs x w.d.toNat (mwBytes w)
                       (ofLe ({ s with free := f n }.laneView t x.item ((mwOffset w x)).toNat (mwBytes w)).1)
                     pc := x.pc + 8 }
          else x.advance))).rods)
  -- what an item may still read: writes it need not see are seen whole or not at all
  ∧ (∀ (s : State) (t : Team) (item : DWord) (a n : Nat),
    let l := t.staleFor item a n
    let (b, s1) := s.laneView t item a n
    (∀ u, u ∈ l ↔ u ∈ t.unseen ∧ a ≤ u.addr ∧ u.addr < a + n
        ∧ ∀ v ∈ t.unseen, v.addr = u.addr → u.num ≤ v.num → v.item ≠ item)
      ∧ b.length = n ∧ { s1 with free := s.free } = s ∧ (l = [] → b = cellsRead t.fs a n ∧ s1 = s)
      ∧ ∃ cut, ∀ k, k < n →
        ((∀ u ∈ l, u.addr = a + k → u.num < cut) ∧ b.getD k 0 = cellGet t.fs (a + k))
          ∨ ∃ pre u post, l = pre ++ u :: post ∧ u.addr = a + k ∧ cut ≤ u.num ∧ b.getD k 0 = u.old
              ∧ ∀ v ∈ pre, v.addr = a + k → v.num < cut)
  ∧ (∀ (t : Team) (items : List DWord),
    { t.ordered items with unseen := t.unseen } = t
      ∧ ∀ u, u ∈ (t.ordered items).unseen ↔ u ∈ t.unseen
          ∧ ∀ v ∈ t.unseen, v.addr = u.addr → u.num ≤ v.num → v.item ∉ items)
  ∧ (∀ (w : MWord) (s : State) (k : RodKey) (l : Nat) (r : Rod) (t : Team), IssuesAlone s k l r (.stf w) →
    s.team? (teamKeyOf k r) = some t → (mwHeld w r .reg) → (mwOffset w (r.lane l)) % ((mwBytes w) : Int) = 0 →
    0 ≤ (mwOffset w (r.lane l)) → (mwOffset w (r.lane l)) + (mwBytes w) ≤ t.fsBytes →
    exec (.stf w) s = .next ((s.setTeam (teamKeyOf k r) (t.laneWrite (r.lane l).item ((mwOffset w (r.lane l))).toNat
        (leBytes (mwBytes w) ((mwStored w (r.lane l)))))).onLane k l (fun x => { x with pc := x.pc + 8 })))
  ∧ (∀ (t : Team) (item : DWord) (a : Nat) (b : List Byte),
    let t1 := t.laneWrite item a b
    { t1 with unseen := t.unseen } = { t with fs := cellsWrite t.fs a b }
      ∧ (∀ u ∈ t.unseen, u ∈ t1.unseen)
      ∧ (∀ u ∈ t1.unseen, u ∈ t.unseen ∨ (u.item = item ∧ a ≤ u.addr ∧ u.addr < a + b.length ∧ u.old = cellGet t.fs u.addr
          ∧ ∀ v ∈ t.unseen, v.num < u.num))
      ∧ ∀ n, a ≤ n → n < a + b.length → ∃ u ∈ t1.unseen, u.item = item ∧ u.addr = n ∧ ∀ v ∈ t.unseen, v.num < u.num)
  ∧ (∀ (w : MWord) (s : State) (k : RodKey) (l : Nat) (r : Rod) (t : Team), IssuesFreely s k l r (.stf w) →
    s.team? (teamKeyOf k r) = some t → (mwHeld w r .reg) →
    (∀ n : Fin 32, (r.subRod l).getLsbD n.val = true → r.lanes[n].guard w.g = true →
      (mwOffset w r.lanes[n]) % ((mwBytes w) : Int) = 0 ∧ 0 ≤ (mwOffset w r.lanes[n])
        ∧ (mwOffset w r.lanes[n]) + (mwBytes w) ≤ t.fsBytes) →
    ∃ s1 t1, exec (.stf w) s = .next s1 ∧ s1.team? (teamKeyOf k r) = some t1 ∧ { t1 with fs := t.fs, unseen := t.unseen } = t
      ∧ s1.mem = s.mem ∧ s1.frames = s.frames ∧ s1.dies = s.dies ∧ s1.hub = s.hub
      ∧ s1.rods = (s.setRod k (r.mapLanes (r.subRod l) (fun _ x => x.advance))).rods
      ∧ (∀ a : Nat, (∀ n : Fin 32, (r.subRod l).getLsbD n.val = true → r.lanes[n].guard w.g = true →
          (a : Int) < (mwOffset w r.lanes[n]) ∨ (mwOffset w r.lanes[n]) + (mwBytes w) ≤ (a : Int)) →
          cellGet t1.fs a = cellGet t.fs a)
      -- of several items that store to a byte the highest lane's store stands (R277)
      ∧ ∀ (n : Fin 32) (j : Nat), (r.subRod l).getLsbD n.val = true → r.lanes[n].guard w.g = true → j < mwBytes w →
          (∀ m : Fin 32, n.val < m.val → (r.subRod l).getLsbD m.val = true → r.lanes[m].guard w.g = true →
            (mwOffset w r.lanes[n]) + j < (mwOffset w r.lanes[m])
              ∨ (mwOffset w r.lanes[m]) + (mwBytes w) ≤ (mwOffset w r.lanes[n]) + j) →
          cellGet t1.fs ((mwOffset w r.lanes[n]).toNat + j) = (leBytes (mwBytes w) (mwStored w r.lanes[n])).getD j 0)
  ∧ (∀ (w : RWord) (s : State) (k : RodKey) (l : Nat) (r : Rod) (t : Team) (o : Operands),
    let n := if RMod.bits w.mod 11 3 = 3 then 8 else 4
    let a := (o.a.value (r.lane l) (fun _ => 0)).toNat
    let old := ofLe (cellsRead t.fs a n)
    let b := (o.b.value (r.lane l) (fun _ => 0)).toNat
    let c := (o.c.value (r.lane l) (fun _ => 0)).toNat
    IssuesAlone s k l r (.atomf w) → s.team? (teamKeyOf k r) = some t →
    laneOperands r (r.lane l) (planOf (.atomf w)) = .ok o → a % n = 0 → a + n ≤ t.fsBytes →
    exec (.atomf w) s = .next ((match atomResult (atomOpOf w.mod) (8 * n) old b c with
        | some v => s.setTeam (teamKeyOf k r) (t.laneWrite (r.lane l).item a (leBytes n v))
        | none => s).onLane k l (fun x =>
          { (LaneWrite.value (decide (n = 8)) (BitVec.ofNat 64 old)).apply o.dst x with pc := x.pc + 8 })))
  ∧ (∀ (w : RWord) (s : State) (k : RodKey) (l m : Fin 32) (r : Rod) (t : Team) (o o' : Operands),
    let n := if RMod.bits w.mod 11 3 = 3 then 8 else 4
    let a (q : Fin 32) (o : Operands) : Nat := (o.a.value r.lanes[q] (fun _ => 0)).toNat
    let old (q : Fin 32) (o : Operands) (t : Team) : Nat := ofLe (cellsRead t.fs (a q o) n)
    let update (q : Fin 32) (o : Operands) (t : Team) : Team :=
      match atomResult (atomOpOf w.mod) (8 * n) (old q o t) (o.b.value r.lanes[q] (fun _ => 0)).toNat
          (o.c.value r.lanes[q] (fun _ => 0)).toNat with
      | some v => t.laneWrite r.lanes[q].item (a q o) (leBytes n v)
      | none => t
    IssuesPair s k l m r (.atomf w) → s.team? (teamKeyOf k r) = some t →
    laneOperands r r.lanes[l] (planOf (.atomf w)) = .ok o → laneOperands r r.lanes[m] (planOf (.atomf w)) = .ok o' →
    a l o % n = 0 → a l o + n ≤ t.fsBytes → a m o' % n = 0 → a m o' + n ≤ t.fsBytes →
    let t1 := update l o t
    ∃ u q, exec (.atomf w) s = .next u ∧ u.team? (teamKeyOf k r) = some (update m o' t1) ∧ u.rod? k = some q ∧ u.mem = s.mem
      ∧ q.lanes[l] = { (LaneWrite.value (decide (n = 8)) (BitVec.ofNat 64 (old l o t))).apply o.dst r.lanes[l] with
          pc := r.lanes[l].pc + 8 }
      ∧ q.lanes[m] = { (LaneWrite.value (decide (n = 8)) (BitVec.ofNat 64 (old m o' t1))).apply o'.dst r.lanes[m] with
          pc := r.lanes[m].pc + 8 })
  -- an offset that is not aligned, or whose bytes are not all in the frame store, parks its item (R272)
  ∧ (∀ (w : MWord) (s : State) (p : FrameId) (slot l : Nat) (r : Rod) (t : Team) (i : Instr),
    let k := rodKey p slot
    let a := mwOffset w (r.lane l)
    i = .ldf w ∨ i = .stf w → IssuesAlone s k l r i → s.team? (teamKeyOf k r) = some t → mwHeld w r .reg →
    (a % (mwBytes w : Int) ≠ 0 → ParksItem s p slot l r i .misaligned (BitVec.ofInt 64 a))
    ∧ (a % (mwBytes w : Int) = 0 → a < 0 ∨ (t.fsBytes : Int) < a + mwBytes w →
      ParksItem s p slot l r i .frameStoreBound (BitVec.ofInt 64 a)))
  ∧ (∀ (w : RWord) (s : State) (p : FrameId) (slot l : Nat) (r : Rod) (t : Team) (o : Operands),
    let k := rodKey p slot
    let n := if RMod.bits w.mod 11 3 = 3 then 8 else 4
    let a := (o.a.value (r.lane l) (fun _ => 0)).toNat
    IssuesAlone s k l r (.atomf w) → s.team? (teamKeyOf k r) = some t →
    laneOperands r (r.lane l) (planOf (.atomf w)) = .ok o →
    (a % n ≠ 0 → ParksItem s p slot l r (.atomf w) .misaligned (BitVec.ofNat 64 a))
    ∧ (a % n = 0 → t.fsBytes < a + n → ParksItem s p slot l r (.atomf w) .frameStoreBound (BitVec.ofNat 64 a)))

/-- ATOM, CAS and ATADD2 update memory once and return the old value through the load queue; RED returns none; each is performed
where R193 and R194 say, or parks where its address fails (R282, R283, R285, R286, R195, R193, R194, R434, R272, R273). -/
def Obligations.AtomicUpdates : Prop :=
  (∀ (w : RWord) (s s2 : State) (k : RodKey) (l v : Nat) (r : Rod) (xs : List Xlat) (o : Operands) (pc : Piece)
      (i : Instr),
    let x := r.lane l
    let ea := o.a.value x (fun _ => 0)
    let b := (o.b.value x (fun _ => 0)).toNat
    let c := (o.c.value x (fun _ => 0)).toNat
    let scope := RMod.bits w.mod 8 3
    let n := if i ≠ .atadd2 w ∧ RMod.bits w.mod 11 3 = 3 then 8 else 4
    let need := if i = .red w then Need.write else Need.both
    i = .atom w ∨ i = .red w ∨ i = .cas w ∨ i = .atadd2 w → IssuesAlone s k l r i →
    laneOperands r x (planOf i) = .ok o → ea.toNat % n = 0 → Translated s k r need ea.toNat n xs →
    piecesOf xs ea.toNat n = [pc] →
    (if i = .atadd2 w then
        s.atomicHalves k.frame scope pc (.halfAdd (RMod.bits w.mod 14 4 == 1)) b = (none, v, s2)
      else s.atomicAt k.frame scope pc (if i = .cas w then .cas else atomOpOf w.mod) b c = (none, v, s2)) →
    exec i s = .next ((if i = .red w then s2.inFlight k l scope false ea [pc] else s2).onLane k l (fun y =>
      if i = .red w then y.advance
      else
        { y with
          loads := y.loads ++ [{ addr := ea, kind := .atomic, size := n, scope := scope, dst := (o.dst.registers).headD 0,
                                 ordinal := y.loadOrdinal, value := BitVec.ofNat 64 v, xlats := xs, cut := false }]
          loadOrdinal := y.loadOrdinal + 1
          pc := y.pc + 8 })))
  -- two items: the second works on what the first left, also at the first one's address (R195, R282)
  ∧ (∀ (w : RWord) (s s1 s3 : State) (k : RodKey) (a b : Fin 32) (u v : Nat) (r : Rod) (xs ys : List Xlat) (o o' : Operands)
      (pa pb : Piece) (i : Instr),
    let scope := RMod.bits w.mod 8 3
    let n := if i ≠ .atadd2 w ∧ RMod.bits w.mod 11 3 = 3 then 8 else 4
    let need := if i = .red w then Need.write else Need.both
    let ea (l : Fin 32) (o : Operands) : DWord := o.a.value r.lanes[l] (fun _ => 0)
    let update (l : Fin 32) (o : Operands) (p : Piece) (s : State) : Option Cause × Nat × State :=
      let y := (o.b.value r.lanes[l] (fun _ => 0)).toNat
      if i = .atadd2 w then s.atomicHalves k.frame scope p (.halfAdd (RMod.bits w.mod 14 4 == 1)) y
      else s.atomicAt k.frame scope p (if i = .cas w then .cas else atomOpOf w.mod) y (o.c.value r.lanes[l] (fun _ => 0)).toNat
    let after (l : Fin 32) (o : Operands) (p : Piece) (xs : List Xlat) (v : Nat) (s : State) : State :=
      (if i = .red w then s.inFlight k l.val scope false (ea l o) [p] else s).onLane k l.val (fun y =>
        if i = .red w then y.advance
        else
          { y with
            loads := y.loads ++ [{ addr := ea l o, kind := .atomic, size := n, scope := scope, dst := (o.dst.registers).headD 0,
                                   ordinal := y.loadOrdinal, value := BitVec.ofNat 64 v, xlats := xs, cut := false }]
            loadOrdinal := y.loadOrdinal + 1
            pc := y.pc + 8 })
    i = .atom w ∨ i = .red w ∨ i = .cas w ∨ i = .atadd2 w → IssuesPair s k a b r i → s.mid = none →
    laneOperands r r.lanes[a] (planOf i) = .ok o → laneOperands r r.lanes[b] (planOf i) = .ok o' →
    (ea a o).toNat % n = 0 → (ea b o').toNat % n = 0 →
    Translated s k r need (ea a o).toNat n xs → piecesOf xs (ea a o).toNat n = [pa] → update a o pa s = (none, u, s1) →
    let t1 := after a o pa xs u s1
    Translated t1 k r need (ea b o').toNat n ys → piecesOf ys (ea b o').toNat n = [pb] → update b o' pb t1 = (none, v, s3) →
    exec i s = .next (after b o' pb ys v s3))
  -- the operation that the mod field names
  ∧ (∀ m : BitVec 18, atomOpOf m = match RMod.bits m 14 4 with
      | 0 => if RMod.f m then AtomOp.fadd else .add (RMod.sat m) (RMod.u m)
      | 1 => .min (RMod.u m)
      | 2 => .max (RMod.u m)
      | 3 => .and
      | 4 => .or
      | 5 => .xor
      | 6 => .exch
      | _ => .cas)
  -- the results of R283, R285 and R286 in 32 and 64 bits
  ∧ (∀ (n : Nat) (old b c : BitVec n), n = 32 ∨ n = 64 →
      let result (op : AtomOp) : Option (BitVec n) := (atomResult op n old.toNat b.toNat c.toNat).map (BitVec.ofNat n)
      let smallest : Int := -(2 : Int) ^ (n - 1)
      let largest : Int := (2 : Int) ^ (n - 1) - 1
      let f := if n = 64 then fp64Fmt else fp32Fmt
      (∀ u, result (.add false u) = some (old + b))
      ∧ result (.add true false) = some (BitVec.ofInt n (min (max (old.toInt + b.toInt) smallest) largest))
      ∧ result (.add true true) = some (BitVec.ofNat n (min (old.toNat + b.toNat) (2 ^ n - 1)))
      ∧ result (.min false) = some (if old.toInt ≤ b.toInt then old else b)
      ∧ result (.min true) = some (if old.toNat ≤ b.toNat then old else b)
      ∧ result (.max false) = some (if old.toInt ≤ b.toInt then b else old)
      ∧ result (.max true) = some (if old.toNat ≤ b.toNat then b else old)
      ∧ result .and = some (old &&& b) ∧ result .or = some (old ||| b) ∧ result .xor = some (old ^^^ b)
      ∧ result .exch = some b ∧ result .cas = (if old = b then some c else none)
      ∧ result .fadd = some (BitVec.ofNat n (f.put .ieee { mode := 0, d := 0, ftz := false }
          (sumNum 0 [f.decode false old.toNat, f.decode false b.toNat])))
      ∧ ∀ v, atomResult (.add true true) n old.toNat b.toNat c.toNat = some v → v < 2 ^ n)
  ∧ (∀ (bf : Bool) (old b : BitVec 16),
      let f := if bf then bf16Fmt else fp16Fmt
      (atomResult (.halfAdd bf) 16 old.toNat b.toNat 0).map (BitVec.ofNat 16) = some (BitVec.ofNat 16 (f.put .ieee
        { mode := 0, d := 0, ftz := false } (sumNum 0 [f.decode false old.toNat, f.decode false b.toNat]))))
  ∧ (∀ (s s1 s2 : State) (p : FrameId) (scope b o0 o1 : Nat) (x : Piece) (op : AtomOp), s.mid = none → s1.mid = none → s2.mid = none →
      s.atomicAt p scope { x with len := 2 } op (b % 65536) 0 = (none, o0, s1) →
      s1.atomicAt p scope { x with off := x.off + 2, len := 2 } op (b / 65536) 0 = (none, o1, s2) →
      s.atomicHalves p scope x op b = (none, o0 + 65536 * o1, s2))
  ∧ (∀ (s : State) (p : FrameId) (n off len : Nat) (f : Nat → Option Nat),
    let old := ofLe (cellsRead s.mem (64 * n + off) len)
    s.dieSector p.die n false = none → (∀ q ∈ s.framesOfDie p.die, s.frameSector q n false = none) →
    s.poisoned n = false → s.severed p.die n = false → (s.dir n).st = .dI → s.mem.wf = true → off + len ≤ 64 →
    ∃ t, s.atomicSeg p .home false n off len f = (none, old, t) ∧ t.mem.wf = true
      ∧ (∀ a, a < 64 * n + off ∨ 64 * n + off + len ≤ a → cellGet t.mem a = cellGet s.mem a)
      ∧ (∀ v, f old = some v → cellsRead t.mem (64 * n + off) len = leBytes len v)
      ∧ (f old = none → t.mem = s.mem))
  -- an address that is not aligned, or that is not translated, parks its item (R272, R273)
  ∧ (∀ (w : RWord) (s : State) (p : FrameId) (slot l : Nat) (r : Rod) (o : Operands) (c : Cause) (i : Instr),
    let k := rodKey p slot
    let ea := o.a.value (r.lane l) (fun _ => 0)
    let n := if i ≠ .atadd2 w ∧ RMod.bits w.mod 11 3 = 3 then 8 else 4
    let need := if i = .red w then Need.write else Need.both
    i = .atom w ∨ i = .red w ∨ i = .cas w ∨ i = .atadd2 w → IssuesAlone s k l r i →
    laneOperands r (r.lane l) (planOf i) = .ok o →
    (ea.toNat % n ≠ 0 → ParksItem s p slot l r i .misaligned ea)
    ∧ (ea.toNat % n = 0 → PageFails s k r need ea.toNat n c → ParksItem s p slot l r i c ea))
  -- where an atomic is performed: home for pages of class U, for an NC die at V and S, for a watched line or a host window, and
  -- where the predictor counts four; else in the die cache (R193, R194, R387, R434)
  ∧ (∀ (s : State) (p : FrameId) (scope b c : Nat) (x : Piece) (op : AtomOp),
    let u := isUntracked x.ord
    let at_ := s.atomicPlace p x.ord scope x.sector
    s.atomicAt p scope x op b c =
      at_.2.atomicSeg p at_.1 u x.sector x.off x.len (fun old => atomResult op (8 * x.len) old b c)
    ∧ at_.1 = (if u = true ∨ placeOf p.die x.ord scope = .home ∨ s.watched x.sector = true ∨ deviceSector x.sector = false
        ∨ 4 ≤ s.prediction p.die x.sector then .home else .die)
    ∧ at_.2 = { s with dies := at_.2.dies } ∧ ∀ d m v, at_.2.dieSector d m v = s.dieSector d m v)
  ∧ (∀ (s : State) (p : FrameId) (n off len : Nat) (x : Sector) (f : Nat → Option Nat),
    let old := ofLe (segBytes x.data off len)
    deviceSector n = true → s.framesClean p.die n false → s.dieSector p.die n false = some x → x.valid = allBytes →
    (Config.isStream p.die = true → x.st = .m ∨ x.st = .e) →
    (f old = none → s.atomicSeg p .die false n off len f = (none, old, s))
    ∧ ∀ v, f old = some v → s.atomicSeg p .die false n off len f =
        ((s.writeSeg p .die false false n off (leBytes len v)).1, old, (s.writeSeg p .die false false n off (leBytes len v)).2))

/-- FENCE holds its items until their loads have returned, then releases and acquires; CFLUSH, CINV and PREF act on
sectors; what a release, an acquire, a flush and a discard leave of each copy (R288, R289, R290, R182, R185, R186, R187, R190). -/
def Obligations.FencesAndMaintenance : Prop :=
  (∀ (w : RWord) (s : State) (k : RodKey) (l : Nat) (r : Rod), IssuesFreely s k l r (.fence w) →
    (r.subRod l &&& r.maskWhere (fun x => x.guard w.g) ≠ 0 →
      exec (.fence w) s = .next (s.setRod k (r.mapLanes (r.subRod l) (fun _ x =>
        { x with fence := some { order := RMod.bits w.mod 14 4, scope := RMod.bits w.mod 8 3, on := x.guard w.g } }))))
    ∧ (r.subRod l &&& r.maskWhere (fun x => x.guard w.g) = 0 →
      exec (.fence w) s = .next (s.setRod k (r.mapLanes (r.subRod l) (fun _ x => x.advance)))))
  ∧ (∀ (s : State) (k : RodKey) (r : Rod) (l : Fin 32) (f : FenceWait),
    let m := r.subRod l.val &&& r.maskWhere (fun x => x.fence.any (fun g => g.order == f.order && g.scope == f.scope))
    let on := m &&& r.maskWhere (fun x => x.fence.any (fun g => g.on))
    s.rod? k = some r → r.lanes[l].fence = some f → r.lanes[l].st = .runnable →
    ((∃ n : Fin 32, on.getLsbD n.val = true ∧ r.lanes[n].loads ≠ []) → exec (.fenceComplete k l.val) s = .next s)
    ∧ ((∀ n : Fin 32, on.getLsbD n.val = true → r.lanes[n].loads = [] ∧ r.lanes[n].deferred = []) →
      let s1 := if f.order = 0 then s else s.releaseAt k.frame f.scope
      let s2 := if f.order = 1 then s1 else s1.acquireAt k.frame f.scope
      let s3 := if f.order = 0 then s2 else s2.itemsOrdered k r on
      exec (.fenceComplete k l.val) s = .next (s3.modRod k (fun q =>
        (q.mapLanes m (fun n x => { x with fence := none, writes := if on.getLsbD n.val then [] else x.writes,
                                           pc := x.pc + 8 })).regroup m))))
  ∧ (∀ (w : MWord) (s : State) (k : RodKey) (l : Nat) (r : Rod) (xs : List Xlat) (i : Instr),
    let n := ((r.lane l).reg w.d.toNat).toNat
    let ea := (mwAddress w (r.lane l))
    i = .cflush w ∨ i = .cinv w → IssuesAlone s k l r i →
    r.holds w.d.toNat = true → (∀ g ∈ FieldUse.pair.regs w.base ++ (idxUse w).regs w.idx, r.holds g = true) →
    (n = 0 → exec i s = .next (s.onLane k l (fun x => { x with pc := x.pc + 8 })))
    ∧ (0 < n → ea + n ≤ 2 ^ 64 → Translated s k r .read ea n xs →
      exec i s = .next (((sectorsOf xs ea n).foldl
        (rangeSector (if i = .cflush w then State.flushSector else State.discardSector) k l w.scope.toNat
          (BitVec.ofNat 64 ea)) s).onLane k l (fun x => { x with pc := x.pc + 8 }))))
  ∧ (∀ (w : MWord) (s : State) (k : RodKey) (a b : Fin 32) (r : Rod) (xs ys : List Xlat) (i : Instr),
    let n (l : Fin 32) : Nat := (r.lanes[l].reg w.d.toNat).toNat
    let ea (l : Fin 32) : Nat := mwAddress w r.lanes[l]
    let after (l : Fin 32) (xs : List Xlat) (s : State) : State :=
      ((sectorsOf xs (ea l) (n l)).foldl (rangeSector (if i = .cflush w then State.flushSector else State.discardSector) k l.val
        w.scope.toNat (BitVec.ofNat 64 (ea l))) s).onLane k l.val (fun x => { x with pc := x.pc + 8 })
    i = .cflush w ∨ i = .cinv w → IssuesPair s k a b r i → r.holds w.d.toNat = true →
    (∀ g ∈ FieldUse.pair.regs w.base ++ (idxUse w).regs w.idx, r.holds g = true) → 0 < n a → ea a + n a ≤ 2 ^ 64 →
    0 < n b → ea b + n b ≤ 2 ^ 64 → Translated s k r .read (ea a) (n a) xs → Translated (after a xs s) k r .read (ea b) (n b) ys →
    exec i s = .next (after b ys (after a xs s)))
  ∧ (∀ (act : State → Nat → Nat → Bool → Nat → State) (k : RodKey) (l scope : Nat) (ea : DWord) (s : State)
      (e : Nat × BitVec 2),
    let u := isUntracked e.2
    let t := rangeSector act k l scope ea s e
    let a := act s k.frame.die e.1 u scope
    (scope < 3 → t = a)
    ∧ (3 ≤ scope → s.meetsError k.frame.die e.1 u = none → { t with rods := a.rods } = a)
    ∧ (3 ≤ scope → s.meetsError k.frame.die e.1 u = some .linkDown → t = s.defer k l .linkDown ea)
    ∧ (3 ≤ scope → s.meetsError k.frame.die e.1 u = some .poison → t = a.defer k l .poison ea))
  ∧ (∀ (w : MWord) (s : State) (k : RodKey) (l : Nat) (r : Rod), IssuesAlone s k l r (.pref w) →
    (∀ g ∈ FieldUse.pair.regs w.base ++ (idxUse w).regs w.idx, r.holds g = true) →
    (∃ t, exec (.pref w) s = .next t
      ∧ t.rods = (s.setRod k (r.setLane l { r.lane l with pc := (r.lane l).pc + 8 })).rods
      ∧ t.teams = s.teams ∧ t.carry = s.carry)
    ∧ (∀ (c : Cause) (s1 : State),
        s.pages k.frame (s.asidOf k r) .read (pageStarts ((mwAddress w (r.lane l))) 1) = (.error c, s1) →
        exec (.pref w) s = .next (s1.onLane k l (fun x => { x with pc := x.pc + 8 }))))
  -- a release: the frame's dirty bytes go to the die cache, at V and S not those of U-class pages (R182, R187, R190)
  ∧ (∀ (s : State) (p : FrameId) (scope : Nat),
    let t := s.releaseAt p scope
    let goes (n : Nat) (u : Bool) : Prop :=
      scope ≠ 0 ∧ (scope < 3 ∨ u = false) ∧ ∃ x, s.frameSector p n u = some x ∧ x.dirty ≠ 0
    t = { s with frames := t.frames, dies := t.dies } ∧ (∀ d, d ≠ p.die → t.die d = s.die d)
    ∧ ∀ n u, (¬ goes n u → t.frameSector p n u = s.frameSector p n u ∧ t.dieSector p.die n u = s.dieSector p.die n u)
      ∧ ∀ x, goes n u → s.frameSector p n u = some x →
        ∃ y z, t.frameSector p n u = some y ∧ keptClean x y ∧ t.dieSector p.die n u = some z ∧ z.st = .m
          ∧ bytesTaken ((s.dieSector p.die n u).getD (Sector.empty n u)) x z)
  -- an acquire: the frame keeps its own dirty bytes alone, at V and S an NC die and its frames as well (R182, R187, R190)
  ∧ (∀ (s : State) (p : FrameId) (scope : Nat),
    let t := s.acquireAt p scope
    let nc : Prop := 3 ≤ scope ∧ Config.isStream p.die = false
    (scope = 0 → t = s)
    ∧ (0 < scope → t = { s with frames := t.frames, dies := t.dies } ∧ refreshes scope (s.frame p).cache (t.frame p).cache
      ∧ (∀ q, { t.frame q with cache := (s.frame q).cache } = s.frame q)
      ∧ (∀ q, q ≠ p → ¬ (nc ∧ q ∈ s.framesOfDie p.die) → t.frame q = s.frame q)
      ∧ (nc → refreshes scope (s.die p.die).cache (t.die p.die).cache
        ∧ { t.die p.die with cache := (s.die p.die).cache } = s.die p.die
        ∧ ∀ q ∈ s.framesOfDie p.die, refreshes scope (s.frame q).cache (t.frame q).cache)
      ∧ (¬ nc → t.dies = s.dies) ∧ ∀ d, d ≠ p.die → t.die d = s.die d))
  -- CFLUSH of a sector: at C and D the frames' dirty bytes go to the die cache, at V and S they go home and the die stays clean
  ∧ (∀ (s : State) (d n : Nat) (u : Bool) (scope : Nat),
    let t := s.flushSector d n u scope
    let old := (s.dieSector d n u).getD (Sector.empty n u)
    let dirtyIn (q : FrameId) (k : Nat) : Prop := ∃ x, s.frameSector q n u = some x ∧ x.dirty.getLsbD k = true
    (scope = 0 → t = s)
    ∧ (1 ≤ scope → scope < 3 →
      t = { s with frames := t.frames, dies := t.dies } ∧ t.framesClean d n u
      ∧ (∀ q ∈ s.framesOfDie d, ∀ x, s.frameSector q n u = some x → ∃ y, t.frameSector q n u = some y ∧ keptClean x y)
      ∧ (∀ q m v, m ≠ n ∨ v ≠ u → t.frameSector q m v = s.frameSector q m v)
      ∧ (∀ e m v, e ≠ d ∨ m ≠ n ∨ v ≠ u → t.dieSector e m v = s.dieSector e m v)
      ∧ ∀ k, k < 64 →
        ((∀ q ∈ s.framesOfDie d, ¬ dirtyIn q k) →
          let y := (t.dieSector d n u).getD (Sector.empty n u)
          y.data.extractLsb' (8 * k) 8 = old.data.extractLsb' (8 * k) 8 ∧ y.dirty.getLsbD k = old.dirty.getLsbD k)
        ∧ ∀ q ∈ s.framesOfDie d, ∀ x, dirtyIn q k → s.frameSector q n u = some x →
          (∀ q' ∈ s.framesOfDie d, q' ≠ q → ¬ dirtyIn q' k) →
          ∃ y, t.dieSector d n u = some y ∧ y.dirty.getLsbD k = true ∧ y.valid.getLsbD k = true
            ∧ y.data.extractLsb' (8 * k) 8 = x.data.extractLsb' (8 * k) 8)
    ∧ (3 ≤ scope → t = (s.flushSector d n u 1).flushSector d n u scope)
    ∧ (3 ≤ scope → s.framesClean d n u →
      (∀ x, s.dieSector d n u = some x → x.dirty = 0 → t = s) ∧ (s.dieSector d n u = none → t = s)
      ∧ ∀ x, s.dieSector d n u = some x → x.dirty ≠ 0 →
        u = true ∨ (Config.agentOfDie d = none ∧ (s.dir n).st = .dI)
          ∨ (∃ a, Config.agentOfDie d = some a ∧ (x.st = .m ∨ x.st = .o ∧ (s.dir n).st = .dO ∧ (s.dir n).owner = a)) →
        bytesMerged s t n x
        ∧ ∃ y, t.dieSector d n u = some y ∧ keptClean x y
          ∧ ∀ a, u = false → Config.agentOfDie d = some a →
            (x.st = .m → y.st = .e ∧ t.hub.directory = s.hub.directory) ∧ (x.st = .o → y.st = .s ∧ (t.dir n).st = .dS)))
  -- CINV of a sector: the copies go, dirty bytes first to the die cache or home (R186)
  ∧ (∀ (s : State) (d n : Nat) (u : Bool) (scope : Nat),
    let t := s.discardSector d n u scope
    let f := s.flushSector d n u 1
    (scope = 0 → t = s)
    ∧ (1 ≤ scope → (∀ q ∈ s.framesOfDie d, t.frameSector q n u = none)
      ∧ (∀ q m v, m ≠ n ∨ v ≠ u → q.die = d → scope < 3 → t.frameSector q m v = s.frameSector q m v))
    ∧ (1 ≤ scope → scope < 3 → t = { f with frames := t.frames })
    ∧ (3 ≤ scope → t.dieSector d n u = none)
    ∧ (3 ≤ scope → s.framesClean d n u → (s.dieSector d n u = none → t.mem = s.mem ∧ t.hub.directory = s.hub.directory)
      ∧ ∀ x, s.dieSector d n u = some x →
        (u = true ∨ (Config.agentOfDie d = none ∧ (x.dirty = 0 ∨ (s.dir n).st = .dI)) → bytesMerged s t n x)
        ∧ ∀ a, u = false → Config.agentOfDie d = some a →
          (x.st = .m → bytesMerged s t n x ∧ (t.dir n).st = .dI)
          ∧ (x.st = .o → (s.dir n).st = .dO → (s.dir n).owner = a → bytesMerged s t n x
            ∧ (t.dir n).st = (if withBit (s.dir n).sharers a false = 0 then .dI else .dS)
            ∧ ∀ b, b ≠ a → (s.dir n).sharers.getLsbD b = true → (t.dir n).holders.getLsbD b = true)
          ∧ ((x.st = .e ∨ x.st = .s) → x.dirty = 0 → t.mem = s.mem ∧ t.hub.directory = s.hub.directory)))

/-- Tokens are put, taken in order, tried and bound as R291 to R294 say, with their faults; an indirect destination of TKGET and TKTRY is the
lowest active lane's for every lane by the model's choice (log entry 48) (R291, R292, R293, R294, R295, R480). -/
def Obligations.TokenQueues : Prop :=
  ∀ (w : RWord) (s : State) (k : RodKey) (l : Nat) (r : Rod) (t : Team) (o : Operands) (i : Instr),
    let tk := teamKeyOf k r
    let q := w.b.toNat
    let tq := t.queue q
    let cap := r.lane (lowest (r.subRod l))
    let go : State := s.setRod k (r.mapLanes (r.subRod l) (fun _ x => x.advance))
    let dst := (o.dst.registers).headD 0
    let popped : Team := t.setQueue q { tq with tokens := tq.tokens.drop 1 }
    IssuesFreely s k l r i → s.team? tk = some t → cap.guard w.g = true → laneOperands r cap (planOf i) = .ok o →
    (i = .tkput w → tq.producer ≤ 1 → tq.tokens.length + tq.reserved < 16 →
      exec i s = .next (((go.setTeam tk
        ((t.ordered (onItems r (r.subRod l) w.g)).setQueue q
          { tq with tokens := tq.tokens ++ [(o.a.value cap (fun _ => 0)).setWidth 32] })).serveTeam
          tk).modRod k (fun e => e.regroup (r.subRod l))))
    ∧ (i = .tkget w → tq.consumer ≤ 1 →
      (s.laneTokens tk q ≠ 0 →
        exec i s = .next ((s.setTeam tk popped).setRod k (r.mapLanes (r.subRod l) (fun _ x =>
          if x.guard w.g then { x.setReg dst (tq.tokens.headD 0) with pc := x.pc + 8 } else x.advance))))
      ∧ (s.laneTokens tk q = 0 →
        exec i s = .next (s.setRod k ((r.mapLanes (r.subRod l) (fun _ x =>
          if x.guard w.g then { x with st := .blocked, wait := .tkget q dst } else x.advance)).regroup
            (r.subRod l)))))
    ∧ (i = .tktry w → tq.consumer ≤ 1 →
      (s.laneTokens tk q ≠ 0 →
        exec i s = .next ((s.setTeam tk popped).setRod k (r.mapLanes (r.subRod l) (fun _ x =>
          if x.guard w.g then
            { (x.setReg dst (tq.tokens.headD 0)).setPred w.c.toNat true with pc := x.pc + 8 }
          else x.advance))))
      ∧ (s.laneTokens tk q = 0 →
        exec i s = .next (s.setRod k (r.mapLanes (r.subRod l) (fun _ x =>
          if x.guard w.g then { x.setPred w.c.toNat false with pc := x.pc + 8 } else x.advance)))))
    ∧ (i = .tkset w →
      exec i s = .next (go.setTeam tk (t.setQueue q
        { tq with producer := RMod.bits w.mod 14 4, consumer := RMod.bits w.mod 11 3 })))
    -- a binding that does not admit lanes, and a queue that has no room, fault on every enabled lane
    ∧ (∀ (p : FrameId) (slot : Nat), k = rodKey p slot →
      let parks (c : Cause) : Prop := ParksLanes s p slot l r i (r.subRod l &&& r.maskWhere (fun x => x.guard w.g)) c
        (fun n x => if (r.subRod l).getLsbD n.val then x.advance else x)
      (i = .tkput w → 2 ≤ tq.producer → parks .illegalOperand)
      ∧ (i = .tkget w ∨ i = .tktry w → 2 ≤ tq.consumer → parks .illegalOperand)
      ∧ (i = .tkput w → tq.producer ≤ 1 → 16 ≤ tq.tokens.length + tq.reserved → parks .tokenOverflow))

/-- BAR arrives, waits, passes and sizes a frame barrier as R296 says, and its last arrival frees who waits; a rod that has already arrived arrives no more, and its
BAR.meet waits on the current generation (R296, R297, R480). -/
def Obligations.FrameBarriers : Prop :=
  ∀ (w : RWord) (s : State) (p : FrameId) (slot l : Nat) (r : Rod) (t : Team) (i : Instr),
    let k := rodKey p slot
    let tk := teamKeyOf k r
    let n := w.b.toNat
    let b := t.barrier n
    let tor := t.ordered (onItems r (r.subRod l) w.g)
    let cap := r.lane (lowest (r.subRod l))
    IssuesFreely s k l r i → s.team? tk = some t → cap.guard w.g = true →
    (i = .barMeet w → r.arrived.getLsbD n = false → b.arrivals + 1 + (popCount t.retired - b.gone) < b.expected →
      exec i s = .next ((s.setTeam tk (tor.setBarrier n { b with arrivals := b.arrivals + 1 })).setRod k
        (({ (r.mapLanes (r.subRod l) (fun _ x =>
            if x.guard w.g then { x with st := .blocked, wait := .barMeet n b.gen } else x.advance)) with
          arrived := withBit r.arrived n true } : Rod).regroup (r.subRod l))))
    ∧ (i = .barPass w → r.arrived.getLsbD n = false → b.arrivals + 1 + (popCount t.retired - b.gone) < b.expected →
      exec i s = .next ((s.setTeam tk (tor.setBarrier n { b with arrivals := b.arrivals + 1 })).setRod k
        { (r.mapLanes (r.subRod l) (fun _ x => x.advance)) with arrived := withBit r.arrived n true }))
    ∧ (i = .barMeet w → r.arrived.getLsbD n = true →
      exec i s = .next ((s.setTeam tk tor).setRod k ((r.mapLanes (r.subRod l) (fun _ x =>
        if x.guard w.g then { x with st := .blocked, wait := .barMeet n b.gen } else x.advance)).regroup (r.subRod l))))
    ∧ (i = .barPass w → r.arrived.getLsbD n = true →
      exec i s = .next ((s.setTeam tk tor).setRod k (r.mapLanes (r.subRod l) (fun _ x => x.advance))))
    ∧ (i = .barMeet w ∨ i = .barPass w → r.arrived.getLsbD n = false → 0 < b.expected →
        b.expected ≤ b.arrivals + 1 + (popCount t.retired - b.gone) →
      ∃ u t', exec i s = .next u ∧ u.team? tk = some t'
        ∧ t' = tor.setBarrier n { b with arrivals := 0, gen := !b.gen, gone := 0 } ∧ u.mem = s.mem
        -- the items that wait on the generation go on, and every rod of the team may arrive in the next one (R297)
        ∧ (let freed (x y : Lane) : Prop := { y with group := x.group } =
              if x.st = .blocked ∧ x.wait = .barMeet n b.gen then ({ x with st := .runnable, wait := .none } : Lane).advance
              else x
          (∀ (m : Nat) (q : Rod), m ≠ slot → s.rod? (rodKey p m) = some q → q.teamSlot = r.teamSlot → q.divert = false →
            ∃ q', u.rod? (rodKey p m) = some q' ∧ q'.arrived = withBit q.arrived n false
              ∧ ∀ a : Fin 32, freed q.lanes[a] q'.lanes[a])
          ∧ (r.divert = false → ∃ q', u.rod? k = some q' ∧ q'.arrived.getLsbD n = false
            ∧ ∀ a : Fin 32, if (r.subRod l).getLsbD a.val then
                { q'.lanes[a] with group := r.lanes[a].group, wait := r.lanes[a].wait } = r.lanes[a].advance
              else freed r.lanes[a] q'.lanes[a])))
    ∧ (∀ e : Nat, i = .barSize w → r.holds w.a.toNat = true → e = (cap.reg w.a.toNat).toNat → 0 < e →
        e ≤ (s.recordOfLaunch r.launch).teamRods → b.arrivals = 0 → popCount t.retired - b.gone < e →
      exec i s = .next ((s.setTeam tk (t.setBarrier n { b with expected := e })).setRod k
        (r.mapLanes (r.subRod l) (fun _ x => x.advance))))

/-- Every well-formed instruction word decodes to the instruction it stands for (R203, R205, R206, R207, R208, R209, R210,
R217). -/
def Obligations.DecodeOfEncode : Prop :=
  ∀ (i : Instr) (w : DWord), i.wellFormed = true → encode i = some w → decode w = .ok i

/-- A word that decodes is the word of what it decodes to, and no other word is (R202, R203, R217). -/
def Obligations.EncodeOfDecode : Prop :=
  (∀ (w : DWord) (i : Instr), decode w = .ok i → encode i = some w)
  ∧ (∀ (w v : DWord) (i : Instr), decode w = .ok i → decode v = .ok i → w = v)
  ∧ (∀ (w : DWord) (rest : List Byte) (i : Instr), decode w = .ok i →
      decodeBytes (leBytes 8 w.toNat ++ rest) = .ok (i, rest))

/-- Words written out from the field tables decode to their instructions, one for each format (R203, R205, R206, R207,
R208, R209, R210, R217). -/
def Obligations.SanityWords : Prop :=
  decode 0b000_0000000_0_111_00000001_00000010_00000011_00000000_000000000000000000
    = .ok (.iadd { g := { neg := false, pred := 7 }, dst := 1, a := 2, b := 3, c := 0, mod := 0 })
  ∧ decode 0b001_0100010_0_111_00000100_00000000_0000010010001101000101011001111000
    = .ok (.movi { g := { neg := false, pred := 7 }, dst := 4, a := 0, imm := 0x12345678 })
  ∧ decode 0b011_0000011_0_001_00001001_00000100_00000110_000000000000000000_010_000_1_0
    = .ok (.ldff { g := { neg := false, pred := 1 }, d := 9, base := 4, idx := 6, off := 0, size := 2, scope := 0,
                   idxv := true, nt := false })
  ∧ decode 0b100_0000000_1_000_11111111111111111111111111111110_00000000_0000000000
    = .ok (.bra { g := { neg := true, pred := 0 }, tgt := -2, a := 0, mod := 0 })
  ∧ decode 0b101_0000000_0_111_00000010_00000100_00000110_0011_0000_0000_001_0101_1_0_00000
    = .ok (.vadd { g := { neg := false, pred := 7 }, e0 := 2, e1 := 4, e2 := 6, con0 := 3, con1 := 0, con2 := 0,
                   conv := 1, prod := 5, prodv := true, j := false, cmod := 0 })
  ∧ decode 0b110_0001000_0_111_00000000_00000100_00000110_00000000_000000000000000000
    = .ok (.tlbiVa { g := { neg := false, pred := 7 }, dst := 0, a := 4, b := 6, c := 0, mod := 0 })
  ∧ decode 0b011_0010111_0_111_00000000_00000000_00000010_00000000_000100000000000000
    = .ok (.barPass { g := { neg := false, pred := 7 }, dst := 0, a := 0, b := 2, c := 0, mod := 0x4000 })
  ∧ decode 0b111_0000010_0_111_00000010_00000100_00000110_00001000_000000000000110000
    = .ok (.dfma { g := { neg := false, pred := 7 }, dst := 2, a := 4, b := 6, c := 8, mod := 0x30 })

/-- Words outside the opcode map meet the fate R218 names (R203, R217, R218, R219, R358, R356). -/
def Obligations.UnassignedWords : Prop :=
  (∀ w : DWord, fieldGuard w = { neg := true, pred := 7 } → decode w = .error .undefinedInstruction)
  ∧ (∀ w : DWord, fieldGuard w ≠ { neg := true, pred := 7 } →
    let n := fieldIndex w
    let m := RMod.bits (rword w).mod
    let assigned : Bool :=
      match fieldClass w with
      | 0 => decide (n < 0x2A) && n != 0x22 && n != 0x23
      | 1 => [0x00, 0x01, 0x02, 0x07, 0x08, 0x0B, 0x0C, 0x0D, 0x0E, 0x0F, 0x11, 0x12, 0x13, 0x14, 0x16, 0x1C, 0x1D,
              0x22, 0x23, 0x29].contains n
      | 2 => decide (n ≤ 0x20)
      | 3 => decide (n ≤ 0x17)
      | 4 => decide (n ≤ 0x12)
      | 5 => decide (n ≤ 0x12) || (decide (0x20 ≤ n) && decide (n ≤ 0x27)) || (decide (0x40 ≤ n) && decide (n ≤ 0x47))
      | 6 => decide (n ≤ 0x0D)
      | _ => decide (n ≤ 0x05)
    let reservedOp : Bool :=
      (fieldClass w == 3 && n == 0x17 && decide (3 ≤ m 14 4))
        || (fieldClass w == 6 && (n == 0x00 || n == 0x08) && m 8 2 == 3)
    (assigned = false → decode w = .error (if fieldClass w = 7 then .extension else .undefinedInstruction))
    ∧ (reservedOp = true → decode w = .error .reservedOperation)
    ∧ (assigned = true → reservedOp = false → ∃ i, decode w = .ok i))
  ∧ (∀ (w : DWord) (die : Nat) (e : Reject), decode w = .error e →
    (fieldClass w = 6 → rejectCause false die w e = .privileged)
    ∧ (e = .undefinedInstruction → rejectCause true die w e = .undefinedInstruction
        ∧ (fieldClass w ≠ 6 → rejectCause false die w e = .undefinedInstruction))
    ∧ (e = .extension → rejectCause false die w e = .extensionEmulation
        ∧ rejectCause true die w e = if Config.isStream die then .extensionEmulation else .undefinedInstruction)
    ∧ (e = .reservedOperation → rejectCause true die w e = .illegalOperand
        ∧ (fieldClass w ≠ 6 → rejectCause false die w e = .illegalOperand)))

/-- At reset every register has the value the tables give, nothing runs, and memory is in its canonical form (R361, R357,
R132, R425, R433, R470, R113). -/
def Obligations.ResetValues : Prop :=
  (∀ p : FrameId, let f := State.reset.frame p
    f.status = 0 ∧ f.event = 0 ∧ f.evmask = 0x0000007F ∧ f.vec = 0 ∧ f.epc = 0 ∧ f.share = 4 ∧ f.wdog = 0x03E803E8
      ∧ f.slice = 0 ∧ f.timer = 0 ∧ f.engctl = 0 ∧ f.wrod = 0 ∧ f.fwfault = 0 ∧ f.asid = 0
      ∧ f.bk = Vector.replicate 4 0 ∧ f.fw = .stopped ∧ f.records = [] ∧ f.cache = [] ∧ f.tlb = []
      ∧ f.ve.entries = [] ∧ f.ce.entries = [] ∧ f.me.entries = [] ∧ f.eventPending = false
      ∧ State.reset.sysRead p 0x018 = 0 ∧ State.reset.sysRead p 0x019 = 0 ∧ State.reset.sysRead p 0x01A = 0
      ∧ (∃ r, State.reset.rod? (fwKey p) = some r ∧ r.liveMask = 1 ∧ r.fast = 4 ∧ r.slow = 0
          ∧ (∀ g, (r.lane 0).reg g = 0) ∧ (∀ q, q < 7 → (r.lane 0).pred q = false) ∧ (r.lane 0).pred 7 = true
          ∧ ∀ x, (r.lane 0).xreg x = 0)
      ∧ ∀ n, State.reset.rod? (rodKey p n) = none ∧ State.reset.team? { frame := p, slot := n } = none)
  ∧ (∀ d : Nat, (State.reset.die d).cache = [] ∧ (State.reset.die d).tlb = [] ∧ (State.reset.die d).phase = .running)
  ∧ (∀ k : Fin 8, let x := State.reset.hub.xl[k]
    x.lease = 0x000000C800020014 ∧ x.umva = 0 ∧ x.umlen = 0 ∧ x.umctl = 0 ∧ x.umstat = 0 ∧ x.umdone = 0
      ∧ x.umholders = 0 ∧ x.umseq = 0 ∧ x.mgctl = 0
      ∧ State.reset.hub.partitions[k].isDefined = decide (k.val = 0))
  ∧ State.reset.hub.queues = [] ∧ State.reset.hub.launches = [] ∧ State.reset.carry = []
  ∧ State.reset.mem.wf = true
  ∧ (let x := Lane.reset
    (∀ g, x.reg g = 0) ∧ (∀ q, q < 7 → x.pred q = false) ∧ x.pred 7 = true ∧ (∀ n, x.xreg n = 0) ∧ x.carryBits = 0)
  ∧ (let t := Team.reset
    (∀ n, (t.join n).mask = 0 ∧ (t.join n).pending = [])
      ∧ (∀ n, (t.queue n).tokens = [] ∧ (t.queue n).producer = 0 ∧ (t.queue n).consumer = 0)
      ∧ (∀ n, (t.barrier n).arrivals = 0)
      ∧ t.windows = Vector.replicate 16 { w0 := 0, w1 := 0 } ∧ (∀ a, cellGet t.fs a = 0) ∧ ∀ a, cellGet t.acc a = 0)

/-- Every step of the machine keeps the home's memory in its canonical form (R169). -/
def Obligations.StepKeepsMemoryCanonical : Prop :=
  ∀ s t : State, s.memoryWf → step s = .next t → t.memoryWf

/-- When the bytes at the program counter decode to an instruction, a step is that instruction's effect; a port selects the
oldest ready rod, a starved one first, and its sub-rods in rotation (R49, R50, R51, R52, R202, R219, R359, R361, R364). A
step's end forgets a stall that is over (R56, R66), and lets images show what has changed (log entry 84). -/
def Obligations.StepRunsDecodedWord : Prop :=
  (∀ (s s2 : State) (p : FrameId) (port : Nat) (rest : List Turn) (who : Issuer) (r : Rod) (f : Fetched),
    s.agenda = .issue p port :: rest → s.hub.powered = true → s.hub.recovery = false →
    ({ s with agenda := rest }.boundaries p).select p port = some who →
    (({ s with agenda := rest }.boundaries p).markIssued port who).rod? who.key = some r →
    (({ s with agenda := rest }.boundaries p).markIssued port who).fetch who.key r (r.lane who.lane).pc = (f, s2) →
    (∀ i, f = .instr i → step s = endStep (exec i { s2 with cur := some who }))
    ∧ (∀ c word addr, f = .fault c word addr → step s = endStep (.next (s2.fetchFault who c word addr))))
  ∧ (∀ (s s1 s2 : State) (p : FrameId) (rest : List Turn) (r : Rod) (f : Fetched),
    s.agenda = .firmware p :: rest → s.hub.powered = true → s.hub.recovery = false →
    s1 = { s with agenda := rest }.finishSave p → s1.firmwareMay p = true → s1.handlerDue p = false →
    (s1.markFirmware p).rod? (fwKey p) = some r → (s1.markFirmware p).fetch (fwKey p) r (r.lane 0).pc = (f, s2) →
    (∀ i, f = .instr i → step s = endStep (exec i { s2 with cur := some { key := fwKey p, lane := 0 } }))
    ∧ (∀ c word addr, f = .fault c word addr →
        step s = endStep (.next (s2.fetchFault { key := fwKey p, lane := 0 } c word addr))))
  ∧ (∀ (s s1 : State) (x : Turn) (rest : List Turn), s.agenda = x :: rest → s.hub.powered = true →
    s.hub.recovery = false → s1 = { s with agenda := rest } →
    (∀ i, x = .event i → encode i = none → step s = endStep (exec i s1))
    ∧ (∀ p pc, x = .codeAhead p pc → step s = endStep (.next (s1.holdCode p pc)))
    ∧ (∀ p e n k, x = .landByte p e n k → step s = endStep (.next (s1.landByte p e n k)))
    ∧ (∀ p late, x = .cycle p late → step s = endStep (.next ((s1.boundaries p).endCycle p late)))
    ∧ (∀ p n u, x = .evictFrame p n u → step s = endStep (.next (s1.evictFrame p n u)))
    ∧ (∀ d n u, x = .evictDie d n u → step s = endStep (.next (s1.evictDie d n u)))
    ∧ (∀ ns, x = .tick ns → step s = endStep (.next (s1.tick ns)))
    ∧ (∀ a, x = .outside a → step s = endStep (.next (s1.outside a))))
  ∧ (∀ t : State, endStep (.next t) = .next t.closeStep ∧ { t.noteHeads with frames := t.frames } = t
    ∧ (∀ p, { t.noteHeads.frame p with ve := (t.frame p).ve, ce := (t.frame p).ce, me := (t.frame p).me } = t.frame p
        ∧ ∀ e, ((t.noteHeads.frame p).engine e).entries = ((t.frame p).engine e).entries)
    -- what lies saved and has not changed keeps its images as they are
    ∧ t.closeStep.rods = t.rods ∧ t.closeStep.teams = t.teams ∧ t.closeStep.agenda = t.agenda ∧ t.closeStep.carry = t.carry
    ∧ (∀ p, (t.closeStep.frame p).stuckSince = if t.frameHeld p then (t.frame p).stuckSince else none)
    ∧ ((∀ p e, ((t.frame p).engine e).stalledSince = none) → (∀ p, (t.frame p).stuckSince = none ∨ t.frameHeld p = true) →
        (∀ p, (∀ v ∈ (t.frame p).savedRods, v.landed = [] ∧ v.drawn = []) ∧ ∀ v ∈ (t.frame p).savedTeams, v.slots = []) →
        t.closeStep = t))
  ∧ (∀ (s s1 s2 : State) (k : RodKey) (r : Rod) (pc : DWord) (x : Xlat) (b : List Byte),
    s.page { p := k.frame, asid := s.asidOf k r, va := pc.toNat } .execute = (.ok x, s1) →
    s1.readSeg k.frame (placeOf k.frame.die x.ord 0) (isUntracked x.ord) ((x.pa + (pc.toNat - x.va)) / 64)
      ((x.pa + (pc.toNat - x.va)) % 64) 8 = (none, b, s2) →
    breakpointAt (s2.frame k.frame) k pc = false →
    let w : DWord := BitVec.ofNat 64 (ofLe b)
    let older := (s2.frame k.frame).olderWords r.launch pc w
    (k.slot = .firmware ∨ older = [] → ∀ i, decode w = .ok i → s.fetch k r pc = (.instr i, s2))
    -- of code that was read ahead and has changed since, the word there or an older one (R234; log entry 80)
    ∧ (k.slot ≠ .firmware → older ≠ [] → ∃ s3, ∃ v ∈ w :: older, { s3 with free := s2.free } = s2
      ∧ ∀ i, decode v = .ok i → s.fetch k r pc = (.instr i, s3)))
  ∧ (∀ (s : State) (p : FrameId) (port : Nat),
    let ready := (s.readyRods p).filter (fun e => !e.2.1.taken)
    (s.select p port = none ↔ s.portOpen p port = false ∨ ready = [])
    ∧ ((s.frame p).ports.getLsbD port = true ∨ (port = 0 ∧ s.firmwareTaken p = true) ∨ Config.portsOf p.die ≤ port →
        s.portOpen p port = false)
    ∧ (∀ who, s.select p port = some who → (s.markIssued port who).portOpen p port = false
      ∧ ∃ e ∈ ready, who.key = rodKey p e.1 ∧ who.lane ∈ e.2.2
        ∧ (∀ d ∈ ready, (4096 ≤ d.2.1.unissued → 4096 ≤ e.2.1.unissued)
            ∧ ((4096 ≤ d.2.1.unissued ↔ 4096 ≤ e.2.1.unissued) → older (ageKey d.2.1) (ageKey e.2.1) = false))
        ∧ ((∃ l ∈ e.2.2, e.2.1.lastLane < l) →
            e.2.1.lastLane < who.lane ∧ ∀ l ∈ e.2.2, e.2.1.lastLane < l → who.lane ≤ l)
        ∧ ((∀ l ∈ e.2.2, l ≤ e.2.1.lastLane) → ∀ l ∈ e.2.2, who.lane ≤ l))
    ∧ (∀ late, port < Config.portsOf p.die → s.select p port ≠ none → s.endCycle p late = s))

/-- A word that fails a check parks every active lane of its sub-rod under one record, with no other effect (R219, R43,
R356, R365, R366, R437, R218). -/
def Obligations.WordChecksPark : Prop :=
  (∀ (i : Instr) (s : State) (p : FrameId) (slot l : Nat) (r : Rod) (c : Cause), (encode i).isSome = true →
    let k := rodKey p slot
    let m := r.subRod l
    s.cur = some { key := k, lane := l } → s.rod? k = some r → l < 32 → (r.lane l).st = .runnable →
    wordCause s k r i = some c →
    ∃ t q x, exec i s = .next t ∧ t.rod? k = some q
      ∧ (t.frame p).records = (s.frame p).records ++ [x] ∧ (t.frame p).recSeq = (s.frame p).recSeq + 1
      ∧ x.cause = c.code ∧ x.word = wordOf i ∧ x.lanes = m ∧ x.pc = (r.lane (lowest m)).pc ∧ x.addr = 0
      ∧ x.launch = r.launch ∧ x.slot = slot ∧ x.lane = lowest m ∧ x.seq = (s.frame p).recSeq ∧ x.queued = true
      ∧ x.withdrawn = false ∧ x.item0 = r.item0
      ∧ (∀ n : Fin 32, m.getLsbD n.val = true →
          { q.lanes[n] with group := r.lanes[n].group } =
            { r.lanes[n] with st := .parked, wait := .none, fence := none, record := some (s.frame p).recSeq })
      ∧ (∀ n : Fin 32, m.getLsbD n.val = false → q.lanes[n] = r.lanes[n])
      ∧ t.mem = s.mem ∧ t.teams = s.teams ∧ t.carry = s.carry ∧ t.hub = s.hub ∧ t.dies = s.dies)
  ∧ (∀ (i : Instr) (s : State) (p : FrameId) (slot : Nat) (r : Rod),
    let k := rodKey p slot
    (opClass i = 6 → wordCause s k r i = some .privileged)
    ∧ (opClass i = 7 → (guardOf i).map Guard.legal = some true → Config.isStream p.die = false →
        wordCause s k r i = some .extensionEmulation)
    ∧ (opClass i ≠ 6 → opClass i ≠ 7 → (guardOf i).map Guard.legal = some true → check5 i = false →
        wordCause s k r i = some .illegalOperand)
    ∧ (opClass i ≠ 6 → opClass i ≠ 7 → (guardOf i).map Guard.legal = some true → check5 i = true →
        wordCause s k r i =
          if check6 (s.recordOfLaunch r.launch).declared i = false
              ∨ slotUndeclared (s.recordOfLaunch r.launch).declared i = true then some .carryMisuse
          else none))

/-- Lanes whose operands fail park while the others complete, for every lane word; a fault of the firmware context stops it
(R43, R53, R115, R219, R358, R366, R367, R437). -/
def Obligations.OperandFaultsAndContextFaults : Prop :=
  (∀ (w : RWord) (s : State) (p : FrameId) (slot l : Nat) (r : Rod) (c : Cause) (bad : BitVec 32),
    let k := rodKey p slot
    let i : Instr := .iadd w
    let f : LaneIn → LaneWrite := integerWrite w.mod (RMod.u w.mod) (RMod.sat w.mod) (fun _ a b _ => a + b)
    IssuesFreely s k l r i → (planOf i).hasCarry = false → bad ≠ 0 →
    (∀ n : Fin 32, bad.getLsbD n.val = true ↔
      (r.subRod l).getLsbD n.val = true ∧ actsOn i r.lanes[n] = true
        ∧ (laneOperands r r.lanes[n] (planOf i)).isOk = false) →
    (∀ n : Fin 32, bad.getLsbD n.val = true → laneOperands r r.lanes[n] (planOf i) = .error c) →
    ∃ t q x, exec i s = .next t ∧ t.rod? k = some q ∧ (t.frame p).records = (s.frame p).records ++ [x]
      ∧ x.cause = c.code ∧ x.lanes = bad ∧ x.pc = (r.lane l).pc ∧ x.word = wordOf i ∧ x.addr = 0
      ∧ t.mem = s.mem ∧ t.teams = s.teams ∧ t.carry = s.carry ∧ t.hub = s.hub
      ∧ ∀ n : Fin 32, { q.lanes[n] with group := r.lanes[n].group } =
          if bad.getLsbD n.val then
            { r.lanes[n] with st := .parked, wait := .none, fence := none, record := some (s.frame p).recSeq }
          else if (r.subRod l).getLsbD n.val then
            (if actsOn i r.lanes[n] then written r (keyOf s r) i f n.val r.lanes[n] else r.lanes[n].advance)
          else r.lanes[n])
  ∧ (∀ w : RWord, ∀ e ∈ laneResults w, PlainWord e.1 e.2)
  ∧ (∀ w : IWord, ∀ e ∈ immediateResults w, PlainWord e.1 e.2)
  ∧ (∀ (i : Instr) (s : State) (p : FrameId) (r : Rod) (c : Cause), (encode i).isSome = true →
    s.cur = some { key := fwKey p, lane := 0 } → tableFind (fwKey p) s.rods = some r →
    r.subRod 0 = 1 → (r.lane 0).st = .runnable → wordCause s (fwKey p) r i = some c →
    exec i s = .next (((s.setFrame p { s.frame p with
        fw := .faulted
        status := (s.frame p).status ||| 2
        fwfault := ((r.lane 0).pc &&& ~~~0xFF#64) ||| c.code.setWidth 64 }).setRod (fwKey p)
          (r.setLane 0 { r.lane 0 with fence := none })).report (.contextFault p)))

/-- An engine command that issues enters the tail of its engine's queue with its captured operands (R300, R301, R63, R154,
R204, R209, R217). -/
def Obligations.CommandsEnterQueues : Prop :=
  ∀ (w : EWord) (q : EShape) (s : State) (p : FrameId) (slot l : Nat) (r : Rod) (t : Team) (i : Instr)
      (ops : DWord × DWord × DWord),
    let k := rodKey p slot
    let is := mkIssue k r i (r.subRod l)
    let cap := r.lane (lowest (r.subRod l))
    let e := engineOf (wordOf i)
    let c : Cmd :=
      { word := wordOf i, e0 := ops.1, e1 := ops.2.1, e2 := ops.2.2, st := .queued, teamSlot := r.teamSlot,
        team := r.team, launch := r.launch, ord := t.nextOrd, rod := r.rod, members := 1#32 <<< r.rod, item := cap.item,
        count := cap.rsCount, progress := 0, epoch := none, effect := { fs := [], acc := [], payload := 0 },
        window := { w0 := 0, w1 := 0 }, partials := [], fault := none }
    i ∈ [.vadd w, .vsub w, .vmul w, .vfma w, .vmin w, .vmax w, .vscl w, .vcvt w, .vmov w, .vfill w, .vcmp w, .vsel w,
      .vsum w, .vmaxr w, .vlogc w, .vexpc w, .vex2 w, .vsigm w, .vtanh w, .cpin w, .cpout w, .cpff w, .cp2d w, .cppl w,
      .cpacc w, .cpaci w, .cppeer w, .windef w, .winrel w, .aczero w, .mma w, .mscl w, .mchk w] →
    eShape i = some (w, q) → IssuesFreely s k l r i →
    (cap.guard w.g = false →
      exec i s = .next (s.setRod k (r.mapLanes (r.subRod l) (fun _ x => x.advance))))
    ∧ (cap.guard w.g = true → w.j = false → s.team? (teamKeyOf k r) = some t → s.queueClosed p e = false →
      capture is w q = .ok ops → operandCause s is t c = none → bindingsAdmit t e c = true →
      exec i s = .next ((((s.setRod k (r.mapLanes (r.subRod l) (fun n x =>
          if c.stochastic ∧ n.val = lowest (r.subRod l) then { x.advance with rsCount := x.rsCount + 1 }
          else x.advance))).setTeam (teamKeyOf k r) { t with nextOrd := t.nextOrd + 1 }).modFrame p (fun f =>
            f.setEngine e { f.engine e with entries := (f.engine e).entries ++ [c] }))))
    ∧ (capture is w q = .ok ops →
      (q.e0 = .pair → ops.1 = cap.pair w.e0.toNat) ∧ (q.e0 = .reg → ops.1 = (cap.reg w.e0.toNat).setWidth 64)
      ∧ (q.e1 = .pair → ops.2.1 = cap.pair w.e1.toNat) ∧ (q.e1 = .reg → ops.2.1 = (cap.reg w.e1.toNat).setWidth 64)
      ∧ (w.j = false → (q.e2 = .pair → ops.2.2 = cap.pair w.e2.toNat)
          ∧ (q.e2 = .reg → ops.2.2 = (cap.reg w.e2.toNat).setWidth 64)))

/-- A joined word signs its join register for the rod, and the last signature, of a sole member or of several, puts the
command in its queue with the lowest-index member's operands; that a count below the register's base is numbered from the
base is the model's choice (log entry 30), and that under .sat each rod's partial and then the combination is clamped is log
entry 63 (DEDUCED) (R60, R61, R63, R250, R249, R300). -/
def Obligations.JoinedWordsSign : Prop :=
  (∀ (w : EWord) (q : EShape) (s : State) (p : FrameId) (slot l : Nat) (r : Rod) (t : Team) (i : Instr)
      (ops : DWord × DWord × DWord),
    let k := rodKey p slot
    let tk := teamKeyOf k r
    let is := mkIssue k r i (r.subRod l)
    let cap := r.lane (lowest (r.subRod l))
    let n := w.e2.toNat
    let c := commandOf is ops
    let inst : Instance :=
      { word := wordOf i, e0 := ops.1, e1 := ops.2.1, e2 := ops.2.2, captured := some r.rod, item := cap.item,
        count := cap.rsCount, signed := 1#32 <<< r.rod, partials := [], last := r.rod, ord := t.nextOrd
        counted := capturing t n r || !c.stochastic }
    let draws := c.stochastic = true ∧ capturing t n r = true
    let r' : Rod :=
      { (r.mapLanes (r.subRod l) (fun a x =>
          if draws ∧ a.val = lowest (r.subRod l) then { x.advance with rsCount := x.rsCount + 1 }
          else x.advance)) with
        sigs := Vector.ofFn (fun j => if j.val = n then (t.join n).base + 1 else r.sigs[j]) }
    i ∈ [.cpin w, .cpout w, .cppl w, .mma w] → eShape i = some (w, q) → w.j = true → IssuesFreely s k l r i →
    cap.guard w.g = true → s.team? tk = some t → capture is w q = .ok ops → operandCause s is t c = none →
    s.queueClosed p (engineOf (wordOf i)) = false →
    (t.join n).mask.getLsbD r.rod = true → r.sigs.toList.getD n 0 ≤ (t.join n).base →
    ((t.join n).pending = [] → (t.join n).mask &&& ~~~((1#32 <<< r.rod) ||| t.absent) ≠ 0 →
      exec i s = .next ((s.setTeam tk { t.setJoin n { t.join n with pending := [inst] } with
        nextOrd := t.nextOrd + 1 }).setRod k r'))
    ∧ ((t.join n).pending = [] → (t.join n).mask = 1#32 <<< r.rod → t.absent.getLsbD r.rod = false →
        bindingsAdmit t (engineOf (wordOf i)) c = true → s.nothingWaits p →
      exec i s = .next ((((s.setTeam tk { t.setJoin n { t.join n with base := (t.join n).base + 1 } with
          nextOrd := t.nextOrd + 1 }).setRod k r').modFrame p (fun f =>
            let e := engineOf (wordOf i)
            f.setEngine e { f.engine e with entries := (f.engine e).entries ++
              [{ c with ord := t.nextOrd, team := t.number, launch := t.launch }] }))))
    -- the last of several members to sign: the operands of the lowest-index one are kept
    ∧ (∀ (old : Instance) (m : Nat),
        let kept : Cmd :=
          if r.rod < m then { c with partials := old.partials }
          else { c with word := old.word, e0 := old.e0, e1 := old.e1, e2 := old.e2, item := old.item, count := old.count
                        partials := old.partials }
        (t.join n).pending = [old] → fieldClass old.word = fieldClass (wordOf i) →
        fieldIndex old.word = fieldIndex (wordOf i) → old.captured = some m → old.counted = true → c.stochastic = false →
        (t.join n).mask &&& ~~~(old.signed ||| (1#32 <<< r.rod) ||| t.absent) = 0 →
        bindingsAdmit t (engineOf (wordOf i)) kept = true →
        (∀ e ∈ s.rods, e.1.frame = p → ∀ a : Fin 32, e.2.lanes[a].st ≠ .blocked) →
      exec i s = .next (((s.setTeam tk { t.setJoin n { t.join n with base := (t.join n).base + 1, pending := [] } with
          nextOrd := t.nextOrd + 1 }).setRod k r').modFrame p (fun f =>
            let e := engineOf (wordOf i)
            f.setEngine e { f.engine e with entries := (f.engine e).entries ++
              [{ kept with ord := old.ord, team := t.number, launch := t.launch, members := (t.join n).mask }] }))))
  ∧ (∀ (w : RWord) (s : State) (p : FrameId) (slot l : Nat) (r : Rod) (t : Team) (x : DWord),
    let k := rodKey p slot
    let tk := teamKeyOf k r
    let i : Instr := .rredJoined w
    let n := RMod.bits w.mod 8 4
    let on := r.subRod l &&& r.maskWhere (fun x => x.guard w.g)
    let cap := r.lane (lowest (r.subRod l))
    let opd (a : Nat) : Operands := (laneOperands r (r.lane a) (planOf i)).toOption.getD
      { dst := .none, a := .none, b := .none, c := .none }
    IssuesFreely s k l r i → (planOf i).hasCarry = false → OperandsHold r (r.subRod l) i → cap.guard w.g = true →
    let r' : Rod :=
      { (r.mapLanes (r.subRod l) (fun a y =>
          if y.guard w.g then
            { y with joined := [{ j := n, sig := t.nextOrd, dst := (opd a.val).dst.place, wide := RMod.w w.mod }]
                     pc := y.pc + 8 }
          else y.advance)) with
        sigs := Vector.ofFn (fun j => if j.val = n then (t.join n).base + 1 else r.sigs[j]) }
    let part : Partial := { rod := r.rod, value := x, lanes := on, sig := t.nextOrd }
    s.queueClosed p .ve = false → s.team? tk = some t → (t.join n).mask.getLsbD r.rod = true →
    r.sigs.toList.getD n 0 ≤ (t.join n).base →
    x = rredFn (RMod.bits w.mod 12 3) (RMod.w w.mod) (RMod.u w.mod) (RMod.sat w.mod)
      ((maskLanes on).map (fun a => (opd a).a.value (r.lane a) (fun _ => 0))) →
    ((t.join n).pending = [] → (t.join n).mask &&& ~~~((1#32 <<< r.rod) ||| t.absent) ≠ 0 →
      exec i s = .next ((s.setTeam tk { t.setJoin n { t.join n with pending :=
          [{ word := wordOf i, e0 := 0, e1 := 0, e2 := 0, captured := some r.rod, item := cap.item, count := cap.rsCount,
             signed := 1#32 <<< r.rod, last := r.rod, ord := t.nextOrd, counted := true, partials := [part] }] } with
          nextOrd := t.nextOrd + 1 }).setRod k r'))
    -- the only member: the reduction enters the vector engine's queue with the rod's partial result
    ∧ ((t.join n).pending = [] → (t.join n).mask = 1#32 <<< r.rod → t.absent.getLsbD r.rod = false →
        (∀ e ∈ s.rods, e.1.frame = p → ∀ a : Fin 32, e.2.lanes[a].st ≠ .blocked) →
      ∃ c : Cmd, c.word = wordOf i ∧ c.partials = [part] ∧ c.st = .queued ∧ c.members = (t.join n).mask
        ∧ c.ord = t.nextOrd ∧ c.rod = r.rod ∧ c.team = t.number ∧ c.launch = t.launch ∧ c.teamSlot = r.teamSlot
        ∧ reduceResult c = rredFn (RMod.bits w.mod 12 3) (RMod.w w.mod) (RMod.u w.mod) (RMod.sat w.mod) [x]
        ∧ exec i s = .next (((s.setTeam tk { t.setJoin n { t.join n with base := (t.join n).base + 1 } with
              nextOrd := t.nextOrd + 1 }).setRod k r').modFrame p (fun f =>
              f.setEngine .ve { f.engine .ve with entries := (f.engine .ve).entries ++ [c] })))
    -- the last of several members: the reduction enters the vector engine's queue with every rod's partial result
    ∧ (∀ (old : Instance) (m : Nat),
        let word := if r.rod < m then wordOf i else old.word
        (t.join n).pending = [old] → fieldClass old.word = 0 → fieldIndex old.word = fieldIndex (wordOf i) →
        old.word.extractLsb' 12 3 = (wordOf i).extractLsb' 12 3 → old.captured = some m → old.counted = true →
        (t.join n).mask &&& ~~~(old.signed ||| (1#32 <<< r.rod) ||| t.absent) = 0 →
        (∀ e ∈ s.rods, e.1.frame = p → ∀ a : Fin 32, e.2.lanes[a].st ≠ .blocked) →
      ∃ c : Cmd, c.word = word ∧ c.partials = old.partials ++ [part] ∧ c.st = .queued ∧ c.members = (t.join n).mask
        ∧ c.ord = old.ord ∧ c.rod = r.rod ∧ c.team = t.number ∧ c.launch = t.launch ∧ c.teamSlot = r.teamSlot
        ∧ reduceResult c = rredFn (RMod.bits (Sys2Proof.rword word).mod 12 3) (RMod.w (Sys2Proof.rword word).mod)
            (RMod.u (Sys2Proof.rword word).mod) (RMod.sat (Sys2Proof.rword word).mod)
            ((List.range 32).filterMap (fun q => ((old.partials ++ [part]).find? (fun y => y.rod == q)).map Partial.value))
        ∧ exec i s = .next (((s.setTeam tk
            { t.setJoin n { t.join n with base := (t.join n).base + 1, pending := [] } with
              nextOrd := t.nextOrd + 1 }).setRod k r').modFrame p (fun f =>
              f.setEngine .ve { f.engine .ve with entries := (f.engine .ve).entries ++ [c] }))))

/-- ACRES reserves rows that are free or already the rod's, or waits; ACREL releases the rod's rows, which stay reserved while
an earlier command still names one of them (R323, R55, R300, R301). -/
def Obligations.AccumulatorRows : Prop :=
  ∀ (w : EWord) (s : State) (p : FrameId) (slot l : Nat) (r : Rod) (t : Team) (i : Instr),
    let k := rodKey p slot
    let tk := teamKeyOf k r
    let cap := r.lane (lowest (r.subRod l))
    let a := (cap.reg w.e0.toNat).toNat
    let n := (cap.reg w.e1.toNat).toNat
    let own := ownRows s tk r
    let next := r.mapLanes (r.subRod l) (fun _ x => x.advance)
    IssuesFreely s k l r i → s.team? tk = some t → cap.guard w.g = true → r.holds w.e0.toNat = true →
    r.holds w.e1.toNat = true → a + n ≤ t.accRows →
    (i = .acres w → 0 < n → (∀ x, a ≤ x → x < a + n → x ∈ own ∨ s.rowFree tk x = true) →
      (s.frame p).olderWaits (ageKey r) = false ∨ (∀ x, a ≤ x → x < a + n → x ∈ own) →
      exec i s = .next (s.setRod k { next with
        rows := r.rows ++ (List.range' a n).filter (fun x => !r.rows.contains x) }))
    ∧ (i = .acres w → 0 < n →
        (∃ x, a ≤ x ∧ x < a + n ∧ x ∉ own ∧ (s.rowFree tk x = false ∨ (s.frame p).olderWaits (ageKey r) = true)) →
      exec i s = .next ((s.setRod k ((r.mapLanes (r.subRod l) (fun _ x =>
          if x.guard w.g then { x with st := .blocked, wait := .acres a n } else x.advance)).regroup
            (r.subRod l))).modFrame p (fun f => { f with requests := f.requests ++
              [{ launch := r.launch, item0 := r.item0.toNat, kind := .acres slot (lowest (r.subRod l)) a n }] })))
    ∧ (i = .acrel w → 0 < n → t.releasing = [] → s.rowsBusy tk (List.range' a n) t.nextOrd = false →
      s.memberSlot tk r.rod = some slot →
      exec i s = .next (s.setRod k { next with rows := r.rows.filter (fun x => !(decide (a ≤ x ∧ x < a + n))) }))
    ∧ (let rows := own.filter (fun x => decide (a ≤ x) && decide (x < a + n))
       i = .acrel w → 0 < n → t.releasing = [] → rows ≠ [] → s.rowsBusy tk rows t.nextOrd = true →
      exec i s = .next ((s.setTeam tk { t with releasing := [(r.rod, rows, t.nextOrd)] }).setRod k next))
    ∧ (i = .acres w ∨ i = .acrel w → n = 0 →
      ∃ u q x, exec i s = .next u ∧ u.rod? k = some q ∧ (u.frame p).records = (s.frame p).records ++ [x]
        ∧ x.cause = 0x03 ∧ x.lanes = r.subRod l &&& r.maskWhere (fun x => x.guard w.g) ∧ u.teams = s.teams)

/-- A command starts when its tokens and its turn are there, takes its tokens, and reserves its slot; a start that is not due
leaves the state unchanged (log entry 4) (R64, R302, R303, R322, R443, R361). -/
def Obligations.CommandsStart : Prop :=
  (∀ (s : State) (p : FrameId) (e : EngineId), s.startable p e = none →
    exec (.engineCommandStart p e) s = .next s)
  ∧ (∀ (s s1 : State) (p : FrameId) (e : EngineId) (n : Nat) (c : Cmd) (t : Team) (ef : Effect),
    let tk := cmdTeam p c
    s.startable p e = some (n, c) → s.team? tk = some t → s.nothingWaits p →
    issueCheck p.die ((s.recordOfLaunch c.launch).teams) t c = none →
    (s.startCheck tk t c = .go → (c.isReduce = true ∨ c.index ≠ 0x27) → s.effectOf t c = (ef, s1) →
      exec (.engineCommandStart p e) s = .next ((s1.setTeam tk (windowEffect (takeTokens t c) c)).modEngine p e (fun q =>
        { entries := q.entries.set n
            { c with st := .running, effect := ef, epoch := none, window := t.window (c.e0.extractLsb' 0 4).toNat }
          stalledSince := none })))
    ∧ (((s.frame p).engine e).entries[n]? = some c ∧ c.started = false
      ∧ (∀ m d, m < n → ((s.frame p).engine e).entries[m]? = some d → d.started = true)
      ∧ (∀ q ∈ c.consumes, (t.queue q).tokens ≠ [])
      ∧ (∀ q, c.produces = some q → (t.queue q).tokens.length + (t.queue q).reserved < 16)
      ∧ (s.frame p).engctl.getLsbD (EngineId.num e) = false
      ∧ (∀ d ∈ ((s.frame p).engine e).entries, d.st ≠ .stopped) ∧ s.startCheck tk t c ≠ .wait)
    ∧ (∀ (cause : Cause) (slot : Nat) (r : Rod), s.startCheck tk t c = .fault cause →
        c.rod ∈ t.unretired → c.rod < t.started → s.memberSlot tk c.rod = some slot → s.rod? (rodKey p slot) = some r →
      exec (.engineCommandStart p e) s = .next ((s.modEngine p e (fun q =>
          { q with entries := q.entries.eraseIdx n })).setRod (rodKey p slot)
        { r with engineFaults := r.engineFaults ++
            [{ cause := .engineCommandFault, orig := some cause.code, word := c.word, addr := 0, progress := c.progress,
               engine := e }] })))
  ∧ (∀ (t : Team) (c : Cmd) (n : Nat), c.consumes.Nodup → n < 16 →
    ((takeTokens t c).queue n).tokens = (if n ∈ c.consumes then (t.queue n).tokens.drop 1 else (t.queue n).tokens)
    ∧ ((takeTokens t c).queue n).reserved = (t.queue n).reserved + (if c.produces = some n then 1 else 0)
    ∧ { takeTokens t c with queues := t.queues } = t)
  ∧ (∀ (t : Team) (c : Cmd) (m : Nat), c.isReduce = false → m < 16 →
    let n := (c.e0.extractLsb' 0 4).toNat
    (c.index = 0x40 → (windowEffect t c).window m =
      if m = n then { w0 := c.e1 ||| 0x8000000000000000#64, w1 := c.e2 } else t.window m)
    ∧ (c.index = 0x41 → (windowEffect t c).window m = if m = n then { w0 := 0, w1 := 0 } else t.window m))

/-- A running command finishes with its effect, leaves its queue, and its token arrives in its slot; that the effect and a
reaching copy's accesses happen at the finish is log entry 6, that a finish not due leaves the state unchanged log entry 4
(R302, R64, R305, R313, R444). -/
def Obligations.CommandsFinish : Prop :=
  (∀ (s : State) (p : FrameId) (e : EngineId) (n : Nat) (c : Cmd) (t : Team),
    let tk := cmdTeam p c
    let placed (v : Word) (t : Team) : Team :=
      match c.produces with
      | some q => t.setQueue q { t.queue q with tokens := (t.queue q).tokens ++ [v], reserved := (t.queue q).reserved - 1 }
      | none => t
    s.entry? p e n = some c → s.team? tk = some t → c.isReduce = false →
    (c.st = .running → (s.frame p).engctl.getLsbD (8 + EngineId.num e) = false → s.nothingWaits p →
      (c.reaching = false →
        exec (.engineCommandFinish p e n) s = .next ((s.setTeam tk (placed c.effect.payload
          { t.engineWrite c.effect.fs with acc := cellsPut t.acc c.effect.acc })).modEngine p e (fun q =>
            { q with entries := q.entries.eraseIdx n })))
      ∧ (c.reaching = true → (c.index = 0x27 → s.peerAway c = false ∧ c.e2.getLsbD 4 = false) →
        (s.reach p t c).fault = none → (s.reach p t c).s.nothingWaits p →
        exec (.engineCommandFinish p e n) s = .next (((s.reach p t c).s.modTeam tk (placed (s.reach p t c).payload)).modEngine p e
          (fun q => { q with entries := q.entries.eraseIdx n }))))
    ∧ (c.st ≠ .running ∨ (s.frame p).engctl.getLsbD (8 + EngineId.num e) = true →
      exec (.engineCommandFinish p e n) s = .next s))
  -- a joined reduction gives its result to every rod that took part (R250)
  ∧ (∀ (s : State) (p : FrameId) (e : EngineId) (n : Nat) (c : Cmd) (t : Team) (slot : Partial → Nat) (r : Partial → Rod),
    s.entry? p e n = some c → s.team? (cmdTeam p c) = some t → c.isReduce = true → c.st = .running →
    (s.frame p).engctl.getLsbD (8 + EngineId.num e) = false → s.nothingWaits p → (c.partials.map Partial.rod).Nodup →
    (∀ q ∈ c.partials, s.memberSlot (cmdTeam p c) q.rod = some (slot q) ∧ s.rod? (rodKey p (slot q)) = some (r q)
      ∧ ∀ a : Fin 32, ∀ x ∈ (r q).lanes[a].joined, x.dst < 248) →
    ∃ u, exec (.engineCommandFinish p e n) s = .next u
      ∧ ((u.frame p).engine e).entries = ((s.frame p).engine e).entries.eraseIdx n ∧ u.mem = s.mem
      ∧ ∀ q ∈ c.partials, u.rod? (rodKey p (slot q)) =
          some ((r q).endReduce (RMod.bits (Sys2Proof.rword c.word).mod 8 4) q (some (reduceResult c))))
  ∧ (∀ (s s1 : State) (p : FrameId) (t : Team) (c : Cmd) (b : List Byte),
    c.index = 0x20 → c.progress = 0 → s.team? (cmdTeam p c) = some t → s1.team? (cmdTeam p c) = some t →
    State.readGlobal p (((s.launch? c.launch).map Launch.asid).getD 0) (hi32 c.e0 + 1) c.e1.toNat (hi32 c.e0)
      (s.engineView t).2 = (b, none, s1) →
    (s.reach p t c).fault = none ∧ (s.reach p t c).progress = b.length
      ∧ (s.reach p t c).s =
          s1.setTeam (cmdTeam p c) (t.engineWrite (b.zipIdx.map (fun e => (lo32 c.e0 + e.2, e.1)))))
  ∧ (∀ (s : State) (t : Team) (l : List (Nat × Byte)),
    { t.engineWrite l with unseen := t.unseen } = { t with fs := cellsPut t.fs l }
      ∧ (∀ u ∈ (t.engineWrite l).unseen, u ∈ t.unseen ∧ ∀ e ∈ l, e.1 ≠ u.addr)
      ∧ { (s.engineView t).2 with free := s.free } = s
      ∧ ∀ a, cellGet (s.engineView t).1 a = cellGet t.fs a
          ∨ ∃ u ∈ t.unseen, u.addr = a ∧ cellGet (s.engineView t).1 a = u.old)

/-- Every vector, matrix and copy command writes what its entry says where its regions, block or rows stand, and nowhere else
(R305, R307 to R311, R313 to R319, R325, R326, R328, R329, R159, R161). Bytes that a window's scales share with its other parts,
or that a CPPEER onto its own bytes writes, hold free values; a VCVT source of another element size is no exact alias of the
destination by log entry 66, and the effect is computed as the command starts by log entry 6. -/
def Obligations.EngineEffects : Prop :=
  (∀ (s s1 : State) (t : Team) (c : Cmd) (ef : Effect),
    let q := vectorShape c
    let d := q.dst.1
    let e := q.dst.2
    let fs := (s.engineView t).1
    let new := cellsPut t.fs ef.fs
    let r (j : Nat) : Rounding := c.rounding ((s.recordOfLaunch c.launch).key) j
    let exact : Rounding := { mode := 0, d := 0, ftz := c.ftz }
    let fp (v : Nat) : Machine.Num := fp32Fmt.decode c.ftz v
    let put (j : Nat) (v : Machine.Num) : Nat := fp32Fmt.put .ieee (r j) v
    let code := vcvtCodes c.e2
    let ea := if c.index = 0x07 then elemBytes code.1 else 4
    let a (j : Nat) : Nat := readElem fs ((regionOf c.e1).at ea j) ea
    let b (j : Nat) : Nat := readElem fs ((regionOf c.e2).at 4 j) 4
    let max? (big : Bool) (x y : Machine.Num) : Machine.Num := if c.flag4 then x.minMaxNumber big y else x.minMax big y
    let value (j a b d : Nat) : Nat :=
      match c.index with
      | 0x00 => put j (sumNum c.mode [fp a, fp b])
      | 0x01 => put j (sumNum c.mode [fp a, (fp b).negate])
      | 0x02 => put j ((fp a).mul (fp b))
      | 0x03 => put j (sumNum c.mode [(fp a).mul (fp b), fp d])
      | 0x04 => fp32Fmt.put .ieee exact (max? false (fp a) (fp b))
      | 0x05 => fp32Fmt.put .ieee exact (max? true (fp a) (fp b))
      | 0x06 => put j ((fp a).mul (fp (lo32 c.e2)))
      | 0x07 => convert code.2 code.1 (r j) (c.flag4 && isFloatCode code.2) (c.flag4 && isIntCode code.2) c.ftz a % 2 ^ (8 * e)
      | 0x08 => a
      | 0x09 => lo32 c.e1
      | 0x0A => if condFloat c.mode (fp a) (fp b) then 1 else 0
      | 0x0B => if b = 0 then d else a
      | 0x0E => (logc (r j) (BitVec.ofNat 32 a)).toNat
      | 0x0F => (expc (r j) (BitVec.ofNat 32 a)).toNat
      | 0x10 => (Func.apply .exp2 (r j) (BitVec.ofNat 32 a)).toNat
      | 0x11 => (Func.apply .sigm (r j) (BitVec.ofNat 32 a)).toNat
      | _ => (Func.apply .tanh (r j) (BitVec.ofNat 32 a)).toNat
    let same (v : DWord) : Bool := (regionOf v).base == d.base && ea == e
    c.isReduce = false → engineOf c.word = .ve → c.index ≤ 0x12 → (c.index = 0x07 → vcvtOk (Cmd.eword c) c.e2 = true) →
    (∀ j, j < q.n → 0 ≤ d.at e j) → s.effectOf t c = (ef, s1) →
    (c.index ≠ 0x0C → c.index ≠ 0x0D → ef.payload = 0
      ∧ (vectorOverlaps q = false → d.stride ≠ 0 → ∀ j, j < q.n → (c.index = 0x0B → b j ≠ 0) →
        readElem new (d.at e j) e = value j (a j) (b j) (readElem fs (d.at e j) e))
      ∧ (vectorOverlaps q = false → d.stride ≠ 0 → c.index = 0x0B → ∀ j, j < q.n → b j = 0 →
        readElem new (d.at e j) e = readElem t.fs (d.at e j) e)
      -- with a stride of 0 every element stands in one place, written in ascending order
      ∧ (vectorOverlaps q = false → d.stride = 0 → t.unseen = [] →
        readElem new d.base e = (List.range q.n).foldl (fun v j =>
          value j (if same c.e1 && (regionOf c.e1).stride == 0 then v else a j)
            (if same c.e2 && (regionOf c.e2).stride == 0 then v else b j) v) (readElem t.fs d.base e)))
    ∧ (c.index = 0x0C ∨ c.index = 0x0D → q.n ≤ 1 →
      let xs := (List.range (regionOf c.e1).count).map (fun j => fp (a j))
      (c.index = 0x0C → ef.payload.toNat = if xs = [] then 0 else put 0 (sumNum c.mode xs))
      ∧ (c.index = 0x0D → ef.payload.toNat = if xs = [] then 0xFF800000
          else fp32Fmt.put .ieee exact (xs.tail.foldl (max? true) (xs.headD .nan)))
      ∧ (vectorOverlaps q = false → q.n = 1 → readElem new d.base 4 = ef.payload.toNat))
    ∧ (∀ x, (∀ j, j < q.n → ∀ k, k < e → x ≠ (d.at e j).toNat + k) → cellGet new x = cellGet t.fs x)
    ∧ ef.acc = [] ∧ { s1 with free := s.free } = s)
  ∧ (∀ (s s1 : State) (t : Team) (c : Cmd) (ef : Effect),
    let q := tileOf c.e0
    let wa := t.window q.wa
    let wb := t.window q.wb
    let at' (i j : Nat) : Nat := (lo32 c.e1 + i) * t.accCols + (hi32 c.e1 + j)
    let new := cellsPut t.acc ef.acc
    c.isReduce = false → engineOf c.word = .me → c.index = 0x45 → hi32 c.e1 + q.n ≤ t.accCols → s.effectOf t c = (ef, s1) →
    (∃ fs : Cells 8,
      let prod (i j k : Nat) : Machine.Num := (wa.value fs (q.a0 + i) k c.ftz).mul (wb.value fs (q.b0 + j) k c.ftz)
      (∀ x, cellGet fs x = cellGet (s.engineView t).1 x
        ∨ (wa.shared.1 ≤ x ∧ x < wa.shared.1 + wa.shared.2) ∨ (wb.shared.1 ≤ x ∧ x < wb.shared.1 + wb.shared.2))
      ∧ ∀ i j, i < q.m → j < q.n → cellGet new (at' i j) = (List.range wa.groups).foldl (fun acc g =>
          if q.isInt then
            let v := acc.toInt + ((List.range 16).map (fun k => (prod i j (16 * g + k)).toInt)).sum
            BitVec.ofInt 32 (if c.flag4 then max (-(2 : Int) ^ 31) (min ((2 : Int) ^ 31 - 1) v) else v)
          else
            BitVec.ofNat 32 (fp32Fmt.put .ieee
              { mode := c.mode, ftz := c.ftz
                d := if c.mode = 5 then engineDraw ((s.recordOfLaunch c.launch).key) c.item c.count.toNat
                  (g * 2 ^ 17 + i * 2 ^ 7 + j) else 0 }
              (sumNum c.mode (fp32Fmt.decode c.ftz acc.toNat :: (List.range 16).map (fun k => prod i j (16 * g + k))))))
          (cellGet t.acc (at' i j)))
    ∧ (∀ x, (∀ i j, i < q.m → j < q.n → x ≠ at' i j) → cellGet new x = cellGet t.acc x) ∧ ef.fs = [] ∧ ef.payload = 0
    ∧ { s1 with free := s.free } = s)
  ∧ (∀ (s s1 : State) (t : Team) (c : Cmd) (ef : Effect),
    let q := shapeOf c.e1
    let at' (i j : Nat) : Nat := (lo32 c.e0 + i) * t.accCols + (hi32 c.e0 + j)
    let new := cellsPut t.acc ef.acc
    let cells := (List.range q.rows).flatMap (fun i => (List.range q.cols).map (fun j => cellGet t.acc (at' i j)))
    let count (p : Word → Bool) : Nat := (cells.filter p).length
    let flag (p : Word → Bool) (n : Nat) : Nat := if cells.any p then 2 ^ n else 0
    let num (v : Word) : Machine.Num := fp32Fmt.decode false v.toNat
    c.isReduce = false → engineOf c.word = .me → s.effectOf t c = (ef, s1) →
    (c.index = 0x44 → (∀ i j, i < q.rows → j < q.cols → cellGet new (at' i j) = 0) ∧ ef.payload = 0)
    ∧ (c.index = 0x46 → hi32 c.e0 + q.cols ≤ t.accCols → (∀ i j, i < q.rows → j < q.cols →
        cellGet new (at' i j) = BitVec.ofNat 32 (fp32Fmt.put .ieee
          { mode := c.mode, ftz := c.ftz
            d := if c.mode = 5 then engineDraw ((s.recordOfLaunch c.launch).key) c.item c.count.toNat (i * 2 ^ 7 + j) else 0 }
          ((fp32Fmt.decode c.ftz (cellGet t.acc (at' i j)).toNat).mul (fp32Fmt.decode c.ftz (lo32 c.e2))))) ∧ ef.payload = 0)
    ∧ (c.index = 0x47 → new = t.acc ∧ ((Cmd.eword c).cmod.getLsbD 0 = true → ef.payload.toNat =
          min (count (fun v => v == 0x80000000#32 || v == 0x7FFFFFFF#32)) 0xFFFF
            + flag (fun v => v == 0x80000000#32) 16 + flag (fun v => v == 0x7FFFFFFF#32) 17)
        ∧ ((Cmd.eword c).cmod.getLsbD 0 = false → ef.payload.toNat =
          min (count (fun v => (num v).isNan || (num v).isInf)) 0xFFFF + flag (fun v => (num v).isNan) 16
            + flag (fun v => v == 0x7F800000#32) 17 + flag (fun v => v == 0xFF800000#32) 18
            + flag (fun v => v &&& 0x7F800000#32 == 0#32 && v &&& 0x7FFFFF#32 != 0#32) 19))
    ∧ (c.index = 0x44 ∨ c.index = 0x46 ∨ c.index = 0x47 → ef.fs = []
      ∧ (∀ x, (∀ i j, i < q.rows → j < q.cols → x ≠ at' i j) → cellGet new x = cellGet t.acc x)
      ∧ { s1 with free := s.free } = s))
  -- CPACC and CPACI
  ∧ (∀ (s s1 : State) (t : Team) (c : Cmd) (ef : Effect),
    let q := shapeOf c.e2
    let e := elemBytes q.fmt
    let f := lo32 c.e0
    let at' (i j : Nat) : Nat := (lo32 c.e1 + i) * t.accCols + (hi32 c.e1 + j)
    let place (i j : Nat) : Nat := f + (i * q.cols + j) * e
    c.isReduce = false → engineOf c.word = .ce → s.effectOf t c = (ef, s1) →
    (c.index = 0x25 → q.fmt ∈ [1, 11, 3, 4, 12, 14] →
      let new := cellsPut t.fs ef.fs
      (∀ i j, i < q.rows → j < q.cols →
        let v := (cellGet t.acc (at' i j)).toNat
        ofLe (cellsRead new (place i j) e) =
          if q.fmt = 1 ∨ q.fmt = 11 then v
          else if q.fmt = 3 ∨ q.fmt = 4 then
            convert q.fmt 1 (c.rounding ((s.recordOfLaunch c.launch).key) (i * q.cols + j)) c.flag4 false c.ftz v % 2 ^ 16
          else convert q.fmt 11 { mode := 0, d := 0, ftz := false } false c.flag4 false v)
      ∧ (∀ x, x < f ∨ f + q.rows * q.cols * e ≤ x → cellGet new x = cellGet t.fs x) ∧ ef.acc = [])
    ∧ (c.index = 0x26 → hi32 c.e1 + q.cols ≤ t.accCols → q.fmt = 1 ∨ q.fmt = 11 →
      let new := cellsPut t.acc ef.acc
      (∀ i j, i < q.rows → j < q.cols → (cellGet new (at' i j)).toNat = ofLe (cellsRead (s.engineView t).1 (place i j) 4))
      ∧ (∀ x, (∀ i j, i < q.rows → j < q.cols → x ≠ at' i j) → cellGet new x = cellGet t.acc x) ∧ ef.fs = [])
    ∧ (c.index = 0x25 ∨ c.index = 0x26 → ef.payload = 0 ∧ { s1 with free := s.free } = s))
  -- copies between the frame store and global memory: bytes, elements, rows
  ∧ (∀ (s : State) (p : FrameId) (t : Team) (c : Cmd),
    let x := s.reach p t c
    let tk := cmdTeam p c
    let asid := ((s.launch? c.launch).map Launch.asid).getD 0
    let fs := (s.engineView t).1
    let s0 := (s.engineView t).2
    let put (a : Nat) (b : List Byte) (s : State) : State :=
      s.modTeam tk (fun t => t.engineWrite (b.zipIdx.map (fun e => (a + e.2, e.1))))
    let row := hi32 c.e0 % 2 ^ 16
    let far (r : Nat) : Nat := (BitVec.ofInt 64 ((c.e1.toNat : Int) + (r : Int) * (c.e2.extractLsb' 0 32).toInt)).toNat
    let sz := 2 ^ c.mode
    (c.index = 0x20 → ∀ b e s1, State.readGlobal p asid (hi32 c.e0 - c.progress + 1) (c.e1.toNat + c.progress)
        (hi32 c.e0 - c.progress) s0 = (b, e, s1) →
      x.s = put (lo32 c.e0 + c.progress) b s1 ∧ x.progress = c.progress + b.length ∧ x.payload = 0 ∧ x.fault = e)
    ∧ (c.index = 0x21 → ∀ n e s1, State.writeGlobal p asid (hi32 c.e0 - c.progress + 1) (c.e1.toNat + c.progress)
        (cellsRead fs (lo32 c.e0 + c.progress) (hi32 c.e0 - c.progress)) s0 = (n, e, s1) →
      x.s = s1 ∧ x.progress = c.progress + n ∧ x.payload = 0 ∧ x.fault = e)
    ∧ (c.index = 0x22 → ∃ run : Nat → State → Reach, x = run c.progress s0
      ∧ (∀ k s, hi32 c.e0 ≤ k → (run k s).s = s ∧ (run k s).progress = k ∧ (run k s).payload = BitVec.ofNat 32 k
        ∧ (run k s).fault = none)
      ∧ ∀ k s, k < hi32 c.e0 →
        let v := (c.e1.toNat + k * sz) % 2 ^ 64
        (∀ e s1, s.pages p asid .read (pageStarts v sz) = (.error e, s1) →
          (run k s).s = s1 ∧ (run k s).progress = k ∧ (run k s).payload = BitVec.ofNat 32 k
          ∧ (run k s).fault = if e = .notPresent ∨ e = .permission ∨ e = .orderingReserved then none else some (e, v))
        ∧ (∀ l s1 b e s2, s.pages p asid .read (pageStarts v sz) = (.ok l, s1) →
          State.readGlobal p asid (sz + 1) v sz s1 = (b, some e, s2) →
          (run k s).s = s2 ∧ (run k s).progress = k ∧ (run k s).fault = some e)
        ∧ (∀ l s1 b s2, s.pages p asid .read (pageStarts v sz) = (.ok l, s1) →
          State.readGlobal p asid (sz + 1) v sz s1 = (b, none, s2) →
          run k s = run (k + 1) (put (lo32 c.e0 + k * sz) b s2)))
    ∧ (c.index = 0x23 → row ≠ 0 → ∃ run : Nat → State → Reach, x = run c.progress s0
      ∧ (∀ k s, hi32 c.e0 / 2 ^ 16 ≤ k → (run k s).s = s ∧ (run k s).progress = k ∧ (run k s).payload = 0
        ∧ (run k s).fault = none)
      ∧ ∀ k s, k < hi32 c.e0 / 2 ^ 16 →
        let f := lo32 c.e0 + k * row
        ((Cmd.eword c).cmod.getLsbD 0 = false → ∀ b e s1, State.readGlobal p asid (row + 1) (far k) row s = (b, e, s1) →
          (e = none → run k s = run (k + 1) (put f b s1))
          ∧ (e ≠ none → (run k s).s = s1 ∧ (run k s).progress = k ∧ (run k s).fault = e))
        ∧ ((Cmd.eword c).cmod.getLsbD 0 = true → ∀ n e s1,
          State.writeGlobal p asid (row + 1) (far k) (cellsRead fs f row) s = (n, e, s1) →
          (e = none → run k s = run (k + 1) s1)
          ∧ (e ≠ none → (run k s).s = s1 ∧ (run k s).progress = k ∧ (run k s).fault = e)))
    ∧ (c.index = 0x23 → row = 0 → x.s = s0 ∧ x.payload = 0 ∧ x.fault = none)
    -- CPPL: row positions ascending, those at or above the rows with the all-zero encoding
    ∧ (c.index = 0x24 →
      let w := c.window
      let pitch := if (Cmd.eword c).j || lo32 c.e2 = 0 then w.rowBytes else lo32 c.e2
      let write (k : Nat) (split : Nat → Nat × Nat) (s : State) : State :=
        s.modTeam tk (fun t => t.engineWrite (w.rowWrites split k))
      ∃ run : Nat → State → Reach, x = run c.progress s0
      ∧ (∀ k s, w.rowBlocks * 128 ≤ k → (run k s).s = s ∧ (run k s).progress = k ∧ (run k s).payload = 0
        ∧ (run k s).fault = none)
      ∧ ∀ k s, k < w.rowBlocks * 128 →
        (w.rows ≤ k → run k s = run (k + 1) (write k (fun _ => (0, 0)) s))
        ∧ (k < w.rows → ∀ b e s1,
          State.readGlobal p asid (w.rowBytes + 1) ((c.e1.toNat + k * pitch) % 2 ^ 64) w.rowBytes s = (b, e, s1) →
          (e = none → run k s = run (k + 1) (write k (fun n => splitElem w.fmt c.mode
            (if c.mode = 5 then engineDraw ((s0.recordOfLaunch c.launch).key) c.item c.count.toNat (k * w.k + n) else 0)
            (packedElem w.fmt b n)) s1))
          ∧ (e ≠ none → (run k s).s = s1 ∧ (run k s).progress = k ∧ (run k s).fault = e))))
  -- the global side, sector by sector, as the team's weak accesses
  ∧ (∀ (p : FrameId) (asid fuel va n : Nat) (b : List Byte) (s s1 s2 : State) (y : Xlat),
    let k (n : Nat) : Nat := min n (64 - va % 64)
    let pa := y.pa + (va - y.va)
    let at' (need : Need) : Except Cause Xlat × State := s.page { p := p, asid := asid, va := va } need
    (0 < n → at' .read = (.ok y, s1) → ∀ g l e s3,
      s1.readSeg p (placeOf p.die y.ord 0) (isUntracked y.ord) (pa / 64) (pa % 64) (k n) = (none, g, s2) →
      State.readGlobal p asid fuel ((va + k n) % 2 ^ 64) (n - k n) s2 = (l, e, s3) →
      State.readGlobal p asid (fuel + 1) va n s = (g ++ l, e, s3))
    ∧ (b ≠ [] → at' .write = (.ok y, s1) → ∀ m e s3,
      s1.writeSeg p (placeOf p.die y.ord 0) true (isUntracked y.ord) (pa / 64) (pa % 64) (b.take (k b.length)) = (none, s2) →
      State.writeGlobal p asid fuel ((va + k b.length) % 2 ^ 64) (b.drop (k b.length)) s2 = (m, e, s3) →
      State.writeGlobal p asid (fuel + 1) va b s = (k b.length + m, e, s3))
    ∧ (∀ c, 0 < n → at' .read = (.error c, s1) → State.readGlobal p asid (fuel + 1) va n s = ([], some (c, va), s1))
    ∧ (∀ c, b ≠ [] → at' .write = (.error c, s1) → State.writeGlobal p asid (fuel + 1) va b s = (0, some (c, va), s1)))
  ∧ (∀ (w : Window) (split : Nat → Nat × Nat) (row k : Nat) (fs : Cells 8),
    let new := cellsPut fs (w.rowWrites split row)
    w.formed = true → row < w.rowBlocks * 128 → k < w.k →
    w.bitsAt new row k = (split k).1 % 2 ^ w.planes
    ∧ (hasSide w.fmt = true → fsByte new (w.sideByte row k) = (split k).2 % 2 ^ 8)
    ∧ (∀ row', row' ≠ row → row' < w.rowBlocks * 128 → w.bitsAt new row' k = w.bitsAt fs row' k)
    ∧ ∀ x, x < w.base ∨ w.sideBase + w.sideBytes ≤ x → cellGet new x = cellGet fs x)
  ∧ (∀ (fmt mode d x : Nat),
    (∀ f, floatFmt (elemCode fmt) = some f → elemCode fmt ≠ 0 →
      splitElem fmt mode d x = ((if f.sign x then 2 ^ f.m else 0) + (if f.exp x = 0 then 0 else 2 ^ (f.m - 1)) + f.frac x, f.exp x))
    ∧ (floatFmt (elemCode fmt) = none → splitElem fmt mode d x = (x, 0))
    ∧ (elemCode fmt = 0 → splitElem fmt mode d x =
        match fp64Fmt.decode false x with
        | .nan => (2 ^ 52 + 2 ^ 51, 255)
        | .inf n => ((if n then 2 ^ 53 else 0) + 2 ^ 52, 255)
        | .zero n => (if n then 2 ^ 53 else 0, 0)
        | .fin n m e more =>
          let top := e + (bitLen m : Int) - 1
          let sign := if n then 2 ^ 53 else 0
          if 128 ≤ top then (sign + 2 ^ 52, 255)
          else if -126 ≤ top then (sign + m * 2 ^ (53 - bitLen m), (top + 127).toNat)
          else
            let sig := roundMag mode d n m (e + 178) more
            (sign + sig, if sig = 2 ^ 52 then 1 else 0)))
  -- CPPEER
  ∧ (∀ (s : State) (p : FrameId) (t u : Team) (c : Cmd) (pk : TeamKey),
    let x := s.reach p t c
    let n := hi32 c.e0 - c.progress
    let h := lo32 c.e1 + c.progress
    let f := lo32 c.e0 + c.progress
    c.index = 0x27 → s.teamOf c.launch (hi32 c.e1) = some (pk, u) → s.team? pk = some u →
    (n ≠ 0 → s.cutOff p.die pk.frame.die = true → x.fault = some (.linkDown, h) ∧ x.progress = c.progress
      ∧ { x.s with free := s.free } = s)
    ∧ (n = 0 ∨ s.cutOff p.die pk.frame.die = false → x.fault = none ∧ x.progress = c.progress + n ∧ x.payload = 0
      ∧ ∃ v, x.s.team? pk = some v ∧ (∀ a, a < h ∨ h + n ≤ a → cellGet v.fs a = cellGet u.fs a)
        ∧ (c.team ≠ hi32 c.e1 ∨ f + n ≤ h ∨ h + n ≤ f →
          ∀ k, k < n → cellGet v.fs (h + k) = cellGet (s.engineView t).1 (f + k))
        ∧ x.s.mem = s.mem ∧ x.s.rods = s.rods ∧ ∀ k, k ≠ pk → x.s.team? k = s.team? k))

/-- A command that cannot go on stops with its record, engine faults park their rod, and sys.engctl stops and resumes issue;
it rests on log entries 6 (effects at the finish) and 4 (an event not due leaves the state unchanged) (R303, R304, R361,
R437, R444, R487). -/
def Obligations.EngineFaultsAndStops : Prop :=
  (∀ (s : State) (p : FrameId) (e : EngineId) (n : Nat) (c : Cmd) (t : Team),
    let x := s.reach p t c
    s.entry? p e n = some c → s.team? (cmdTeam p c) = some t → c.st = .running → c.reaching = true →
    (∀ (cause : Cause) (va : Nat), x.fault = some (cause, va) →
      (∀ q, x.s.launch? c.launch = some q → q.killed = false) →
      ∃ u y, exec (.commandRunFault p e n) s = .next u
        ∧ ((u.frame p).engine e).entries = ((x.s.frame p).engine e).entries.set n
            { c with progress := x.progress, st := .stopped
                     fault := some (cause, BitVec.ofNat 64 va, (x.s.frame p).recSeq) }
        ∧ (u.frame p).records = (x.s.frame p).records ++ [y] ∧ y.cause = cause.code ∧ y.isEngine = true
        ∧ y.engineFlag = true ∧ y.lanes = 0 ∧ y.word = c.word ∧ y.addr = BitVec.ofNat 64 va
        ∧ y.progress = BitVec.ofNat 32 x.progress ∧ y.seq = (x.s.frame p).recSeq ∧ u.mem = x.s.mem
        ∧ u.teams = x.s.teams ∧ u.rods = x.s.rods)
    ∧ (x.fault = none → exec (.commandRunFault p e n) s = .next s))
  ∧ (∀ (s : State) (p : FrameId) (slot : Nat) (r : Rod) (f : EngineFault) (rest : List EngineFault),
    let k := rodKey p slot
    let run := r.maskWhere (fun x => x.st == .runnable)
    let m := if run ≠ 0 then run else r.maskWhere (fun x => x.live && x.st != .parked)
    s.rod? k = some r → r.engineFaults = f :: rest → (∀ n : Fin 32, r.lanes[n].fence = none) →
    ∃ u q y, exec (.engineFaultDelivery k) s = .next u ∧ u.rod? k = some q
      ∧ { q with lanes := r.lanes } = { r with engineFaults := rest }
      ∧ (∀ n : Fin 32, q.lanes[n] = if m.getLsbD n.val then
          { r.lanes[n] with st := .parked, wait := .none, fence := none, record := some (s.frame p).recSeq }
        else r.lanes[n])
      ∧ (u.frame p).records = (s.frame p).records ++ [y] ∧ y.cause = f.cause.code ∧ y.engineFlag = true
      ∧ y.orig = f.orig.getD 0 ∧ y.origKept = f.orig.isSome ∧ y.lanes = m ∧ y.word = f.word ∧ y.isEngine = false
      ∧ y.progress = BitVec.ofNat 32 f.progress ∧ u.mem = s.mem ∧ u.teams = s.teams)
  ∧ (∀ (s : State) (p : FrameId) (e : EngineId),
    let bit := 1#32 <<< EngineId.num e
    let told := 1#32 <<< (8 + EngineId.num e)
    exec (.engineIssueStop p e) s = .next (s.modFrame p (fun f => { f with engctl := f.engctl ||| bit }))
    ∧ (s.nothingWaits p → (∀ c ∈ ((s.frame p).engine e).entries, c.st = .stopped → c.fault ≠ none) →
      exec (.engineIssueResume p e) s = .next (s.modFrame p (fun f =>
        { f with engctl := (f.engctl &&& ~~~bit) &&& ~~~told })))
    ∧ ((s.frame p).engctl &&& bit ≠ 0 → (∀ c ∈ ((s.frame p).engine e).entries, c.st ≠ .running) →
      exec (.engineStopped p e) s = .next (s.modFrame p (fun f => { f with engctl := f.engctl ||| told })))
    ∧ ((s.frame p).engctl &&& bit = 0 ∨ (∃ c ∈ ((s.frame p).engine e).entries, c.st = .running) →
      exec (.engineStopped p e) s = .next s))

/-- SYSRD reads and SYSWR writes every system register as its table says, and the rod window reaches a stopped lane; reserved
numbers and writes of read-only registers are illegal operands (R360, R361, R362, R364, R368, R370). -/
def Obligations.SystemRegisters : Prop :=
  (∀ (w : RWord) (s : State) (p : FrameId) (r : Rod) (o : Operands) (d : Nat),
    let v := s.sysRead p (sysNumber w)
    FirmwareIssues s p r (.sysrd w) o → sysNumber w < 0x100 →
    (o.dst = .reg d → exec (.sysrd w) s = .next ((s.modContext p (fun x => x.setReg d (v.setWidth 32))).contextNext p))
    ∧ (o.dst = .pair d → exec (.sysrd w) s = .next ((s.modContext p (fun x => x.setPair d v)).contextNext p)))
  ∧ (∀ (s : State) (p : FrameId),
    let f := s.frame p
    s.sysRead p 0x000 = (if Config.isStream p.die then 0x01000601 else 0x01000006)
      ∧ s.sysRead p 0x002 = f.status.setWidth 64 ∧ s.sysRead p 0x003 = f.eventBits.setWidth 64
      ∧ s.sysRead p 0x004 = f.evmask.setWidth 64 ∧ s.sysRead p 0x005 = f.vec ∧ s.sysRead p 0x006 = f.epc
      ∧ s.sysRead p 0x007 = f.share.setWidth 64 ∧ s.sysRead p 0x008 = f.wdog.setWidth 64 ∧ s.sysRead p 0x009 = f.slice
      ∧ s.sysRead p 0x00A = f.timer ∧ s.sysRead p 0x00B = f.engctl.setWidth 64 ∧ s.sysRead p 0x00C = f.wrod.setWidth 64
      ∧ s.sysRead p 0x00D = f.fwfault ∧ s.sysRead p 0x00E = f.asid.setWidth 64 ∧ s.sysRead p 0x00F = s.frameTime p
      ∧ (∀ k : Fin 4, s.sysRead p (0x010 + k.val) = f.bk[k])
      ∧ (∀ n, n < 64 → (s.sysRead p 0x018).getLsbD n = (s.rodsOn p).any (fun e => e.1 == n))
      ∧ (p.frame < 128 → p.die < 32 →
        fieldOf (leBytes 8 (s.sysRead p 0x001).toNat) 0 1 = p.frame ∧ fieldOf (leBytes 8 (s.sysRead p 0x001).toNat) 1 1 = p.die
          ∧ (s.sysRead p 0x001).toNat / 2 ^ 16 = (if Config.isStream p.die then 0 else 1))
      ∧ (∀ n, n < 64 → (s.sysRead p 0x019).getLsbD n = (s.rodsOn p).any (fun e =>
          e.1 == n && (e.2.stop != .none || (List.finRange 32).any (fun l => e.2.lanes[l].st == .parked))))
      ∧ (∀ n, n < 64 → (s.sysRead p 0x01A).getLsbD n = (s.teamsOn p).any (fun e => e.1 == n)))
  -- reserved numbers, and writes of read-only registers, are illegal operands: the word fails a check (R360)
  ∧ (∀ (w : RWord) (s : State) (p : FrameId) (r : Rod),
    let n := sysNumber w
    let known := n ≤ 0x00F ∨ (0x010 ≤ n ∧ n ≤ 0x013) ∨ (0x018 ≤ n ∧ n ≤ 0x01A) ∨ (0x100 ≤ n ∧ n ≤ 0x1F0)
      ∨ (0x1F4 ≤ n ∧ n ≤ 0x1FB)
    let readOnly := n ∈ [0x000, 0x001, 0x00D, 0x00F, 0x018, 0x019, 0x01A, 0x1FA, 0x1FB]
    w.g.legal = true →
    (¬ known → wordCause s (fwKey p) r (.sysrd w) = some .illegalOperand)
    ∧ ∀ i, i = .syswr w ∨ i = .rodWindowWrite w → ¬ known ∨ readOnly → wordCause s (fwKey p) r i = some .illegalOperand
      ∧ (s.cur = some { key := fwKey p, lane := 0 } → s.rod? (fwKey p) = some r → tableFind (fwKey p) s.rods = some r →
          (r.lane 0).st = .runnable → r.subRod 0 = 1#32 → r.quiet 1#32 →
          exec i s = .next (s.contextFault p .illegalOperand (r.lane 0).pc)))
  ∧ (∀ (w : RWord) (s : State) (p : FrameId) (r : Rod) (o : Operands),
    let n := sysNumber w
    let v := o.a.value (r.lane 0) (fun _ => 0)
    let u : Word := v.setWidth 32
    let put (g : Frame → Frame) : Prop := exec (.syswr w) s = .next ((s.modFrame p g).contextNext p)
    FirmwareIssues s p r (.syswr w) o →
    (n = 0x002 → put (fun f => { f with status := u &&& 3 })) ∧ (n = 0x004 → put (fun f => { f with evmask := u &&& 0x7F }))
    ∧ (n = 0x005 → put (fun f => { f with vec := v &&& ~~~7#64 })) ∧ (n = 0x006 → put (fun f => { f with epc := v }))
    ∧ (n = 0x007 → 1 ≤ u.toNat → u.toNat ≤ 64 → put (fun f => { f with share := u }))
    ∧ (n = 0x008 → u &&& 0xFFFF ≠ 0 → u &&& 0xFFFF0000 ≠ 0 → put (fun f => { f with wdog := u }))
    ∧ (n = 0x009 → put (fun f => { f with slice := v, sliceArmed := v != 0 }))
    ∧ (n = 0x00A → put (fun f => { f with timer := v, timerArmed := v != 0 }))
    ∧ (n = 0x00B → s.nothingWaits p →
        (∀ e, ∀ c ∈ ((s.frame p).engine e).entries, c.st = .stopped → c.fault ≠ none) → ∃ t : State, exec (.syswr w) s = .next (t.contextNext p)
        ∧ t.frame p = { s.frame p with
            engctl := ((s.frame p).engctl &&& ((((~~~(s.frame p).engctl &&& 7#32) ||| (u &&& 7#32)) <<< 8) ||| ~~~0x707#32))
              ||| (u &&& 7#32) }
        ∧ (∀ q, q ≠ p → t.frame q = s.frame q) ∧ { t with frames := s.frames } = s)
    ∧ (n = 0x00C → put (fun f => { f with wrod := u &&& 0x1F3F }))
    ∧ (n = 0x00E → put (fun f => { f with asid := u &&& 0xFFF }))
    ∧ (∀ k : Fin 4, n = 0x010 + k.val → put (fun f => { f with bk := f.bk.set k (v &&& ~~~6#64) }))
    ∧ ((n = 0x007 ∧ (u = 0 ∨ 64 < u.toNat)) ∨ (n = 0x008 ∧ (u &&& 0xFFFF = 0 ∨ u &&& 0xFFFF0000 = 0)) →
        exec (.syswr w) s = .next (s.contextFault p .illegalOperand (r.lane 0).pc)))
  ∧ (∀ (w : RWord) (s : State) (p : FrameId) (r : Rod) (o : Operands), FirmwareIssues s p r (.eventClear w) o →
    exec (.eventClear w) s = .next ((s.modFrame p (fun f =>
      { f with event := f.event &&& ~~~((o.a.value (r.lane 0) (fun _ => 0)).setWidth 32) })).contextNext p))
  ∧ (∀ (w : RWord) (s : State) (p : FrameId) (r q : Rod) (o : Operands) (n d : Nat),
    let slot := ((s.frame p).wrod.extractLsb' 0 6).toNat
    let lane := ((s.frame p).wrod.extractLsb' 8 5).toNat
    let allowed := (q.lane lane).st = .parked ∨ q.stop ≠ .none
    let v : Word := (o.a.value (r.lane 0) (fun _ => 0)).setWidth 32
    let put (g : Lane → Lane) : Prop :=
      exec (.rodWindowWrite w) s = .next ((s.setRod (rodKey p slot) (q.setLane lane (g (q.lane lane)))).contextNext p)
    sysNumber w = 0x100 + n → slot < Config.slotsOf p.die → s.rod? (rodKey p slot) = some q → (q.lane lane).loads = [] →
    (FirmwareIssues s p r (.sysrd w) o → allowed → o.dst = .reg d → n < 240 → q.holds n = true →
      exec (.sysrd w) s = .next ((s.modContext p (fun x => x.setReg d ((q.lane lane).reg n))).contextNext p))
    ∧ (FirmwareIssues s p r (.sysrd w) o → allowed → o.dst = .reg d →
      let got (v : Word) : Prop := exec (.sysrd w) s = .next ((s.modContext p (fun x => x.setReg d v)).contextNext p)
      (n = 0xF0 → got ((q.lane lane).preds.setWidth 32)) ∧ (∀ k : Fin 4, n = 0xF4 + k.val → got (q.lane lane).xregs[k])
      ∧ (n = 0xF8 → got ((q.lane lane).pc.extractLsb' 0 32)) ∧ (n = 0xF9 → got ((q.lane lane).pc.extractLsb' 32 32))
      ∧ (n = 0xFA → got (BitVec.ofNat 32 (q.fast + 16 * q.slow))) ∧ (n = 0xFB → got ((q.lane lane).carryBits.setWidth 32)))
    ∧ (FirmwareIssues s p r (.sysrd w) o → ¬ allowed ∨ (n < 240 ∧ q.holds n = false) →
      exec (.sysrd w) s = .next (s.contextFault p .illegalOperand (r.lane 0).pc))
    ∧ (FirmwareIssues s p r (.rodWindowWrite w) o → allowed →
      (n < 240 → q.holds n = true → put (fun x => (x.setReg n v).unmark [n]))
      ∧ (n = 0xF0 → put (fun x => { x with preds := v.setWidth 7 }))
      ∧ (∀ k, k < 4 → n = 0xF4 + k → put (fun x => x.setXreg k v))
      ∧ (n = 0xF8 → v &&& 7 = 0 → put (fun x => { x with pc := x.pc.extractLsb' 32 32 ++ v }))
      ∧ (n = 0xF9 → put (fun x => { x with pc := v ++ x.pc.extractLsb' 0 32 }))
      ∧ (n = 0xF8 → v &&& 7 ≠ 0 →
          exec (.rodWindowWrite w) s = .next (s.contextFault p .illegalOperand (r.lane 0).pc)))
    ∧ (FirmwareIssues s p r (.rodWindowWrite w) o → ¬ allowed ∨ (n < 240 ∧ q.holds n = false) →
        exec (.rodWindowWrite w) s = .next (s.contextFault p .illegalOperand (r.lane 0).pc)))

/-- An enabled event enters the handler at a boundary, RETT returns, and the frame's timers and doorbells set their events; a
RETT to a misaligned address is log entry 36, an event not due log entry 4 (R361, R364, R367, R371, R373). -/
def Obligations.FirmwareHandler : Prop :=
  (∀ (s : State) (p : FrameId) (r : Rod),
    let f := s.frame p
    s.rod? (fwKey p) = some r →
    (f.fw = .running → f.eventBits &&& f.evmask ≠ 0 → f.status.getLsbD 0 = false → r.atBoundary = true →
      exec (.handlerEntry p) s = .next ((s.setFrame p { f with epc := (r.lane 0).pc, status := f.status ||| 1 }).setRod
        (fwKey p) (r.setLane 0 { r.lane 0 with pc := f.vec })))
    ∧ (f.fw ≠ .running ∨ f.eventBits &&& f.evmask = 0 ∨ f.status.getLsbD 0 = true ∨ r.atBoundary = false →
      exec (.handlerEntry p) s = .next s))
  ∧ (∀ f : Frame,
    (f.eventBits.getLsbD 0 = true ↔ ∃ x ∈ f.records, x.queued = true)
    ∧ (f.eventBits.getLsbD 1 = true ↔ ∃ x ∈ f.records, x.queued = true ∧ x.engineFlag = true)
    ∧ ∀ n, 2 ≤ n → f.eventBits.getLsbD n = f.event.getLsbD n)
  ∧ (∀ (w : RWord) (s : State) (p : FrameId) (r : Rod), IssuesAlone s (fwKey p) 0 r (.rett w) →
    ((s.frame p).status.getLsbD 0 = true → (s.frame p).epc.toNat % 8 = 0 →
      exec (.rett w) s = .next ((s.modFrame p (fun f => { f with status := f.status &&& ~~~1#32 })).setRod (fwKey p)
        (r.setLane 0 { r.lane 0 with pc := (s.frame p).epc })))
    ∧ ((s.frame p).status.getLsbD 0 = true → (s.frame p).epc.toNat % 8 ≠ 0 →
      exec (.rett w) s = .next (s.contextFault p .misaligned (r.lane 0).pc))
    ∧ ((s.frame p).status.getLsbD 0 = false →
      exec (.rett w) s = .next (s.contextFault p .illegalOperand (r.lane 0).pc)))
  ∧ (∀ (s : State) (p : FrameId),
    let f := s.frame p
    let now := (s.frameTime p).toNat
    (f.sliceArmed = true → f.slice.toNat ≤ now → exec (.sliceTimeReached p) s =
        .next (s.setFrame p { f with event := f.event ||| 4, sliceArmed := false }))
    ∧ (f.sliceArmed = false ∨ now < f.slice.toNat → exec (.sliceTimeReached p) s = .next s)
    ∧ (f.timerArmed = true → f.timer.toNat ≤ now → exec (.timerReached p) s =
        .next (s.setFrame p { f with event := f.event ||| 64, timerArmed := false }))
    ∧ (f.timerArmed = false ∨ now < f.timer.toNat → exec (.timerReached p) s = .next s)
    ∧ exec (.hubDoorbell p) s = .next (s.setFrame p { f with event := f.event ||| 8 })
    ∧ exec (.debugRequest p) s = .next (s.setFrame p { f with event := f.event ||| 32 }))
  ∧ (∀ (w : RWord) (s : State) (p : FrameId) (r : Rod) (o : Operands),
    let limit := o.a.value (r.lane 0) (fun _ => 0)
    let due := (s.frame p).eventPending = true ∨ (limit ≠ 0 ∧ limit.toNat ≤ (s.frameTime p).toNat)
    FirmwareIssues s p r (.idle w) o →
    (due → exec (.idle w) s = .next (s.contextNext p))
    ∧ (¬ due → exec (.idle w) s = .next ((s.modFrame p (fun f => { f with fw := .idle limit })).contextNext p)))
  ∧ (∀ (s : State) (p : FrameId) (limit : DWord),
    let due := (s.frame p).eventPending = true ∨ (limit ≠ 0 ∧ limit.toNat ≤ (s.frameTime p).toNat)
    (s.frame p).fw = .idle limit →
    (due → exec (.idleWake p) s = .next (s.modFrame p (fun f => { f with fw := .running })))
    ∧ (¬ due → exec (.idleWake p) s = .next s))
  ∧ (∀ (s : State) (p : FrameId) (rest : List Turn), s.agenda = .firmware p :: rest → s.hub.powered = true →
    s.hub.recovery = false → { s with agenda := rest }.firmwareMay p = true → (s.frame p).handlerDue = true →
    step s = endStep (exec (.handlerEntry p) { s with agenda := rest }))
  ∧ (∀ (s : State) (p : FrameId) (a : DWord) (r : Rod), s.rod? (fwKey p) = some r → (s.frame p).fw = .faulted →
    exec (.firmwareContextRestart p a) s = .next ((s.modFrame p (fun f =>
      { f with fw := .running, status := f.status &&& ~~~2#32 })).setRod (fwKey p)
        (r.setLane 0 { r.lane 0 with pc := a &&& ~~~7#64, st := .runnable })))

/-- PARKQ takes the oldest record, TLBI clears a die's translations, and BKPT and FWCALL stop the context until they are
answered; a TLBI_COMPLETE that is not due leaves the state unchanged (log entry 4) (R366, R372, R378, R379, R380, R368,
R369). -/
def Obligations.FirmwareCalls : Prop :=
  (∀ (w : RWord) (s : State) (p : FrameId) (r : Rod) (o : Operands), FirmwareIssues s p r (.parkq w) o →
    ((∀ x ∈ (s.frame p).records, x.queued = false) →
      exec (.parkq w) s = .next ((s.modContext p (fun x => x.setPred w.c.toNat false)).contextNext p))
    ∧ (∀ (pre post : List Record) (x : Record), (s.frame p).records = pre ++ x :: post → x.queued = true →
        (∀ y ∈ pre, y.queued = false) →
      ∃ q, exec (.parkq w) s = .next ((s.setFrame p { s.frame p with
            records := pruneRecords (pre ++ { x with queued := false } :: post) }).setRod (fwKey p) q)
        ∧ { q with lanes := r.lanes } = r
        ∧ (∀ k, k < 16 → (q.lane 0).reg (w.dst.toNat + k) = BitVec.ofNat 32 (fieldOf x.bytes (4 * k) 4))
        ∧ (∀ g, g < w.dst.toNat ∨ w.dst.toNat + 16 ≤ g → (q.lane 0).reg g = (r.lane 0).reg g)
        ∧ (q.lane 0).preds = ((r.lane 0).setPred w.c.toNat true).preds ∧ (q.lane 0).pc = (r.lane 0).pc + 8
        ∧ (q.lane 0).st = .runnable ∧ (q.lane 0).xregs = (r.lane 0).xregs))
  ∧ (∀ x : Record,
    x.bytes.length = 64 ∧ fieldOf x.bytes 0x00 1 = x.cause.toNat
      ∧ fieldOf x.bytes 0x01 1 = (if x.withdrawn then 1 else 0) + (if x.pendingUnderHalt then 2 else 0)
          + (if x.engineFlag then 4 else 0) + (if x.deferredFlag then 8 else 0) + (if x.origKept then 16 else 0)
      ∧ fieldOf x.bytes 0x02 1 = (if x.origKept then x.orig.toNat else 0) ∧ fieldOf x.bytes 0x04 4 = x.lanes.toNat
      ∧ fieldOf x.bytes 0x08 8 = x.word.toNat ∧ fieldOf x.bytes 0x10 8 = x.pc.toNat
      ∧ fieldOf x.bytes 0x18 8 = x.addr.toNat ∧ fieldOf x.bytes 0x20 8 = x.launch % 2 ^ 64
      ∧ fieldOf x.bytes 0x28 4 = x.slot % 64 + 256 * (x.lane % 32) + 65536 * x.seq.toNat
      ∧ fieldOf x.bytes 0x2C 2 = x.teamSlot % 65536 ∧ fieldOf x.bytes 0x2E 2 = x.asid.toNat
      ∧ fieldOf x.bytes 0x30 8 = x.item0.toNat ∧ fieldOf x.bytes 0x38 4 = x.progress.toNat
      ∧ fieldOf x.bytes 0x3C 1 = (match x.engine with | some .ve => 0 | some .ce => 1 | some .me => 2 | none => 0xFF))
  ∧ (∀ (w : RWord) (s : State) (p : FrameId) (r : Rod) (o : Operands) (i : Instr) (scope : Nat),
    let va := if scope = 0 then o.a.value (r.lane 0) (fun _ => 0) else 0
    let asid := if scope = 2 then 0 else (((o.b.value (r.lane 0) (fun _ => 0)).setWidth 12 : BitVec 12)).toNat
    let part := (s.asidEntry asid).part
    (i = .tlbiVa w ∧ scope = 0) ∨ (i = .tlbiAsid w ∧ scope = 1) ∨ (i = .tlbiAll w ∧ scope = 2) →
    FirmwareIssues s p r i o →
    ∃ t, exec i s = .next t ∧ (t.frame p).fw = .tlbi scope va asid s.unmapsRunning
      ∧ (t.die p.die).tlb = (s.die p.die).tlb.filter (fun x => !x.covered scope va asid part)
      ∧ (∀ q ∈ s.framesOfDie p.die, (t.frame q).tlb = (s.frame q).tlb.filter (fun x => !x.covered scope va asid part))
      ∧ (∀ q, q ≠ p → q ∉ s.framesOfDie p.die → t.frame q = s.frame q) ∧ t.mem = s.mem ∧ t.hub = s.hub ∧ t.teams = s.teams
      ∧ t.rods = (s.contextNext p).rods)
  ∧ (∀ (s : State) (p : FrameId) (scope asid : Nat) (va : DWord) (running : List (Nat × Word)),
    (s.frame p).fw = .tlbi scope va asid running →
    (s.tlbiQuiet p.die scope va asid = true →
      ∃ t, exec (.tlbiComplete p) s = .next t ∧ t.frames = (s.modFrame p (fun f => { f with fw := .running })).frames
        ∧ t.rods = s.rods ∧ t.mem = s.mem ∧ t.hub.reports = s.hub.reports ++ [.tlbiDone p]
        ∧ ∀ k : Fin 8, { t.hub.xl[k] with cleared := s.hub.xl[k].cleared } = s.hub.xl[k]
          ∧ (t.hub.xl[k].cleared = s.hub.xl[k].cleared
              ∨ ((k.val, s.hub.xl[k].umseq) ∈ running ∧ t.hub.xl[k].cleared = p.die :: s.hub.xl[k].cleared)))
    ∧ (s.tlbiQuiet p.die scope va asid = false → exec (.tlbiComplete p) s = .next s))
  ∧ (∀ (w : RWord) (s : State) (p : FrameId) (r : Rod) (o : Operands), FirmwareIssues s p r (.bkpt w) o →
    exec (.bkpt w) s = .next (((s.modFrame p (fun f => { f with fw := .debug })).report (.breakpointStop p)).contextNext p))
  ∧ (∀ (s : State) (p : FrameId), (s.frame p).fw = .debug →
    exec (.debugAgentRelease p) s = .next (s.modFrame p (fun f => { f with fw := .running })))
  ∧ (∀ (w : RWord) (s : State) (p : FrameId) (r : Rod) (o : Operands), FirmwareIssues s p r (.fwcall w) o →
    exec (.fwcall w) s = .next (((s.modFrame p (fun f =>
      { f with fw := .calling (RMod.bits w.mod 8 10) w.dst.toNat w.a.toNat })).report
        (.serviceCall p (RMod.bits w.mod 8 10) ((List.range 16).map (fun k => (r.lane 0).reg (w.a.toNat + k))))).contextNext
          p))
  ∧ (∀ (s : State) (p : FrameId) (r : Rod) (n dst a : Nat) (status : Word) (reply : List Word),
    s.rod? (fwKey p) = some r → (s.frame p).fw = .calling n dst a → reply.length = 16 →
    ∃ q, exec (.fwcallReply p status reply) s = .next ((s.modFrame p (fun f => { f with fw := .running })).setRod
        (fwKey p) q)
      ∧ { q with lanes := r.lanes } = r ∧ (q.lane 0).reg dst = status
      ∧ (∀ k, k < 16 → a + k ≠ dst → (q.lane 0).reg (a + k) = reply.getD k 0)
      ∧ (∀ g, g ≠ dst → g < a ∨ a + 16 ≤ g → (q.lane 0).reg g = (r.lane 0).reg g)
      ∧ (q.lane 0).pc = (r.lane 0).pc ∧ (q.lane 0).preds = (r.lane 0).preds)

/-- TRAP stops or parks a rod at its next boundary, and RESUME acts on the record its handle names (R374, R375, R485,
R487, R441, R446). -/
def Obligations.TrapsAndResumes : Prop :=
  (∀ (w : RWord) (s : State) (p : FrameId) (r q : Rod) (o : Operands) (i : Instr) (form : TrapForm),
    let slot := ((o.a.value (r.lane 0) (fun _ => 0)).setWidth 6 : BitVec 6).toNat
    let k := rodKey p slot
    let held := q.maskWhere (fun x => x.live && x.st != .parked)
    let run := q.maskWhere (fun x => x.st == .runnable)
    let m := if form = .wdog then run else held
    (i = .trapHalt w ∧ form = .halt) ∨ (i = .trapSlice w ∧ form = .slice) ∨ (i = .trapWdog w ∧ form = .wdog) →
    FirmwareIssues s p r i o → slot < Config.slotsOf p.die →
    (s.rod? k = none → exec i s = .next (s.contextFault p .illegalOperand (r.lane 0).pc))
    ∧ (s.rod? k = some q → q.stop = .none → q.traps = [] → q.engineFaults = [] → q.divert = false →
        (∀ n : Fin 32, q.lanes[n].fence = none) →
      ∃ t x q', exec i s = .next t ∧ t.rod? k = some q' ∧ (t.frame p).records = (s.frame p).records ++ [x]
        ∧ x.lanes = m ∧ x.seq = (s.frame p).recSeq ∧ x.launch = q.launch ∧ x.slot = slot ∧ x.queued = true
        ∧ x.cause = (match form with | .halt => 0x13 | .slice => 0x14 | .wdog => 0x17)
        ∧ q'.stop = (match form with | .halt => .halt | .slice => .slice | .wdog => .none) ∧ q'.traps = []
        ∧ (∀ n : Fin 32, q'.lanes[n] = if form = .wdog ∧ m.getLsbD n.val = true then
            { q.lanes[n] with st := .parked, wait := .none, fence := none, record := some (s.frame p).recSeq }
          else q.lanes[n])
        ∧ t.mem = s.mem ∧ t.teams = s.teams ∧ tableFind (fwKey p) t.rods = tableFind (fwKey p) (s.contextNext p).rods))
  ∧ (∀ (w : RWord) (s : State) (p : FrameId) (r : Rod) (o : Operands) (i : Instr),
    let h : Word := (o.a.value (r.lane 0) (fun _ => 0)).setWidth 32
    i = .resumeRetry w ∨ i = .resumeSkip w ∨ i = .resumeAbort w ∨ i = .resumeRun w → FirmwareIssues s p r i o →
    (Config.slotsOf p.die ≤ (h.extractLsb' 0 6).toNat → exec i s = .next (s.contextFault p .illegalOperand (r.lane 0).pc))
    ∧ ((h.extractLsb' 0 6).toNat < Config.slotsOf p.die →
    ((s.frame p).recordOfHandle h = none → exec i s = .next (s.contextNext p))
    ∧ (∀ (x : Record) (q : Rod), (s.frame p).recordOfHandle h = some x → x.isEngine = false →
        s.rod? (rodKey p x.slot) = some q → x.ofRod q = true → q.engineFaults = [] → q.traps = [] → q.divert = false →
      let parks := ∃ n : Fin 32, q.lanes[n].st = .parked ∧ q.lanes[n].record = some x.seq
      (i = .resumeRetry w ∨ i = .resumeSkip w → parks →
        ∃ t q', exec i s = .next t ∧ t.rod? (rodKey p x.slot) = some q' ∧ t.frame p = (s.frame p).resolve x.seq
          ∧ (∀ n : Fin 32, { q'.lanes[n] with group := q.lanes[n].group } =
              if q.lanes[n].st = .parked ∧ q.lanes[n].record = some x.seq then
                { q.lanes[n] with st := .runnable, record := none
                                  pc := if i = .resumeSkip w then q.lanes[n].pc + 8 else q.lanes[n].pc }
              else q.lanes[n])
          ∧ t.mem = s.mem ∧ t.hub = s.hub ∧ t.teams = s.teams ∧ t.carry = s.carry)
      ∧ (i = .resumeAbort w → parks → (∃ n : Fin 32, q.lanes[n].live = true ∧ q.lanes[n].record ≠ some x.seq) →
        ∃ t q', exec i s = .next t ∧ t.rod? (rodKey p x.slot) = some q' ∧ t.frame p = (s.frame p).resolve x.seq
          ∧ (∀ n : Fin 32, if q.lanes[n].st = .parked ∧ q.lanes[n].record = some x.seq then q'.lanes[n].st = .retired
              else q'.lanes[n] = q.lanes[n])
          ∧ (∀ l, s.launch? q.launch = some l → l.faultCount.toNat + 1 < 2 ^ 32 →
              ∃ l', t.launch? q.launch = some l' ∧ l'.faultCount = l.faultCount + 1
                ∧ ∀ n : Fin 32, q.lanes[n].st = .parked → q.lanes[n].record = some x.seq →
                    (q.lanes[n].item.toNat, .killed) ∈ l'.outcomes)
          ∧ t.mem = s.mem ∧ t.teams = s.teams)
      ∧ (i = .resumeRun w → q.stop = .halt ∨ q.stop = .slice →
        -- the rod goes on, and its team's blocked TKGETs may take tokens again (R295)
        let tk := teamKeyOf (rodKey p x.slot) q
        ∃ (t : State) (q' : Rod), exec i s = .next ((t.serveTeam tk).contextNext p) ∧ t.rod? (rodKey p x.slot) = some q' ∧ q'.stop = .none
          ∧ (∀ n : Fin 32, { q'.lanes[n] with group := q.lanes[n].group } = q.lanes[n]) ∧ t.mem = s.mem
          ∧ t.teams = s.teams
          ∧ ((∀ e ∈ s.rods, e.1.frame = p → ∀ n : Fin 32, e.2.lanes[n].st ≠ .blocked) → t.serveTeam tk = t)))
    ∧ (∀ (x : Record) (e : EngineId) (n : Nat) (c : Cmd), (s.frame p).recordOfHandle h = some x → x.isEngine = true →
      (i = .resumeRetry w → (s.frame p).stoppedCommand x.seq = some (e, n, c) →
        exec i s = .next (((s.modEngine p e (fun q =>
            { q with entries := q.entries.set n { c with
                st := if (s.frame p).engctl.getLsbD (8 + EngineId.num e) then .stopped else .running
                fault := none } })).modFrame p
              (fun f => f.resolve x.seq)).contextNext p))
      ∧ (∀ (slot : Nat) (q : Rod) (t : Team), i = .resumeAbort w → (s.frame p).stoppedCommand x.seq = some (e, n, c) →
          c.isReduce = false → c.index ≠ 0x27 → (∀ y ∈ ((s.frame p).engine e).entries, y.fault = c.fault → y = c) →
          s.nothingWaits p → s.team? (cmdTeam p c) = some t → c.rod ∈ t.unretired → c.rod < t.started → s.memberSlot (cmdTeam p c) c.rod = some slot →
          s.rod? (rodKey p slot) = some q →
        ∃ t, exec i s = .next t ∧ t.mem = s.mem
          ∧ ((t.frame p).engine e).entries = ((s.frame p).engine e).entries.filter (fun y =>
              !(y.st == .stopped && y.fault == c.fault && y.ord == c.ord && y.teamSlot == c.teamSlot))
          ∧ t.rod? (rodKey p slot) = some { q with engineFaults := q.engineFaults ++
              [{ cause := .engineCommandFault, orig := some ((o.b.value (r.lane 0) (fun _ => 0)).setWidth 8),
                 word := c.word, addr := 0, progress := c.progress, engine := e }] })
      ∧ (i = .resumeSkip w ∨ i = .resumeRun w →
        exec i s = .next (s.contextFault p .illegalOperand (r.lane 0).pc)))))

/-- ENGRD and ENGWR read and write engine and team state, and CTXSV and CTXLD take a rod or a team off its frame and bring it
back with all its state, bytes written and read; the kept copies and the save epoch are log entries 8 and 23, what the tables
leave open for CTXSV.team, ENGRD and ENGWR entries 41, 68 and 69 (R376, R377, R445, R451, R453, R454). -/
def Obligations.EngineAccessAndContexts : Prop :=
  (∀ (w : RWord) (s : State) (p : FrameId) (r : Rod) (o : Operands) (x : Selected),
    FirmwareIssues s p r (.engrd w) o →
    s.selected p (selectorOf ((o.a.value (r.lane 0) (fun _ => 0)).setWidth 32)) = some x →
    ∃ q, exec (.engrd w) s = .next (s.setRod (fwKey p) q) ∧ { q with lanes := r.lanes } = r
      ∧ (∀ k, k < 16 → (q.lane 0).reg (w.dst.toNat + k) = BitVec.ofNat 32 (fieldOf (s.readSelected p x) (4 * k) 4))
      ∧ (∀ g, g < w.dst.toNat ∨ w.dst.toNat + 16 ≤ g → (q.lane 0).reg g = (r.lane 0).reg g)
      ∧ (q.lane 0).pc = (r.lane 0).pc + 8 ∧ (q.lane 0).preds = (r.lane 0).preds)
  ∧ (∀ (s : State) (p : FrameId) (e : EngineId) (n : Nat),
    let b := s.readSelected p (.entry e n)
    (s.entry? p e n = none → ∀ k, k < 64 → b.getD k 0 = 0)
    ∧ (∀ c, s.entry? p e n = some c →
      fieldOf b 0x00 8 = c.word.toNat ∧ fieldOf b 0x08 8 = c.e0.toNat ∧ fieldOf b 0x10 8 = c.e1.toNat
        ∧ fieldOf b 0x18 8 = c.e2.toNat ∧ (c.st = .running → fieldOf b 0x20 1 = 3)
        ∧ (c.st = .stopped → fieldOf b 0x20 1 = 4) ∧ fieldOf b 0x21 1 = c.teamSlot % 256
        ∧ fieldOf b 0x24 4 = c.count.toNat ∧ fieldOf b 0x28 8 = c.item.toNat ∧ fieldOf b 0x30 4 = c.progress % 2 ^ 32
        ∧ fieldOf b 0x38 8 = c.launch % 2 ^ 64))
  ∧ (∀ (s : State) (p : FrameId) (tk : TeamKey) (t : Team) (n : Nat), n < 16 →
    let win := s.readSelected p (.team 1 tk t n)
    let que := s.readSelected p (.team 2 tk t n)
    let bar := s.readSelected p (.team 5 tk t n)
    fieldOf win 0 8 = (t.window n).w0.toNat ∧ fieldOf win 8 8 = (t.window n).w1.toNat
      ∧ fieldOf que 0 1 = (t.queue n).tokens.length % 256 ∧ fieldOf que 1 1 = (t.queue n).reserved % 256
      ∧ fieldOf que 2 1 = (t.queue n).producer % 256 ∧ fieldOf que 3 1 = (t.queue n).consumer % 256
      ∧ fieldOf bar 0 1 = (t.barrier n).expected % 256 ∧ fieldOf bar 1 1 = (t.barrier n).arrivals % 256
      ∧ fieldOf bar 2 1 = (if (t.barrier n).gen then 1 else 0))
  ∧ (∀ (w : RWord) (s : State) (p : FrameId) (r : Rod) (o : Operands),
    let q := selectorOf ((o.a.value (r.lane 0) (fun _ => 0)).setWidth 32)
    let b := (r.lane 0).block w.b.toNat
    FirmwareIssues s p r (.engwr w) o →
    ((s.frame p).engctl.extractLsb' 8 3 ≠ 7 →
      exec (.engwr w) s = .next (s.contextFault p .illegalOperand (r.lane 0).pc))
    ∧ ((s.frame p).engctl.extractLsb' 8 3 = 7 → q.pos = 0 →
      (∀ (e : EngineId) (k : Nat), s.selected p q = some (.entry e k) →
        (fieldOf b 0x20 1 = 0 → ∃ t, exec (.engwr w) s = .next t ∧ ((t.frame p).engine e).entries = []
          ∧ (∀ d, d ≠ e → (t.frame p).engine d = (s.frame p).engine d) ∧ t.mem = s.mem ∧ t.hub = s.hub
          ∧ t.rods = (s.contextNext p).rods)
        ∧ (∀ t, fieldOf b 0x20 1 = 1 ∨ fieldOf b 0x20 1 = 2 → s.queueFull p e = false →
            fieldOf b 0x21 1 < Config.slotsOf p.die → s.team? { frame := p, slot := fieldOf b 0x21 1 } = some t →
          ∃ u c, exec (.engwr w) s = .next u
            ∧ ((u.frame p).engine e).entries = ((s.frame p).engine e).entries ++ [c]
            ∧ c.word = BitVec.ofNat 64 (fieldOf b 0 8) ∧ c.e0 = BitVec.ofNat 64 (fieldOf b 8 8)
            ∧ c.e1 = BitVec.ofNat 64 (fieldOf b 16 8) ∧ c.e2 = BitVec.ofNat 64 (fieldOf b 24 8) ∧ c.st = .queued
            ∧ c.teamSlot = fieldOf b 0x21 1 ∧ c.progress = fieldOf b 0x30 4 ∧ u.mem = s.mem ∧ u.hub = s.hub
            ∧ u.rods = (s.contextNext p).rods)
        ∧ (∀ t, fieldOf b 0x20 1 = 3 ∨ fieldOf b 0x20 1 = 4 → s.queueFull p e = false →
            fieldOf b 0x21 1 < Config.slotsOf p.die → s.team? { frame := p, slot := fieldOf b 0x21 1 } = some t →
          let c := (s.frame p).asRemoved (cmdOf s { frame := p, slot := fieldOf b 0x21 1 } t b)
          (s.slotsFree t c = false → exec (.engwr w) s = .next (s.contextFault p .illegalOperand (r.lane 0).pc))
          ∧ (s.slotsFree t c = true → ∃ u y v, exec (.engwr w) s = .next u
            ∧ ((u.frame p).engine e).entries = ((s.frame p).engine e).entries ++ [y]
            ∧ y.word = BitVec.ofNat 64 (fieldOf b 0 8) ∧ y.st = .stopped ∧ y.fault = none ∧ y.progress = fieldOf b 0x30 4
            ∧ u.mem = s.mem ∧ u.rods = (s.contextNext p).rods
            ∧ (c.remoteQueue = none → u.team? { frame := p, slot := fieldOf b 0x21 1 } = some v
              ∧ ∀ n, n < 16 → v.queue n = if c.produces = some n then
                  { t.queue n with reserved := (t.queue n).reserved + 1 } else t.queue n)))
        ∧ (4 < fieldOf b 0x20 1 ∨ (1 ≤ fieldOf b 0x20 1 ∧ s.queueFull p e = true) →
          exec (.engwr w) s = .next (s.contextFault p .illegalOperand (r.lane 0).pc)))
      ∧ (∀ (tk : TeamKey) (t : Team) (n : Nat), s.selected p q = some (.team 1 tk t n) →
        exec (.engwr w) s = .next ((s.setTeam tk (t.setWindow n
          { w0 := BitVec.ofNat 64 (fieldOf b 0 8), w1 := BitVec.ofNat 64 (fieldOf b 8 8) })).contextNext p))
      ∧ (∀ (tk : TeamKey) (t : Team) (n : Nat), s.selected p q = some (.team 2 tk t n) →
        (16 < fieldOf b 0 1 + fieldOf b 1 1 ∨ 4 < fieldOf b 2 1 ∨ 4 < fieldOf b 3 1 →
          exec (.engwr w) s = .next (s.contextFault p .illegalOperand (r.lane 0).pc))
        ∧ (fieldOf b 0 1 + fieldOf b 1 1 ≤ 16 → fieldOf b 2 1 ≤ 4 → fieldOf b 3 1 ≤ 4 →
          exec (.engwr w) s = .next ((s.setTeam tk (t.setQueue n
            { tokens := (List.range (fieldOf b 0 1)).map (fun k => (t.queue n).tokens.getD k 0), reserved := fieldOf b 1 1,
              producer := fieldOf b 2 1, consumer := fieldOf b 3 1 })).contextNext p)))
      ∧ (∀ (tk : TeamKey) (t : Team) (n : Nat), s.selected p q = some (.team 3 tk t n) →
        exec (.engwr w) s = .next ((s.setTeam tk (t.setQueue n { t.queue n with
          tokens := (List.range (t.queue n).tokens.length).map (fun k => BitVec.ofNat 32 (fieldOf b (4 * k) 4)) })).contextNext p))
      ∧ (∀ (tk : TeamKey) (t : Team) (n : Nat), s.selected p q = some (.team 4 tk t n) →
        ∃ u v, exec (.engwr w) s = .next u ∧ u.team? tk = some v ∧ (v.join n).mask = BitVec.ofNat 32 (fieldOf b 0 4)
          ∧ (v.join n).pending.map Instance.signed =
              (List.range (min 4 (fieldOf b 4 4))).map (fun k => BitVec.ofNat 32 (fieldOf b (0x28 + 4 * k) 4))
          ∧ (∀ (k : Nat) (i o : Instance), (v.join n).pending[k]? = some i → (t.join n).pending[k]? = some o →
              i.e0 = o.e0 ∧ i.e1 = o.e1 ∧ i.e2 = o.e2)
          ∧ (∀ m, m ≠ n → v.join m = t.join m) ∧ v.windows = t.windows ∧ v.queues = t.queues ∧ v.bars = t.bars
          ∧ u.mem = s.mem ∧ u.hub = s.hub)
      ∧ (∀ (tk : TeamKey) (t : Team) (n : Nat), s.selected p q = some (.team 5 tk t n) →
        exec (.engwr w) s = .next ((s.setTeam tk (t.setBarrier n
          { expected := fieldOf b 0 1, arrivals := fieldOf b 1 1, gen := fieldOf b 2 1 % 2 == 1,
            gone := min (t.barrier n).gone (fieldOf b 1 1) })).contextNext p))
      ∧ (s.selected p q = none → exec (.engwr w) s = .next (s.contextFault p .illegalOperand (r.lane 0).pc))))
  ∧ (∀ (w : RWord) (s : State) (p : FrameId) (r : Rod) (o : Operands),
    let va := (o.a.value (r.lane 0) (fun _ => 0)).toNat
    let slot := ((o.b.value (r.lane 0) (fun _ => 0)).setWidth 6 : BitVec 6).toNat
    let k := rodKey p slot
    FirmwareIssues s p r (.ctxsv w) o → slot < Config.slotsOf p.die →
    (s.rod? k = none ∨ (∃ q, s.rod? k = some q ∧ q.stop = .none) →
      exec (.ctxsv w) s = .next (s.contextFault p .illegalOperand (r.lane 0).pc))
    -- it waits for the commands that name the rod's rows, and completes once they have finished (R323)
    ∧ (∀ q : Rod, s.rod? k = some q → q.stop ≠ .none → s.rowsQuiet p q = false →
      exec (.ctxsv w) s = .next (s.modFrame p (fun f => { f with fw := .savingRod slot (o.a.value (r.lane 0) (fun _ => 0)) })))
    ∧ (∀ (q : Rod) (t : Team) (s1 : State), s.rod? k = some q → q.stop ≠ .none → s.rowsQuiet p q = true →
        (∀ n : Fin 32, q.lanes[n].loads = []) → s.team? { frame := p, slot := q.teamSlot } = some t →
        q.rows.Pairwise (· < ·) →
        s.saveImage p va (rodImage s q t.accCols (s.frame p).saveEpoch q.rows ((rowContents t q.rows).map Prod.snd)) = .ok s1 →
        s1.rod? k = some q → s1.team? { frame := p, slot := q.teamSlot } = some t →
      ∃ u v, exec (.ctxsv w) s = .next u ∧ u.rod? k = none ∧ u.mem = s1.mem ∧ u.teams = s1.teams
        ∧ (u.frame p).savedRods = (s1.frame p).savedRods ++ [v] ∧ v.rod.lanes = q.lanes ∧ v.rod.rows = q.rows
        ∧ v.contents = rowContents t q.rows ∧ v.place = some (s.namedPlace p va)
        ∧ (∀ x ∈ (u.frame p).records, x.ofRod q = true → x.resolved = true ∨ x.withdrawn = true)))
  ∧ (∀ (s s1 : State) (p : FrameId) (q : Rod) (t : Team) (slot : Nat) (va : DWord),
    let k := rodKey p slot
    let s0 := s.modFrame p (fun f => { f with fw := .running })
    (s.frame p).fw = .savingRod slot va → s.rod? k = some q → q.stop ≠ .none →
    (s.rowsQuiet p q = false → s.finishSave p = s)
    ∧ (s.rowsQuiet p q = true → (∀ n : Fin 32, q.lanes[n].loads = []) → s.team? { frame := p, slot := q.teamSlot } = some t →
        q.rows.Pairwise (· < ·) →
        s0.saveImage p va.toNat (rodImage s0 q t.accCols (s.frame p).saveEpoch q.rows ((rowContents t q.rows).map Prod.snd))
          = .ok s1 →
        s1.rod? k = some q → s1.team? { frame := p, slot := q.teamSlot } = some t →
      ∃ v, (s.finishSave p).rod? k = none ∧ (s.finishSave p).mem = s1.mem ∧ (s.finishSave p).teams = s1.teams
        ∧ ((s.finishSave p).frame p).savedRods = (s1.frame p).savedRods ++ [v] ∧ v.rod.lanes = q.lanes
        ∧ v.contents = rowContents t q.rows ∧ v.place = some (s.namedPlace p va.toNat)))
  ∧ (∀ (s : State) (r : Rod) (cols epoch : Nat) (rows : List Nat) (contents : List Word),
    let b := rodImage s r cols epoch rows contents
    fieldOf b 0 4 = 0x7A100001 ∧ fieldOf b 4 2 = 1 ∧ fieldOf b 6 1 = r.fast % 256 ∧ fieldOf b 7 1 = r.slow % 256
      ∧ fieldOf b 8 4 = (20992 + 2048 * (r.fast + r.slow) + 4 * cols * rows.length) % 2 ^ 32
      ∧ fieldOf b 0xC 4 = r.liveMask.toNat ∧ fieldOf b 0x10 8 = r.launch % 2 ^ 64 ∧ fieldOf b 0x18 8 = r.item0.toNat
      ∧ fieldOf b 0x20 8 = r.team % 2 ^ 64 ∧ fieldOf b 0x28 1 = r.rod % 256 ∧ fieldOf b 0x2A 2 = rows.length % 2 ^ 16
      ∧ fieldOf b 0x2C 4 = epoch % 2 ^ 32
      ∧ fieldOf b 0x29 1 = (match r.stop with
          | .none => 0 | .slice => 1 | .halt => if TrapForm.slice ∈ r.traps then 3 else 2 | .sliceUnderHalt => 3)
      ∧ (∀ j : Fin 16, fieldOf b (0x30 + j.val) 1 = r.sigs[j] % 256) ∧ fieldOf b 0x40 1 = r.arrived.toNat
      ∧ fieldOf b 0x41 1 = r.lastLane % 256 ∧ fieldOf b 0x42 2 = min 4096 r.unissued
      ∧ (∀ n, n < 1024 → (b.getD (0x80 + n / 8) 0).getLsbD (n % 8) = rows.contains n)
      -- the item records and the registers; no lane holds more marks, loads or generations than it can (R44, R75, R276)
      ∧ ((∀ n : Fin 32, r.lanes[n].marks.length ≤ 8 ∧ r.lanes[n].loads.length ≤ 16
            ∧ ∀ k : Fin 8, (carryBuf s.carry r.launch r.lanes[n].item.toNat k.val).gens.length ≤ 4) →
        (∀ n : Fin 32,
          let x := r.lanes[n]
          let y := b.drop (0x200 + 640 * n.val)
          fieldOf y 0 8 = x.pc.toNat
          ∧ fieldOf y 8 1 = (match x.st with
              | .noItem => 0 | .retired => 1 | .runnable => 2 | .parked => 3 | .carryWait => 4 | .syncWait => 5 | .blocked => 6)
          ∧ fieldOf y 9 1 = (match x.wait with
              | .none => 0 | .grow _ _ => 1 | .acres _ _ => 2 | .tkget _ _ => 3 | .barMeet _ _ => 4 | .jwait _ => 5
              | .jset _ => 6 | .fullJoin _ => 7 | .carryRead _ => 8 | .carryWrite _ => 9)
          ∧ fieldOf y 0xA 1 = x.preds.toNat ∧ fieldOf y 0xB 1 = (if x.valid then 1 else 0) + (if x.phase then 2 else 0)
          ∧ fieldOf y 0xC 1 = x.cdone.toNat ∧ fieldOf y 0xD 1 = x.carryBits.toNat ∧ fieldOf y 0xE 1 = x.marks.length
          ∧ (x.live = true → fieldOf y 0xF 1 = lowest (r.subRod n.val))
          ∧ (∀ k : Fin 4, fieldOf y (0x10 + 4 * k.val) 4 = x.xregs[k].toNat) ∧ fieldOf y 0x20 4 = x.rsCount.toNat
          ∧ fieldOf y 0x24 4 = x.loads.length
          ∧ (∀ (k : Nat) (m : Mark), x.marks[k]? = some m →
              fieldOf y (0x30 + 12 * k) 8 = m.addr.toNat ∧ fieldOf y (0x38 + 12 * k) 4 = m.seq.toNat)
          ∧ (∀ k : Fin 8, let g := (carryBuf s.carry r.launch x.item.toNat k.val).gens
              fieldOf y (0x90 + 8 * k.val) 4 = x.readCount[k].toNat ∧ fieldOf y (0x94 + 8 * k.val) 4 = x.writeCount[k].toNat
              ∧ fieldOf y (0x150 + k.val) 1 = g.length
              ∧ ∀ (m : Nat) (v : Word), g[m]? = some v → fieldOf y (0xD0 + 16 * k.val + 4 * m) 4 = v.toNat)
          ∧ ∀ (k : Nat) (e : LoadEntry), x.loads[k]? = some e →
              fieldOf y (0x160 + 16 * k) 8 = e.addr.toNat ∧ fieldOf y (0x16A + 16 * k) 1 = e.scope % 256
              ∧ fieldOf y (0x16B + 16 * k) 1 = e.dst % 256 ∧ fieldOf y (0x16C + 16 * k) 2 = e.ordinal.toNat
              ∧ (e.kind ≠ .atomic → fieldOf y (0x168 + 16 * k) 1 = (match e.kind with
                  | .ld | .atomic => 0 | .lds => 1 | .lda => 2 | .ldff => 3)))
        ∧ (∀ m k l, k < 16 → l < 32 →
          (m < r.fast → fieldOf b (20992 + 2048 * m + (32 * k + l) * 4) 4 = ((r.lane l).reg (16 * m + k)).toNat)
          ∧ (m < r.slow → fieldOf b (20992 + 2048 * (r.fast + m) + (32 * k + l) * 4) 4 = ((r.lane l).reg (128 + 16 * m + k)).toNat))
        ∧ (∀ m v, contents[m]? = some v → fieldOf b (20992 + 2048 * (r.fast + r.slow) + 4 * m) 4 = v.toNat)
        ∧ b.length = 20992 + 2048 * (r.fast + r.slow) + 4 * contents.length))
  -- what an image of a rod reads back as: every field it holds, bit for bit (R57, R449, R452)
  ∧ (∀ (s u : State) (r old : Rod) (cols epoch : Nat) (rows : List Nat) (contents : List Word) (t : Option Team) (k : RodKey),
    let q := rodOfImage u (rodImage s r cols epoch rows contents) old t k
    (∀ n : Fin 32, r.lanes[n].marks.length ≤ 8 ∧ r.lanes[n].loads.length ≤ 16
      ∧ r.lanes[n].item = BitVec.ofNat 64 (r.item0.toNat + n.val) ∧ r.lanes[n].pc.getLsbD 0 = false
      ∧ r.lanes[n].pc.getLsbD 1 = false ∧ r.lanes[n].pc.getLsbD 2 = false
      ∧ ∀ c : Fin 8, (carryBuf s.carry r.launch r.lanes[n].item.toNat c.val).gens.length ≤ 4) →
    r.fast ≤ 8 → r.slow ≤ 7 → r.launch < 2 ^ 64 → r.team < 2 ^ 64 → r.rod < 32 → r.lastLane < 32 →
    rows.Pairwise (· < ·) → (∀ n ∈ rows, n < 1024) →
    q.launch = r.launch ∧ q.team = r.team ∧ q.rod = r.rod ∧ q.item0 = r.item0 ∧ q.fast = r.fast ∧ q.slow = r.slow
      ∧ q.lastLane = r.lastLane ∧ q.unissued = min 4096 r.unissued ∧ q.arrived = r.arrived ∧ q.rows = rows
      ∧ ∀ n : Fin 32,
        let x := r.lanes[n]
        let y := q.lanes[n]
        y.st = x.st ∧ y.pc = x.pc ∧ y.item = x.item ∧ y.preds = x.preds ∧ y.xregs = x.xregs ∧ y.marks = x.marks
          ∧ y.readCount = x.readCount ∧ y.writeCount = x.writeCount ∧ y.cdone = x.cdone ∧ y.carryBits = x.carryBits
          ∧ y.valid = x.valid ∧ y.phase = x.phase ∧ y.rsCount = x.rsCount ∧ (x.wait = .none → y.wait = .none)
          ∧ (∀ g, r.holds g = true → y.reg g = x.reg g)
          ∧ y.loads.map (fun e => (e.addr, e.ordinal)) = x.loads.map (fun e => (e.addr, e.ordinal))
          ∧ ∀ m : Fin 32, x.live = true → r.lanes[m].live = true →
              (y.group = q.lanes[m].group ↔ lowest (r.subRod n.val) = lowest (r.subRod m.val)))
  ∧ (∀ (w : RWord) (s s1 : State) (p : FrameId) (r : Rod) (o : Operands) (t : Team),
    let va := (o.a.value (r.lane 0) (fun _ => 0)).toNat
    let slot := ((o.b.value (r.lane 0) (fun _ => 0)).setWidth 8 : BitVec 8).toNat
    let tk : TeamKey := { frame := p, slot := slot }
    FirmwareIssues s p r (.ctxsvTeam w) o → slot < Config.slotsOf p.die → s.team? tk = some t → s.teamIdle tk = true →
    s.saveImage p va (teamImage s tk t (s.frame p).saveEpoch) = .ok s1 → s1.team? tk = some t →
    ∃ u v, exec (.ctxsvTeam w) s = .next u ∧ u.team? tk = none ∧ u.mem = s1.mem
      ∧ (u.frame p).savedTeams = (s1.frame p).savedTeams ++ [v] ∧ v.team = t ∧ v.place = some (s.namedPlace p va)
      ∧ ∀ e, ((u.frame p).engine e).entries = ((s1.frame p).engine e).entries.filter (fun c => c.teamSlot != slot))
  ∧ (∀ (w : RWord) (s : State) (p : FrameId) (r : Rod) (o : Operands),
    let va := o.a.value (r.lane 0) (fun _ => 0)
    let slot := ((o.b.value (r.lane 0) (fun _ => 0)).setWidth 8 : BitVec 8).toNat
    let tk : TeamKey := { frame := p, slot := slot }
    let resident := (s.rodsOn p).any (fun e => e.2.teamSlot == slot)
    FirmwareIssues s p r (.ctxsvTeam w) o → slot < Config.slotsOf p.die →
    (s.team? tk = none ∨ resident = true →
      exec (.ctxsvTeam w) s = .next (s.contextFault p .illegalOperand (r.lane 0).pc))
    ∧ ((s.team? tk).isSome = true → resident = false → s.commandsDone tk = false →
      exec (.ctxsvTeam w) s = .next (s.modFrame p (fun f => { f with fw := .saving slot va }))))
  ∧ (∀ (s s1 : State) (p : FrameId) (t : Team) (slot : Nat) (va : DWord),
    let tk : TeamKey := { frame := p, slot := slot }
    let s0 := s.modFrame p (fun f => { f with fw := .running })
    (s.frame p).fw = .saving slot va → s.team? tk = some t →
    (s.teamIdle tk = false → s.finishSave p = s)
    ∧ (s.teamIdle tk = true → s0.saveImage p va.toNat (teamImage s0 tk t (s0.frame p).saveEpoch) = .ok s1 → s1.team? tk = some t →
      ∃ v, (s.finishSave p).team? tk = none ∧ (s.finishSave p).mem = s1.mem
        ∧ ((s.finishSave p).frame p).savedTeams = (s1.frame p).savedTeams ++ [v] ∧ v.team = t
        ∧ v.place = some (s.namedPlace p va.toNat)))
  ∧ (∀ (w : RWord) (s s1 s2 : State) (p : FrameId) (r : Rod) (o : Operands) (h b : List Byte) (tk : TeamKey) (t : Team),
    let va := (o.a.value (r.lane 0) (fun _ => 0)).toNat
    let slot := ((o.b.value (r.lane 0) (fun _ => 0)).setWidth 6 : BitVec 6).toNat
    FirmwareIssues s p r (.ctxld w) o → slot < Config.slotsOf p.die → s.rod? (rodKey p slot) = none →
    s.loadImage p va 512 = .ok (h, s1) → fieldOf h 0 4 = 0x7A100001 → fieldOf h 4 2 = 1 →
    (s.launchDead (fieldOf h 0x10 8) = true → exec (.ctxld w) s = .next (s.contextNext p))
    ∧ (s.launchDead (fieldOf h 0x10 8) = false → s.residentTeam p (fieldOf h 0x10 8) (fieldOf h 0x20 8) = some (tk, t) →
    s.loadImage p va (20992 + 2048 * (fieldOf h 6 1 + fieldOf h 7 1) + 4 * t.accCols * fieldOf h 0x2A 2) = .ok (b, s2) →
    ∃ u q, exec (.ctxld w) s = .next u ∧ u.rod? (rodKey p slot) = some q ∧ u.mem = s2.mem
      ∧ q.launch = fieldOf b 0x10 8 ∧ q.team = fieldOf b 0x20 8 ∧ q.rod = fieldOf b 0x28 1 ∧ q.fast = fieldOf b 6 1
      ∧ q.slow = fieldOf b 7 1 ∧ q.teamSlot = tk.slot
      -- a release of its rows that waited for the reload may take effect
      ∧ (∀ n ∈ q.rows, n ∈ bitmapOf 128 ((b.drop 0x80).take 128))
      ∧ (t.releasing = [] → q.rows = bitmapOf 128 ((b.drop 0x80).take 128))
      ∧ ∀ n : Fin 32,
        let x := q.lanes[n]
        let y := b.drop (0x200 + 640 * n.val)
        x.item = BitVec.ofNat 64 (fieldOf b 0x18 8 + n.val) ∧ x.preds = BitVec.ofNat 7 (fieldOf y 0xA 1)
          ∧ x.cdone = BitVec.ofNat 8 (fieldOf y 0xC 1) ∧ x.carryBits = BitVec.ofNat 8 (fieldOf y 0xD 1)
          ∧ x.valid = (y.getD 0xB 0).getLsbD 0 ∧ x.phase = (y.getD 0xB 0).getLsbD 1
          ∧ (∀ k : Fin 4, x.xregs[k] = BitVec.ofNat 32 (fieldOf y (0x10 + 4 * k.val) 4))
          ∧ (∀ k : Fin 8, x.readCount[k] = BitVec.ofNat 32 (fieldOf y (0x90 + 8 * k.val) 4))
          -- a blocked item may go on at once: its wait may have ended while the rod was away
          ∧ (fieldOf y 8 1 ≤ 5 → x.pc = BitVec.ofNat 64 (fieldOf y 0 8) &&& ~~~7#64
            ∧ x.st = (match fieldOf y 8 1 with
                | 0 => .noItem | 1 => .retired | 2 => .runnable | 3 => .parked | 4 => .carryWait | _ => .syncWait)
            ∧ (((s2.frame p).savedRod (fieldOf b 0x10 8) (fieldOf b 0x20 8) (fieldOf b 0x28 1)).map SavedRod.landed).getD [] = [] →
              ∀ m k, k < 16 →
                (m < fieldOf b 6 1 → fieldOf b 6 1 ≤ 8 → x.reg (16 * m + k)
                  = BitVec.ofNat 32 (fieldOf b (20992 + 2048 * m + (32 * k + n.val) * 4) 4))
                ∧ (m < fieldOf b 7 1 → fieldOf b 6 1 ≤ 8 → x.reg (128 + 16 * m + k)
                  = BitVec.ofNat 32 (fieldOf b (20992 + 2048 * (fieldOf b 6 1 + m) + (32 * k + n.val) * 4) 4)))))
  ∧ (∀ (w : RWord) (s : State) (p : FrameId) (r q : Rod) (o : Operands),
    FirmwareIssues s p r (.ctxld w) o →
    s.rod? (rodKey p ((o.b.value (r.lane 0) (fun _ => 0)).setWidth 6 : BitVec 6).toNat) = some q →
    exec (.ctxld w) s = .next (s.contextFault p .illegalOperand (r.lane 0).pc))
  ∧ (∀ (w : RWord) (s s1 s2 : State) (p : FrameId) (r : Rod) (o : Operands) (h b : List Byte),
    let va := (o.a.value (r.lane 0) (fun _ => 0)).toNat
    let slot := ((o.b.value (r.lane 0) (fun _ => 0)).setWidth 8 : BitVec 8).toNat
    let tk : TeamKey := { frame := p, slot := slot }
    let rows := (bitmapOf 128 ((h.drop 0x40).take 128)).length
    FirmwareIssues s p r (.ctxldTeam w) o → slot < Config.slotsOf p.die → s.team? tk = none →
    s.loadImage p va 256 = .ok (h, s1) → fieldOf h 0 4 = 0x7A100002 → fieldOf h 4 2 = 1 →
    s.launchDead (fieldOf h 0x10 8) = false → s.teamFrame (fieldOf h 0x10 8) (fieldOf h 0x18 8) = some p →
    s.loadImage p va (teamImageSize (fieldOf h 6 2) (fieldOf h 0x24 4) (Config.cellsOf p.die) rows) = .ok (b, s2) →
    ∃ u t, exec (.ctxldTeam w) s = .next u ∧ u.team? tk = some t ∧ u.mem = s2.mem ∧ t.launch = fieldOf b 0x10 8
      ∧ t.number = fieldOf b 0x18 8 ∧ t.rods = fieldOf b 0x2A 2 ∧ t.fsBytes = fieldOf b 0x24 4
      ∧ t.accRows = fieldOf b 0x28 2
      ∧ (∀ n, n < fieldOf b 0x24 4 → cellGet t.fs n = b.getD ((5696 + 64 * fieldOf b 6 2 + 255) / 256 * 256 + n) 0)
      ∧ ∀ n : Fin 16, t.windows[n] = { w0 := BitVec.ofNat 64 (fieldOf (b.drop (0x100 + 16 * n.val)) 0 8)
                                       w1 := BitVec.ofNat 64 (fieldOf (b.drop (0x100 + 16 * n.val)) 8 8) })

/-- Teams start, wait for their resources, are evicted, retire and give way as the rules say, and a launch completes; it
rests on log entries 4 (events not due), 8 (kept copies), 42, 43 and 44 (the hub's clock) (R34, R35, R37, R38, R40, R55, R56,
R404, R408, R409, R101, R403). -/
def Obligations.LaunchesAndTeams : Prop :=
  (∀ (s : State) (p : FrameId) (l : Launch) (ts slot : Nat),
    let c := l.record
    let i := l.nextTeam * c.teamRods * 32
    s.freeChoice p = s → s.activeLaunch p = some l → l.wrapped = false → l.killed = false → l.nextTeam < c.teams →
    (c.deadline = 0 ∨ (s.frameTime p).toNat < c.threshold) →
    l.frames[l.nextTeam % (max 1 l.frames.length)]? = some p → s.takesWork p = true →
    (s.frame p).olderWaits (l.seq, l.teamItem l.nextTeam) = false → s.teamFits p (1024 * c.fsKib) c.accRows = true →
    s.blocksFree p 0 0 c.fast c.slow = true → s.freeTeamSlot p = some ts → s.freeRodSlot p = some slot →
    ∃ t x q, exec (.teamStart p) s = .next t ∧ t.team? { frame := p, slot := ts } = some x
      ∧ t.rod? (rodKey p slot) = some q ∧ x.launch = l.seq ∧ x.number = l.nextTeam
      ∧ x.rods = min c.teamRods ((c.count.toNat + 31) / 32 - l.nextTeam * c.teamRods)
      ∧ x.fsBytes = 1024 * c.fsKib ∧ x.fs = [] ∧ x.accRows = c.accRows ∧ x.acc = [] ∧ x.retired = 0
      ∧ (∀ b : Fin 8, x.bars[b].expected = x.rods ∧ x.bars[b].arrivals = 0)
      ∧ (∀ n : Fin 16, x.queues[n].tokens = [] ∧ x.joins[n].pending = [] ∧ x.joins[n].mask = 0)
      ∧ q.launch = l.seq ∧ q.team = l.nextTeam ∧ q.rod = 0 ∧ q.teamSlot = ts ∧ q.fast = c.fast ∧ q.slow = c.slow
      ∧ (∀ n : Fin 32, if i + n.val < c.count.toNat then
          q.lanes[n].st = .runnable ∧ q.lanes[n].item = c.base + BitVec.ofNat 64 (i + n.val)
            ∧ q.lanes[n].pc = c.entryOn p.die ∧ q.lanes[n].regs = [] ∧ q.lanes[n].preds = 0 ∧ q.lanes[n].phase = false
        else q.lanes[n].st = .noItem)
      ∧ (∀ n, 1 ≤ n → n < x.rods → ∃ y ∈ (t.frame p).requests, y.kind = .rodStart l.nextTeam n ∧ y.launch = l.seq)
      ∧ (∃ l', t.launch? l.seq = some l' ∧ l'.nextTeam = l.nextTeam + 1) ∧ t.mem = s.mem)
  ∧ (∀ (s : State) (p : FrameId) (y : Request), s.oldestRequest p = some y →
    (∀ z ∈ (s.frame p).requests, s.requestLives p z = true) →
    let same (z : Request) : Bool :=
      match z.kind, y.kind with
      | .grow a _ b c, .grow a' _ b' c' | .acres a _ b c, .acres a' _ b' c' => decide (a = a' ∧ b = b' ∧ c = c')
      | _, _ => false
    (∀ (slot lane f sl : Nat) (r : Rod), y.kind = .grow slot lane f sl → s.rod? (rodKey p slot) = some r →
      (s.blocksFree p r.fast r.slow (max r.fast f) (max r.slow sl) = true →
        ∃ t q, exec (.requestServe p) s = .next t ∧ t.rod? (rodKey p slot) = some q ∧ q.fast = max r.fast f
          ∧ q.slow = max r.slow sl
          ∧ (∀ n : Fin 32, q.lanes[n] = if r.lanes[n].st = .blocked ∧ r.lanes[n].wait = .grow f sl then
              { r.lanes[n] with st := .runnable, wait := .none, pc := r.lanes[n].pc + 8 } else r.lanes[n])
          ∧ (t.frame p).requests = (s.frame p).requests.filter (fun z => !same z) ∧ t.mem = s.mem ∧ t.teams = s.teams ∧ t.hub = s.hub)
      ∧ (s.blocksFree p r.fast r.slow (max r.fast f) (max r.slow sl) = false → exec (.requestServe p) s = .next s))
    ∧ (∀ (slot lane row n : Nat) (r : Rod), y.kind = .acres slot lane row n → s.rod? (rodKey p slot) = some r →
      (∀ x, row ≤ x → x < row + n → s.rowFree { frame := p, slot := r.teamSlot } x = true
        ∨ x ∈ ownRows s { frame := p, slot := r.teamSlot } r) →
      ∃ t q, exec (.requestServe p) s = .next t ∧ t.rod? (rodKey p slot) = some q
        ∧ (∀ x, x ∈ q.rows ↔ x ∈ r.rows ∨ (row ≤ x ∧ x < row + n))
        ∧ (∀ k : Fin 32, q.lanes[k] = if r.lanes[k].st = .blocked ∧ r.lanes[k].wait = .acres row n then
            { r.lanes[k] with st := .runnable, wait := .none, pc := r.lanes[k].pc + 8 } else r.lanes[k])
        ∧ (t.frame p).requests = (s.frame p).requests.filter (fun z => !same z) ∧ t.mem = s.mem ∧ t.teams = s.teams ∧ t.hub = s.hub)
    ∧ (∀ (team rod slot : Nat) (l : Launch) (tk : TeamKey) (x : Team), y.kind = .rodStart team rod →
      s.launch? y.launch = some l → l.closed (s.frameTime p).toNat = false → (s.frame p).preempting = none →
      s.residentTeam p y.launch team = some (tk, x) → s.team? tk = some x → s.freeRodSlot p = some slot →
      s.blocksFree p 0 0 l.record.fast l.record.slow = true →
      ∃ t q, exec (.requestServe p) s = .next t ∧ t.rod? (rodKey p slot) = some q ∧ q.launch = l.seq ∧ q.team = team
        ∧ q.rod = rod ∧ q.teamSlot = tk.slot ∧ q.engineFaults = x.faults
        ∧ q.item0 = l.record.base + BitVec.ofNat 64 ((team * l.record.teamRods + rod) * 32)
        ∧ t.team? tk = some { x with started := x.started + 1, faults := [] }
        ∧ (t.frame p).requests = (s.frame p).requests.erase y ∧ t.mem = s.mem ∧ t.hub = s.hub)
    ∧ (∀ (team rod slot : Nat) (l : Launch) (v : SavedRod) (tk : TeamKey) (x : Team), y.kind = .reload team rod →
      s.launch? y.launch = some l → l.dead (s.frameTime p).toNat = false → s.placeReads p v.place = true →
      (s.frame p).preempting = none →
      (s.frame p).savedRod y.launch team rod = some v → s.freeRodSlot p = some slot →
      s.residentTeam p y.launch team = some (tk, x) → s.team? tk = some x →
      s.blocksFree p 0 0 v.rod.fast v.rod.slow = true → (∀ n ∈ v.rod.rows, s.rowFree tk n = true) →
      ∃ t q z, exec (.requestServe p) s = .next t ∧ t.rod? (rodKey p slot) = some q ∧ q.launch = v.rod.launch
        ∧ q.team = v.rod.team ∧ q.rod = v.rod.rod ∧ q.teamSlot = tk.slot ∧ q.fast = v.rod.fast ∧ q.slow = v.rod.slow
        ∧ (∀ n ∈ q.rows, n ∈ v.rod.rows) ∧ (x.releasing = [] → q.rows = v.rod.rows) ∧ q.item0 = v.rod.item0
        ∧ t.mem = s.mem
        -- what the items hold is as it was saved; a blocked item may go on at once
        ∧ (∀ n : Fin 32,
          let w := v.rod.lanes[n]
          let u := q.lanes[n]
          u.item = w.item ∧ u.preds = w.preds ∧ u.xregs = w.xregs ∧ u.marks = w.marks ∧ u.marked = w.marked
            ∧ u.cdone = w.cdone ∧ u.carryBits = w.carryBits ∧ u.valid = w.valid ∧ u.phase = w.phase
            ∧ u.readCount = w.readCount ∧ u.writeCount = w.writeCount
            ∧ (w.st ≠ .blocked → u.st = w.st ∧ u.pc = w.pc ∧ u.regs = w.regs ∧ u.loads = w.loads))
        ∧ t.team? tk = some z ∧ z.acc = cellsPut x.acc v.contents ∧ z.fs = x.fs ∧ z.windows = x.windows)
    ∧ (∀ (team : Nat) (l : Launch), y.kind = .reloadTeam team → s.launch? y.launch = some l →
      (l.dead (s.frameTime p).toNat = true ∨ (s.frame p).preempting ≠ none → exec (.requestServe p) s = .next s)
      ∧ (l.dead (s.frameTime p).toNat = false → (s.frame p).preempting = none →
        (∀ k x, s.residentTeam p y.launch team = some (k, x) → ∃ t, exec (.requestServe p) s = .next t
          ∧ (t.frame p).requests = (s.frame p).requests.erase y ∧ t.teams = s.teams ∧ t.rods = s.rods ∧ t.mem = s.mem)
        ∧ (∀ (v : SavedTeam) (ts : Nat), s.residentTeam p y.launch team = none →
          (s.frame p).savedTeam y.launch team = some v → s.freeTeamSlot p = some ts → s.takesWork p = true →
          s.teamFits p v.team.fsBytes v.team.accRows = true → (s.frame p).roomFor v = true → s.placeReads p v.place = true →
          ∃ t z, exec (.requestServe p) s = .next t ∧ t.team? { frame := p, slot := ts } = some z
            ∧ z.fs = v.team.fs ∧ z.acc = v.team.acc ∧ z.windows = v.team.windows ∧ z.queues = v.team.queues
            ∧ z.launch = v.team.launch ∧ z.number = v.team.number ∧ z.retired = v.team.retired
            ∧ (s.wrapped v.team.launch = false ∨ v.wrapped = true → z.joins = v.team.joins ∧ z.bars = v.team.bars
              ∧ ∀ c ∈ v.cmds, ∃ d ∈ ((t.frame p).engine c.1).entries, d.word = c.2.2.word ∧ d.e0 = c.2.2.e0
                ∧ d.e1 = c.2.2.e1 ∧ d.e2 = c.2.2.e2 ∧ d.progress = c.2.2.progress ∧ d.teamSlot = ts)
            ∧ (t.frame p).requests = (s.frame p).requests.erase y ∧ t.rods = s.rods ∧ t.mem = s.mem)
        ∧ (s.residentTeam p y.launch team = none → ((s.frame p).savedTeam y.launch team).isSome = true →
          s.freeTeamSlot p = none → exec (.requestServe p) s = .next s))))
  ∧ (∀ (s : State) (p : FrameId),
    ((s.pruneRequests p).oldestRequest p = none → exec (.requestServe p) s = .next (s.pruneRequests p))
    ∧ (s.evictee p = none → exec (.rodEviction p) s = .next s)
    ∧ (∀ (slot : Nat) (r : Rod), s.evictee p = some (slot, r) →
      (∀ e ∈ s.rodsOn p, e.2.stuck = true ∧ older (ageKey r) (ageKey e.2) = false)
      ∧ r.stop = .none ∧ r.traps = [] ∧ r.engineFaults = [] ∧ r.divert = false ∧ r.taken = false
      ∧ (s.evictionReady p slot r = true → s.rod? (rodKey p slot) = some r → (∀ n : Fin 32, r.lanes[n].loads = []) →
        (∀ (place : Option ImagePlace) (s1 : State),
          s.storeImage p r.launch (s.imageOfRod (rodKey p slot) r (s.frame p).saveEpoch) = .ok (place, s1) →
          s1.rods = s.rods → (∃ e ∈ s.rodsOn p, e.1 ≠ slot ∧ e.2.teamSlot = r.teamSlot) →
          ∃ t v, exec (.rodEviction p) s = .next t ∧ t.rod? (rodKey p slot) = none
            ∧ (t.frame p).savedRods = (s1.frame p).savedRods ++ [v] ∧ v.rod.lanes = r.lanes ∧ v.rod.launch = r.launch
            ∧ v.rod.rod = r.rod ∧ v.rod.rows = r.rows ∧ v.place = place
            ∧ { launch := r.launch, item0 := r.item0.toNat, kind := .reload r.team r.rod } ∈ (t.frame p).requests
            ∧ t.mem = s1.mem ∧ t.teams = s1.teams)
        ∧ (s.areaOf r.launch p = none → (∀ e ∈ s.rodsOn p, e.1 ≠ slot → e.2.teamSlot ≠ r.teamSlot) →
          (∀ x, s.team? { frame := p, slot := r.teamSlot } = some x → x.launch = r.launch) →
          ∃ t, exec (.rodEviction p) s = .next t ∧ t.rod? (rodKey p slot) = none
            ∧ t.team? { frame := p, slot := r.teamSlot } = none ∧ t.mem = s.mem ∧ t.hub = s.hub))))
  ∧ (∀ (s : State) (p : FrameId) (ts : Nat) (x : Team),
    let tk : TeamKey := { frame := p, slot := ts }
    s.team? tk = some x →
    (s.teamDone tk x = true → ∃ t, exec (.teamRetire p ts) s = .next t ∧ t.team? tk = none ∧ t.rods = s.rods
      ∧ t.mem = s.mem
      ∧ ∀ l, s.launch? x.launch = some l → ∃ l', t.launch? x.launch = some l' ∧ l'.retired = l.retired ++ [x.number]
          ∧ l'.lastRetire = s.frameTime p ∧ l'.outcomes = l.outcomes)
    ∧ (s.teamDone tk x = false → exec (.teamRetire p ts) s = .next s))
  ∧ (∀ (s : State) (p : FrameId) (l : Launch),
    bestLaunch s.hub.now.toNat (s.candidates p) = some l → s.takesWork p = true →
    l ∈ s.candidates p ∧ (∀ c ∈ s.candidates p, higherKey s.hub.now.toNat c l = false)
    ∧ ∃ t, exec (.schedulerChoice p) s = .next t ∧ t.rods = s.rods ∧ t.teams = s.teams ∧ t.mem = s.mem ∧ t.hub = s.hub
      ∧ (s.activeBusy p = true → (t.frame p).shadow = some l.bank ∧ (t.frame p).active = (s.frame p).active)
      ∧ (s.activeBusy p = false → (t.frame p).shadow = none ∧ (t.frame p).active = some l.bank))
  ∧ (∀ (s : State) (p : FrameId) (a l : Launch),
    let now := s.hub.now.toNat
    (s.frame p).preempting = none →
    s.activeLaunch p = some a → (s.die p.die).phase = .running → bestLaunch now (s.candidates p) = some l →
    l.seq ≠ a.seq → a.record.notPreemptible = false →
    (a.priority < l.priority ∨ ((s.frame p).event.getLsbD 2 = true ∧ l.priority = a.priority
      ∧ (l.slack now).toInt < (a.slack now).toInt)) →
    s.activeBusy p = true →
    ∃ t, exec (.preemption p) s = .next t
      ∧ (t.frame p).preempting = some { next := some l.bank, share := (s.frame p).share }
      ∧ (t.frame p).share = 64 ∧ (t.frame p).engctl = (s.frame p).engctl ||| 7
      ∧ (∀ n r, s.rod? (rodKey p n) = some r →
          ∃ q, t.rod? (rodKey p n) = some q ∧ (q.stop = .slice ∨ .slice ∈ q.traps) ∧ q.lanes = r.lanes)
      ∧ t.mem = s.mem ∧ t.teams = s.teams ∧ t.hub = s.hub)
  ∧ (∀ (s : State) (p : FrameId) (g : Preempting),
    (s.frame p).preempting = some g → s.boundaries p = s → s.quiet p = true → (s.frame p).fw ≠ .faulted →
    (∀ seq, s.areaOf seq p = none) →
    ∃ t, exec (.preemption p) s = .next t ∧ t.rodsOn p = [] ∧ t.teamsOn p = [] ∧ (t.frame p).preempting = none
      ∧ (t.frame p).share = g.share ∧ (t.frame p).engctl = 0 ∧ (t.frame p).event.getLsbD 2 = false
      ∧ .preempted p ∈ t.hub.reports
      ∧ (∀ e ∈ s.rodsOn p,
          { launch := e.2.launch, item0 := e.2.item0.toNat, kind := .reload e.2.team e.2.rod } ∈ (t.frame p).requests))
  ∧ (∀ (s : State) (seq : Nat) (l : Launch), s.launch? seq = some l →
    let c := l.counts
    let b := recordBytes c c.status 0 (if l.faultSaturated then 2 else 0) l.faultCount l.firstStart l.lastRetire
    (l.over = false → exec (.launchCompletion seq) s = .next s)
    ∧ (l.over = true → ∃ t, exec (.launchCompletion seq) s = .next t ∧ t.launch? seq = none
      ∧ (∀ e ∈ t.carry, e.1.launch ≠ seq) ∧ t.rods = s.rods ∧ t.teams = s.teams
      ∧ (∀ s1, l.record.vmap = 0 → l.record.csig = 0 → l.record.crec ≠ 0 → s.queue? l.queue = none →
          (s.launchRelease l).hubWrite l.asid l.record.crec.toNat b = (none, s1) → t.mem = s1.mem))
    ∧ fieldOf b 0 8 = c.normal % 2 ^ 64 ∧ fieldOf b 8 8 = c.wrappedValid % 2 ^ 64
    ∧ fieldOf b 0x10 8 = c.wrappedInvalid % 2 ^ 64 ∧ fieldOf b 0x18 8 = c.notRun % 2 ^ 64
    ∧ fieldOf b 0x20 8 = c.killed % 2 ^ 64 ∧ fieldOf b 0x28 1 = c.status ∧ fieldOf b 0x2C 4 = l.faultCount.toNat
    ∧ fieldOf b 0x30 8 = l.firstStart.toNat ∧ fieldOf b 0x38 8 = l.lastRetire.toNat
    ∧ c.status = (if c.killed ≠ 0 then 2 else if c.wrappedValid + c.wrappedInvalid + c.notRun = 0 then 0 else 1))

/-- Wrap-up, the divert, the kill and the three watchdogs leave what the rules say, and nothing happens before their time,
nor a divert after it; that T_w and D are compared with the hub's copy of package time is log entry 44's choice, that an
event not due leaves the state unchanged log entry 4, where time stops log entry 51 (R93, R94, R99, R104, R436, R442, R456,
R66, R95). -/
def Obligations.DeadlinesAndWatchdogs : Prop :=
  (∀ (s : State) (seq : Nat) (l : Launch),
    let c := l.record
    let now := s.hub.now.toNat
    s.launch? seq = some l →
    (c.deadline = 0 ∨ l.wrapped = true ∨ l.killed = true ∨ l.completed = true ∨ now < c.deadline.toNat - c.budget.toNat →
      exec (.wrapUpThreshold seq) s = .next s)
    ∧ (c.deadline ≠ 0 → l.wrapped = false → l.killed = false → l.completed = false →
        c.deadline.toNat - c.budget.toNat ≤ now →
      (c.budget = 0 → exec (.wrapUpThreshold seq) s = exec (.deadlineKill seq) s)
      ∧ (c.budget ≠ 0 → ∃ t l', exec (.wrapUpThreshold seq) s = .next t ∧ t.launch? seq = some l' ∧ l'.wrapped = true
        ∧ (∀ p n q, t.rod? (rodKey p n) = some q → q.launch = seq →
            (q.divert = true ↔ ∃ k : Fin 32, q.lanes[k].live = true ∧ q.lanes[k].phase = false))
        ∧ (∀ p e, ∀ x ∈ ((t.frame p).engine e).entries, x.launch = seq → x.started = true)
        ∧ (∀ tk x, t.team? tk = some x → x.launch = seq → ∀ j : Fin 16, x.joins[j].pending = [])
        ∧ (∀ p, ∀ y ∈ (t.frame p).requests, y.launch = seq → ∀ a b, y.kind ≠ .rodStart a b) ∧ t.mem = s.mem))
    ∧ (c.deadline = 0 ∨ l.killed = true ∨ l.completed = true ∨ now < c.deadline.toNat →
      exec (.deadlineKill seq) s = .next s)
    ∧ (l.killed = true ∨ l.completed = true → exec (.launchKill seq) s = .next s)
    ∧ (∀ i : Instr, (i = .deadlineKill seq ∧ c.deadline ≠ 0 ∧ c.deadline.toNat ≤ now) ∨ i = .launchKill seq →
        l.killed = false → l.completed = false →
      ∃ t l', exec i s = .next t ∧ t.launch? seq = some l' ∧ l'.killed = true ∧ (i = .launchKill seq → l'.killAll = true)
        ∧ (∀ p n q, t.rod? (rodKey p n) = some q → q.launch ≠ seq)
        ∧ (∀ p, ∀ v ∈ (t.frame p).savedRods, v.rod.launch ≠ seq) ∧ (∀ p, ∀ y ∈ (t.frame p).requests, y.launch ≠ seq)
        ∧ (∀ p, ∀ x ∈ (t.frame p).records, x.launch = seq → x.withdrawn = true ∨ x.resolved = true)
        ∧ (∀ p n q, s.rod? (rodKey p n) = some q → q.launch = seq → ∀ k : Fin 32, q.lanes[k].live = true →
            (q.lanes[k].item.toNat, .killed) ∈ l'.outcomes)
        ∧ t.mem = s.mem))
  ∧ (∀ (s : State) (p : FrameId) (n : Nat) (r : Rod),
    let k := rodKey p n
    let c := s.recordOfLaunch r.launch
    s.rod? k = some r →
    (r.divert = true → r.stop = .none → (∀ m : Fin 32, r.lanes[m].fence = none) →
      ∃ t q, exec (.itemDivert k) s = .next t ∧ t.rod? k = some q ∧ { q with lanes := r.lanes, nextGroup := r.nextGroup } =
          { r with divert := false }
        ∧ (∀ m : Fin 32, r.lanes[m].live = true → { q.lanes[m] with group := r.lanes[m].group } =
            { r.lanes[m] with pc := c.entryOn p.die + c.wrapOff.setWidth 64, st := .runnable, wait := .none, marks := []
                              phase := true, record := none })
        ∧ (∀ m j : Fin 32, r.lanes[m].live = true → r.lanes[j].live = true → q.lanes[m].group = q.lanes[j].group)
        ∧ (∀ m : Fin 32, r.lanes[m].live = false → q.lanes[m] = r.lanes[m])
        ∧ (∀ x ∈ (s.frame p).records, (∃ m : Fin 32, r.lanes[m].st = .parked ∧ r.lanes[m].record = some x.seq) →
            x.ofRod r = true → x.queued = true → x.withdrawn = false → x.resolved = false →
            ∃ y ∈ (t.frame p).records, y.seq = x.seq ∧ y.withdrawn = true ∧ y.cause = 0x15 ∧ y.orig = x.cause)
        ∧ t.mem = s.mem ∧ t.teams = s.teams ∧ t.hub = s.hub ∧ t.carry = s.carry)
    ∧ (r.divert = false ∨ r.stop ≠ .none → exec (.itemDivert k) s = .next s))
  ∧ (∀ (s : State) (p : FrameId),
    let f := s.frame p
    let now := s.hub.now.toNat
    let limit := 1000 * (f.wdog.extractLsb' 16 16).toNat
    (s.frameStuck p = false ∨ (s.evictee p).isSome = true →
      exec (.stuckFrameWatchdog p) s = .next (s.modFrame p (fun f => { f with stuckSince := none })))
    ∧ (s.frameStuck p = true → s.evictee p = none → f.stuckSince = none →
      exec (.stuckFrameWatchdog p) s = .next (s.modFrame p (fun f => { f with stuckSince := some now })))
    ∧ (∀ since, s.frameStuck p = true → s.evictee p = none → f.stuckSince = some since →
      (now < since + limit → exec (.stuckFrameWatchdog p) s = .next s)
      ∧ (since + limit ≤ now →
        ∃ t slot r x, exec (.stuckFrameWatchdog p) s = .next t ∧ (slot, r) ∈ s.rodsOn p
          ∧ (∀ e ∈ s.rodsOn p, older (ageKey e.2) (ageKey r) = false)
          ∧ (t.frame p).records = f.records ++ [x] ∧ x.cause = 0x17 ∧ x.slot = slot
          ∧ x.lanes = r.maskWhere (fun y => y.live && y.st != .parked) ∧ (t.frame p).event = f.event ||| 16
          ∧ (t.frame p).stuckSince = none
          ∧ (s.rod? (rodKey p slot) = some r → ∃ q, t.rod? (rodKey p slot) = some q
            ∧ ∀ m : Fin 32, r.lanes[m].live = true → q.lanes[m].st = .parked ∧ q.lanes[m].pc = r.lanes[m].pc)
          ∧ t.mem = s.mem ∧ t.teams = s.teams)))
  ∧ (∀ (s : State) (p : FrameId) (e : EngineId),
    let f := s.frame p
    let now := s.hub.now.toNat
    let limit := 1000 * (f.wdog.extractLsb' 0 16).toNat
    (s.stalledHead p e = none →
      exec (.engineWatchdog p e) s = .next (s.modEngine p e (fun q => { q with stalledSince := none })))
    ∧ (∀ c, s.stalledHead p e = some c →
      ((∀ since, (f.engine e).stalledSince ≠ some ((c.launch, c.team, c.ord), since)) →
        exec (.engineWatchdog p e) s = .next (s.modEngine p e (fun q =>
          { q with stalledSince := some ((c.launch, c.team, c.ord), now) })))
      ∧ (∀ since, (f.engine e).stalledSince = some ((c.launch, c.team, c.ord), since) → now < since + limit →
          exec (.engineWatchdog p e) s = .next s)
      ∧ (∀ since n q x, (f.engine e).stalledSince = some ((c.launch, c.team, c.ord), since) → since + limit ≤ now →
          s.nothingWaits p → s.team? (cmdTeam p c) = some x → c.rod ∈ x.unretired → c.rod < x.started →
          s.memberSlot (cmdTeam p c) c.rod = some n → s.rod? (rodKey p n) = some q →
        ∃ t q', exec (.engineWatchdog p e) s = .next t
          ∧ ((t.frame p).engine e).entries =
              (f.engine e).entries.filter (fun x => !(x.teamSlot == c.teamSlot && !x.started))
          ∧ (t.frame p).event = f.event ||| 16 ∧ t.rod? (rodKey p n) = some q'
          ∧ q'.engineFaults = q.engineFaults ++ [{ cause := .watchdog, orig := none, word := c.word, addr := 0
                                                   progress := 0, engine := e }]
          ∧ t.mem = s.mem)))
  ∧ (∀ (s : State) (p : FrameId) (seq : BitVec 16),
    let ended (x : Record) : Prop := x.resolved = true ∨ (x.queued = false ∧ (x.withdrawn = true
      ∨ ∀ e ∈ s.rodsOn p, ∀ n : Fin 32, ¬ (e.2.lanes[n].st = .parked ∧ e.2.lanes[n].record = some x.seq)))
    ((∀ x ∈ (s.frame p).records, x.seq = seq → ended x) → exec (.partitionWatchdog p seq) s = .next s)
    ∧ (∀ (pre post : List Record) (x : Record), (s.frame p).records = pre ++ x :: post → x.seq = seq →
        ¬ ended x → (∀ y ∈ pre, y.seq = seq → ended y) →
      let limit := 1000000 * (s.partOf x.asid.toNat).queueWdogMs
      (s.hub.now.toNat < x.since + limit → exec (.partitionWatchdog p seq) s = .next s)
      ∧ (x.since + limit ≤ s.hub.now.toNat →
        ∃ t, exec (.partitionWatchdog p seq) s = .next t
          ∧ t.hub = { s.hub with reports := s.hub.reports ++ [.partitionWatchdog p seq] }
          ∧ (t.frame p).records.map (fun y => { y with since := 0 }) =
              (s.frame p).records.map (fun y => { y with since := 0 })
          ∧ t.rods = s.rods ∧ t.teams = s.teams ∧ t.mem = s.mem)))
  -- package time stops at the last moment of a divert that is owed, 2 µs after T_w by the frame's copy, and takes it (R95)
  ∧ (∀ (s : State) (l : Launch) (k : RodKey) (r : Rod),
    let due := whenCopyReads k.frame (l.record.deadline.toNat - l.record.budget.toNat + 2000)
    l ∈ s.hub.launches → l.record.deadline ≠ 0 → l.completed = false → (k, r) ∈ s.rods → r.launch = l.seq →
    r.divert = true → r.stop = .none →
    (∀ t, s.hub.now.toNat < due → s.nextMoment t ≤ due)
    ∧ (∀ q : State, q.hub.now.toNat = due →
        q.frameTime k.frame = BitVec.ofNat 64 (l.record.deadline.toNat - l.record.budget.toNat + 2000))
    ∧ (s.rods = [(k, r)] → due ≤ s.hub.now.toNat → r.engineFaults = [] → r.traps = [] →
        (∀ m : Fin 32, r.lanes[m].fence = none) → exec (.itemDivert k) s = .next (s.forceDiverts l)))
  ∧ (∀ (s : State) (t ns : Nat), (s.hub.now.toNat ≤ t → s.hub.now.toNat ≤ s.nextMoment t) ∧ s.nextMoment t ≤ t
    ∧ ((∀ m ∈ s.moments, m ≤ s.hub.now.toNat) → s.nextMoment t = t)
    ∧ s.tick ns =
        (let u := s.takeDue
         let held := min u.hub.hold ns
         ({ u with hub := { u.hub with hold := u.hub.hold - held
                                       now := BitVec.ofNat 64 (u.nextMoment (u.hub.now.toNat + (ns - held))) } }).takeDue))

/-- A queue is registered, reads its tail, stops, starts, restarts, swaps in and is watched as the rules say; an event not
due leaves the state unchanged (log entry 4) (R383, R384, R387, R388, R389, R390, R391, R413). -/
def Obligations.QueueEvents : Prop :=
  (∀ (s : State) (q desc part asid : Nat),
    let ok := s.queue? q = none ∧ q < 65536 ∧ part < 8 ∧ (s.partition part).isDefined = true ∧ desc % 256 = 0
      ∧ s.inPartition part desc = true ∧ s.inPartition part (desc + 511) = true ∧ 1 ≤ asid ∧ asid < 4096
    (ok → ∃ t y, exec (.queueRegister q desc part asid) s = .next t ∧ t.queue? q = some y ∧ y.desc = desc ∧ y.part = part
      ∧ y.asid = asid ∧ y.state = 5 ∧ y.enabled = false ∧ y.readIdx = 0 ∧ y.issueIdx = 0 ∧ y.tail = 0 ∧ y.started = []
      ∧ y.wait = none ∧ t.rods = s.rods ∧ t.teams = s.teams ∧ t.hub.launches = s.hub.launches)
    ∧ (¬ ok → exec (.queueRegister q desc part asid) s = .next s))
  ∧ (∀ (s s1 : State) (q v : Nat) (x : Queue),
    let s0 := s.setQueue q { x with notified := false }
    s.queue? q = some x →
    (x.notified = false → exec (.queueTailWrite q) s = .next s)
    ∧ (x.notified = true → 4 ≤ x.state → exec (.queueTailWrite q) s = .next s0)
    ∧ (x.notified = true → x.state = 3 → ∃ t, exec (.queueTailWrite q) s = .next t ∧ q ∈ t.hub.swapRequests
        ∧ (∀ n ∈ s.hub.swapRequests, n ∈ t.hub.swapRequests) ∧ t.hub.queues = s0.hub.queues ∧ t.mem = s.mem)
    ∧ (x.notified = true → x.state ≤ 2 → s0.getDesc x 0x100 8 = (v, s1) →
      ∃ t y, exec (.queueTailWrite q) s = .next t ∧ t.queue? q = some y ∧ y.readIdx = x.readIdx
        ∧ (v < x.tail ∨ x.readIdx + 2 ^ x.log2 < v → y.state = 4 ∧ y.error = 3 ∧ y.errorIndex = x.readIdx)
        ∧ (x.tail ≤ v → v ≤ x.readIdx + 2 ^ x.log2 →
            y.tail = v ∧ y.state = (if x.state = 0 ∧ x.readIdx < v then 1 else x.state) ∧ t.mem = s1.mem)))
  ∧ (∀ (s s1 : State) (q c : Nat) (x : Queue), s.queue? q = some x → s.getDesc x 0x108 8 = (c, s1) →
    (c = 0 ∨ c = 2 → x.stopping = false → exec (.queueStopRequest q) s = .next s1)
    ∧ (c = 0 ∨ c = 2 → x.stopping = true → x.started = [] → ∃ t y, exec (.queueStopRequest q) s = .next t
        ∧ t.queue? q = some y ∧ y.state = 5 ∧ y.enabled = false ∧ y.stopping = false)
    ∧ (c = 0 ∨ c = 1 → x.starting = false → exec (.queueStartRequest q) s = .next s1)
    ∧ (3 ≤ c → x.stopping = false → ∃ t y, exec (.queueStopRequest q) s = .next t ∧ t.queue? q = some y
        ∧ { y with notified := x.notified } = x)
    ∧ (c = 1 → x.state ≠ 5 → x.wait = none → x.started ≠ [] →
        exec (.queueStopRequest q) s = .next (s1.setQueue q
          { x with stopping := true, state := if x.state = 2 then 1 else x.state }))
    ∧ (c = 1 → x.state ≠ 5 → x.wait = none → x.started = [] →
        ∃ t y, exec (.queueStopRequest q) s = .next t ∧ t.queue? q = some y ∧ y.state = 5 ∧ y.enabled = false
          ∧ y.stopping = false ∧ y.starting = false ∧ y.started = [] ∧ y.readIdx = x.completedTo
          ∧ q ∉ t.hub.swapRequests)
    ∧ (∀ (w : WaitPacket), c = 1 → x.state = 2 → x.wait = some w → x.started = [{ num := w.num, ring := x.issueIdx - 1 }] →
        x.levels = [] → ∃ t y, exec (.queueStopRequest q) s = .next t ∧ t.queue? q = some y ∧ y.state = 5 ∧ y.wait = none
          ∧ y.started = [] ∧ y.issueIdx = x.issueIdx - 1)
    ∧ (∀ (b : List Byte) (s2 : State), c = 2 → x.state = 5 → x.starting = false → s1.readPhys x.desc 64 = (b, s2) →
      (badLine0 (s2.partition x.part) b = true →
        ∃ t y, exec (.queueStartRequest q) s = .next t ∧ t.queue? q = some y ∧ y.state = 4 ∧ y.error = 8
          ∧ y.errorIndex = x.readIdx ∧ y.enabled = x.enabled)
      ∧ (badLine0 (s2.partition x.part) b = false → s2.swapTurn q x.part = true →
          s2.slotsUsed x.part < (s2.partition x.part).quota →
        ∃ t y, exec (.queueStartRequest q) s = .next t ∧ t.queue? q = some y ∧ y.enabled = true
          ∧ y.ring = fieldOf b 0 8 ∧ y.log2 = fieldOf b 8 1 ∧ y.prioCap = fieldOf b 0xA 1 ∧ y.asid = fieldOf b 0xC 2
          ∧ (y.state ≤ 1 ∨ (y.state = 4 ∧ y.error = 3)) ∧ y.starting = false ∧ q ∉ t.hub.swapRequests)
      ∧ (badLine0 (s2.partition x.part) b = false → s2.swapTurn q x.part = false →
        ∃ t y, exec (.queueStartRequest q) s = .next t ∧ t.queue? q = some y ∧ y.state = 5 ∧ y.starting = true
          ∧ y.enabled = x.enabled ∧ q ∈ t.hub.swapRequests)))
  ∧ (∀ (s : State) (q : Nat) (x : Queue), s.queue? q = some x → x.state = 4 →
    (x.started ≠ [] → exec (.queueRestart q) s = .next s)
    ∧ (x.started = [] → x.enabled = true →
      ∃ t y, exec (.queueRestart q) s = .next t ∧ t.queue? q = some y ∧ y.readIdx = x.completedTo
        ∧ y.issueIdx = x.completedTo ∧ y.levels = [] ∧ (y.state ≤ 1 ∨ (y.state = 4 ∧ y.error = 3))))
  ∧ (∀ (s : State) (q : Nat) (x : Queue), s.queue? q = some x →
    (x.state ≠ 3 ∨ q ∉ s.hub.swapRequests ∨ s.swapTurn q x.part = false
        ∨ s.takeSlot x.part = none → exec (.queueSwapIn q) s = .next s)
    ∧ (x.state = 3 → q ∈ s.hub.swapRequests → s.swapTurn q x.part = true →
        s.slotsUsed x.part < (s.partition x.part).quota →
      ∃ t y, exec (.queueSwapIn q) s = .next t ∧ t.queue? q = some y ∧ q ∉ t.hub.swapRequests ∧ y.wait = x.wait
        ∧ ((y.state = 4 ∧ y.error = 3) ∨ (if x.wait = none then y.state ≤ 1 else y.state = 2)))
    ∧ (∀ w, x.wait = some w → x.waitStart + 1000000 * (s.partition x.part).queueWdogMs < s.now →
        exec (.queueWatchdog q) s = .next (s.report (.queueWatchdog q)))
    ∧ (x.wait = none ∨ s.now ≤ x.waitStart + 1000000 * (s.partition x.part).queueWdogMs →
        exec (.queueWatchdog q) s = .next s))

/-- Every packet of a queue that may start does what its type says, and a WAIT ends when its word is there or its time is
over; an event not due leaves the state unchanged (log entry 4) (R388, R392, R394, R395, R396, R397, R398, R402, R406, R407).
-/
def Obligations.Packets : Prop :=
  (∀ (s : State) (q : Nat) (x : Queue), s.queue? q = some x → x.state = 1 →
    ∃ y, (s.passPacket q).queue? q = some y ∧ y.started = x.started ∧ y.nextNum = x.nextNum + 1 ∧ y.tail = x.tail
      ∧ (x.levels = [] → y.issueIdx = x.issueIdx + 1 ∧ y.levels = [])
      ∧ (x.levels = [] → x.started = [] → y.readIdx = x.issueIdx + 1
          ∧ y.state = (if x.issueIdx + 1 = x.tail then 0 else 1))
      ∧ (∀ a n rest, x.levels = (a, n + 2) :: rest → y.levels = (a + 64, n + 1) :: rest ∧ y.issueIdx = x.issueIdx))
  ∧ (∀ (s s1 : State) (q n : Nat) (x : Queue) (b : List Byte), PacketStarts s q n x b s1 →
    (n = 7 → exec (.nopPacket q) s = .next (s1.passPacket q))
    ∧ (n = 5 → exec (.joinq q) s = .next (s1.passPacket q))
    ∧ (n = 2 → ∀ (r : Option Nat) (s2 : State),
        (if fieldOf b 0x18 1 = 1 then s1.hubAdd x.asid (fieldOf b 8 8) (BitVec.ofNat 64 (fieldOf b 0x10 8))
          else s1.hubWrite x.asid (fieldOf b 8 8) (leBytes 8 (fieldOf b 0x10 8))) = (r, s2) →
        (r = none → exec (.signal q) s = .next (s2.passPacket q))
        ∧ (r ≠ none → exec (.signal q) s = .next (s2.queueError q 4 x.packetIndex)))
    ∧ (n = 8 → ∀ (r : Option Nat) (s2 : State),
        s1.hubWrite x.asid (fieldOf b 8 8) (leBytes 8 s1.hub.now.toNat) = (r, s2) →
        (r = none → exec (.timestamp q) s = .next (s2.passPacket q))
        ∧ (r ≠ none → exec (.timestamp q) s = .next (s2.queueError q 4 x.packetIndex)))
    ∧ (n = 6 → exec (.fencePacket q) s = .next (((maskLanes (BitVec.ofNat 32 (fieldOf b 8 4))).foldl
        (fun s d => s.flushDie d) (x.doneFrames.foldl (fun s p => s.releaseAt p (packetScope b)) s1)).passPacket q))
    ∧ (n = 4 → exec (.callq q) s = .next ((s1.setQueue q
        { x.pass with levels := (fieldOf b 8 8, fieldOf b 0x10 4) :: x.pass.levels }).publishIssue q))
    ∧ (n = 3 → ∀ (ps : List HubPiece) (v : List Byte) (s2 s3 : State),
        s1.hubAccess x.asid (fieldOf b 8 8) 8 .read = (.ok ps, s2) → State.hubGather ps s2 = (v, s3) →
        (fieldOf b 0x10 8 % 2 ^ 64 ≤ ofLe v → exec (.wait q) s = .next (s3.passPacket q))
        ∧ (ofLe v < fieldOf b 0x10 8 % 2 ^ 64 → ∃ t y w, exec (.wait q) s = .next t ∧ t.queue? q = some y ∧ y.state = 2
            ∧ y.wait = some w ∧ w.addr = fieldOf b 8 8 ∧ w.value = BitVec.ofNat 64 (fieldOf b 0x10 8)
            ∧ w.timeout = BitVec.ofNat 64 (fieldOf b 0x18 8) ∧ w.goOn = decide (fieldOf b 0x20 1 = 1)
            ∧ y.waitStart = s3.now ∧ y.readIdx = x.readIdx))
    ∧ (n = 3 → ∀ (e : Cause × Nat) (s2 : State), s1.hubAccess x.asid (fieldOf b 8 8) 8 .read = (.error e, s2) →
        exec (.wait q) s = .next (s2.queueError q 4 x.packetIndex)))
  ∧ (∀ (s s1 s2 s3 : State) (q : Nat) (x : Queue) (b r : List Byte) (d : LaunchReads),
    let l := launchRecordOf r d.pair
    PacketStarts s q 1 x b s1 → s.hub.ready = true → s1.hubRead x.asid (fieldOf b 8 8) 256 = (.ok r, s2) →
    fieldOf r 0x18 1 ≠ 2 → s2.launchReads x b r = (d, s3) →
    (∀ n, refusalReason l r d.readable = some n → exec (.launch q) s = .next (refuseLaunch q x b l n s3))
    ∧ (refusalReason l r d.readable = none → l.count ≠ 0 → s3.frameList x b l d.list = none →
        exec (.launch q) s = .next (refuseLaunch q x b l 10 s3))
    ∧ (refusalReason l r d.readable = none → l.count = 0 → l.crec.toNat % 64 = 0 →
        exec (.launch q) s = .next ((s3.writeCompletion x.asid 0 l.crec (List.replicate 64 0) l.csig (dwordAt b 0x20)
          (fieldOf b 0x28 1 == 1)).passPacket q))
    ∧ (∀ fs, refusalReason l r d.readable = none → l.count ≠ 0 → l.crec.toNat % 64 = 0 →
        s3.frameList x b l d.list = some fs → s3.poolSize < 4096 → l.area fs ≤ s3.poolLeft x.part →
      ∃ t a y, exec (.launch q) s = .next t ∧ t.hub.launches = s3.hub.launches ++ [a] ∧ a.record = l ∧ a.frames = fs
        ∧ a.seq = s3.hub.nextSeq ∧ t.hub.nextSeq = s3.hub.nextSeq + 1 ∧ a.asid = x.asid ∧ a.queue = q
        ∧ a.priority = min l.priority x.prioCap ∧ a.nextTeam = 0 ∧ a.wrapped = false ∧ a.killed = false
        ∧ a.completed = false ∧ a.areas.map Prod.fst ⊆ fs ∧ t.queue? q = some y ∧ t.rods = s.rods))
  ∧ (∀ (s s1 : State) (q n c : Nat) (x : Queue) (b : List Byte) (i : Instr),
    (i = .signal q ∧ n = 2) ∨ (i = .wait q ∧ n = 3) ∨ (i = .callq q ∧ n = 4) ∨ (i = .joinq q ∧ n = 5)
      ∨ (i = .fencePacket q ∧ n = 6) ∨ (i = .nopPacket q ∧ n = 7) ∨ (i = .timestamp q ∧ n = 8) →
    s.queue? q = some x → x.state = 1 → x.stopping = false → x.wait = none → x.hasNext = true →
    s.packetBytes x = (.ok b, s1) → packetType b = n ∨ packetKnown b = false →
    packetError x.levels.length b = some c →
    ∃ t y, exec i s = .next t ∧ t.queue? q = some y ∧ y.state = 4 ∧ y.error = c ∧ y.errorIndex = x.packetIndex)
  ∧ (∀ (s : State) (q : Nat) (x : Queue) (w : WaitPacket), s.queue? q = some x → x.state = 2 → x.wait = some w →
    (∀ (b : List Byte) (s1 : State), s.hubRead x.asid w.addr 8 = (.ok b, s1) →
      (ofLe b < w.value.toNat → exec (.waitComplete q) s = .next s1)
      ∧ (w.value.toNat ≤ ofLe b → ∃ t y, exec (.waitComplete q) s = .next t ∧ t.queue? q = some y ∧ y.wait = none
          ∧ y.state ≤ 1 ∧ y.started = x.started.filter (fun e => e.num != w.num)))
    ∧ (∀ (e : Cause × Nat) (s1 : State), s.hubRead x.asid w.addr 8 = (.error e, s1) →
      ∃ t y, exec (.waitComplete q) s = .next t ∧ t.queue? q = some y ∧ y.wait = none ∧ y.state = 4 ∧ y.error = 4)
    ∧ (x.timedOut s.now = false → exec (.waitTimeout q) s = .next s)
    ∧ (x.timedOut s.now = true → w.goOn = true → ∃ t y, exec (.waitTimeout q) s = .next t ∧ t.queue? q = some y
        ∧ y.wait = none ∧ y.state ≤ 1 ∧ y.started = x.started.filter (fun e => e.num != w.num))
    ∧ (x.timedOut s.now = true → w.goOn = false → ∃ t y, exec (.waitTimeout q) s = .next t ∧ t.queue? q = some y
        ∧ y.wait = none ∧ y.state = 4 ∧ y.error = 6 ∧ y.errorIndex = x.waitIndex w
        ∧ y.started = x.started.filter (fun e => e.num != w.num)))
  ∧ (∀ (s : State) (q : Nat) (x : Queue), s.queue? q = some x → x.state = 3 → x.timedOut s.now = true →
    ∃ t, exec (.waitTimeout q) s = .next t ∧ q ∈ t.hub.swapRequests ∧ t.hub.queues = s.hub.queues)
  ∧ (∀ (s s1 : State) (x : Queue) (new : List Byte), s.hubRead x.asid x.nextAddr 64 = (.ok new, s1) →
    (x.ahead = [] → s.packetBytes x = (.ok new, s1))
    ∧ (∀ old rest, x.ahead = old :: rest → ∃ b s2, s.packetBytes x = (.ok b, s2) ∧ b.length = old.length
        ∧ ∀ k, k < b.length → b[k]? = old[k]? ∨ b[k]? = some (new.getD k (old.getD k 0))))

/-- The directory's requests, snoops, untracked accesses and home atomics leave copies, entries and bytes as the rules say; a
write to a poisoned sector is not performed, whatever its mask, by log entry 18 (DEDUCED), and a request not due leaves the
state unchanged (log entry 4) (R427, R428, R429, R430, R431, R434, R193, R188). -/
def Obligations.Coherence : Prop :=
  (∀ (s : State) (a n : Nat),
    let h := s.heldAs a n
    let g := s.dir n
    let open_ := a < 10 ∧ 64 * n < Config.deviceBytes ∧ s.agentOut a = false ∧ s.severed (agentNode a) n = false
    (open_ → h = .i → s.poisoned n = false →
      (∃ t x, exec (.readShared a n) s = .next t ∧ t.agentSector a n = some x ∧ x.valid = BitVec.allOnes 64 ∧ x.dirty = 0
        ∧ (x.st = .e ∨ x.st = .s) ∧ (g.st = .dI → x.st = .e ∧ x.data = s.homeData n
            ∧ t.dir n = { st := .dX, sharers := 0, owner := a }
            ∧ ((tableFind (n / 4) s.hub.directory).isSome = true → (s.line n).other (n % 4) DirState.owned = false →
                t.mem = s.mem))
        ∧ (∀ y, g.st = .dX → g.owner ≠ a → g.owner < 10 → s.gather g.owner n = s → s.agentSector g.owner n = some y →
            x.st = .s ∧ x.data = y.data ∧ t.mem = s.mem
            ∧ (t.dir n).st = (if y.st = .m ∨ y.st = .o then .dO else .dS)
            ∧ t.agentSector g.owner n = some { y with st := if y.st = .m ∨ y.st = .o then .o else .s })
        ∧ (∀ y, g.st = .dO → g.owner ≠ a → g.owner < 10 → s.gather g.owner n = s → s.agentSector g.owner n = some y →
            x.st = .s ∧ x.data = y.data ∧ t.mem = s.mem ∧ t.dir n = { g with sharers := g.sharers ||| (1#10 <<< a) }
            ∧ t.agentSector g.owner n = some y)
        ∧ (g.st = .dS → x.st = .s ∧ x.data = s.homeData n ∧ t.dir n = { g with sharers := g.sharers ||| (1#10 <<< a) }
            ∧ t.mem = s.mem) ∧ (t.dir n).holders.getLsbD a = true)
      ∧ (∃ t x, exec (.readUnique a n) s = .next t ∧ t.agentSector a n = some x ∧ x.st = .e ∧ x.dirty = 0
        ∧ x.valid = BitVec.allOnes 64 ∧ x.data = t.homeData n ∧ t.dir n = { st := .dX, sharers := 0, owner := a }
        ∧ ∀ b, b ≠ a → g.holders.getLsbD b = true → t.agentSector b n = none))
    ∧ (¬ (open_ ∧ h = .i ∧ s.poisoned n = false) →
        exec (.readShared a n) s = .next s ∧ exec (.readUnique a n) s = .next s)
    ∧ (open_ → h = .s ∨ h = .o → ∃ t x, exec (.upgrade a n) s = .next t ∧ t.agentSector a n = some x ∧ x.st = .m
        ∧ t.dir n = { st := .dX, sharers := 0, owner := a })
    ∧ (h ≠ .s → h ≠ .o → exec (.upgrade a n) s = .next s)
    ∧ (h ≠ .m → h ≠ .o → exec (.writeBack a n) s = .next s ∧ exec (.writeBackKeep a n) s = .next s)
    ∧ (∀ x, open_ → s.agentSector a n = some x → s.gather a n = s → h = .m ∨ h = .o →
      (∃ t, exec (.writeBack a n) s = .next t ∧ t.agentSector a n = none
        ∧ (h = .m → t.dir n = DirSector.empty)
        ∧ (∀ k, k < 64 → cellGet t.mem (64 * n + k) =
            if x.dirty.getLsbD k then x.data.extractLsb' (8 * k) 8 else cellGet s.mem (64 * n + k))
        ∧ ∀ b, b / 64 ≠ n → cellGet t.mem b = cellGet s.mem b)
      ∧ (g.holders.getLsbD a = true → ∃ t y, exec (.writeBackKeep a n) s = .next t ∧ t.agentSector a n = some y
        ∧ y.dirty = 0 ∧ y.data = x.data
        ∧ y.valid = x.valid ∧ y.st = (if h = .m then .e else .s)
        ∧ (∀ k, k < 64 → cellGet t.mem (64 * n + k) =
            if x.dirty.getLsbD k then x.data.extractLsb' (8 * k) 8 else cellGet s.mem (64 * n + k))
        ∧ ∀ b, b / 64 ≠ n → cellGet t.mem b = cellGet s.mem b))
    ∧ (∀ k, g.holders.getLsbD a = false ∨ s.unserved n = true → exec (.snoop a n k) s = .next s)
    ∧ (g.holders.getLsbD a = true → s.unserved n = false →
      (∃ t, exec (.snoop a n .invalidate) s = .next t ∧ t.agentSector a n = none
        ∧ ((t.dir n).holders.getLsbD a = false ∨ (s.line n).other (n % 4) DirState.shared = true))
      ∧ (∀ x, s.agentSector a n = some x → s.gather a n = s →
        (∃ t, exec (.snoop a n .share) s = .next t
          ∧ t.agentSector a n = some { x with st := if x.st = .m ∨ x.st = .o then .o else .s } ∧ t.mem = s.mem
          ∧ (g.st = .dX → (t.dir n).st = (if x.st = .m ∨ x.st = .o then .dO else .dS)))
        ∧ (∃ t, exec (.snoop a n .clean) s = .next t ∧ t.agentSector a n = some { x with dirty := 0, st := .s }))))
  ∧ (∀ (s : State) (n : Nat),
    let g := s.dir n
    (g.st = .dI ∨ g.st = .dS ∨ s.unserved n = true → exec (.untrackedRead n) s = .next s)
    ∧ (g.st = .dX ∨ g.st = .dO → s.unserved n = false → ∃ t, exec (.untrackedRead n) s = .next t
        ∧ (t.dir n).st = (if s.keepers g = 0 then .dI else .dS)
        ∧ ((s.line n).other (n % 4) DirState.shared = false → (t.dir n).holders = s.keepers g)
        ∧ ∀ x, t.agentSector g.owner n = some x → x.st = .s ∧ x.dirty = 0)
    ∧ (∀ (m : BitVec 64) (d : BitVec 512),
      (s.poisoned n = true ∨ s.unserved n = true →
        exec (.untrackedWrite n m d) s = .next s ∧ exec (.uClassAccess n m d) s = .next s)
      ∧ (exec (.uClassAccess n 0 d) s = .next s)
      ∧ (s.poisoned n = false → s.unserved n = false →
        (∃ t, exec (.untrackedWrite n m d) s = .next t ∧ t.dir n = DirSector.empty
          ∧ (∀ k, k < 64 → m.getLsbD k = true → cellGet t.mem (64 * n + k) = d.extractLsb' (8 * k) 8)
          ∧ (g.holders = 0 → ∀ k, k < 64 → m.getLsbD k = false → cellGet t.mem (64 * n + k) = cellGet s.mem (64 * n + k))
          ∧ ∀ b, b / 64 ≠ n → cellGet t.mem b = cellGet s.mem b)
        ∧ (∃ t, exec (.uClassAccess n m d) s = .next t ∧ t.hub.directory = s.hub.directory
          ∧ (∀ k, k < 64 → cellGet t.mem (64 * n + k) =
              if m.getLsbD k then d.extractLsb' (8 * k) 8 else cellGet s.mem (64 * n + k))
          ∧ ∀ b, b / 64 ≠ n → cellGet t.mem b = cellGet s.mem b))))
  ∧ (∀ (s : State) (op : AtomOp) (a size : Nat) (b c : BitVec 64),
    let r := atomResult op (8 * size) (ofLe (cellsRead s.mem a size)) b.toNat c.toNat
    (s.poisoned (a / 64) = true ∨ s.unserved (a / 64) = true → exec (.homeAtomic op a size b c) s = .next s)
    ∧ (a % 64 + size ≤ 64 → s.poisoned (a / 64) = false → s.unserved (a / 64) = false → (s.dir (a / 64)).holders = 0 →
      ∃ t, exec (.homeAtomic op a size b c) s = .next t ∧ t.dir (a / 64) = DirSector.empty
        ∧ (r = none → t.mem = s.mem)
        ∧ (∀ v, r = some v → cellsRead t.mem a size = leBytes size v
            ∧ ∀ k, k < a ∨ a + size ≤ k → cellGet t.mem k = cellGet s.mem k)))
  ∧ (∀ s : State,
    let n := (s.hub.now.toNat - s.hub.lastDecay) / 100000
    (s.hub.now.toNat < s.hub.lastDecay + 100000 → exec .predictorDecay s = .next s)
    ∧ (s.hub.lastDecay + 100000 ≤ s.hub.now.toNat → ∃ t, exec .predictorDecay s = .next t
      ∧ (∀ d, (t.die d).predictor = (s.die d).predictor.map (fun e => (e.1, e.2.1, e.2.2 - n))
          ∧ { t.die d with predictor := (s.die d).predictor } = s.die d)
      ∧ t.hub = { s.hub with lastDecay := s.hub.lastDecay + 100000 * n } ∧ { t with dies := s.dies, hub := s.hub } = s))
  -- a core chiplet drops what it holds S or E, and the directory keeps its bit (R429)
  ∧ (∀ (s : State) (a n : Nat) (x : Sector), a = 8 ∨ a = 9 → s.agentSector a n = some x →
    let t := s.outside (.coreDrop a n)
    (x.st = .s ∨ x.st = .e → t.agentSector a n = none ∧ t.hub.directory = s.hub.directory ∧ t.mem = s.mem)
    ∧ (x.st ≠ .s → x.st ≠ .e → t = s))

/-- A walk of the tables gives the translation they hold or the cause that ends it; the control pages take unmap requests,
leases, status clears and page migrations as their fields say; an event not due leaves the state unchanged (log entry 4) (R413
to R420, R422, R423, R425, R435). -/
def Obligations.TranslationControl : Prop :=
  (∀ (s : State) (part : Fin 8) (v : Word),
    let x := s.hub.xl[part]
    let put (y : XlPage) : State := { s with hub := { s.hub with xl := s.hub.xl.set part y } }
    let y := { x with umctl := v &&& 0x80030FFF, cleared := [], clearAt := none }
    (x.umstat.getLsbD 0 = true → exec (.unmapRequest part v) s = .next s)
    ∧ (x.umstat.getLsbD 0 = false → v.getLsbD 31 = false → exec (.unmapRequest part v) s = .next (put y))
    ∧ (x.umstat.getLsbD 0 = false → v.getLsbD 31 = true →
      let a := s.asidEntry (v.extractLsb' 0 12).toNat
      let bad := a.valid = false ∨ a.part ≠ part.val ∨ 2 ^ 48 < x.umva.toNat + x.umlen.toNat
      (bad → ∃ z, exec (.unmapRequest part v) s = .next (put z) ∧ z.umctl = y.umctl &&& 0x7FFFFFFF
          ∧ z.umstat = (x.umstat &&& ~~~1#32) ||| 6 ∧ z.umseq = x.umseq + 1 ∧ z.umdone = s.hub.now ∧ z.umholders = 0
          ∧ z.lease = x.lease ∧ z.umva = x.umva ∧ z.umlen = x.umlen ∧ z.mgctl = x.mgctl)
      ∧ (¬ bad → ∃ t, exec (.unmapRequest part v) s = .next t ∧ t.hub.xl = s.hub.xl.set part
            { y with umstat := x.umstat ||| 1, umholders := s.holdersLeft part y }
          ∧ { t with hub := s.hub } = s
          ∧ (v.getLsbD 17 = false → ∀ e ∈ s.hub.walks, e ∈ t.hub.walks ∨ e.1.1 = (v.extractLsb' 0 12).toNat)
          ∧ (v.getLsbD 17 = false → x.umlen = 0 → ∀ e ∈ t.hub.walks, e.1.1 ≠ (v.extractLsb' 0 12).toNat))))
  ∧ (∀ (s : State) (part : Fin 8),
    let x := s.hub.xl[part]
    let put (y : XlPage) : State := { s with hub := { s.hub with xl := s.hub.xl.set part y } }
    (x.umstat.getLsbD 0 = false → exec (.unmapComplete part) s = .next s)
    ∧ (x.umstat.getLsbD 0 = true → s.holdersLeft part x ≠ 0 →
        exec (.unmapComplete part) s = .next (put { x with umholders := s.holdersLeft part x }))
    ∧ (x.umstat.getLsbD 0 = true → s.holdersLeft part x = 0 → x.umctl.getLsbD 16 = false →
        exec (.unmapComplete part) s = .next { put { x with
          umctl := x.umctl &&& 0x7FFFFFFF, umstat := (x.umstat &&& ~~~1#32) ||| 2, umdone := s.hub.now, umholders := 0
          umseq := x.umseq + 1, cleared := [], clearAt := none } with rods := (s.dropOnce part x).rods })
    ∧ (∀ e ∈ (s.dropOnce part x).rods, ∀ n : Fin 32, ∀ q ∈ e.2.lanes[n].loads, ∀ z ∈ q.xlats, z.ending part x = false)
    ∧ (x.umstat.getLsbD 0 = true → s.holdersLeft part x = 0 → x.umctl.getLsbD 16 = true →
        ∃ t, exec (.unmapComplete part) s = .next t ∧ t.hub.xl[part].umstat.getLsbD 0 = false
          ∧ t.hub.xl[part].umstat.getLsbD 1 = true ∧ t.hub.xl[part].umseq = x.umseq + 1
          ∧ t.rods = (s.dropOnce part x).rods ∧ t.teams = s.teams)
    ∧ (∀ v : DWord,
      let ok (k : Nat) : Prop := 1 ≤ (v.extractLsb' (16 * k) 16).toNat ∧ (v.extractLsb' (16 * k) 16).toNat ≤ 10000
      (ok 0 ∧ ok 1 ∧ ok 2 → exec (.leaseWrite part v) s = .next (put { x with lease := v &&& 0x0000FFFFFFFFFFFF }))
      ∧ (¬ (ok 0 ∧ ok 1 ∧ ok 2) → exec (.leaseWrite part v) s = .next (put { x with umstat := x.umstat ||| 4 })))
    ∧ (∀ v : Word, exec (.unmapStatusClear part v) s = .next (put { x with umstat := x.umstat &&& ~~~(v &&& 0xE) }))
    ∧ (∀ v : DWord,
      let n := (v.extractLsb' 52 10).toNat
      let page := (v.extractLsb' 12 36).toNat
      let kept := v &&& 0x3FFFFFFFFFFFF000
      let bad := n = 0 ∨ 512 < n
        ∨ (∃ l : List Nat, l.Nodup ∧ 2 ^ 20 < s.hub.override.length + l.length ∧ ∀ q ∈ l, tableFind q s.hub.override = none
            ∧ ((page ≤ q ∧ q < page + n) ∨ ∃ m ∈ s.hub.migrations, m.page ≤ q ∧ q < m.page + m.left))
        ∨ ∃ k, k < n ∧ s.inPartition part (4096 * (page + k)) = false
      ((∃ m ∈ s.hub.migrations, m.part = part.val) → exec (.migrationRequest part v) s = .next s)
      ∧ ((∀ m ∈ s.hub.migrations, m.part ≠ part.val) →
        (v.getLsbD 63 = false → exec (.migrationRequest part v) s = .next (put { x with mgctl := kept }))
        ∧ (v.getLsbD 63 = true → bad →
            exec (.migrationRequest part v) s = .next (put { x with mgctl := kept ||| (1#64 <<< 62) }))
        ∧ (v.getLsbD 63 = true → ¬ bad → exec (.migrationRequest part v) s =
            .next { s with hub := { s.hub with
              xl := s.hub.xl.set part { x with mgctl := kept ||| (1#64 <<< 63) }
              migrations := s.hub.migrations ++
                [{ part := part, page := page, left := n, tower := (v.extractLsb' 48 4).toNat }] } })))
    ∧ ((∀ m ∈ s.hub.migrations, m.part ≠ part.val) → exec (.migrationSwitch part) s = .next s)
    ∧ (∀ m rest, s.hub.migrations = m :: rest → m.part = part.val → (∀ o ∈ rest, o.part ≠ part.val) →
      ∃ t, exec (.migrationSwitch part) s = .next t ∧ t.homeOf m.page = m.tower
        ∧ (∀ page, page ≠ m.page → t.homeOf page = s.homeOf page)
        ∧ tableFind m.page t.hub.redirects = some s.now ∧ t.rods = s.rods ∧ t.teams = s.teams
        ∧ (s.hub.directory.length ≤ 16 → t.mem = s.mem ∧ t.dies = s.dies ∧ ∀ n, t.dir n = s.dir n)
        ∧ (m.left ≤ 1 → t.hub.migrations = rest ∧ t.hub.xl[part].mgctl.getLsbD 63 = false)
        ∧ (1 < m.left → t.hub.migrations = rest ++ [{ m with page := m.page + 1, left := m.left - 1 }]
            ∧ t.hub.xl = s.hub.xl)))
  ∧ (∀ (s : State) (page : Nat),
    (tableFind page s.hub.redirects = none → exec (.migrationRetire page) s = .next s)
    ∧ (∀ since, tableFind page s.hub.redirects = some since →
      (s.now < since + 20040 → exec (.migrationRetire page) s = .next s)
      ∧ (since + 20040 ≤ s.now → ∃ t, exec (.migrationRetire page) s = .next t
          ∧ tableFind page t.hub.redirects = none ∧ { t with hub := s.hub } = s)))
  -- A WALK: each level's entry is read in the partition's memory, a leaf gives its page's address, rights, class and lease
  ∧ (∀ (s : State) (p : FrameId) (asid va : Nat) (need : Need) (depth : Nat) (table : Nat → Nat),
    let a := s.asidEntry asid
    let o := s.page { p := p, asid := asid, va := va } need
    let at_ (k : Nat) : Nat := table k + 8 * (va / 2 ^ (39 - 9 * k) % 512)
    let entry (k : Nat) : DWord := tableWord s (at_ k)
    let addr (e : DWord) : Nat := 4096 * (e.extractLsb' 12 36).toNat
    let wellFormed (e : DWord) : Prop := e.getLsbD 0 = true ∧ e.extractLsb' 48 16 = 0 ∧ e.getLsbD 11 = false
      ∧ (e.getLsbD 1 = false → e.extractLsb' 2 9 = 0)
    let e := entry depth
    let size : Nat := if depth = 1 then 2 ^ 30 else if depth = 2 then 2 ^ 21 else 4096
    let lease : Nat := 1000 * ((s.hub.xl.toList.getD a.part XlPage.reset).lease.extractLsb'
      (16 * (e.extractLsb' 9 2).toNat) 16).toNat
    let xlat (bytes base : Nat) : Xlat :=
      { asid := asid, part := a.part, glob := e.getLsbD 5, va := va / bytes * bytes, pa := base, bytes := bytes
        r := e.getLsbD 2, w := e.getLsbD 3, x := e.getLsbD 4, ord := e.extractLsb' 7 2
        expiry := if e.extractLsb' 9 2 = 3 then 0 else s.hub.now.toNat + lease }
    let mayNot : Prop := match need with
      | .read => e.getLsbD 2 = false
      | .write => e.getLsbD 3 = false
      | .both => e.getLsbD 2 = false ∨ e.getLsbD 3 = false
      | .execute => e.getLsbD 4 = false
    let gives (bytes base : Nat) : Prop :=
      (s.inPartition a.part base = false → o.1 = .error .notPresent)
      ∧ (s.inPartition a.part base = true → (mayNot → o.1 = .error .permission)
        ∧ (¬ mayNot → e.extractLsb' 7 2 = 3 → o.1 = .error .orderingReserved)
        ∧ (¬ mayNot → e.extractLsb' 7 2 ≠ 3 → o.1 = .ok (xlat bytes base)))
    va < 2 ^ 64 →
    (2 ^ 47 ≤ va ∧ va < 2 ^ 64 - 2 ^ 47 → o = (.error .notPresent, s))
    ∧ (va < 2 ^ 47 ∨ 2 ^ 64 - 2 ^ 47 ≤ va → (s.frame p).tlb = [] → (s.die p.die).tlb = [] →
      (a.valid = false → o.1 = .error .notPresent)
      ∧ (a.valid = true → s.hub.walks = [] → depth < 4 → table 0 = a.root → (∀ k, k ≤ depth → table k % 4096 = 0) →
        (∀ k, k < depth → wellFormed (entry k) ∧ (entry k).getLsbD 1 = false ∧ table (k + 1) = addr (entry k)) →
        (∀ k, k < depth → s.inPartition a.part (table k) = true ∧ s.entryReads (at_ k)) →
        (s.inPartition a.part (table depth) = false → o.1 = .error .notPresent)
        ∧ (s.inPartition a.part (table depth) = true → s.entryReads (at_ depth) →
          let leafOk : Prop := depth ≠ 0 ∧ ¬ (e.getLsbD 3 = true ∧ e.getLsbD 2 = false) ∧ addr e % size = 0
            ∧ (e.getLsbD 6 = true → depth = 3)
          (¬ wellFormed e → o.1 = .error .notPresent)
          ∧ (wellFormed e → e.getLsbD 1 = false → depth = 3 → o.1 = .error .notPresent)
          ∧ (wellFormed e → e.getLsbD 1 = true → ¬ leafOk → o.1 = .error .notPresent)
          ∧ (wellFormed e → e.getLsbD 1 = true → leafOk → e.getLsbD 6 = false → gives size (addr e))
          -- sixteen entries that make one page of 64 KiB (R416)
          ∧ (wellFormed e → e.getLsbD 1 = true → leafOk → e.getLsbD 6 = true →
            let first := table depth + 8 * (va / 65536 * 16 % 512)
            addr (tableWord s first) % 65536 = 0 →
            (∀ k, k < 16 → s.entryReads (first + 8 * k)
              ∧ tableWord s (first + 8 * k) = tableWord s first + BitVec.ofNat 64 (4096 * k)) →
            gives 65536 (addr (tableWord s first)))))))
  -- a translation that the frame holds, and that lasts for 1 µs more, serves its page without a walk (R419, R422)
  ∧ (∀ (s : State) (p : FrameId) (asid va : Nat) (need : Need) (x : Xlat) (rest : List Xlat),
    (va < 2 ^ 47 ∨ 2 ^ 64 - 2 ^ 47 ≤ va) → va < 2 ^ 64 → (s.frame p).tlb = x :: rest →
    x.covers asid (s.asidEntry asid).part va = true → (s.frameTime p).toNat + 1000 ≤ x.expiry → x.permits need = true →
    x.ord ≠ 3 → s.page { p := p, asid := asid, va := va } need = (.ok x, s))
  -- an access of several pages asks for each in ascending order, and fails with the first that fails (R272)
  ∧ (∀ (s s1 : State) (p : FrameId) (asid va : Nat) (need : Need) (l : List Nat) (c : Cause) (x : Xlat),
    let first := s.page { p := p, asid := asid, va := va } need
    s.pages p asid need [] = (.ok [], s)
    ∧ (first = (.error c, s1) → s.pages p asid need (va :: l) = (.error c, s1))
    ∧ (first = (.ok x, s1) → s.pages p asid need (va :: l) =
        (match s1.pages p asid need l with | (.ok xs, s2) => (.ok (x :: xs), s2) | (.error c, s2) => (.error c, s2))))
  ∧ (∀ va n : Nat, 0 < n → va + n ≤ 2 ^ 64 → n ≤ 4096 →
    pageStarts va n = if va % 4096 + n ≤ 4096 then [va] else [va, va / 4096 * 4096 + 4096])

/-- Power gating, isolation, die resets, links, partitions, package time and the package's life leave what the rules say; it
rests on log entries 2 (memory after power-on and shutdown), 4 (events not due), 45, 56 and 57 (R432, R433, R461, R465, R468,
R469, R471, R473, R474, R475, R477, R479). -/
def Obligations.ResetsPowerAndHub : Prop :=
  (∀ (s : State) (p : FrameId),
    (s.teamsOn p = [] ∧ s.rodsOn p = [] → ∃ t, exec (.framePowerGate p) s = .next t ∧ (t.frame p).gated = true
      ∧ (t.frame p).cache = [] ∧ t.mem = s.mem ∧ t.hub = s.hub
      ∧ ∀ n u x k, k < 64 → s.frameSector p n u = some x → x.dirty.getLsbD k = true →
        ∃ y, t.dieSector p.die n u = some y ∧ y.dirty.getLsbD k = true
          ∧ y.data.extractLsb' (8 * k) 8 = x.data.extractLsb' (8 * k) 8)
    ∧ (s.teamsOn p ≠ [] ∨ s.rodsOn p ≠ [] → exec (.framePowerGate p) s = .next s)
    ∧ exec (.powerGateWake (.frame p)) s = .next (s.modFrame p (fun f => { f with gated := false })))
  ∧ (∀ (s : State) (d n : Nat),
    let g := (s.die d).gatedSlices
    (n < 16 → n ∉ g → n ^^^ 8 ∉ g → ∃ t, exec (.slicePowerGate d n) s = .next t ∧ (t.die d).gatedSlices = n :: g
      ∧ (∀ x ∈ (t.die d).cache, s.sliceOf d x.num ≠ n) ∧ t.rods = s.rods ∧ t.teams = s.teams)
    ∧ (16 ≤ n ∨ n ∈ g ∨ n ^^^ 8 ∈ g → exec (.slicePowerGate d n) s = .next s)
    ∧ exec (.powerGateWake (.slice d n)) s = .next (s.modDie d (fun q =>
        { q with gatedSlices := q.gatedSlices.filter (fun x => x != n) })))
  ∧ (∀ (s : State) (a : Nat),
    (a < 54 → (∃ t, exec (.drainedIsolation a) s = .next t ∧ t.hub.isolated = s.hub.isolated ||| (1#64 <<< a)
        ∧ (a < 32 → (t.die a).cache = []) ∧ t.hub.poisoned = s.hub.poisoned ∧ t.rods = s.rods)
      ∧ (∃ t, exec (.forcedIsolation a) s = .next t ∧ t.hub.isolated = s.hub.isolated ||| (1#64 <<< a)
        ∧ (a < 32 → (t.die a).cache = [] ∧ ∀ f, (t.frame ⟨a, f⟩).cache = [])
        ∧ (∀ b n, peerBit a = some b → n ∈ s.ownedBy b → t.poisoned n = true) ∧ t.mem = s.mem ∧ t.rods = s.rods))
    ∧ (∀ k : Fin 8, a = 64 + k.val →
        (∃ t, exec (.drainedIsolation a) s = .next t ∧ t.hub.partitions[k].isolated = true)
        ∧ (∃ t, exec (.forcedIsolation a) s = .next t ∧ t.hub.partitions[k].isolated = true ∧ t.mem = s.mem)))
  ∧ (∀ (s : State) (d : Nat),
    let ph := (s.die d).phase
    let ready := d < 54 ∧ ph = .running ∧ s.hub.isolated.getLsbD d = false
    let busy := ∃ e, e < 54 ∧ (s.die e).phase = .drainForward
    (ready → busy → exec (.resetRequest d) s = .next { s with hub := { s.hub with
        heldResets := s.hub.heldResets.filter (fun e => e != d) ++ [d] } })
    ∧ (ready → ¬ busy → s.cutsOff d = true → exec (.resetRequest d) s = .next (s.report (.resetRefused d)))
    ∧ (ready → ¬ busy → s.cutsOff d = false → exec (.resetRequest d) s = .next (s.modDie d (fun q =>
        { q with phase := .drainingWork })))
    ∧ (¬ ready → exec (.resetRequest d) s = .next s)
    ∧ (ph = .drainingWork → s.dieEmpty d = true → exec (.drainForward d) s = .next (s.modDie d (fun q =>
        if s.isHop d then { q with phase := .drainForward, forwardSince := s.hub.now.toNat }
        else { q with phase := .isolating })))
    ∧ (ph = .drainForward → s.hub.now.toNat ≤ (s.die d).forwardSince + 10000 →
        ∃ t, exec (.drainForward d) s = .next t ∧ (t.die d).phase = .isolating
        ∧ t.hub.routeEpoch = s.hub.routeEpoch + 1 ∧ t.mem = s.mem ∧ t.rods = s.rods
        ∧ (s.hub.heldResets = [] → t.hub = { s.hub with routeEpoch := s.hub.routeEpoch + 1 }))
    ∧ (ph = .drainForward → (s.die d).forwardSince + 10000 < s.hub.now.toNat → d ∉ s.hub.heldResets →
        ∃ t, exec (.drainForward d) s = .next t ∧ (t.die d).phase = .running ∧ .resetRefused d ∈ t.hub.reports
        ∧ t.hub.routeEpoch = s.hub.routeEpoch ∧ t.mem = s.mem ∧ t.rods = s.rods)
    ∧ (ph = .running ∨ ph = .isolating ∨ (ph = .drainingWork ∧ s.dieEmpty d = false) →
        exec (.drainForward d) s = .next s)
    ∧ (ph ≠ .isolating ∨ s.hub.isolated.getLsbD d = false → exec (.dieReset d) s = .next s)
    ∧ (ph = .isolating → s.hub.isolated.getLsbD d = true → ∃ t, exec (.dieReset d) s = .next t
      ∧ t.die d = { Die.reset with disabled := (s.die d).disabled, supplySteps := (s.die d).supplySteps }
      ∧ t.hub.isolated = (if s.hub.agentFails d then s.hub.isolated else s.hub.isolated &&& ~~~(1#64 <<< d))
      ∧ (∀ k, k ∈ t.hub.linksDown ↔ k ∈ s.hub.linksDown ∧ k.1 ≠ d ∧ k.2 ≠ d) ∧ t.mem = s.mem
      ∧ tableFind d t.hub.known = some (s.hub.readEntry d)
      ∧ (d < 32 → s.hub.agentFails d = true → ∀ f, f < Config.framesOf d →
        t.frame ⟨d, f⟩ = (s.frame ⟨d, f⟩).afterReset ∧ t.rod? (fwKey ⟨d, f⟩) = some Rod.firmware)
      ∧ (d < 32 → s.hub.agentFails d = false → ∀ f, f < Config.framesOf d →
        t.frame ⟨d, f⟩ = { (s.frame ⟨d, f⟩).afterReset with fw := .running }
        ∧ (t.frame ⟨d, f⟩).status = 0 ∧ (t.frame ⟨d, f⟩).evmask = 0x7F ∧ (t.frame ⟨d, f⟩).records = []
        ∧ ∃ q, t.rod? (fwKey ⟨d, f⟩) = some q ∧ (q.lane 0).pc = Config.firmwareEntry ⟨d, f⟩ &&& ~~~7#64
          ∧ (q.lane 0).st = .runnable ∧ (q.lane 0).regs = []))
    ∧ (54 ≤ d → exec (.forcedReset d) s = .next s)
    ∧ (d < 54 → ∃ t, exec (.forcedReset d) s = .next t ∧ (t.die d).phase = .isolating ∧ (d < 32 → (t.die d).cache = [])
        ∧ t.hub.isolated.getLsbD d = true ∧ (∀ tk, tk.frame.die = d → t.team? tk = none)
        ∧ ((∀ p e, ((s.frame p).engine e).entries = []) → t.mem = s.mem)))
  ∧ (∀ (s : State) (a b : Nat),
    (isLink a b = true → s.linkUp a b = true → ∃ t, exec (.linkDown a b) s = .next t ∧ t.linkUp a b = false
      ∧ t.hub.routeEpoch = s.hub.routeEpoch + 1 ∧ t.hub.isolated = s.hub.isolated
      ∧ ((∀ p e, ((s.frame p).engine e).entries = []) → t.mem = s.mem ∧ t.teams = s.teams))
    ∧ (isLink a b = false ∨ s.linkUp a b = false → exec (.linkDown a b) s = .next s)
    ∧ (isLink a b = true → ∃ t, exec (.linkRetrain a b) s = .next t ∧ t.linkUp a b = true
      ∧ t.hub.routeEpoch = s.hub.routeEpoch + 1 ∧ { t with hub := s.hub } = s)
    ∧ (isLink a b = false → exec (.linkRetrain a b) s = .next s))
  ∧ (∀ (s : State) (failed : List Nat) (source : Nat),
    (∀ a, s.hub.imageFails a = (match tableFind a s.hub.images with
      | some i => !(Config.imageVerifies Config.rootKeyDigest i.digest i.signature && decide (s.hub.rollback ≤ i.version))
      | none => decide (0 < s.hub.rollback)))
    ∧ (54 ∈ failed ∨ s.hub.imageFails 54 = true → ∃ t, exec (.powerOnReset failed source) s = .next t
      ∧ t.hub.recovery = true ∧ t.hub.ready = false ∧ t.mem = [] ∧ t.hub.rollback = s.hub.rollback)
    ∧ (54 ∉ failed → s.hub.imageFails 54 = false → ∃ t, exec (.powerOnReset failed source) s = .next t
      ∧ t.hub.ready = true ∧ t.hub.recovery = false
      ∧ t.mem = [] ∧ t.teams = [] ∧ t.hub.launches = [] ∧ t.hub.queues = [] ∧ t.hub.rollback = s.hub.rollback
      ∧ t.hub.stored = s.hub.stored ∧ t.hub.identity = some (s.hub.identity.getD Identity.derived)
      ∧ (∀ a, t.hub.entry a = s.hub.readEntry a)
      ∧ (∀ a, a < 54 → (t.hub.isolated.getLsbD a = true ↔ a ∈ failed ∨ s.hub.agentFails a = true))
      ∧ ∀ p ∈ Config.allFrames, t.hub.isolated.getLsbD p.die = false →
        (t.frame p).fw = .running ∧ ∃ q, t.rod? (fwKey p) = some q
          ∧ (q.lane 0).pc = Config.firmwareEntry p &&& ~~~7#64))
  ∧ (∀ (s : State) (c : Nat × PartDesc) (more : List (Nat × PartDesc)),
    let table := s.hub.tableWith (c :: more)
    let bad := (∃ x ∈ c :: more, 8 ≤ x.1) ∨ (∃ e ∈ s.affected (c :: more), s.dieHolds e = true)
      ∨ badTable table.toList = true
    (bad → exec (.partitionChange c more) s = .next (s.report (.partitionRefused c.1)))
    ∧ (¬ bad → exec (.partitionChange c more) s = .next { s with hub := { s.hub with partitions := table } }
      ∧ ∀ d : Fin 32, ∃ k : Fin 8, table[k].isDefined = true ∧ table[k].dieMask.getLsbD d.val = true
        ∧ ∀ j : Fin 8, j ≠ k → table[j].isDefined = true → table[j].dieMask.getLsbD d.val = false))
  ∧ (∀ s : State,
    let h := s.hub
    let put (g : Hub) : State := { s with hub := g }
    (∀ c : BitVec 3, exec (.timeSourceSelect c) s = .next (if c.toNat ≤ 5 then
        put { h with timeSource := c, stepDue := 0, hold := 0, timeStatus := (h.timeStatus &&& ~~~1#32) &&& ~~~2#32 }
        else s))
    ∧ exec .timeStatusRead s = .next (put { h with timeStatus := h.timeStatus &&& ~~~4#32 })
    ∧ exec .timeSourceLoss s = .next (if h.timeSource = 0 then s else
        put { h with stepDue := 0, hold := 0, timeStatus := (h.timeStatus &&& ~~~1#32) ||| 2 })
    ∧ (∀ ns, (ns = 0 ∨ ns ≠ h.stepDue → exec (.timeStep ns) s = .next s)
      ∧ (ns ≠ 0 → ns = h.stepDue → exec (.timeStep ns) s = .next (put { h with
          now := h.now + BitVec.ofNat 64 ns, stepDue := 0, timeStatus := h.timeStatus ||| 4 }).takeDue))
    ∧ (∀ o : DWord, exec (.offsetMeasurement o) s = .next (if h.timeSource = 0 then s else
        put { h with timeOffset := o, hold := if o.toInt ≤ -1000000 then o.toInt.natAbs else 0
                     stepDue := if 1000000 ≤ o.toInt then o.toNat else 0
                     timeStatus := (h.timeStatus ||| 1) &&& ~~~2#32 }))
    ∧ (∀ n, exec (.rollbackCountRaise n) s = .next (put { h with rollback := max h.rollback (min n 64) }))
    ∧ exec .counterFlush s = .next (put { h with stored := h.counters, lastStore := h.now.toNat })
    ∧ (∃ t, exec .orderlyShutdown s = .next t ∧ t.hub.powered = false ∧ t.hub.stored = h.counters ∧ t.mem = []
        ∧ t.rods = [] ∧ t.hub.rollback = h.rollback ∧ t.hub.images = h.images ∧ t.hub.identity = h.identity)
    ∧ (∃ t, exec .powerLoss s = .next t ∧ t.hub.powered = false ∧ t.hub.stored = h.stored ∧ t.mem = []
        ∧ t.rods = [] ∧ t.hub.rollback = h.rollback ∧ t.hub.images = h.images ∧ t.hub.identity = h.identity)
    ∧ (∀ x rest, h.powered = false → s.agenda = x :: rest → (∀ f n, x ≠ .event (.powerOnReset f n)) →
        step s = .next { s with agenda := rest })
    ∧ (∀ nonce : BitVec 256, ∃ b, exec (.attestationRequest nonce) s = .next (s.report (.attestation b))
        ∧ b.length = 0x710 + 2420 ∧ fieldOf b 0 32 = nonce.toNat ∧ fieldOf b 0x20 8 = h.now.toNat
        ∧ fieldOf b 0x28 8 = h.isolated.toNat ∧ fieldOf b 0x30 32 = (h.entry 54).digest.toNat
        ∧ ∀ a, a < 54 → fieldOf b (0x50 + 32 * a) 32 = (h.entry a).digest.toNat)
    ∧ (∀ asid a b r s1, b ≠ [] → s.hubWrite asid a b = (r, s1) → exec (.hubLinkFrame asid a b none) s =
        .next (match r with | none => s1 | some x => s1.report (.writeFailed 0 x)))
    ∧ (∀ asid a w r s1, s.hubSignal asid w.addr w.value w.isAdd = (r, s1) → exec (.hubLinkFrame asid a [] (some w)) s =
        .next (match r with | none => s1 | some x => s1.report (.writeFailed 0 x)))
    ∧ exec (.maintenanceReplan [] []) s = .next s
    ∧ (∀ d ds r rs t, exec (.maintenanceReplan [d] [r]) s = .next t →
        exec (.maintenanceReplan (d :: ds) (r :: rs)) s = exec (.maintenanceReplan ds rs) t)
    ∧ (∀ d r, 32 ≤ d ∨ s.dieHolds d = true → exec (.maintenanceReplan [d] [r]) s = .next s)
    ∧ (∀ d n, d < 32 → s.dieHolds d = false → ∃ t, exec (.maintenanceReplan [d] [.raise n]) s = .next t
        ∧ t.die d = { s.die d with supplySteps := (s.die d).supplySteps + n } ∧ t.mem = s.mem ∧ t.rods = s.rods)
    ∧ (∀ d cs, d < 32 → s.dieHolds d = false → ∃ t, exec (.maintenanceReplan [d] [.disable cs]) s = .next t
        ∧ (∀ c, c ∈ (t.die d).disabled ↔ c ∈ (s.die d).disabled ∨ (c ∈ cs ∧ c < Config.framesOf d / 4))
        ∧ { t.die d with disabled := (s.die d).disabled } = s.die d ∧ t.mem = s.mem ∧ t.rods = s.rods))
end

