-- ==== Sys2Proof/Laws/Cells.lean ====
section
/-!
SUPPORT. Sys2Proof/Laws/Cells.lean: sparse stores and tables: reading after writing, and the canonical form, which every
memory operation keeps.
-/

namespace Sys2Proof.Machine

/-! ## The canonical form -/

theorem cellsAbove_mono {w a b : Nat} (h : a ≤ b) : ∀ {t : Cells w}, cellsAbove b t = true → cellsAbove a t = true
  | [], _ => rfl
  | (c, v) :: t, ht => by
    simp only [cellsAbove, Bool.and_eq_true, decide_eq_true_eq] at ht ⊢
    exact ⟨by omega, cellsAbove_mono h ht.2⟩

theorem cellsAbove_iff {w b : Nat} : ∀ {t : Cells w}, cellsAbove b t = true ↔ ∀ e ∈ t, b < e.1
  | [] => by simp [cellsAbove]
  | (a, v) :: t => by simp [cellsAbove, cellsAbove_iff (t := t)]

theorem cellsAbove_filter {w b : Nat} (q : Nat × BitVec w → Bool) {t : Cells w} (h : cellsAbove b t = true) :
    cellsAbove b (t.filter q) = true := by
  rw [cellsAbove_iff] at h ⊢
  exact fun e he => h e (List.mem_of_mem_filter he)

theorem cellsWf_filter {w : Nat} (q : Nat × BitVec w → Bool) :
    ∀ {t : Cells w}, cellsWf t = true → cellsWf (t.filter q) = true
  | [], _ => rfl
  | (a, u) :: t, ht => by
    simp only [cellsWf, Bool.and_eq_true] at ht
    rw [List.filter_cons]
    split
    · simp only [cellsWf, Bool.and_eq_true]
      exact ⟨⟨ht.1.1, cellsAbove_filter q ht.1.2⟩, cellsWf_filter q ht.2⟩
    · exact cellsWf_filter q ht.2

theorem cellsAbove_cellInsert {w b n : Nat} (v : BitVec w) (h : b < n) :
    ∀ {t : Cells w}, cellsAbove b t = true → cellsAbove b (cellInsert n v t) = true
  | [], _ => by simp [cellInsert, cellsAbove, h]
  | (a, u) :: t, ht => by
    simp only [cellsAbove, Bool.and_eq_true, decide_eq_true_eq] at ht
    unfold cellInsert
    split
    · simp [cellsAbove, ht.1, cellsAbove_cellInsert v h ht.2]
    · split <;> simp [cellsAbove, h, ht.1, ht.2]

theorem cellsAbove_cellSet {w b n : Nat} (v : BitVec w) (h : b < n) {t : Cells w} (ht : cellsAbove b t = true) :
    cellsAbove b (cellSet n v t) = true := by
  unfold cellSet
  split
  · exact cellsAbove_filter _ ht
  · exact cellsAbove_cellInsert v h ht

theorem cellInsert_wf {w : Nat} (n : Nat) {v : BitVec w} (hv : v ≠ 0) :
    ∀ {t : Cells w}, cellsWf t = true → cellsWf (cellInsert n v t) = true
  | [], _ => by simpa [cellInsert, cellsWf, cellsAbove] using hv
  | (a, u) :: t, ht => by
    simp only [cellsWf, Bool.and_eq_true, Bool.not_eq_true', decide_eq_false_iff_not] at ht
    obtain ⟨⟨hu, ha⟩, ht⟩ := ht
    unfold cellInsert
    split
    · rename_i h
      simpa [cellsWf, cellsAbove_cellInsert v h ha, cellInsert_wf n hv ht] using hu
    · split
      · rename_i h
        subst h
        simp_all [cellsWf]
      · rename_i h1 h2
        have hlt : n < a := by omega
        simp_all [cellsWf, cellsAbove, cellsAbove_mono (Nat.le_of_lt hlt) ha]

/-- A write keeps the canonical form. -/
theorem cellSet_wf {w : Nat} (n : Nat) (v : BitVec w) {t : Cells w} (h : cellsWf t = true) :
    cellsWf (cellSet n v t) = true := by
  unfold cellSet
  split
  · exact cellsWf_filter _ h
  · exact cellInsert_wf n ‹_› h

theorem cellsWrite_wf : ∀ (l : List Byte) (a : Nat) {m : Cells 8}, cellsWf m = true → cellsWf (cellsWrite m a l) = true
  | [], _, _, h => h
  | b :: t, a, _, h => cellsWrite_wf t (a + 1) (cellSet_wf a b h)

theorem cellsPut_wf {w : Nat} : ∀ (l : List (Nat × BitVec w)) {m : Cells w}, cellsWf m = true →
    cellsWf (cellsPut m l) = true
  | [], _, h => h
  | e :: t, _, h => cellsPut_wf t (cellSet_wf e.1 e.2 h)

theorem foldl_wf {w : Nat} {α : Type} (f : Cells w → α → Cells w)
    (hf : ∀ m x, cellsWf m = true → cellsWf (f m x) = true) :
    ∀ (l : List α) {m : Cells w}, cellsWf m = true → cellsWf (l.foldl f m) = true
  | [], _, h => h
  | x :: t, _, h => foldl_wf f hf t (hf _ x h)

/-- Merging bytes into a sector of the home keeps the canonical form. -/
theorem mergeMem_wf {m : Memory} (n : Nat) (mask : BitVec 64) (d : BitVec 512) (h : m.wf = true) :
    Memory.wf (mergeMem m n mask d) = true := by
  unfold Memory.wf mergeMem
  refine foldl_wf (w := 8) _ (fun m k hm => ?_) _ (cellsWf_filter _ h)
  dsimp only
  split
  · rename_i hv
    simp only [Bool.and_eq_true, bne_iff_ne, ne_eq] at hv
    exact cellInsert_wf _ hv.2 hm
  · exact hm

/-! ## Reading after writing -/

theorem cellGet_filter_same {w n : Nat} : ∀ (t : Cells w), cellGet (t.filter (fun e => e.1 != n)) n = 0
  | [] => rfl
  | (a, u) :: t => by
    by_cases h : a = n
    · simp [h, cellGet_filter_same t]
    · simp [h, cellGet, cellGet_filter_same t]

theorem cellGet_filter_ne {w n k : Nat} (h : k ≠ n) :
    ∀ (t : Cells w), cellGet (t.filter (fun e => e.1 != n)) k = cellGet t k
  | [] => rfl
  | (a, u) :: t => by
    by_cases ha : a = n
    · subst ha
      simp [cellGet, Ne.symm h, cellGet_filter_ne h t]
    · simp [ha, cellGet, cellGet_filter_ne h t]

theorem cellGet_cellInsert_same {w : Nat} (n : Nat) (v : BitVec w) : ∀ (t : Cells w), cellGet (cellInsert n v t) n = v
  | [] => by simp [cellInsert, cellGet]
  | (a, u) :: t => by
    unfold cellInsert
    split
    · have : a ≠ n := by omega
      simp [cellGet, this, cellGet_cellInsert_same n v t]
    · split <;> simp [cellGet]

theorem cellGet_cellInsert_ne {w : Nat} {n k : Nat} (v : BitVec w) (h : k ≠ n) :
    ∀ (t : Cells w), cellGet (cellInsert n v t) k = cellGet t k
  | [] => by simp [cellInsert, cellGet, Ne.symm h]
  | (a, u) :: t => by
    unfold cellInsert
    split
    · simp [cellGet, cellGet_cellInsert_ne v h t]
    · split
      · rename_i ha
        subst ha
        simp [cellGet, Ne.symm h]
      · simp [cellGet, Ne.symm h]

/-- A read of the place written gives the value written. -/
theorem cellGet_cellSet_same {w : Nat} (n : Nat) (v : BitVec w) (t : Cells w) : cellGet (cellSet n v t) n = v := by
  unfold cellSet
  split
  · rename_i h
    rw [h, cellGet_filter_same]
  · exact cellGet_cellInsert_same n v t

/-- A read of another place is as before. -/
theorem cellGet_cellSet_ne {w : Nat} {n k : Nat} (v : BitVec w) (h : k ≠ n) (t : Cells w) :
    cellGet (cellSet n v t) k = cellGet t k := by
  unfold cellSet
  split
  · exact cellGet_filter_ne h t
  · exact cellGet_cellInsert_ne v h t

/-- Bytes outside a run that is written are as before. -/
theorem cellGet_cellsWrite_out {k : Nat} : ∀ (l : List Byte) (a : Nat) (m : Cells 8),
    k < a ∨ a + l.length ≤ k → cellGet (cellsWrite m a l) k = cellGet m k
  | [], _, _, _ => rfl
  | b :: t, a, m, h => by
    simp only [List.length_cons] at h
    rw [cellsWrite, cellGet_cellsWrite_out t (a + 1) _ (by omega), cellGet_cellSet_ne b (by omega) m]

theorem cellsAbove_cellsWrite : ∀ (l : List Byte) {m : Cells 8} {b a : Nat}, b < a → cellsAbove b m = true →
    cellsAbove b (cellsWrite m a l) = true
  | [], _, _, _, _, h => h
  | x :: t, _, _, a, hb, h => cellsAbove_cellsWrite t (by omega) (cellsAbove_cellSet x hb h)

/-- Byte `k` of a run that is written. -/
theorem cellGet_cellsWrite_in : ∀ (l : List Byte) (a k : Nat) (m : Cells 8), k < l.length →
    cellGet (cellsWrite m a l) (a + k) = l.getD k 0
  | [], _, _, _, h => by simp at h
  | b :: t, a, 0, m, _ => by
    rw [cellsWrite, cellGet_cellsWrite_out t (a + 1) _ (by omega)]
    simpa using cellGet_cellSet_same a b m
  | b :: t, a, k + 1, m, h => by
    simp only [List.length_cons, Nat.add_lt_add_iff_right] at h
    have := cellGet_cellsWrite_in t (a + 1) k (cellSet a b m) h
    rw [cellsWrite, show a + (k + 1) = a + 1 + k by omega, this]
    simp

/-- A filter by address keeps what it lets through and reads 0 elsewhere. -/
theorem cellGet_filter_addr {w : Nat} (q : Nat → Bool) (k : Nat) :
    ∀ (t : Cells w), cellGet (t.filter (fun e => q e.1)) k = if q k then cellGet t k else 0
  | [] => by simp [cellGet]
  | (a, u) :: t => by
    have ih := cellGet_filter_addr q k t
    by_cases h : q a <;> by_cases ha : a = k <;> simp_all [cellGet]

/-- What the first `j` bytes of a merge leave at an address. -/
theorem cellGet_mergeFold (n : Nat) (mask : BitVec 64) (d : BitVec 512) (m : Cells 8) (a : Nat) :
    ∀ j, j ≤ 64 → cellGet ((List.range j).foldl (fun m k =>
      let v := d.extractLsb' (8 * k) 8
      if mask.getLsbD k && v != 0#8 then cellInsert (64 * n + k) v m else m) m) a
        = if a / 64 = n ∧ a % 64 < j ∧ mask.getLsbD (a % 64) = true ∧ d.extractLsb' (8 * (a % 64)) 8 ≠ 0#8
          then d.extractLsb' (8 * (a % 64)) 8 else cellGet m a
  | 0, _ => by simp
  | j + 1, hj => by
    have ih := cellGet_mergeFold n mask d m a j (by omega)
    rw [List.range_succ, List.foldl_append, List.foldl_cons, List.foldl_nil]
    dsimp only at ih ⊢
    by_cases ha : a = 64 * n + j
    · have h1 : a / 64 = n := by omega
      have h2 : a % 64 = j := by omega
      split
      · rename_i hc
        simp only [Bool.and_eq_true, bne_iff_ne, ne_eq] at hc
        rw [ha, cellGet_cellInsert_same, ← ha]
        simp [h1, h2, hc]
      · rename_i hc
        simp only [Bool.and_eq_true, bne_iff_ne, ne_eq, not_and, Decidable.not_not] at hc
        rw [ih]
        simp only [h1, h2, true_and]
        rw [if_neg (by omega), if_neg (fun hx => hx.2.2 (hc hx.2.1))]
    · have hne : ¬ (a / 64 = n ∧ a % 64 = j) := by omega
      have heq : (a / 64 = n ∧ a % 64 < j + 1 ∧ mask.getLsbD (a % 64) = true ∧ d.extractLsb' (8 * (a % 64)) 8 ≠ 0#8)
          ↔ (a / 64 = n ∧ a % 64 < j ∧ mask.getLsbD (a % 64) = true ∧ d.extractLsb' (8 * (a % 64)) 8 ≠ 0#8) := by
        constructor <;> rintro ⟨x1, x2, x3⟩ <;> exact ⟨x1, by omega, x3⟩
      simp only [heq]
      split
      · rw [cellGet_cellInsert_ne _ ha, ih]
      · rw [ih]

/-- A byte of memory after a merge at a home. -/
theorem cellGet_mergeMem (m : Memory) (n : Nat) (mask : BitVec 64) (d : BitVec 512) (a : Nat) :
    cellGet (mergeMem m n mask d) a
      = if inMask n mask a then d.extractLsb' (8 * (a % 64)) 8 else cellGet m a := by
  unfold mergeMem
  rw [cellGet_mergeFold n mask d _ a 64 (by omega), cellGet_filter_addr (fun a => !inMask n mask a)]
  simp only [Nat.mod_lt _ (show 64 > 0 by decide), true_and, inMask]
  rcases Bool.eq_false_or_eq_true (mask.getLsbD (a % 64)) with h2 | h2 <;>
    by_cases h1 : a / 64 = n <;> by_cases h3 : d.extractLsb' (8 * (a % 64)) 8 = 0#8 <;> simp only [h1, h2, h3] <;> simp [h1, h3]

/-! ## Tables -/

theorem tableFind_tableSet_same {α β : Type} [DecidableEq α] (k : α) (v : β) :
    ∀ (t : List (α × β)), tableFind k (tableSet k v t) = some v
  | [] => by simp [tableSet, tableFind]
  | (a, u) :: t => by
    unfold tableSet
    split
    · simp [tableFind]
    · simp_all [tableFind, tableFind_tableSet_same k v t]

theorem tableFind_tableSet_ne {α β : Type} [DecidableEq α] {k j : α} (v : β) (h : j ≠ k) :
    ∀ (t : List (α × β)), tableFind j (tableSet k v t) = tableFind j t
  | [] => by simp [tableSet, tableFind, Ne.symm h]
  | (a, u) :: t => by
    unfold tableSet
    split
    · rename_i ha
      subst ha
      simp [tableFind, Ne.symm h]
    · simp only [tableFind, tableFind_tableSet_ne v h t]

theorem tableSet_tableSet {α β : Type} [DecidableEq α] (k : α) (u v : β) :
    ∀ (t : List (α × β)), tableSet k v (tableSet k u t) = tableSet k v t
  | [] => by simp [tableSet]
  | (a, x) :: t => by
    by_cases h : a = k
    · simp [tableSet, h]
    · simp [tableSet, h, tableSet_tableSet k u v t]

theorem tableSet_of_find {α β : Type} [DecidableEq α] {k : α} {v : β} :
    ∀ {t : List (α × β)}, tableFind k t = some v → tableSet k v t = t
  | [], h => by simp [tableFind] at h
  | (a, x) :: t, h => by
    by_cases ha : a = k
    · simp_all [tableFind, tableSet]
    · simp only [tableFind, ha, if_false] at h
      simp [tableSet, ha, tableSet_of_find h]

theorem tableFind_tableErase_ne {α β : Type} [DecidableEq α] {k j : α} (h : j ≠ k) :
    ∀ (t : List (α × β)), tableFind j (tableErase k t) = tableFind j t
  | [] => rfl
  | (a, x) :: t => by
    have ih := tableFind_tableErase_ne h t
    unfold tableErase at ih ⊢
    by_cases ha : a = k
    · subst ha
      simp [tableFind, Ne.symm h, ih]
    · simp [tableFind, ha, ih]

/-! ## Places of State -/

theorem State.rod?_setRod_same (s : State) (k : RodKey) (r : Rod) : (s.setRod k r).rod? k = some r := by
  unfold State.rod? State.setRod
  cases h : k.slot
  · simp [tableFind_tableSet_same]
  · simp [tableGet, tableFind_tableSet_same]

theorem State.rod?_setRod_ne (s : State) {k j : RodKey} (r : Rod) (h : j ≠ k) : (s.setRod k r).rod? j = s.rod? j := by
  unfold State.rod? State.setRod
  cases hj : j.slot
  · simp [tableFind_tableSet_ne r h]
  · simp [tableGet, tableFind_tableSet_ne r h]

theorem State.setRod_setRod (s : State) (k : RodKey) (r q : Rod) : (s.setRod k r).setRod k q = s.setRod k q := by
  simp [State.setRod, tableSet_tableSet]

theorem State.team?_setTeam_same (s : State) (k : TeamKey) (t : Team) : (s.setTeam k t).team? k = some t := by
  simp [State.team?, State.setTeam, tableFind_tableSet_same]

theorem State.team?_setTeam_ne (s : State) {k j : TeamKey} (t : Team) (h : j ≠ k) :
    (s.setTeam k t).team? j = s.team? j := by
  simp [State.team?, State.setTeam, tableFind_tableSet_ne t h]

theorem State.frame_setFrame_same (s : State) (p : FrameId) (f : Frame) : (s.setFrame p f).frame p = f := by
  simp [State.frame, State.setFrame, tableGet, tableFind_tableSet_same]

theorem State.frame_setFrame_ne (s : State) {p q : FrameId} (f : Frame) (h : q ≠ p) :
    (s.setFrame p f).frame q = s.frame q := by
  simp [State.frame, State.setFrame, tableGet, tableFind_tableSet_ne f h]

end Sys2Proof.Machine
end

