-- ==== Sys2Proof/Laws/Encoding.lean ====
section
/-!
SUPPORT. Sys2Proof/Laws/Encoding.lean: the fields of an encoded word read back: class, index, guard, and each format as a whole.
-/

namespace Sys2Proof

/-- Bits above the lower part of a concatenation are those of the upper part. -/
theorem extract_upper {m n : Nat} (x : BitVec m) (y : BitVec n) (s l : Nat) :
    (x ++ y).extractLsb' (n + s) l = x.extractLsb' s l := by
  ext i hi
  simp only [BitVec.getElem_extractLsb', BitVec.getLsbD_append]
  rw [if_neg (by omega)]
  congr 1
  omega

/-- The lower part of a concatenation. -/
theorem extract_lower {m n : Nat} (x : BitVec m) (y : BitVec n) : (x ++ y).extractLsb' 0 n = y := by
  ext i hi
  simp only [BitVec.getElem_extractLsb', BitVec.getLsbD_append]
  rw [if_pos (by omega)]
  simp [BitVec.getLsbD_eq_getElem hi]

theorem bit_upper {m n : Nat} (x : BitVec m) (y : BitVec n) (s : Nat) : (x ++ y).getLsbD (n + s) = x.getLsbD s := by
  rw [BitVec.getLsbD_append, if_neg (by omega)]
  congr 1
  omega

theorem bit_lower {m : Nat} (x : BitVec m) (b : Bool) : (x ++ BitVec.ofBool b).getLsbD 0 = b := by
  rw [BitVec.getLsbD_append]
  cases b <;> rfl

/-- All the bits of a value. -/
theorem extract_all {m : Nat} (x : BitVec m) : x.extractLsb' 0 m = x := by
  ext i hi
  simp

/-! ## The guard, the class and the index -/

theorem encGuard_pred (c n : Nat) (g : Guard) : (encGuard c n g).extractLsb' 0 3 = g.pred := extract_lower _ _
theorem encGuard_neg (c n : Nat) (g : Guard) : (encGuard c n g).getLsbD 3 = g.neg :=
  (bit_upper _ g.pred 0).trans (bit_lower _ _)
theorem encGuard_index (c n : Nat) (g : Guard) : (encGuard c n g).extractLsb' 4 7 = BitVec.ofNat 7 n :=
  (extract_upper _ g.pred 1 7).trans ((extract_upper _ (BitVec.ofBool g.neg) 0 7).trans (extract_lower _ _))
theorem encGuard_class (c n : Nat) (g : Guard) : (encGuard c n g).extractLsb' 11 3 = BitVec.ofNat 3 c :=
  (extract_upper _ g.pred 8 3).trans ((extract_upper _ (BitVec.ofBool g.neg) 7 3).trans
    ((extract_upper _ (BitVec.ofNat 7 n) 0 3).trans (extract_all _)))

/-! ## Format R -/

theorem guard_encR (c n : Nat) (w : RWord) : fieldGuard (encR c n w) = w.g := by
  have hn : (encR c n w).getLsbD 53 = w.g.neg :=
    ((bit_upper _ w.mod 35).trans ((bit_upper _ w.c 27).trans ((bit_upper _ w.b 19).trans
      ((bit_upper _ w.a 11).trans ((bit_upper _ w.dst 3).trans (encGuard_neg c n w.g))))))
  have hp : (encR c n w).extractLsb' 50 3 = w.g.pred :=
    ((extract_upper _ w.mod 32 3).trans ((extract_upper _ w.c 24 3).trans ((extract_upper _ w.b 16 3).trans
      ((extract_upper _ w.a 8 3).trans ((extract_upper _ w.dst 0 3).trans (encGuard_pred c n w.g))))))
  simp only [fieldGuard, hn, hp]

theorem index_encR (c n : Nat) (h : n < 128) (w : RWord) : fieldIndex (encR c n w) = n := by
  have hi : (encR c n w).extractLsb' 54 7 = BitVec.ofNat 7 n :=
    ((extract_upper _ w.mod 36 7).trans ((extract_upper _ w.c 28 7).trans ((extract_upper _ w.b 20 7).trans
      ((extract_upper _ w.a 12 7).trans ((extract_upper _ w.dst 4 7).trans (encGuard_index c n w.g))))))
  simp only [fieldIndex, hi, BitVec.toNat_ofNat]
  exact Nat.mod_eq_of_lt h

theorem class_encR (c n : Nat) (h : c < 8) (w : RWord) : fieldClass (encR c n w) = c := by
  have hi : (encR c n w).extractLsb' 61 3 = BitVec.ofNat 3 c :=
    ((extract_upper _ w.mod 43 3).trans ((extract_upper _ w.c 35 3).trans ((extract_upper _ w.b 27 3).trans
      ((extract_upper _ w.a 19 3).trans ((extract_upper _ w.dst 11 3).trans (encGuard_class c n w.g))))))
  simp only [fieldClass, hi, BitVec.toNat_ofNat]
  exact Nat.mod_eq_of_lt h

/-- The format reads back whole. -/
theorem rword_encR (c n : Nat) (w : RWord) : rword (encR c n w) = w := by
  have hdst : (encR c n w).extractLsb' 42 8 = w.dst :=
    ((extract_upper _ w.mod 24 8).trans ((extract_upper _ w.c 16 8).trans ((extract_upper _ w.b 8 8).trans
      ((extract_upper _ w.a 0 8).trans (extract_lower _ _)))))
  have ha : (encR c n w).extractLsb' 34 8 = w.a :=
    ((extract_upper _ w.mod 16 8).trans ((extract_upper _ w.c 8 8).trans ((extract_upper _ w.b 0 8).trans
      (extract_lower _ _))))
  have hb : (encR c n w).extractLsb' 26 8 = w.b :=
    ((extract_upper _ w.mod 8 8).trans ((extract_upper _ w.c 0 8).trans (extract_lower _ _)))
  have hc : (encR c n w).extractLsb' 18 8 = w.c :=
    ((extract_upper _ w.mod 0 8).trans (extract_lower _ _))
  have hmod : (encR c n w).extractLsb' 0 18 = w.mod :=
    (extract_lower _ _)
  simp only [rword, guard_encR, hdst, ha, hb, hc, hmod]

/-! ## Format I -/

theorem guard_encI (c n : Nat) (w : IWord) : fieldGuard (encI c n w) = w.g := by
  have hn : (encI c n w).getLsbD 53 = w.g.neg :=
    ((bit_upper _ w.imm 19).trans ((bit_upper _ w.a 11).trans ((bit_upper _ w.dst 3).trans (encGuard_neg c n w.g))))
  have hp : (encI c n w).extractLsb' 50 3 = w.g.pred :=
    ((extract_upper _ w.imm 16 3).trans ((extract_upper _ w.a 8 3).trans ((extract_upper _ w.dst 0 3).trans
      (encGuard_pred c n w.g))))
  simp only [fieldGuard, hn, hp]

theorem index_encI (c n : Nat) (h : n < 128) (w : IWord) : fieldIndex (encI c n w) = n := by
  have hi : (encI c n w).extractLsb' 54 7 = BitVec.ofNat 7 n :=
    ((extract_upper _ w.imm 20 7).trans ((extract_upper _ w.a 12 7).trans ((extract_upper _ w.dst 4 7).trans
      (encGuard_index c n w.g))))
  simp only [fieldIndex, hi, BitVec.toNat_ofNat]
  exact Nat.mod_eq_of_lt h

theorem class_encI (c n : Nat) (h : c < 8) (w : IWord) : fieldClass (encI c n w) = c := by
  have hi : (encI c n w).extractLsb' 61 3 = BitVec.ofNat 3 c :=
    ((extract_upper _ w.imm 27 3).trans ((extract_upper _ w.a 19 3).trans ((extract_upper _ w.dst 11 3).trans
      (encGuard_class c n w.g))))
  simp only [fieldClass, hi, BitVec.toNat_ofNat]
  exact Nat.mod_eq_of_lt h

/-- The format reads back whole. -/
theorem iword_encI (c n : Nat) (w : IWord) : iword (encI c n w) = w := by
  have hdst : (encI c n w).extractLsb' 42 8 = w.dst :=
    ((extract_upper _ w.imm 8 8).trans ((extract_upper _ w.a 0 8).trans (extract_lower _ _)))
  have ha : (encI c n w).extractLsb' 34 8 = w.a :=
    ((extract_upper _ w.imm 0 8).trans (extract_lower _ _))
  have himm : (encI c n w).extractLsb' 0 34 = w.imm :=
    (extract_lower _ _)
  simp only [iword, guard_encI, hdst, ha, himm]

/-! ## Format M -/

theorem guard_encM (c n : Nat) (w : MWord) : fieldGuard (encM c n w) = w.g := by
  have hn : (encM c n w).getLsbD 53 = w.g.neg :=
    ((bit_upper _ (BitVec.ofBool w.nt) 52).trans ((bit_upper _ (BitVec.ofBool w.idxv) 51).trans
      ((bit_upper _ w.scope 48).trans ((bit_upper _ w.size 45).trans ((bit_upper _ w.off 27).trans
      ((bit_upper _ w.idx 19).trans ((bit_upper _ w.base 11).trans ((bit_upper _ w.d 3).trans
      (encGuard_neg c n w.g)))))))))
  have hp : (encM c n w).extractLsb' 50 3 = w.g.pred :=
    ((extract_upper _ (BitVec.ofBool w.nt) 49 3).trans ((extract_upper _ (BitVec.ofBool w.idxv) 48 3).trans
      ((extract_upper _ w.scope 45 3).trans ((extract_upper _ w.size 42 3).trans ((extract_upper _ w.off 24 3).trans
      ((extract_upper _ w.idx 16 3).trans ((extract_upper _ w.base 8 3).trans ((extract_upper _ w.d 0 3).trans
      (encGuard_pred c n w.g)))))))))
  simp only [fieldGuard, hn, hp]

theorem index_encM (c n : Nat) (h : n < 128) (w : MWord) : fieldIndex (encM c n w) = n := by
  have hi : (encM c n w).extractLsb' 54 7 = BitVec.ofNat 7 n :=
    ((extract_upper _ (BitVec.ofBool w.nt) 53 7).trans ((extract_upper _ (BitVec.ofBool w.idxv) 52 7).trans
      ((extract_upper _ w.scope 49 7).trans ((extract_upper _ w.size 46 7).trans ((extract_upper _ w.off 28 7).trans
      ((extract_upper _ w.idx 20 7).trans ((extract_upper _ w.base 12 7).trans ((extract_upper _ w.d 4 7).trans
      (encGuard_index c n w.g)))))))))
  simp only [fieldIndex, hi, BitVec.toNat_ofNat]
  exact Nat.mod_eq_of_lt h

theorem class_encM (c n : Nat) (h : c < 8) (w : MWord) : fieldClass (encM c n w) = c := by
  have hi : (encM c n w).extractLsb' 61 3 = BitVec.ofNat 3 c :=
    ((extract_upper _ (BitVec.ofBool w.nt) 60 3).trans ((extract_upper _ (BitVec.ofBool w.idxv) 59 3).trans
      ((extract_upper _ w.scope 56 3).trans ((extract_upper _ w.size 53 3).trans ((extract_upper _ w.off 35 3).trans
      ((extract_upper _ w.idx 27 3).trans ((extract_upper _ w.base 19 3).trans ((extract_upper _ w.d 11 3).trans
      (encGuard_class c n w.g)))))))))
  simp only [fieldClass, hi, BitVec.toNat_ofNat]
  exact Nat.mod_eq_of_lt h

/-- The format reads back whole. -/
theorem mword_encM (c n : Nat) (w : MWord) : mword (encM c n w) = w := by
  have hd : (encM c n w).extractLsb' 42 8 = w.d :=
    ((extract_upper _ (BitVec.ofBool w.nt) 41 8).trans ((extract_upper _ (BitVec.ofBool w.idxv) 40 8).trans
      ((extract_upper _ w.scope 37 8).trans ((extract_upper _ w.size 34 8).trans ((extract_upper _ w.off 16 8).trans
      ((extract_upper _ w.idx 8 8).trans ((extract_upper _ w.base 0 8).trans (extract_lower _ _))))))))
  have hbase : (encM c n w).extractLsb' 34 8 = w.base :=
    ((extract_upper _ (BitVec.ofBool w.nt) 33 8).trans ((extract_upper _ (BitVec.ofBool w.idxv) 32 8).trans
      ((extract_upper _ w.scope 29 8).trans ((extract_upper _ w.size 26 8).trans ((extract_upper _ w.off 8 8).trans
      ((extract_upper _ w.idx 0 8).trans (extract_lower _ _)))))))
  have hidx : (encM c n w).extractLsb' 26 8 = w.idx :=
    ((extract_upper _ (BitVec.ofBool w.nt) 25 8).trans ((extract_upper _ (BitVec.ofBool w.idxv) 24 8).trans
      ((extract_upper _ w.scope 21 8).trans ((extract_upper _ w.size 18 8).trans ((extract_upper _ w.off 0 8).trans
      (extract_lower _ _))))))
  have hoff : (encM c n w).extractLsb' 8 18 = w.off :=
    ((extract_upper _ (BitVec.ofBool w.nt) 7 18).trans ((extract_upper _ (BitVec.ofBool w.idxv) 6 18).trans
      ((extract_upper _ w.scope 3 18).trans ((extract_upper _ w.size 0 18).trans (extract_lower _ _)))))
  have hsize : (encM c n w).extractLsb' 5 3 = w.size :=
    ((extract_upper _ (BitVec.ofBool w.nt) 4 3).trans ((extract_upper _ (BitVec.ofBool w.idxv) 3 3).trans
      ((extract_upper _ w.scope 0 3).trans (extract_lower _ _))))
  have hscope : (encM c n w).extractLsb' 2 3 = w.scope :=
    ((extract_upper _ (BitVec.ofBool w.nt) 1 3).trans ((extract_upper _ (BitVec.ofBool w.idxv) 0 3).trans
      (extract_lower _ _)))
  have hidxv : (encM c n w).getLsbD 1 = w.idxv :=
    ((bit_upper _ (BitVec.ofBool w.nt) 0).trans (bit_lower _ _))
  have hnt : (encM c n w).getLsbD 0 = w.nt :=
    (bit_lower _ _)
  simp only [mword, guard_encM, hd, hbase, hidx, hoff, hsize, hscope, hidxv, hnt]

/-! ## Format B -/

theorem guard_encB (c n : Nat) (w : BWord) : fieldGuard (encB c n w) = w.g := by
  have hn : (encB c n w).getLsbD 53 = w.g.neg :=
    ((bit_upper _ w.mod 43).trans ((bit_upper _ w.a 35).trans ((bit_upper _ w.tgt 3).trans (encGuard_neg c n w.g))))
  have hp : (encB c n w).extractLsb' 50 3 = w.g.pred :=
    ((extract_upper _ w.mod 40 3).trans ((extract_upper _ w.a 32 3).trans ((extract_upper _ w.tgt 0 3).trans
      (encGuard_pred c n w.g))))
  simp only [fieldGuard, hn, hp]

theorem index_encB (c n : Nat) (h : n < 128) (w : BWord) : fieldIndex (encB c n w) = n := by
  have hi : (encB c n w).extractLsb' 54 7 = BitVec.ofNat 7 n :=
    ((extract_upper _ w.mod 44 7).trans ((extract_upper _ w.a 36 7).trans ((extract_upper _ w.tgt 4 7).trans
      (encGuard_index c n w.g))))
  simp only [fieldIndex, hi, BitVec.toNat_ofNat]
  exact Nat.mod_eq_of_lt h

theorem class_encB (c n : Nat) (h : c < 8) (w : BWord) : fieldClass (encB c n w) = c := by
  have hi : (encB c n w).extractLsb' 61 3 = BitVec.ofNat 3 c :=
    ((extract_upper _ w.mod 51 3).trans ((extract_upper _ w.a 43 3).trans ((extract_upper _ w.tgt 11 3).trans
      (encGuard_class c n w.g))))
  simp only [fieldClass, hi, BitVec.toNat_ofNat]
  exact Nat.mod_eq_of_lt h

/-- The format reads back whole. -/
theorem bword_encB (c n : Nat) (w : BWord) : bword (encB c n w) = w := by
  have htgt : (encB c n w).extractLsb' 18 32 = w.tgt :=
    ((extract_upper _ w.mod 8 32).trans ((extract_upper _ w.a 0 32).trans (extract_lower _ _)))
  have ha : (encB c n w).extractLsb' 10 8 = w.a :=
    ((extract_upper _ w.mod 0 8).trans (extract_lower _ _))
  have hmod : (encB c n w).extractLsb' 0 10 = w.mod :=
    (extract_lower _ _)
  simp only [bword, guard_encB, htgt, ha, hmod]

/-! ## Format E -/

theorem guard_encE (c n : Nat) (w : EWord) : fieldGuard (encE c n w) = w.g := by
  have hn : (encE c n w).getLsbD 53 = w.g.neg :=
    ((bit_upper _ w.cmod 48).trans ((bit_upper _ (BitVec.ofBool w.j) 47).trans
      ((bit_upper _ (BitVec.ofBool w.prodv) 46).trans ((bit_upper _ w.prod 42).trans ((bit_upper _ w.conv 39).trans
      ((bit_upper _ w.con2 35).trans ((bit_upper _ w.con1 31).trans ((bit_upper _ w.con0 27).trans
      ((bit_upper _ w.e2 19).trans ((bit_upper _ w.e1 11).trans ((bit_upper _ w.e0 3).trans
      (encGuard_neg c n w.g))))))))))))
  have hp : (encE c n w).extractLsb' 50 3 = w.g.pred :=
    ((extract_upper _ w.cmod 45 3).trans ((extract_upper _ (BitVec.ofBool w.j) 44 3).trans
      ((extract_upper _ (BitVec.ofBool w.prodv) 43 3).trans ((extract_upper _ w.prod 39 3).trans
      ((extract_upper _ w.conv 36 3).trans ((extract_upper _ w.con2 32 3).trans ((extract_upper _ w.con1 28 3).trans
      ((extract_upper _ w.con0 24 3).trans ((extract_upper _ w.e2 16 3).trans ((extract_upper _ w.e1 8 3).trans
      ((extract_upper _ w.e0 0 3).trans (encGuard_pred c n w.g))))))))))))
  simp only [fieldGuard, hn, hp]

theorem index_encE (c n : Nat) (h : n < 128) (w : EWord) : fieldIndex (encE c n w) = n := by
  have hi : (encE c n w).extractLsb' 54 7 = BitVec.ofNat 7 n :=
    ((extract_upper _ w.cmod 49 7).trans ((extract_upper _ (BitVec.ofBool w.j) 48 7).trans
      ((extract_upper _ (BitVec.ofBool w.prodv) 47 7).trans ((extract_upper _ w.prod 43 7).trans
      ((extract_upper _ w.conv 40 7).trans ((extract_upper _ w.con2 36 7).trans ((extract_upper _ w.con1 32 7).trans
      ((extract_upper _ w.con0 28 7).trans ((extract_upper _ w.e2 20 7).trans ((extract_upper _ w.e1 12 7).trans
      ((extract_upper _ w.e0 4 7).trans (encGuard_index c n w.g))))))))))))
  simp only [fieldIndex, hi, BitVec.toNat_ofNat]
  exact Nat.mod_eq_of_lt h

theorem class_encE (c n : Nat) (h : c < 8) (w : EWord) : fieldClass (encE c n w) = c := by
  have hi : (encE c n w).extractLsb' 61 3 = BitVec.ofNat 3 c :=
    ((extract_upper _ w.cmod 56 3).trans ((extract_upper _ (BitVec.ofBool w.j) 55 3).trans
      ((extract_upper _ (BitVec.ofBool w.prodv) 54 3).trans ((extract_upper _ w.prod 50 3).trans
      ((extract_upper _ w.conv 47 3).trans ((extract_upper _ w.con2 43 3).trans ((extract_upper _ w.con1 39 3).trans
      ((extract_upper _ w.con0 35 3).trans ((extract_upper _ w.e2 27 3).trans ((extract_upper _ w.e1 19 3).trans
      ((extract_upper _ w.e0 11 3).trans (encGuard_class c n w.g))))))))))))
  simp only [fieldClass, hi, BitVec.toNat_ofNat]
  exact Nat.mod_eq_of_lt h

/-- The format reads back whole. -/
theorem eword_encE (c n : Nat) (w : EWord) : eword (encE c n w) = w := by
  have he0 : (encE c n w).extractLsb' 42 8 = w.e0 :=
    ((extract_upper _ w.cmod 37 8).trans ((extract_upper _ (BitVec.ofBool w.j) 36 8).trans
      ((extract_upper _ (BitVec.ofBool w.prodv) 35 8).trans ((extract_upper _ w.prod 31 8).trans
      ((extract_upper _ w.conv 28 8).trans ((extract_upper _ w.con2 24 8).trans ((extract_upper _ w.con1 20 8).trans
      ((extract_upper _ w.con0 16 8).trans ((extract_upper _ w.e2 8 8).trans ((extract_upper _ w.e1 0 8).trans
      (extract_lower _ _)))))))))))
  have he1 : (encE c n w).extractLsb' 34 8 = w.e1 :=
    ((extract_upper _ w.cmod 29 8).trans ((extract_upper _ (BitVec.ofBool w.j) 28 8).trans
      ((extract_upper _ (BitVec.ofBool w.prodv) 27 8).trans ((extract_upper _ w.prod 23 8).trans
      ((extract_upper _ w.conv 20 8).trans ((extract_upper _ w.con2 16 8).trans ((extract_upper _ w.con1 12 8).trans
      ((extract_upper _ w.con0 8 8).trans ((extract_upper _ w.e2 0 8).trans (extract_lower _ _))))))))))
  have he2 : (encE c n w).extractLsb' 26 8 = w.e2 :=
    ((extract_upper _ w.cmod 21 8).trans ((extract_upper _ (BitVec.ofBool w.j) 20 8).trans
      ((extract_upper _ (BitVec.ofBool w.prodv) 19 8).trans ((extract_upper _ w.prod 15 8).trans
      ((extract_upper _ w.conv 12 8).trans ((extract_upper _ w.con2 8 8).trans ((extract_upper _ w.con1 4 8).trans
      ((extract_upper _ w.con0 0 8).trans (extract_lower _ _)))))))))
  have hcon0 : (encE c n w).extractLsb' 22 4 = w.con0 :=
    ((extract_upper _ w.cmod 17 4).trans ((extract_upper _ (BitVec.ofBool w.j) 16 4).trans
      ((extract_upper _ (BitVec.ofBool w.prodv) 15 4).trans ((extract_upper _ w.prod 11 4).trans
      ((extract_upper _ w.conv 8 4).trans ((extract_upper _ w.con2 4 4).trans ((extract_upper _ w.con1 0 4).trans
      (extract_lower _ _))))))))
  have hcon1 : (encE c n w).extractLsb' 18 4 = w.con1 :=
    ((extract_upper _ w.cmod 13 4).trans ((extract_upper _ (BitVec.ofBool w.j) 12 4).trans
      ((extract_upper _ (BitVec.ofBool w.prodv) 11 4).trans ((extract_upper _ w.prod 7 4).trans
      ((extract_upper _ w.conv 4 4).trans ((extract_upper _ w.con2 0 4).trans (extract_lower _ _)))))))
  have hcon2 : (encE c n w).extractLsb' 14 4 = w.con2 :=
    ((extract_upper _ w.cmod 9 4).trans ((extract_upper _ (BitVec.ofBool w.j) 8 4).trans
      ((extract_upper _ (BitVec.ofBool w.prodv) 7 4).trans ((extract_upper _ w.prod 3 4).trans
      ((extract_upper _ w.conv 0 4).trans (extract_lower _ _))))))
  have hconv : (encE c n w).extractLsb' 11 3 = w.conv :=
    ((extract_upper _ w.cmod 6 3).trans ((extract_upper _ (BitVec.ofBool w.j) 5 3).trans
      ((extract_upper _ (BitVec.ofBool w.prodv) 4 3).trans ((extract_upper _ w.prod 0 3).trans (extract_lower _ _)))))
  have hprod : (encE c n w).extractLsb' 7 4 = w.prod :=
    ((extract_upper _ w.cmod 2 4).trans ((extract_upper _ (BitVec.ofBool w.j) 1 4).trans
      ((extract_upper _ (BitVec.ofBool w.prodv) 0 4).trans (extract_lower _ _))))
  have hprodv : (encE c n w).getLsbD 6 = w.prodv :=
    ((bit_upper _ w.cmod 1).trans ((bit_upper _ (BitVec.ofBool w.j) 0).trans (bit_lower _ _)))
  have hj : (encE c n w).getLsbD 5 = w.j :=
    ((bit_upper _ w.cmod 0).trans (bit_lower _ _))
  have hcmod : (encE c n w).extractLsb' 0 5 = w.cmod :=
    (extract_lower _ _)
  simp only [eword, guard_encE, he0, he1, he2, hcon0, hcon1, hcon2, hconv, hprod, hprodv, hj, hcmod]

end Sys2Proof
end

