-- ==== Sys2Proof/Laws/State.lean ====
section
/-!
SUPPORT. Sys2Proof/Laws/State.lean: for every named update of the state, of a rod and of a lane, what each field reads
after it. Each is true by unfolding one update; no later proof unfolds a record update.
-/

namespace Sys2Proof.Machine

/-! ## State -/

@[simp] theorem State.setFrame_mem (s : State) (p : FrameId) (f : Frame) :
    (s.setFrame p f).mem = s.mem := rfl
@[simp] theorem State.setFrame_rods (s : State) (p : FrameId) (f : Frame) :
    (s.setFrame p f).rods = s.rods := rfl
@[simp] theorem State.setFrame_teams (s : State) (p : FrameId) (f : Frame) :
    (s.setFrame p f).teams = s.teams := rfl
@[simp] theorem State.setFrame_frames (s : State) (p : FrameId) (f : Frame) :
    (s.setFrame p f).frames = tableSet p f s.frames := rfl
@[simp] theorem State.setFrame_dies (s : State) (p : FrameId) (f : Frame) :
    (s.setFrame p f).dies = s.dies := rfl
@[simp] theorem State.setFrame_carry (s : State) (p : FrameId) (f : Frame) :
    (s.setFrame p f).carry = s.carry := rfl
@[simp] theorem State.setFrame_hub (s : State) (p : FrameId) (f : Frame) :
    (s.setFrame p f).hub = s.hub := rfl
@[simp] theorem State.setFrame_cur (s : State) (p : FrameId) (f : Frame) :
    (s.setFrame p f).cur = s.cur := rfl
@[simp] theorem State.setFrame_agenda (s : State) (p : FrameId) (f : Frame) :
    (s.setFrame p f).agenda = s.agenda := rfl
@[simp] theorem State.setFrame_free (s : State) (p : FrameId) (f : Frame) :
    (s.setFrame p f).free = s.free := rfl
@[simp] theorem State.setFrame_mid (s : State) (p : FrameId) (f : Frame) :
    (s.setFrame p f).mid = s.mid := rfl

@[simp] theorem State.setDie_mem (s : State) (d : Nat) (x : Die) :
    (s.setDie d x).mem = s.mem := rfl
@[simp] theorem State.setDie_rods (s : State) (d : Nat) (x : Die) :
    (s.setDie d x).rods = s.rods := rfl
@[simp] theorem State.setDie_teams (s : State) (d : Nat) (x : Die) :
    (s.setDie d x).teams = s.teams := rfl
@[simp] theorem State.setDie_frames (s : State) (d : Nat) (x : Die) :
    (s.setDie d x).frames = s.frames := rfl
@[simp] theorem State.setDie_dies (s : State) (d : Nat) (x : Die) :
    (s.setDie d x).dies = tableSet d x s.dies := rfl
@[simp] theorem State.setDie_carry (s : State) (d : Nat) (x : Die) :
    (s.setDie d x).carry = s.carry := rfl
@[simp] theorem State.setDie_hub (s : State) (d : Nat) (x : Die) :
    (s.setDie d x).hub = s.hub := rfl
@[simp] theorem State.setDie_cur (s : State) (d : Nat) (x : Die) :
    (s.setDie d x).cur = s.cur := rfl
@[simp] theorem State.setDie_agenda (s : State) (d : Nat) (x : Die) :
    (s.setDie d x).agenda = s.agenda := rfl
@[simp] theorem State.setDie_free (s : State) (d : Nat) (x : Die) :
    (s.setDie d x).free = s.free := rfl
@[simp] theorem State.setDie_mid (s : State) (d : Nat) (x : Die) :
    (s.setDie d x).mid = s.mid := rfl

@[simp] theorem State.setRod_mem (s : State) (k : RodKey) (r : Rod) :
    (s.setRod k r).mem = s.mem := rfl
@[simp] theorem State.setRod_rods (s : State) (k : RodKey) (r : Rod) :
    (s.setRod k r).rods = tableSet k r s.rods := rfl
@[simp] theorem State.setRod_teams (s : State) (k : RodKey) (r : Rod) :
    (s.setRod k r).teams = s.teams := rfl
@[simp] theorem State.setRod_frames (s : State) (k : RodKey) (r : Rod) :
    (s.setRod k r).frames = s.frames := rfl
@[simp] theorem State.setRod_dies (s : State) (k : RodKey) (r : Rod) :
    (s.setRod k r).dies = s.dies := rfl
@[simp] theorem State.setRod_carry (s : State) (k : RodKey) (r : Rod) :
    (s.setRod k r).carry = s.carry := rfl
@[simp] theorem State.setRod_hub (s : State) (k : RodKey) (r : Rod) :
    (s.setRod k r).hub = s.hub := rfl
@[simp] theorem State.setRod_cur (s : State) (k : RodKey) (r : Rod) :
    (s.setRod k r).cur = s.cur := rfl
@[simp] theorem State.setRod_agenda (s : State) (k : RodKey) (r : Rod) :
    (s.setRod k r).agenda = s.agenda := rfl
@[simp] theorem State.setRod_free (s : State) (k : RodKey) (r : Rod) :
    (s.setRod k r).free = s.free := rfl
@[simp] theorem State.setRod_mid (s : State) (k : RodKey) (r : Rod) :
    (s.setRod k r).mid = s.mid := rfl

@[simp] theorem State.eraseRod_mem (s : State) (k : RodKey) :
    (s.eraseRod k).mem = s.mem := rfl
@[simp] theorem State.eraseRod_rods (s : State) (k : RodKey) :
    (s.eraseRod k).rods = tableErase k s.rods := rfl
@[simp] theorem State.eraseRod_teams (s : State) (k : RodKey) :
    (s.eraseRod k).teams = s.teams := rfl
@[simp] theorem State.eraseRod_frames (s : State) (k : RodKey) :
    (s.eraseRod k).frames = s.frames := rfl
@[simp] theorem State.eraseRod_dies (s : State) (k : RodKey) :
    (s.eraseRod k).dies = s.dies := rfl
@[simp] theorem State.eraseRod_carry (s : State) (k : RodKey) :
    (s.eraseRod k).carry = s.carry := rfl
@[simp] theorem State.eraseRod_hub (s : State) (k : RodKey) :
    (s.eraseRod k).hub = s.hub := rfl
@[simp] theorem State.eraseRod_cur (s : State) (k : RodKey) :
    (s.eraseRod k).cur = s.cur := rfl
@[simp] theorem State.eraseRod_agenda (s : State) (k : RodKey) :
    (s.eraseRod k).agenda = s.agenda := rfl
@[simp] theorem State.eraseRod_free (s : State) (k : RodKey) :
    (s.eraseRod k).free = s.free := rfl
@[simp] theorem State.eraseRod_mid (s : State) (k : RodKey) :
    (s.eraseRod k).mid = s.mid := rfl

@[simp] theorem State.setTeam_mem (s : State) (k : TeamKey) (t : Team) :
    (s.setTeam k t).mem = s.mem := rfl
@[simp] theorem State.setTeam_rods (s : State) (k : TeamKey) (t : Team) :
    (s.setTeam k t).rods = s.rods := rfl
@[simp] theorem State.setTeam_teams (s : State) (k : TeamKey) (t : Team) :
    (s.setTeam k t).teams = tableSet k t s.teams := rfl
@[simp] theorem State.setTeam_frames (s : State) (k : TeamKey) (t : Team) :
    (s.setTeam k t).frames = s.frames := rfl
@[simp] theorem State.setTeam_dies (s : State) (k : TeamKey) (t : Team) :
    (s.setTeam k t).dies = s.dies := rfl
@[simp] theorem State.setTeam_carry (s : State) (k : TeamKey) (t : Team) :
    (s.setTeam k t).carry = s.carry := rfl
@[simp] theorem State.setTeam_hub (s : State) (k : TeamKey) (t : Team) :
    (s.setTeam k t).hub = s.hub := rfl
@[simp] theorem State.setTeam_cur (s : State) (k : TeamKey) (t : Team) :
    (s.setTeam k t).cur = s.cur := rfl
@[simp] theorem State.setTeam_agenda (s : State) (k : TeamKey) (t : Team) :
    (s.setTeam k t).agenda = s.agenda := rfl
@[simp] theorem State.setTeam_free (s : State) (k : TeamKey) (t : Team) :
    (s.setTeam k t).free = s.free := rfl
@[simp] theorem State.setTeam_mid (s : State) (k : TeamKey) (t : Team) :
    (s.setTeam k t).mid = s.mid := rfl

@[simp] theorem State.eraseTeam_mem (s : State) (k : TeamKey) :
    (s.eraseTeam k).mem = s.mem := rfl
@[simp] theorem State.eraseTeam_rods (s : State) (k : TeamKey) :
    (s.eraseTeam k).rods = s.rods := rfl
@[simp] theorem State.eraseTeam_teams (s : State) (k : TeamKey) :
    (s.eraseTeam k).teams = tableErase k s.teams := rfl
@[simp] theorem State.eraseTeam_frames (s : State) (k : TeamKey) :
    (s.eraseTeam k).frames = s.frames := rfl
@[simp] theorem State.eraseTeam_dies (s : State) (k : TeamKey) :
    (s.eraseTeam k).dies = s.dies := rfl
@[simp] theorem State.eraseTeam_carry (s : State) (k : TeamKey) :
    (s.eraseTeam k).carry = s.carry := rfl
@[simp] theorem State.eraseTeam_hub (s : State) (k : TeamKey) :
    (s.eraseTeam k).hub = s.hub := rfl
@[simp] theorem State.eraseTeam_cur (s : State) (k : TeamKey) :
    (s.eraseTeam k).cur = s.cur := rfl
@[simp] theorem State.eraseTeam_agenda (s : State) (k : TeamKey) :
    (s.eraseTeam k).agenda = s.agenda := rfl
@[simp] theorem State.eraseTeam_free (s : State) (k : TeamKey) :
    (s.eraseTeam k).free = s.free := rfl
@[simp] theorem State.eraseTeam_mid (s : State) (k : TeamKey) :
    (s.eraseTeam k).mid = s.mid := rfl

@[simp] theorem State.modFrame_mem (s : State) (p : FrameId) (g : Frame → Frame) :
    (s.modFrame p g).mem = s.mem := rfl
@[simp] theorem State.modFrame_rods (s : State) (p : FrameId) (g : Frame → Frame) :
    (s.modFrame p g).rods = s.rods := rfl
@[simp] theorem State.modFrame_teams (s : State) (p : FrameId) (g : Frame → Frame) :
    (s.modFrame p g).teams = s.teams := rfl
@[simp] theorem State.modFrame_frames (s : State) (p : FrameId) (g : Frame → Frame) :
    (s.modFrame p g).frames = tableSet p (g (s.frame p)) s.frames := rfl
@[simp] theorem State.modFrame_dies (s : State) (p : FrameId) (g : Frame → Frame) :
    (s.modFrame p g).dies = s.dies := rfl
@[simp] theorem State.modFrame_carry (s : State) (p : FrameId) (g : Frame → Frame) :
    (s.modFrame p g).carry = s.carry := rfl
@[simp] theorem State.modFrame_hub (s : State) (p : FrameId) (g : Frame → Frame) :
    (s.modFrame p g).hub = s.hub := rfl
@[simp] theorem State.modFrame_cur (s : State) (p : FrameId) (g : Frame → Frame) :
    (s.modFrame p g).cur = s.cur := rfl
@[simp] theorem State.modFrame_agenda (s : State) (p : FrameId) (g : Frame → Frame) :
    (s.modFrame p g).agenda = s.agenda := rfl
@[simp] theorem State.modFrame_free (s : State) (p : FrameId) (g : Frame → Frame) :
    (s.modFrame p g).free = s.free := rfl
@[simp] theorem State.modFrame_mid (s : State) (p : FrameId) (g : Frame → Frame) :
    (s.modFrame p g).mid = s.mid := rfl

@[simp] theorem State.modDie_mem (s : State) (d : Nat) (g : Die → Die) :
    (s.modDie d g).mem = s.mem := rfl
@[simp] theorem State.modDie_rods (s : State) (d : Nat) (g : Die → Die) :
    (s.modDie d g).rods = s.rods := rfl
@[simp] theorem State.modDie_teams (s : State) (d : Nat) (g : Die → Die) :
    (s.modDie d g).teams = s.teams := rfl
@[simp] theorem State.modDie_frames (s : State) (d : Nat) (g : Die → Die) :
    (s.modDie d g).frames = s.frames := rfl
@[simp] theorem State.modDie_dies (s : State) (d : Nat) (g : Die → Die) :
    (s.modDie d g).dies = tableSet d (g (s.die d)) s.dies := rfl
@[simp] theorem State.modDie_carry (s : State) (d : Nat) (g : Die → Die) :
    (s.modDie d g).carry = s.carry := rfl
@[simp] theorem State.modDie_hub (s : State) (d : Nat) (g : Die → Die) :
    (s.modDie d g).hub = s.hub := rfl
@[simp] theorem State.modDie_cur (s : State) (d : Nat) (g : Die → Die) :
    (s.modDie d g).cur = s.cur := rfl
@[simp] theorem State.modDie_agenda (s : State) (d : Nat) (g : Die → Die) :
    (s.modDie d g).agenda = s.agenda := rfl
@[simp] theorem State.modDie_free (s : State) (d : Nat) (g : Die → Die) :
    (s.modDie d g).free = s.free := rfl
@[simp] theorem State.modDie_mid (s : State) (d : Nat) (g : Die → Die) :
    (s.modDie d g).mid = s.mid := rfl

@[simp] theorem State.modHub_mem (s : State) (g : Hub → Hub) :
    (s.modHub g).mem = s.mem := rfl
@[simp] theorem State.modHub_rods (s : State) (g : Hub → Hub) :
    (s.modHub g).rods = s.rods := rfl
@[simp] theorem State.modHub_teams (s : State) (g : Hub → Hub) :
    (s.modHub g).teams = s.teams := rfl
@[simp] theorem State.modHub_frames (s : State) (g : Hub → Hub) :
    (s.modHub g).frames = s.frames := rfl
@[simp] theorem State.modHub_dies (s : State) (g : Hub → Hub) :
    (s.modHub g).dies = s.dies := rfl
@[simp] theorem State.modHub_carry (s : State) (g : Hub → Hub) :
    (s.modHub g).carry = s.carry := rfl
@[simp] theorem State.modHub_hub (s : State) (g : Hub → Hub) :
    (s.modHub g).hub = g s.hub := rfl
@[simp] theorem State.modHub_cur (s : State) (g : Hub → Hub) :
    (s.modHub g).cur = s.cur := rfl
@[simp] theorem State.modHub_agenda (s : State) (g : Hub → Hub) :
    (s.modHub g).agenda = s.agenda := rfl
@[simp] theorem State.modHub_free (s : State) (g : Hub → Hub) :
    (s.modHub g).free = s.free := rfl
@[simp] theorem State.modHub_mid (s : State) (g : Hub → Hub) :
    (s.modHub g).mid = s.mid := rfl

@[simp] theorem State.setHub_mem (s : State) (h : Hub) :
    (s.setHub h).mem = s.mem := rfl
@[simp] theorem State.setHub_rods (s : State) (h : Hub) :
    (s.setHub h).rods = s.rods := rfl
@[simp] theorem State.setHub_teams (s : State) (h : Hub) :
    (s.setHub h).teams = s.teams := rfl
@[simp] theorem State.setHub_frames (s : State) (h : Hub) :
    (s.setHub h).frames = s.frames := rfl
@[simp] theorem State.setHub_dies (s : State) (h : Hub) :
    (s.setHub h).dies = s.dies := rfl
@[simp] theorem State.setHub_carry (s : State) (h : Hub) :
    (s.setHub h).carry = s.carry := rfl
@[simp] theorem State.setHub_hub (s : State) (h : Hub) :
    (s.setHub h).hub = h := rfl
@[simp] theorem State.setHub_cur (s : State) (h : Hub) :
    (s.setHub h).cur = s.cur := rfl
@[simp] theorem State.setHub_agenda (s : State) (h : Hub) :
    (s.setHub h).agenda = s.agenda := rfl
@[simp] theorem State.setHub_free (s : State) (h : Hub) :
    (s.setHub h).free = s.free := rfl
@[simp] theorem State.setHub_mid (s : State) (h : Hub) :
    (s.setHub h).mid = s.mid := rfl

@[simp] theorem State.modRod_mem (s : State) (k : RodKey) (g : Rod → Rod) : (s.modRod k g).mem = s.mem := by
  unfold State.modRod; split <;> rfl
@[simp] theorem State.modRod_teams (s : State) (k : RodKey) (g : Rod → Rod) : (s.modRod k g).teams = s.teams := by
  unfold State.modRod; split <;> rfl
@[simp] theorem State.modRod_frames (s : State) (k : RodKey) (g : Rod → Rod) : (s.modRod k g).frames = s.frames := by
  unfold State.modRod; split <;> rfl
@[simp] theorem State.modRod_dies (s : State) (k : RodKey) (g : Rod → Rod) : (s.modRod k g).dies = s.dies := by
  unfold State.modRod; split <;> rfl
@[simp] theorem State.modRod_carry (s : State) (k : RodKey) (g : Rod → Rod) : (s.modRod k g).carry = s.carry := by
  unfold State.modRod; split <;> rfl
@[simp] theorem State.modRod_hub (s : State) (k : RodKey) (g : Rod → Rod) : (s.modRod k g).hub = s.hub := by
  unfold State.modRod; split <;> rfl
@[simp] theorem State.modRod_cur (s : State) (k : RodKey) (g : Rod → Rod) : (s.modRod k g).cur = s.cur := by
  unfold State.modRod; split <;> rfl
@[simp] theorem State.modRod_agenda (s : State) (k : RodKey) (g : Rod → Rod) : (s.modRod k g).agenda = s.agenda := by
  unfold State.modRod; split <;> rfl
@[simp] theorem State.modRod_free (s : State) (k : RodKey) (g : Rod → Rod) : (s.modRod k g).free = s.free := by
  unfold State.modRod; split <;> rfl
@[simp] theorem State.modRod_mid (s : State) (k : RodKey) (g : Rod → Rod) : (s.modRod k g).mid = s.mid := by
  unfold State.modRod; split <;> rfl
theorem State.modRod_of_some {s : State} {k : RodKey} {x : Rod} (h : s.rod? k = some x) (g : Rod → Rod) :
    s.modRod k g = s.setRod k (g x) := by simp [State.modRod, h]

@[simp] theorem State.modTeam_mem (s : State) (k : TeamKey) (g : Team → Team) : (s.modTeam k g).mem = s.mem := by
  unfold State.modTeam; split <;> rfl
@[simp] theorem State.modTeam_rods (s : State) (k : TeamKey) (g : Team → Team) : (s.modTeam k g).rods = s.rods := by
  unfold State.modTeam; split <;> rfl
@[simp] theorem State.modTeam_frames (s : State) (k : TeamKey) (g : Team → Team) : (s.modTeam k g).frames = s.frames := by
  unfold State.modTeam; split <;> rfl
@[simp] theorem State.modTeam_dies (s : State) (k : TeamKey) (g : Team → Team) : (s.modTeam k g).dies = s.dies := by
  unfold State.modTeam; split <;> rfl
@[simp] theorem State.modTeam_carry (s : State) (k : TeamKey) (g : Team → Team) : (s.modTeam k g).carry = s.carry := by
  unfold State.modTeam; split <;> rfl
@[simp] theorem State.modTeam_hub (s : State) (k : TeamKey) (g : Team → Team) : (s.modTeam k g).hub = s.hub := by
  unfold State.modTeam; split <;> rfl
@[simp] theorem State.modTeam_cur (s : State) (k : TeamKey) (g : Team → Team) : (s.modTeam k g).cur = s.cur := by
  unfold State.modTeam; split <;> rfl
@[simp] theorem State.modTeam_agenda (s : State) (k : TeamKey) (g : Team → Team) : (s.modTeam k g).agenda = s.agenda := by
  unfold State.modTeam; split <;> rfl
@[simp] theorem State.modTeam_free (s : State) (k : TeamKey) (g : Team → Team) : (s.modTeam k g).free = s.free := by
  unfold State.modTeam; split <;> rfl
@[simp] theorem State.modTeam_mid (s : State) (k : TeamKey) (g : Team → Team) : (s.modTeam k g).mid = s.mid := by
  unfold State.modTeam; split <;> rfl
theorem State.modTeam_of_some {s : State} {k : TeamKey} {x : Team} (h : s.team? k = some x) (g : Team → Team) :
    s.modTeam k g = s.setTeam k (g x) := by simp [State.modTeam, h]

/-! ## A rod -/

@[simp] theorem Rod.mapLanes_launch (r : Rod) (m : BitVec 32) (f : Fin 32 → Lane → Lane) :
    (r.mapLanes m f).launch = r.launch := by
  simp only [Rod.mapLanes]
@[simp] theorem Rod.mapLanes_team (r : Rod) (m : BitVec 32) (f : Fin 32 → Lane → Lane) :
    (r.mapLanes m f).team = r.team := by
  simp only [Rod.mapLanes]
@[simp] theorem Rod.mapLanes_teamSlot (r : Rod) (m : BitVec 32) (f : Fin 32 → Lane → Lane) :
    (r.mapLanes m f).teamSlot = r.teamSlot := by
  simp only [Rod.mapLanes]
@[simp] theorem Rod.mapLanes_rod (r : Rod) (m : BitVec 32) (f : Fin 32 → Lane → Lane) :
    (r.mapLanes m f).rod = r.rod := by
  simp only [Rod.mapLanes]
@[simp] theorem Rod.mapLanes_item0 (r : Rod) (m : BitVec 32) (f : Fin 32 → Lane → Lane) :
    (r.mapLanes m f).item0 = r.item0 := by
  simp only [Rod.mapLanes]
@[simp] theorem Rod.mapLanes_fast (r : Rod) (m : BitVec 32) (f : Fin 32 → Lane → Lane) :
    (r.mapLanes m f).fast = r.fast := by
  simp only [Rod.mapLanes]
@[simp] theorem Rod.mapLanes_slow (r : Rod) (m : BitVec 32) (f : Fin 32 → Lane → Lane) :
    (r.mapLanes m f).slow = r.slow := by
  simp only [Rod.mapLanes]
@[simp] theorem Rod.mapLanes_lanes (r : Rod) (m : BitVec 32) (f : Fin 32 → Lane → Lane) :
    (r.mapLanes m f).lanes = Vector.ofFn (fun l => if m.getLsbD l.val then f l r.lanes[l] else r.lanes[l]) := by
  simp only [Rod.mapLanes]
@[simp] theorem Rod.mapLanes_nextGroup (r : Rod) (m : BitVec 32) (f : Fin 32 → Lane → Lane) :
    (r.mapLanes m f).nextGroup = r.nextGroup := by
  simp only [Rod.mapLanes]
@[simp] theorem Rod.mapLanes_lastLane (r : Rod) (m : BitVec 32) (f : Fin 32 → Lane → Lane) :
    (r.mapLanes m f).lastLane = r.lastLane := by
  simp only [Rod.mapLanes]
@[simp] theorem Rod.mapLanes_unissued (r : Rod) (m : BitVec 32) (f : Fin 32 → Lane → Lane) :
    (r.mapLanes m f).unissued = r.unissued := by
  simp only [Rod.mapLanes]
@[simp] theorem Rod.mapLanes_markSeq (r : Rod) (m : BitVec 32) (f : Fin 32 → Lane → Lane) :
    (r.mapLanes m f).markSeq = r.markSeq := by
  simp only [Rod.mapLanes]
@[simp] theorem Rod.mapLanes_stop (r : Rod) (m : BitVec 32) (f : Fin 32 → Lane → Lane) :
    (r.mapLanes m f).stop = r.stop := by
  simp only [Rod.mapLanes]
@[simp] theorem Rod.mapLanes_traps (r : Rod) (m : BitVec 32) (f : Fin 32 → Lane → Lane) :
    (r.mapLanes m f).traps = r.traps := by
  simp only [Rod.mapLanes]
@[simp] theorem Rod.mapLanes_sigs (r : Rod) (m : BitVec 32) (f : Fin 32 → Lane → Lane) :
    (r.mapLanes m f).sigs = r.sigs := by
  simp only [Rod.mapLanes]
@[simp] theorem Rod.mapLanes_arrived (r : Rod) (m : BitVec 32) (f : Fin 32 → Lane → Lane) :
    (r.mapLanes m f).arrived = r.arrived := by
  simp only [Rod.mapLanes]
@[simp] theorem Rod.mapLanes_rows (r : Rod) (m : BitVec 32) (f : Fin 32 → Lane → Lane) :
    (r.mapLanes m f).rows = r.rows := by
  simp only [Rod.mapLanes]
@[simp] theorem Rod.mapLanes_engineFaults (r : Rod) (m : BitVec 32) (f : Fin 32 → Lane → Lane) :
    (r.mapLanes m f).engineFaults = r.engineFaults := by
  simp only [Rod.mapLanes]
@[simp] theorem Rod.mapLanes_yielded (r : Rod) (m : BitVec 32) (f : Fin 32 → Lane → Lane) :
    (r.mapLanes m f).yielded = r.yielded := by
  simp only [Rod.mapLanes]
@[simp] theorem Rod.mapLanes_taken (r : Rod) (m : BitVec 32) (f : Fin 32 → Lane → Lane) :
    (r.mapLanes m f).taken = r.taken := by
  simp only [Rod.mapLanes]
@[simp] theorem Rod.mapLanes_divert (r : Rod) (m : BitVec 32) (f : Fin 32 → Lane → Lane) :
    (r.mapLanes m f).divert = r.divert := by
  simp only [Rod.mapLanes]

@[simp] theorem Rod.setLane_launch (r : Rod) (l : Nat) (x : Lane) :
    (r.setLane l x).launch = r.launch := by
  simp only [Rod.setLane]
@[simp] theorem Rod.setLane_team (r : Rod) (l : Nat) (x : Lane) :
    (r.setLane l x).team = r.team := by
  simp only [Rod.setLane]
@[simp] theorem Rod.setLane_teamSlot (r : Rod) (l : Nat) (x : Lane) :
    (r.setLane l x).teamSlot = r.teamSlot := by
  simp only [Rod.setLane]
@[simp] theorem Rod.setLane_rod (r : Rod) (l : Nat) (x : Lane) :
    (r.setLane l x).rod = r.rod := by
  simp only [Rod.setLane]
@[simp] theorem Rod.setLane_item0 (r : Rod) (l : Nat) (x : Lane) :
    (r.setLane l x).item0 = r.item0 := by
  simp only [Rod.setLane]
@[simp] theorem Rod.setLane_fast (r : Rod) (l : Nat) (x : Lane) :
    (r.setLane l x).fast = r.fast := by
  simp only [Rod.setLane]
@[simp] theorem Rod.setLane_slow (r : Rod) (l : Nat) (x : Lane) :
    (r.setLane l x).slow = r.slow := by
  simp only [Rod.setLane]
@[simp] theorem Rod.setLane_lanes (r : Rod) (l : Nat) (x : Lane) :
    (r.setLane l x).lanes = Vector.ofFn (fun k => if k.val = l then x else r.lanes[k]) := by
  simp only [Rod.setLane]
@[simp] theorem Rod.setLane_nextGroup (r : Rod) (l : Nat) (x : Lane) :
    (r.setLane l x).nextGroup = r.nextGroup := by
  simp only [Rod.setLane]
@[simp] theorem Rod.setLane_lastLane (r : Rod) (l : Nat) (x : Lane) :
    (r.setLane l x).lastLane = r.lastLane := by
  simp only [Rod.setLane]
@[simp] theorem Rod.setLane_unissued (r : Rod) (l : Nat) (x : Lane) :
    (r.setLane l x).unissued = r.unissued := by
  simp only [Rod.setLane]
@[simp] theorem Rod.setLane_markSeq (r : Rod) (l : Nat) (x : Lane) :
    (r.setLane l x).markSeq = r.markSeq := by
  simp only [Rod.setLane]
@[simp] theorem Rod.setLane_stop (r : Rod) (l : Nat) (x : Lane) :
    (r.setLane l x).stop = r.stop := by
  simp only [Rod.setLane]
@[simp] theorem Rod.setLane_traps (r : Rod) (l : Nat) (x : Lane) :
    (r.setLane l x).traps = r.traps := by
  simp only [Rod.setLane]
@[simp] theorem Rod.setLane_sigs (r : Rod) (l : Nat) (x : Lane) :
    (r.setLane l x).sigs = r.sigs := by
  simp only [Rod.setLane]
@[simp] theorem Rod.setLane_arrived (r : Rod) (l : Nat) (x : Lane) :
    (r.setLane l x).arrived = r.arrived := by
  simp only [Rod.setLane]
@[simp] theorem Rod.setLane_rows (r : Rod) (l : Nat) (x : Lane) :
    (r.setLane l x).rows = r.rows := by
  simp only [Rod.setLane]
@[simp] theorem Rod.setLane_engineFaults (r : Rod) (l : Nat) (x : Lane) :
    (r.setLane l x).engineFaults = r.engineFaults := by
  simp only [Rod.setLane]
@[simp] theorem Rod.setLane_yielded (r : Rod) (l : Nat) (x : Lane) :
    (r.setLane l x).yielded = r.yielded := by
  simp only [Rod.setLane]
@[simp] theorem Rod.setLane_taken (r : Rod) (l : Nat) (x : Lane) :
    (r.setLane l x).taken = r.taken := by
  simp only [Rod.setLane]
@[simp] theorem Rod.setLane_divert (r : Rod) (l : Nat) (x : Lane) :
    (r.setLane l x).divert = r.divert := by
  simp only [Rod.setLane]

/-! ## A lane -/

@[simp] theorem Lane.setReg_st (x : Lane) (n : Nat) (v : Word) :
    (x.setReg n v).st = x.st := rfl
@[simp] theorem Lane.setReg_wait (x : Lane) (n : Nat) (v : Word) :
    (x.setReg n v).wait = x.wait := rfl
@[simp] theorem Lane.setReg_group (x : Lane) (n : Nat) (v : Word) :
    (x.setReg n v).group = x.group := rfl
@[simp] theorem Lane.setReg_item (x : Lane) (n : Nat) (v : Word) :
    (x.setReg n v).item = x.item := rfl
@[simp] theorem Lane.setReg_pc (x : Lane) (n : Nat) (v : Word) :
    (x.setReg n v).pc = x.pc := rfl
@[simp] theorem Lane.setReg_regs (x : Lane) (n : Nat) (v : Word) :
    (x.setReg n v).regs = cellSet n v x.regs := rfl
@[simp] theorem Lane.setReg_preds (x : Lane) (n : Nat) (v : Word) :
    (x.setReg n v).preds = x.preds := rfl
@[simp] theorem Lane.setReg_xregs (x : Lane) (n : Nat) (v : Word) :
    (x.setReg n v).xregs = x.xregs := rfl
@[simp] theorem Lane.setReg_marks (x : Lane) (n : Nat) (v : Word) :
    (x.setReg n v).marks = x.marks := rfl
@[simp] theorem Lane.setReg_readCount (x : Lane) (n : Nat) (v : Word) :
    (x.setReg n v).readCount = x.readCount := rfl
@[simp] theorem Lane.setReg_writeCount (x : Lane) (n : Nat) (v : Word) :
    (x.setReg n v).writeCount = x.writeCount := rfl
@[simp] theorem Lane.setReg_cdone (x : Lane) (n : Nat) (v : Word) :
    (x.setReg n v).cdone = x.cdone := rfl
@[simp] theorem Lane.setReg_carryBits (x : Lane) (n : Nat) (v : Word) :
    (x.setReg n v).carryBits = x.carryBits := rfl
@[simp] theorem Lane.setReg_valid (x : Lane) (n : Nat) (v : Word) :
    (x.setReg n v).valid = x.valid := rfl
@[simp] theorem Lane.setReg_phase (x : Lane) (n : Nat) (v : Word) :
    (x.setReg n v).phase = x.phase := rfl
@[simp] theorem Lane.setReg_rsCount (x : Lane) (n : Nat) (v : Word) :
    (x.setReg n v).rsCount = x.rsCount := rfl
@[simp] theorem Lane.setReg_loads (x : Lane) (n : Nat) (v : Word) :
    (x.setReg n v).loads = x.loads := rfl
@[simp] theorem Lane.setReg_loadOrdinal (x : Lane) (n : Nat) (v : Word) :
    (x.setReg n v).loadOrdinal = x.loadOrdinal := rfl
@[simp] theorem Lane.setReg_marked (x : Lane) (n : Nat) (v : Word) :
    (x.setReg n v).marked = x.marked := rfl
@[simp] theorem Lane.setReg_joined (x : Lane) (n : Nat) (v : Word) :
    (x.setReg n v).joined = x.joined := rfl
@[simp] theorem Lane.setReg_deferred (x : Lane) (n : Nat) (v : Word) :
    (x.setReg n v).deferred = x.deferred := rfl
@[simp] theorem Lane.setReg_fence (x : Lane) (n : Nat) (v : Word) :
    (x.setReg n v).fence = x.fence := rfl
@[simp] theorem Lane.setReg_record (x : Lane) (n : Nat) (v : Word) :
    (x.setReg n v).record = x.record := rfl

@[simp] theorem Lane.setPair_st (x : Lane) (n : Nat) (v : DWord) :
    (x.setPair n v).st = x.st := rfl
@[simp] theorem Lane.setPair_wait (x : Lane) (n : Nat) (v : DWord) :
    (x.setPair n v).wait = x.wait := rfl
@[simp] theorem Lane.setPair_group (x : Lane) (n : Nat) (v : DWord) :
    (x.setPair n v).group = x.group := rfl
@[simp] theorem Lane.setPair_item (x : Lane) (n : Nat) (v : DWord) :
    (x.setPair n v).item = x.item := rfl
@[simp] theorem Lane.setPair_pc (x : Lane) (n : Nat) (v : DWord) :
    (x.setPair n v).pc = x.pc := rfl
@[simp] theorem Lane.setPair_regs (x : Lane) (n : Nat) (v : DWord) :
    (x.setPair n v).regs = cellSet (n + 1) (v.extractLsb' 32 32) (cellSet n (v.extractLsb' 0 32) x.regs) := rfl
@[simp] theorem Lane.setPair_preds (x : Lane) (n : Nat) (v : DWord) :
    (x.setPair n v).preds = x.preds := rfl
@[simp] theorem Lane.setPair_xregs (x : Lane) (n : Nat) (v : DWord) :
    (x.setPair n v).xregs = x.xregs := rfl
@[simp] theorem Lane.setPair_marks (x : Lane) (n : Nat) (v : DWord) :
    (x.setPair n v).marks = x.marks := rfl
@[simp] theorem Lane.setPair_readCount (x : Lane) (n : Nat) (v : DWord) :
    (x.setPair n v).readCount = x.readCount := rfl
@[simp] theorem Lane.setPair_writeCount (x : Lane) (n : Nat) (v : DWord) :
    (x.setPair n v).writeCount = x.writeCount := rfl
@[simp] theorem Lane.setPair_cdone (x : Lane) (n : Nat) (v : DWord) :
    (x.setPair n v).cdone = x.cdone := rfl
@[simp] theorem Lane.setPair_carryBits (x : Lane) (n : Nat) (v : DWord) :
    (x.setPair n v).carryBits = x.carryBits := rfl
@[simp] theorem Lane.setPair_valid (x : Lane) (n : Nat) (v : DWord) :
    (x.setPair n v).valid = x.valid := rfl
@[simp] theorem Lane.setPair_phase (x : Lane) (n : Nat) (v : DWord) :
    (x.setPair n v).phase = x.phase := rfl
@[simp] theorem Lane.setPair_rsCount (x : Lane) (n : Nat) (v : DWord) :
    (x.setPair n v).rsCount = x.rsCount := rfl
@[simp] theorem Lane.setPair_loads (x : Lane) (n : Nat) (v : DWord) :
    (x.setPair n v).loads = x.loads := rfl
@[simp] theorem Lane.setPair_loadOrdinal (x : Lane) (n : Nat) (v : DWord) :
    (x.setPair n v).loadOrdinal = x.loadOrdinal := rfl
@[simp] theorem Lane.setPair_marked (x : Lane) (n : Nat) (v : DWord) :
    (x.setPair n v).marked = x.marked := rfl
@[simp] theorem Lane.setPair_joined (x : Lane) (n : Nat) (v : DWord) :
    (x.setPair n v).joined = x.joined := rfl
@[simp] theorem Lane.setPair_deferred (x : Lane) (n : Nat) (v : DWord) :
    (x.setPair n v).deferred = x.deferred := rfl
@[simp] theorem Lane.setPair_fence (x : Lane) (n : Nat) (v : DWord) :
    (x.setPair n v).fence = x.fence := rfl
@[simp] theorem Lane.setPair_record (x : Lane) (n : Nat) (v : DWord) :
    (x.setPair n v).record = x.record := rfl

@[simp] theorem Lane.setXreg_st (x : Lane) (n : Nat) (v : Word) :
    (x.setXreg n v).st = x.st := by
  simp only [Lane.setXreg]
@[simp] theorem Lane.setXreg_wait (x : Lane) (n : Nat) (v : Word) :
    (x.setXreg n v).wait = x.wait := by
  simp only [Lane.setXreg]
@[simp] theorem Lane.setXreg_group (x : Lane) (n : Nat) (v : Word) :
    (x.setXreg n v).group = x.group := by
  simp only [Lane.setXreg]
@[simp] theorem Lane.setXreg_item (x : Lane) (n : Nat) (v : Word) :
    (x.setXreg n v).item = x.item := by
  simp only [Lane.setXreg]
@[simp] theorem Lane.setXreg_pc (x : Lane) (n : Nat) (v : Word) :
    (x.setXreg n v).pc = x.pc := by
  simp only [Lane.setXreg]
@[simp] theorem Lane.setXreg_regs (x : Lane) (n : Nat) (v : Word) :
    (x.setXreg n v).regs = x.regs := by
  simp only [Lane.setXreg]
@[simp] theorem Lane.setXreg_preds (x : Lane) (n : Nat) (v : Word) :
    (x.setXreg n v).preds = x.preds := by
  simp only [Lane.setXreg]
@[simp] theorem Lane.setXreg_xregs (x : Lane) (n : Nat) (v : Word) :
    (x.setXreg n v).xregs = Vector.ofFn (fun k => if k.val = n then v else x.xregs[k]) := by
  simp only [Lane.setXreg]
@[simp] theorem Lane.setXreg_marks (x : Lane) (n : Nat) (v : Word) :
    (x.setXreg n v).marks = x.marks := by
  simp only [Lane.setXreg]
@[simp] theorem Lane.setXreg_readCount (x : Lane) (n : Nat) (v : Word) :
    (x.setXreg n v).readCount = x.readCount := by
  simp only [Lane.setXreg]
@[simp] theorem Lane.setXreg_writeCount (x : Lane) (n : Nat) (v : Word) :
    (x.setXreg n v).writeCount = x.writeCount := by
  simp only [Lane.setXreg]
@[simp] theorem Lane.setXreg_cdone (x : Lane) (n : Nat) (v : Word) :
    (x.setXreg n v).cdone = x.cdone := by
  simp only [Lane.setXreg]
@[simp] theorem Lane.setXreg_carryBits (x : Lane) (n : Nat) (v : Word) :
    (x.setXreg n v).carryBits = x.carryBits := by
  simp only [Lane.setXreg]
@[simp] theorem Lane.setXreg_valid (x : Lane) (n : Nat) (v : Word) :
    (x.setXreg n v).valid = x.valid := by
  simp only [Lane.setXreg]
@[simp] theorem Lane.setXreg_phase (x : Lane) (n : Nat) (v : Word) :
    (x.setXreg n v).phase = x.phase := by
  simp only [Lane.setXreg]
@[simp] theorem Lane.setXreg_rsCount (x : Lane) (n : Nat) (v : Word) :
    (x.setXreg n v).rsCount = x.rsCount := by
  simp only [Lane.setXreg]
@[simp] theorem Lane.setXreg_loads (x : Lane) (n : Nat) (v : Word) :
    (x.setXreg n v).loads = x.loads := by
  simp only [Lane.setXreg]
@[simp] theorem Lane.setXreg_loadOrdinal (x : Lane) (n : Nat) (v : Word) :
    (x.setXreg n v).loadOrdinal = x.loadOrdinal := by
  simp only [Lane.setXreg]
@[simp] theorem Lane.setXreg_marked (x : Lane) (n : Nat) (v : Word) :
    (x.setXreg n v).marked = x.marked := by
  simp only [Lane.setXreg]
@[simp] theorem Lane.setXreg_joined (x : Lane) (n : Nat) (v : Word) :
    (x.setXreg n v).joined = x.joined := by
  simp only [Lane.setXreg]
@[simp] theorem Lane.setXreg_deferred (x : Lane) (n : Nat) (v : Word) :
    (x.setXreg n v).deferred = x.deferred := by
  simp only [Lane.setXreg]
@[simp] theorem Lane.setXreg_fence (x : Lane) (n : Nat) (v : Word) :
    (x.setXreg n v).fence = x.fence := by
  simp only [Lane.setXreg]
@[simp] theorem Lane.setXreg_record (x : Lane) (n : Nat) (v : Word) :
    (x.setXreg n v).record = x.record := by
  simp only [Lane.setXreg]

@[simp] theorem Lane.advance_st (x : Lane)  :
    (x.advance ).st = x.st := rfl
@[simp] theorem Lane.advance_wait (x : Lane)  :
    (x.advance ).wait = x.wait := rfl
@[simp] theorem Lane.advance_group (x : Lane)  :
    (x.advance ).group = x.group := rfl
@[simp] theorem Lane.advance_item (x : Lane)  :
    (x.advance ).item = x.item := rfl
@[simp] theorem Lane.advance_pc (x : Lane)  :
    (x.advance ).pc = x.pc + 8 := rfl
@[simp] theorem Lane.advance_regs (x : Lane)  :
    (x.advance ).regs = x.regs := rfl
@[simp] theorem Lane.advance_preds (x : Lane)  :
    (x.advance ).preds = x.preds := rfl
@[simp] theorem Lane.advance_xregs (x : Lane)  :
    (x.advance ).xregs = x.xregs := rfl
@[simp] theorem Lane.advance_marks (x : Lane)  :
    (x.advance ).marks = x.marks := rfl
@[simp] theorem Lane.advance_readCount (x : Lane)  :
    (x.advance ).readCount = x.readCount := rfl
@[simp] theorem Lane.advance_writeCount (x : Lane)  :
    (x.advance ).writeCount = x.writeCount := rfl
@[simp] theorem Lane.advance_cdone (x : Lane)  :
    (x.advance ).cdone = x.cdone := rfl
@[simp] theorem Lane.advance_carryBits (x : Lane)  :
    (x.advance ).carryBits = x.carryBits := rfl
@[simp] theorem Lane.advance_valid (x : Lane)  :
    (x.advance ).valid = x.valid := rfl
@[simp] theorem Lane.advance_phase (x : Lane)  :
    (x.advance ).phase = x.phase := rfl
@[simp] theorem Lane.advance_rsCount (x : Lane)  :
    (x.advance ).rsCount = x.rsCount := rfl
@[simp] theorem Lane.advance_loads (x : Lane)  :
    (x.advance ).loads = x.loads := rfl
@[simp] theorem Lane.advance_loadOrdinal (x : Lane)  :
    (x.advance ).loadOrdinal = x.loadOrdinal := rfl
@[simp] theorem Lane.advance_marked (x : Lane)  :
    (x.advance ).marked = x.marked := rfl
@[simp] theorem Lane.advance_joined (x : Lane)  :
    (x.advance ).joined = x.joined := rfl
@[simp] theorem Lane.advance_deferred (x : Lane)  :
    (x.advance ).deferred = x.deferred := rfl
@[simp] theorem Lane.advance_fence (x : Lane)  :
    (x.advance ).fence = x.fence := rfl
@[simp] theorem Lane.advance_record (x : Lane)  :
    (x.advance ).record = x.record := rfl

@[simp] theorem Lane.unmark_st (x : Lane) (l : List Nat) :
    (x.unmark l).st = x.st := rfl
@[simp] theorem Lane.unmark_wait (x : Lane) (l : List Nat) :
    (x.unmark l).wait = x.wait := rfl
@[simp] theorem Lane.unmark_group (x : Lane) (l : List Nat) :
    (x.unmark l).group = x.group := rfl
@[simp] theorem Lane.unmark_item (x : Lane) (l : List Nat) :
    (x.unmark l).item = x.item := rfl
@[simp] theorem Lane.unmark_pc (x : Lane) (l : List Nat) :
    (x.unmark l).pc = x.pc := rfl
@[simp] theorem Lane.unmark_regs (x : Lane) (l : List Nat) :
    (x.unmark l).regs = x.regs := rfl
@[simp] theorem Lane.unmark_preds (x : Lane) (l : List Nat) :
    (x.unmark l).preds = x.preds := rfl
@[simp] theorem Lane.unmark_xregs (x : Lane) (l : List Nat) :
    (x.unmark l).xregs = x.xregs := rfl
@[simp] theorem Lane.unmark_marks (x : Lane) (l : List Nat) :
    (x.unmark l).marks = x.marks := rfl
@[simp] theorem Lane.unmark_readCount (x : Lane) (l : List Nat) :
    (x.unmark l).readCount = x.readCount := rfl
@[simp] theorem Lane.unmark_writeCount (x : Lane) (l : List Nat) :
    (x.unmark l).writeCount = x.writeCount := rfl
@[simp] theorem Lane.unmark_cdone (x : Lane) (l : List Nat) :
    (x.unmark l).cdone = x.cdone := rfl
@[simp] theorem Lane.unmark_carryBits (x : Lane) (l : List Nat) :
    (x.unmark l).carryBits = x.carryBits := rfl
@[simp] theorem Lane.unmark_valid (x : Lane) (l : List Nat) :
    (x.unmark l).valid = x.valid := rfl
@[simp] theorem Lane.unmark_phase (x : Lane) (l : List Nat) :
    (x.unmark l).phase = x.phase := rfl
@[simp] theorem Lane.unmark_rsCount (x : Lane) (l : List Nat) :
    (x.unmark l).rsCount = x.rsCount := rfl
@[simp] theorem Lane.unmark_loads (x : Lane) (l : List Nat) :
    (x.unmark l).loads = x.loads := rfl
@[simp] theorem Lane.unmark_loadOrdinal (x : Lane) (l : List Nat) :
    (x.unmark l).loadOrdinal = x.loadOrdinal := rfl
@[simp] theorem Lane.unmark_marked (x : Lane) (l : List Nat) :
    (x.unmark l).marked = x.marked.filter (fun m => !l.contains m.reg) := rfl
@[simp] theorem Lane.unmark_joined (x : Lane) (l : List Nat) :
    (x.unmark l).joined = x.joined := rfl
@[simp] theorem Lane.unmark_deferred (x : Lane) (l : List Nat) :
    (x.unmark l).deferred = x.deferred := rfl
@[simp] theorem Lane.unmark_fence (x : Lane) (l : List Nat) :
    (x.unmark l).fence = x.fence := rfl
@[simp] theorem Lane.unmark_record (x : Lane) (l : List Nat) :
    (x.unmark l).record = x.record := rfl

@[simp] theorem Lane.setPred_st (x : Lane) (n : Nat) (b : Bool) : (x.setPred n b).st = x.st := by
  unfold Lane.setPred; split <;> rfl
@[simp] theorem Lane.setPred_wait (x : Lane) (n : Nat) (b : Bool) : (x.setPred n b).wait = x.wait := by
  unfold Lane.setPred; split <;> rfl
@[simp] theorem Lane.setPred_group (x : Lane) (n : Nat) (b : Bool) : (x.setPred n b).group = x.group := by
  unfold Lane.setPred; split <;> rfl
@[simp] theorem Lane.setPred_item (x : Lane) (n : Nat) (b : Bool) : (x.setPred n b).item = x.item := by
  unfold Lane.setPred; split <;> rfl
@[simp] theorem Lane.setPred_pc (x : Lane) (n : Nat) (b : Bool) : (x.setPred n b).pc = x.pc := by
  unfold Lane.setPred; split <;> rfl
@[simp] theorem Lane.setPred_regs (x : Lane) (n : Nat) (b : Bool) : (x.setPred n b).regs = x.regs := by
  unfold Lane.setPred; split <;> rfl
@[simp] theorem Lane.setPred_xregs (x : Lane) (n : Nat) (b : Bool) : (x.setPred n b).xregs = x.xregs := by
  unfold Lane.setPred; split <;> rfl
@[simp] theorem Lane.setPred_marks (x : Lane) (n : Nat) (b : Bool) : (x.setPred n b).marks = x.marks := by
  unfold Lane.setPred; split <;> rfl
@[simp] theorem Lane.setPred_readCount (x : Lane) (n : Nat) (b : Bool) : (x.setPred n b).readCount = x.readCount := by
  unfold Lane.setPred; split <;> rfl
@[simp] theorem Lane.setPred_writeCount (x : Lane) (n : Nat) (b : Bool) : (x.setPred n b).writeCount = x.writeCount := by
  unfold Lane.setPred; split <;> rfl
@[simp] theorem Lane.setPred_cdone (x : Lane) (n : Nat) (b : Bool) : (x.setPred n b).cdone = x.cdone := by
  unfold Lane.setPred; split <;> rfl
@[simp] theorem Lane.setPred_carryBits (x : Lane) (n : Nat) (b : Bool) : (x.setPred n b).carryBits = x.carryBits := by
  unfold Lane.setPred; split <;> rfl
@[simp] theorem Lane.setPred_valid (x : Lane) (n : Nat) (b : Bool) : (x.setPred n b).valid = x.valid := by
  unfold Lane.setPred; split <;> rfl
@[simp] theorem Lane.setPred_phase (x : Lane) (n : Nat) (b : Bool) : (x.setPred n b).phase = x.phase := by
  unfold Lane.setPred; split <;> rfl
@[simp] theorem Lane.setPred_rsCount (x : Lane) (n : Nat) (b : Bool) : (x.setPred n b).rsCount = x.rsCount := by
  unfold Lane.setPred; split <;> rfl
@[simp] theorem Lane.setPred_loads (x : Lane) (n : Nat) (b : Bool) : (x.setPred n b).loads = x.loads := by
  unfold Lane.setPred; split <;> rfl
@[simp] theorem Lane.setPred_loadOrdinal (x : Lane) (n : Nat) (b : Bool) : (x.setPred n b).loadOrdinal = x.loadOrdinal := by
  unfold Lane.setPred; split <;> rfl
@[simp] theorem Lane.setPred_marked (x : Lane) (n : Nat) (b : Bool) : (x.setPred n b).marked = x.marked := by
  unfold Lane.setPred; split <;> rfl
@[simp] theorem Lane.setPred_joined (x : Lane) (n : Nat) (b : Bool) : (x.setPred n b).joined = x.joined := by
  unfold Lane.setPred; split <;> rfl
@[simp] theorem Lane.setPred_deferred (x : Lane) (n : Nat) (b : Bool) : (x.setPred n b).deferred = x.deferred := by
  unfold Lane.setPred; split <;> rfl
@[simp] theorem Lane.setPred_fence (x : Lane) (n : Nat) (b : Bool) : (x.setPred n b).fence = x.fence := by
  unfold Lane.setPred; split <;> rfl
@[simp] theorem Lane.setPred_record (x : Lane) (n : Nat) (b : Bool) : (x.setPred n b).record = x.record := by
  unfold Lane.setPred; split <;> rfl

/-! ## The frame store of a team (R65) -/

@[simp] theorem Team.laneWrite_launch (t : Team) (i : DWord) (a : Nat) (b : List Byte) :
    (t.laneWrite i a b).launch = t.launch := rfl
@[simp] theorem Team.laneWrite_number (t : Team) (i : DWord) (a : Nat) (b : List Byte) :
    (t.laneWrite i a b).number = t.number := rfl
@[simp] theorem Team.laneWrite_rods (t : Team) (i : DWord) (a : Nat) (b : List Byte) :
    (t.laneWrite i a b).rods = t.rods := rfl
@[simp] theorem Team.laneWrite_started (t : Team) (i : DWord) (a : Nat) (b : List Byte) :
    (t.laneWrite i a b).started = t.started := rfl
@[simp] theorem Team.laneWrite_retired (t : Team) (i : DWord) (a : Nat) (b : List Byte) :
    (t.laneWrite i a b).retired = t.retired := rfl
@[simp] theorem Team.laneWrite_fsBytes (t : Team) (i : DWord) (a : Nat) (b : List Byte) :
    (t.laneWrite i a b).fsBytes = t.fsBytes := rfl
@[simp] theorem Team.laneWrite_accRows (t : Team) (i : DWord) (a : Nat) (b : List Byte) :
    (t.laneWrite i a b).accRows = t.accRows := rfl
@[simp] theorem Team.laneWrite_accCols (t : Team) (i : DWord) (a : Nat) (b : List Byte) :
    (t.laneWrite i a b).accCols = t.accCols := rfl
@[simp] theorem Team.laneWrite_acc (t : Team) (i : DWord) (a : Nat) (b : List Byte) :
    (t.laneWrite i a b).acc = t.acc := rfl
@[simp] theorem Team.laneWrite_joins (t : Team) (i : DWord) (a : Nat) (b : List Byte) :
    (t.laneWrite i a b).joins = t.joins := rfl
@[simp] theorem Team.laneWrite_queues (t : Team) (i : DWord) (a : Nat) (b : List Byte) :
    (t.laneWrite i a b).queues = t.queues := rfl
@[simp] theorem Team.laneWrite_windows (t : Team) (i : DWord) (a : Nat) (b : List Byte) :
    (t.laneWrite i a b).windows = t.windows := rfl
@[simp] theorem Team.laneWrite_bars (t : Team) (i : DWord) (a : Nat) (b : List Byte) :
    (t.laneWrite i a b).bars = t.bars := rfl
@[simp] theorem Team.laneWrite_releasing (t : Team) (i : DWord) (a : Nat) (b : List Byte) :
    (t.laneWrite i a b).releasing = t.releasing := rfl
@[simp] theorem Team.laneWrite_nextOrd (t : Team) (i : DWord) (a : Nat) (b : List Byte) :
    (t.laneWrite i a b).nextOrd = t.nextOrd := rfl
@[simp] theorem Team.laneWrite_faults (t : Team) (i : DWord) (a : Nat) (b : List Byte) :
    (t.laneWrite i a b).faults = t.faults := rfl

@[simp] theorem Team.ordered_launch (t : Team) (l : List DWord) :
    (t.ordered l).launch = t.launch := rfl
@[simp] theorem Team.ordered_number (t : Team) (l : List DWord) :
    (t.ordered l).number = t.number := rfl
@[simp] theorem Team.ordered_rods (t : Team) (l : List DWord) :
    (t.ordered l).rods = t.rods := rfl
@[simp] theorem Team.ordered_started (t : Team) (l : List DWord) :
    (t.ordered l).started = t.started := rfl
@[simp] theorem Team.ordered_retired (t : Team) (l : List DWord) :
    (t.ordered l).retired = t.retired := rfl
@[simp] theorem Team.ordered_fsBytes (t : Team) (l : List DWord) :
    (t.ordered l).fsBytes = t.fsBytes := rfl
@[simp] theorem Team.ordered_accRows (t : Team) (l : List DWord) :
    (t.ordered l).accRows = t.accRows := rfl
@[simp] theorem Team.ordered_accCols (t : Team) (l : List DWord) :
    (t.ordered l).accCols = t.accCols := rfl
@[simp] theorem Team.ordered_acc (t : Team) (l : List DWord) :
    (t.ordered l).acc = t.acc := rfl
@[simp] theorem Team.ordered_joins (t : Team) (l : List DWord) :
    (t.ordered l).joins = t.joins := rfl
@[simp] theorem Team.ordered_queues (t : Team) (l : List DWord) :
    (t.ordered l).queues = t.queues := rfl
@[simp] theorem Team.ordered_windows (t : Team) (l : List DWord) :
    (t.ordered l).windows = t.windows := rfl
@[simp] theorem Team.ordered_bars (t : Team) (l : List DWord) :
    (t.ordered l).bars = t.bars := rfl
@[simp] theorem Team.ordered_releasing (t : Team) (l : List DWord) :
    (t.ordered l).releasing = t.releasing := rfl
@[simp] theorem Team.ordered_nextOrd (t : Team) (l : List DWord) :
    (t.ordered l).nextOrd = t.nextOrd := rfl
@[simp] theorem Team.ordered_faults (t : Team) (l : List DWord) :
    (t.ordered l).faults = t.faults := rfl
@[simp] theorem Team.ordered_fs (t : Team) (l : List DWord) :
    (t.ordered l).fs = t.fs := rfl

@[simp] theorem Team.engineWrite_launch (t : Team) (l : List (Nat × Byte)) :
    (t.engineWrite l).launch = t.launch := rfl
@[simp] theorem Team.engineWrite_number (t : Team) (l : List (Nat × Byte)) :
    (t.engineWrite l).number = t.number := rfl
@[simp] theorem Team.engineWrite_rods (t : Team) (l : List (Nat × Byte)) :
    (t.engineWrite l).rods = t.rods := rfl
@[simp] theorem Team.engineWrite_started (t : Team) (l : List (Nat × Byte)) :
    (t.engineWrite l).started = t.started := rfl
@[simp] theorem Team.engineWrite_retired (t : Team) (l : List (Nat × Byte)) :
    (t.engineWrite l).retired = t.retired := rfl
@[simp] theorem Team.engineWrite_fsBytes (t : Team) (l : List (Nat × Byte)) :
    (t.engineWrite l).fsBytes = t.fsBytes := rfl
@[simp] theorem Team.engineWrite_accRows (t : Team) (l : List (Nat × Byte)) :
    (t.engineWrite l).accRows = t.accRows := rfl
@[simp] theorem Team.engineWrite_accCols (t : Team) (l : List (Nat × Byte)) :
    (t.engineWrite l).accCols = t.accCols := rfl
@[simp] theorem Team.engineWrite_acc (t : Team) (l : List (Nat × Byte)) :
    (t.engineWrite l).acc = t.acc := rfl
@[simp] theorem Team.engineWrite_joins (t : Team) (l : List (Nat × Byte)) :
    (t.engineWrite l).joins = t.joins := rfl
@[simp] theorem Team.engineWrite_queues (t : Team) (l : List (Nat × Byte)) :
    (t.engineWrite l).queues = t.queues := rfl
@[simp] theorem Team.engineWrite_windows (t : Team) (l : List (Nat × Byte)) :
    (t.engineWrite l).windows = t.windows := rfl
@[simp] theorem Team.engineWrite_bars (t : Team) (l : List (Nat × Byte)) :
    (t.engineWrite l).bars = t.bars := rfl
@[simp] theorem Team.engineWrite_releasing (t : Team) (l : List (Nat × Byte)) :
    (t.engineWrite l).releasing = t.releasing := rfl
@[simp] theorem Team.engineWrite_nextOrd (t : Team) (l : List (Nat × Byte)) :
    (t.engineWrite l).nextOrd = t.nextOrd := rfl
@[simp] theorem Team.engineWrite_faults (t : Team) (l : List (Nat × Byte)) :
    (t.engineWrite l).faults = t.faults := rfl

@[simp] theorem Team.laneWrite_fs (t : Team) (i : DWord) (a : Nat) (b : List Byte) :
    (t.laneWrite i a b).fs = cellsWrite t.fs a b := rfl
@[simp] theorem Team.engineWrite_fs (t : Team) (l : List (Nat × Byte)) :
    (t.engineWrite l).fs = cellsPut t.fs l := rfl
@[simp] theorem Team.engineWrite_unseen (t : Team) (l : List (Nat × Byte)) :
    (t.engineWrite l).unseen = t.unseen.filter (fun u => !l.any (fun e => e.1 == u.addr)) := rfl
@[simp] theorem Team.ordered_unseen (t : Team) (l : List DWord) :
    (t.ordered l).unseen = t.unseen.filter (fun u => !t.overwrites l u) := rfl

end Sys2Proof.Machine
end

