-- ==== Sys2Proof/Laws/Issue.lean ====
section
/-!
SUPPORT. Sys2Proof/Laws/Issue.lean: what the issue of a word comes to when nothing holds it up, and what a lane instruction
leaves. Later proofs cite these and unfold neither `issueWord` nor `plainPass`.
-/

namespace Sys2Proof.Machine

/-! ## Lanes of a rod -/

theorem Rod.lane_eq (r : Rod) (n : Fin 32) : r.lane n.val = r.lanes[n] := by
  unfold Rod.lane
  simp [List.getD_eq_getElem?_getD]

theorem Rod.lane_lt (r : Rod) {n : Nat} (h : n < 32) : r.lane n = r.lanes[(⟨n, h⟩ : Fin 32)] := r.lane_eq ⟨n, h⟩

theorem mapLanes_lane (r : Rod) (m : BitVec 32) (f : Fin 32 → Lane → Lane) (n : Fin 32) :
    (r.mapLanes m f).lanes[n] = if m.getLsbD n.val then f n r.lanes[n] else r.lanes[n] := by
  simp [Rod.mapLanes_lanes]

/-- Two changes of the same rod that agree lane by lane are one. -/
theorem mapLanes_congr {r : Rod} {m : BitVec 32} {f g : Fin 32 → Lane → Lane}
    (h : ∀ n : Fin 32, m.getLsbD n.val = true → f n r.lanes[n] = g n r.lanes[n]) : r.mapLanes m f = r.mapLanes m g := by
  have : (fun l : Fin 32 => if m.getLsbD l.val then f l r.lanes[l] else r.lanes[l])
      = fun l => if m.getLsbD l.val then g l r.lanes[l] else r.lanes[l] := by
    funext n
    split
    · exact h n ‹_›
    · rfl
  simp only [Rod.mapLanes, this]

theorem mem_maskLanes {m : BitVec 32} {n : Nat} : n ∈ maskLanes m ↔ n < 32 ∧ m.getLsbD n = true := by
  simp [maskLanes]

theorem maskWhere_getLsbD (r : Rod) (p : Lane → Bool) (n : Fin 32) :
    (r.maskWhere p).getLsbD n.val = p r.lanes[n] := by
  simp [Rod.maskWhere, maskOf]

theorem lowest_spec {m : BitVec 32} (n : Fin 32) (h : m.getLsbD n.val = true) :
    lowest m < 32 ∧ m.getLsbD (lowest m) = true := by
  unfold lowest
  cases hf : (List.range 32).find? (fun l => m.getLsbD l) with
  | none =>
    rw [List.find?_eq_none] at hf
    exact absurd h (by simpa using hf n.val (by simp))
  | some l =>
    have h1 := List.find?_some hf
    have h2 := List.mem_of_find?_eq_some hf
    simp only [List.mem_range] at h2
    exact ⟨h2, by simpa using h1⟩

/-! ## Sub-rods that stay together (R43) -/

theorem sameOutcome_iff (x y : Lane) :
    x.sameOutcome y = true ↔ x.st = y.st ∧ x.pc = y.pc ∧ x.wait = y.wait ∧ x.record = y.record := by
  simp [Lane.sameOutcome, and_assoc]

/-- Lanes that share one outcome stay one sub-rod. -/
theorem regroup_together {r : Rod} {m : BitVec 32}
    (h : ∀ a b : Fin 32, m.getLsbD a.val = true → m.getLsbD b.val = true →
      r.lanes[a].sameOutcome r.lanes[b] = true) : r.regroup m = r := by
  have hall : (List.finRange 32).all (fun l : Fin 32 => !m.getLsbD l.val ||
      ((List.range 32).find? (fun k => m.getLsbD k && (r.lane k).sameOutcome r.lanes[l])).getD l.val == lowest m)
      = true := by
    rw [List.all_eq_true]
    intro l _
    cases hl : m.getLsbD l.val with
    | false => simp
    | true =>
      have hfind : (List.range 32).find? (fun k => m.getLsbD k && (r.lane k).sameOutcome r.lanes[l])
          = (List.range 32).find? (fun k => m.getLsbD k) := by
        refine List.find?_congr (fun k hk => ?_)
        simp only [List.mem_range] at hk
        cases hm : m.getLsbD k with
        | false => simp
        | true => simpa [Rod.lane_lt r hk] using h ⟨k, hk⟩ l hm hl
      obtain ⟨h1, h2⟩ := lowest_spec l hl
      rw [hfind]
      unfold lowest
      cases hf : (List.range 32).find? (fun k => m.getLsbD k) with
      | none =>
        rw [List.find?_eq_none] at hf
        exact absurd hl (by simpa using hf l.val (by simp))
      | some a => simp
  unfold Rod.regroup
  simp only [hall, if_true]

/-! ## Nothing holds the word up -/

theorem lastWhere_nil (p : LoadEntry → Bool) : lastWhere p [] = 0 := rfl

/-- With no load outstanding there is nothing to wait for. -/
theorem drainWhere_quiet {s : State} {k : RodKey} {r : Rod} {m : BitVec 32} (hr : s.rod? k = some r)
    (p : Lane → LoadEntry → Bool) (h : ∀ n : Fin 32, m.getLsbD n.val = true → r.lanes[n].loads = []) :
    s.drainWhere k m p = s := by
  unfold State.drainWhere
  have : ∀ l : List Nat, (∀ n ∈ l, n < 32 ∧ m.getLsbD n = true) →
      l.foldl (fun s l =>
        match s.rod? k with
        | none => s
        | some r => s.drainLane k l (lastWhere (p (r.lane l)) (r.lane l).loads)) s = s := by
    intro l
    induction l with
    | nil => intro _; rfl
    | cons a t ih =>
      intro hl
      obtain ⟨h1, h2⟩ := hl a (by simp)
      simp only [List.foldl_cons, hr, Rod.lane_lt r h1, h ⟨a, h1⟩ h2, lastWhere_nil, State.drainLane]
      exact ih (fun n hn => hl n (List.mem_cons_of_mem _ hn))
  exact this _ (fun n hn => mem_maskLanes.1 hn)

theorem settleLoads_quiet {s : State} {k : RodKey} {r : Rod} {m : BitVec 32} (i : Instr) (hr : s.rod? k = some r)
    (h : ∀ n : Fin 32, m.getLsbD n.val = true → r.lanes[n].loads = []) : settleLoads i k m s = s := by
  simp only [settleLoads, hr]
  exact drainWhere_quiet hr _ h

theorem enabled_sub {k : RodKey} {r : Rod} {i : Instr} {m : BitVec 32} {n : Nat}
    (h : (mkIssue k r i m).enabled.getLsbD n = true) : m.getLsbD n = true := by
  simp only [mkIssue, BitVec.getLsbD_and, Bool.and_eq_true] at h
  exact h.1

/-- A lane of the sub-rod is enabled exactly where the word acts. -/
theorem enabled_eq (k : RodKey) (r : Rod) (i : Instr) (m : BitVec 32) (n : Fin 32) :
    (mkIssue k r i m).enabled.getLsbD n.val = (m.getLsbD n.val && actsOn i r.lanes[n]) := by
  simp only [mkIssue, BitVec.getLsbD_and, maskWhere_getLsbD]
  rfl

theorem joinInterlock_quiet {r : Rod} {m : BitVec 32} (i : Instr)
    (h : ∀ n : Fin 32, m.getLsbD n.val = true → r.lanes[n].joined = []) : joinInterlock r m i = false := by
  unfold joinInterlock
  rw [List.any_eq_false]
  intro n hn
  obtain ⟨h1, h2⟩ := mem_maskLanes.1 hn
  have hj := h ⟨n, h1⟩ h2
  simp only [Rod.lane_lt r h1, hj]
  simp

/-- Only lanes on which the word acts read registers. -/
theorem readers_enabled {is : Issue} {n : Nat} (h : is.readers.getLsbD n = true) : is.enabled.getLsbD n = true := by
  unfold Issue.readers at h
  split at h
  · simp at h
  · rename_i hg
    split at h
    · rename_i ho
      have hn : n = is.capLane := by
        simp only [BitVec.getLsbD_shiftLeft, BitVec.getLsbD_one, Bool.and_eq_true, Bool.not_eq_true', decide_eq_true_eq,
          decide_eq_false_iff_not] at h
        omega
      have hc : hangsOnCap is.instr = true := by simp [hangsOnCap, ho]
      rw [hn]
      simpa [hc, Issue.capOn] using hg
    · exact h

theorem markFaults_quiet {is : Issue}
    (h : ∀ n : Fin 32, is.enabled.getLsbD n.val = true → is.rod.lanes[n].marked = []) : markFaults is = [] := by
  unfold markFaults marksRead
  rw [List.map_eq_nil_iff, List.filterMap_eq_nil_iff]
  intro n hn
  obtain ⟨h1, h2⟩ := mem_maskLanes.1 hn
  simp only [Rod.lane_lt is.rod h1, h ⟨n, h1⟩ (readers_enabled h2)]

/-- Where no lane of the sub-rod has a marked register, the word acts for all of it at once. -/
theorem runMarked_quiet {i : Instr} {k : RodKey} (body : Issue → State → State) (n : Nat) {m : BitVec 32} {s : State}
    {r : Rod} (hr : s.rod? k = some r) (h : ∀ n : Fin 32, m.getLsbD n.val = true → r.lanes[n].marked = []) :
    runMarked i k body (n + 1) m 0 s = body (mkIssue k r i m) s := by
  have hq : markFaults (mkIssue k r i m) = [] :=
    markFaults_quiet (fun n hn => h n (enabled_sub (i := i) (k := k) (r := r) hn))
  rw [runMarked]
  simp only [hr]
  rw [show ({ mkIssue k r i m with lost := 0 } : Issue) = mkIssue k r i m from rfl, hq]

/-- What a word that issues freely does: its body, once, for the sub-rod as it stands; then the lanes part by outcome. -/
theorem issueWord_free {i : Instr} {body : Issue → State → State} {s : State} {k : RodKey} {l : Nat} {r : Rod}
    (h : IssuesFreely s k l r i) :
    issueWord i body s
      = .next ((body (mkIssue k r i (r.subRod l)) s).modRod k (fun q => q.regroup (r.subRod l))) := by
  obtain ⟨⟨hc, hr, hl, hst, hw⟩, hq, _⟩ := h
  have hrun : runWord i k (r.subRod l) body s = body (mkIssue k r i (r.subRod l)) s := by
    simp only [runWord, hr, hw]
    rw [joinInterlock_quiet i (fun n hn => (hq n (enabled_sub hn)).2.2),
      settleLoads_quiet i hr (fun n hn => (hq n (enabled_sub hn)).1)]
    simp only [Bool.false_eq_true, if_false]
    exact runMarked_quiet body 32 hr (fun n hn => (hq n hn).2.1)
  simp [issueWord, hc, hr, hst, hl, hrun]

/-! ## Lane instructions -/

theorem apply_marked (w : LaneWrite) (d : Operand) (x : Lane) : (w.apply d x).marked = x.marked := by
  unfold LaneWrite.apply
  cases w <;> cases d <;> simp

theorem apply_rsCount (w : LaneWrite) (d : Operand) (x : Lane) : (w.apply d x).rsCount = x.rsCount := by
  unfold LaneWrite.apply
  cases w <;> cases d <;> simp

theorem apply_outcome (w : LaneWrite) (d : Operand) (x : Lane) :
    (w.apply d x).st = x.st ∧ (w.apply d x).pc = x.pc ∧ (w.apply d x).wait = x.wait
      ∧ (w.apply d x).record = x.record := by
  unfold LaneWrite.apply
  cases w <;> cases d <;> simp

/-- A completed lane without marks: its write, its count, the next word. -/
theorem complete_quiet {x : Lane} (h : x.marked = []) (d : Operand) (o : LaneOut) :
    x.complete d o = { (o.write.apply d x).advance with rsCount := x.rsCount + BitVec.ofNat 20 o.draws } := by
  have hm := apply_marked o.write d x
  unfold Lane.complete Lane.unmark Lane.advance
  rw [hm, h, List.filter_nil]

theorem takeFaults_nil (s : State) (k : RodKey) (w : DWord) {l : List (Nat × Cause × DWord)} (h : l = []) :
    s.takeFaults k w l = s := by
  subst h
  rfl

/-- Where every enabled lane completes, a pass is one change of the rod. -/
theorem plainPass_completes {f : LaneIn → LaneOut} {is : Issue} {s : State} {g : Fin 32 → Lane}
    (h : ∀ n : Fin 32, is.enabled.getLsbD n.val = true →
      laneStep is.rod (planOf is.instr) (keyOf s is.rod) f is.rod.lanes[n] n.val = .ok (g n)) :
    plainPass f is s = s.setRod is.key (is.rod.mapLanes is.active (fun n x =>
      if is.enabled.getLsbD n.val then g n else x.advance)) := by
  unfold plainPass
  refine (takeFaults_nil _ _ _ ?_).trans ?_
  · rw [List.filterMap_eq_nil_iff]
    intro n _
    cases hn : is.enabled.getLsbD n.val with
    | false => simp
    | true => simp only [if_true, h n hn]
  · refine congrArg (s.setRod is.key) (mapLanes_congr (fun n _ => ?_))
    cases hn : is.enabled.getLsbD n.val with
    | false => simp
    | true => simp only [if_true, h n hn]

/-- A lane instruction that issues freely, with every operand held and every count in range, completes in every lane. -/
theorem laneBody_completes {i : Instr} {F : State → Issue → LaneIn → LaneOut} {s : State} {k : RodKey} {l : Nat}
    {r : Rod} (h : IssuesFreely s k l r i) (hc : (planOf i).hasCarry = false)
    (ho : OperandsHold r (r.subRod l) i)
    (hd : ∀ n : Fin 32, (r.subRod l).getLsbD n.val = true → actsOn i r.lanes[n] = true →
      ∀ o, laneOperands r r.lanes[n] (planOf i) = .ok o →
        drawsFault r.lanes[n] (F s (mkIssue k r i (r.subRod l))
          (laneIn (keyOf s r) r.lanes[n] n.val o (fun _ => 0))).draws = false) :
    issueWord i (laneBody F) s
      = .next (s.setRod k (r.mapLanes (r.subRod l) (fun n x =>
          if actsOn i x then
            match laneOperands r x (planOf i) with
            | .ok o =>
              let out := F s (mkIssue k r i (r.subRod l)) (laneIn (keyOf s r) x n.val o (fun _ => 0))
              { (out.write.apply o.dst x).advance with rsCount := x.rsCount + BitVec.ofNat 20 out.draws }
            | .error _ => x
          else x.advance))) := by
  have hq := h.2.1
  have ht := h.2.2
  set m := r.subRod l with hm
  have hstep : ∀ n : Fin 32, m.getLsbD n.val = true → actsOn i r.lanes[n] = true →
      ∃ o, laneOperands r r.lanes[n] (planOf i) = .ok o ∧
        laneStep r (planOf i) (keyOf s r) (F s (mkIssue k r i m)) r.lanes[n] n.val
          = .ok { ((F s (mkIssue k r i m) (laneIn (keyOf s r) r.lanes[n] n.val o (fun _ => 0))).write.apply o.dst
                r.lanes[n]).advance with
              rsCount := r.lanes[n].rsCount + BitVec.ofNat 20
                (F s (mkIssue k r i m) (laneIn (keyOf s r) r.lanes[n] n.val o (fun _ => 0))).draws } := by
    intro n hn ha
    have := ho n hn ha
    cases hop : laneOperands r r.lanes[n] (planOf i) with
    | error e => rw [hop] at this; cases this
    | ok o =>
      refine ⟨o, rfl, ?_⟩
      have hdf := hd n hn ha o hop
      simp only [laneStep, hop, hdf, Bool.false_eq_true, if_false]
      rw [complete_quiet (hq n hn).2.1]
  have hbody : laneBody F (mkIssue k r i m) s
      = s.setRod k (r.mapLanes m (fun n x =>
          if actsOn i x then
            match laneOperands r x (planOf i) with
            | .ok o =>
              let out := F s (mkIssue k r i m) (laneIn (keyOf s r) x n.val o (fun _ => 0))
              { (out.write.apply o.dst x).advance with rsCount := x.rsCount + BitVec.ofNat 20 out.draws }
            | .error _ => x
          else x.advance)) := by
    unfold laneBody
    simp only [show (mkIssue k r i m).instr = i from rfl, hc, Bool.false_eq_true, if_false]
    refine (plainPass_completes (g := fun n =>
      match laneOperands r r.lanes[n] (planOf i) with
      | .ok o =>
        let out := F s (mkIssue k r i m) (laneIn (keyOf s r) r.lanes[n] n.val o (fun _ => 0))
        { (out.write.apply o.dst r.lanes[n]).advance with
          rsCount := r.lanes[n].rsCount + BitVec.ofNat 20 out.draws }
      | .error _ => r.lanes[n]) (fun n hn => ?_)).trans ?_
    · rw [enabled_eq, Bool.and_eq_true] at hn
      obtain ⟨o, hop, hs⟩ := hstep n hn.1 hn.2
      simp only [hop]
      exact hs
    · refine congrArg (s.setRod k) (mapLanes_congr (r := r) (m := m) (fun n hn => ?_))
      simp only [enabled_eq, hn, Bool.true_and]
  rw [issueWord_free h, hbody]
  rw [State.modRod_of_some (State.rod?_setRod_same _ _ _), State.setRod_setRod]
  refine congrArg (fun q => Host.Outcome.next (s.setRod k q)) (regroup_together (fun a b ha hb => ?_))
  have key : ∀ n : Fin 32, m.getLsbD n.val = true → ∀ y : Lane,
      y = (r.mapLanes m (fun n x =>
          if actsOn i x then
            match laneOperands r x (planOf i) with
            | .ok o =>
              let out := F s (mkIssue k r i m) (laneIn (keyOf s r) x n.val o (fun _ => 0))
              { (out.write.apply o.dst x).advance with rsCount := x.rsCount + BitVec.ofNat 20 out.draws }
            | .error _ => x
          else x.advance)).lanes[n] →
      y.st = (r.lane l).st ∧ y.pc = (r.lane l).pc + 8 ∧ y.wait = (r.lane l).wait ∧ y.record = (r.lane l).record := by
    intro n hn y hy
    rw [mapLanes_lane, hn, if_pos rfl] at hy
    have hs := (sameOutcome_iff _ _).1 (ht n hn)
    cases ha : actsOn i r.lanes[n] with
    | false =>
      simp only [ha, Bool.false_eq_true, if_false] at hy
      subst hy
      exact ⟨hs.1.symm, congrArg (· + 8) hs.2.1.symm, hs.2.2.1.symm, hs.2.2.2.symm⟩
    | true =>
      obtain ⟨o, hop, _⟩ := hstep n hn ha
      simp only [ha, if_true, hop] at hy
      subst hy
      obtain ⟨h1, h2, h3, h4⟩ := apply_outcome (F s (mkIssue k r i m)
        (laneIn (keyOf s r) r.lanes[n] n.val o (fun _ => 0))).write o.dst r.lanes[n]
      exact ⟨h1.trans hs.1.symm, congrArg (· + 8) (h2.trans hs.2.1.symm), h3.trans hs.2.2.1.symm,
        h4.trans hs.2.2.2.symm⟩
  rw [sameOutcome_iff]
  obtain ⟨a1, a2, a3, a4⟩ := key a ha _ rfl
  obtain ⟨b1, b2, b3, b4⟩ := key b hb _ rfl
  exact ⟨a1.trans b1.symm, a2.trans b2.symm, a3.trans b3.symm, a4.trans b4.symm⟩

theorem advance_rsCount_zero {w : LaneWrite} {d : Operand} {x : Lane} :
    ({ (w.apply d x).advance with rsCount := x.rsCount + BitVec.ofNat 20 0 } : Lane) = (w.apply d x).advance := by
  have h := apply_rsCount w d x
  cases hx : w.apply d x
  simp_all [Lane.advance]

/-- A lane instruction that rounds nothing completes with what its lane function writes. -/
theorem completesWith_of_laneBody {i : Instr} {F : State → Issue → LaneIn → LaneOut}
    {f : State → RodKey → Rod → LaneIn → LaneWrite} (he : ∀ s, exec i s = issueWord i (laneBody F) s)
    (hw : ∀ s k r m x, (F s (mkIssue k r i m) x).write = f s k r x)
    (hd : ∀ s k r m x, (F s (mkIssue k r i m) x).draws = 0) : CompletesWith i f := by
  intro s k l r h hc ho
  rw [he, laneBody_completes h hc ho (fun n _ _ o _ => by simp [drawsFault, hd])]
  refine congrArg (fun q => Host.Outcome.next (s.setRod k q)) (mapLanes_congr (fun n hn => ?_))
  cases ha : actsOn i r.lanes[n] with
  | false => rfl
  | true =>
    have := ho n hn ha
    cases hop : laneOperands r r.lanes[n] (planOf i) with
    | error e => rw [hop] at this; cases this
    | ok o => simp only [if_true, written, hop, hw, hd, advance_rsCount_zero]

/-- The same for a lane instruction of its operands alone. -/
theorem completesWith_of_laneOp {i : Instr} {F : LaneIn → LaneOut} {f : LaneIn → LaneWrite}
    (he : ∀ s, exec i s = laneOp i F s) (hw : ∀ x, (F x).write = f x) (hd : ∀ x, (F x).draws = 0) :
    CompletesWith i (fun _ _ _ => f) :=
  completesWith_of_laneBody (F := fun _ _ => F) he (fun _ _ _ _ => hw) (fun _ _ _ _ => hd)

/-- A lane instruction that rounds completes, and counts its stochastic roundings. -/
theorem completesRounding_of_laneOp {i : Instr} {m : BitVec 18} {n : Nat} {F : LaneIn → LaneOut}
    {f : LaneIn → LaneWrite} (he : ∀ s, exec i s = laneOp i F s) (hw : ∀ x, (F x).write = f x)
    (hd : ∀ x, (F x).draws = if RMod.rm m = 5 then n else 0) : CompletesRounding i m n f := by
  intro s k l r h hc ho hr
  rw [he, laneOp, laneBody_completes h hc ho (fun a hn ha o _ => ?_)]
  · refine congrArg (fun q => Host.Outcome.next (s.setRod k q)) (mapLanes_congr (fun a hn => ?_))
    cases ha : actsOn i r.lanes[a] with
    | false => rfl
    | true =>
      have := ho a hn ha
      cases hop : laneOperands r r.lanes[a] (planOf i) with
      | error e => rw [hop] at this; cases this
      | ok o =>
        simp only [if_true, written, hop, hw, hd]
        split <;> simp
  · by_cases h5 : RMod.rm m = 5
    · have := hr h5 a hn ha
      simp only [drawsFault, hd, h5, if_true, Bool.and_eq_false_iff]
      right
      simp only [decide_eq_false_iff_not]
      omega
    · simp [drawsFault, hd, h5]

end Sys2Proof.Machine
end

