-- ==== Sys2Proof/Laws/PerInstr.lean ====
section
/-!
SUPPORT. Sys2Proof/Laws/PerInstr.lean: statements about every instruction as syntax, one lemma for each constructor.
-/

namespace Sys2Proof.Laws.GuardRead

/-- The guard field of an instruction's word is the instruction's guard (R203); a row that is no word has none. -/
def Statement (i : Instr) : Prop := ∀ w, encode i = some w → Machine.guardOf i = some (fieldGuard w)

theorem iadd (w : RWord) : Statement (.iadd w) := fun _ h => by
  cases h; exact congrArg some (guard_encR _ _ w).symm

theorem isub (w : RWord) : Statement (.isub w) := fun _ h => by
  cases h; exact congrArg some (guard_encR _ _ w).symm

theorem imul (w : RWord) : Statement (.imul w) := fun _ h => by
  cases h; exact congrArg some (guard_encR _ _ w).symm

theorem imulh (w : RWord) : Statement (.imulh w) := fun _ h => by
  cases h; exact congrArg some (guard_encR _ _ w).symm

theorem imad (w : RWord) : Statement (.imad w) := fun _ h => by
  cases h; exact congrArg some (guard_encR _ _ w).symm

theorem idiv (w : RWord) : Statement (.idiv w) := fun _ h => by
  cases h; exact congrArg some (guard_encR _ _ w).symm

theorem irem (w : RWord) : Statement (.irem w) := fun _ h => by
  cases h; exact congrArg some (guard_encR _ _ w).symm

theorem imin (w : RWord) : Statement (.imin w) := fun _ h => by
  cases h; exact congrArg some (guard_encR _ _ w).symm

theorem imax (w : RWord) : Statement (.imax w) := fun _ h => by
  cases h; exact congrArg some (guard_encR _ _ w).symm

theorem iabs (w : RWord) : Statement (.iabs w) := fun _ h => by
  cases h; exact congrArg some (guard_encR _ _ w).symm

theorem ineg (w : RWord) : Statement (.ineg w) := fun _ h => by
  cases h; exact congrArg some (guard_encR _ _ w).symm

theorem lea (w : RWord) : Statement (.lea w) := fun _ h => by
  cases h; exact congrArg some (guard_encR _ _ w).symm

theorem and (w : RWord) : Statement (.and w) := fun _ h => by
  cases h; exact congrArg some (guard_encR _ _ w).symm

theorem or (w : RWord) : Statement (.or w) := fun _ h => by
  cases h; exact congrArg some (guard_encR _ _ w).symm

theorem xor (w : RWord) : Statement (.xor w) := fun _ h => by
  cases h; exact congrArg some (guard_encR _ _ w).symm

theorem andn (w : RWord) : Statement (.andn w) := fun _ h => by
  cases h; exact congrArg some (guard_encR _ _ w).symm

theorem lmux (w : RWord) : Statement (.lmux w) := fun _ h => by
  cases h; exact congrArg some (guard_encR _ _ w).symm

theorem shl (w : RWord) : Statement (.shl w) := fun _ h => by
  cases h; exact congrArg some (guard_encR _ _ w).symm

theorem shr (w : RWord) : Statement (.shr w) := fun _ h => by
  cases h; exact congrArg some (guard_encR _ _ w).symm

theorem sar (w : RWord) : Statement (.sar w) := fun _ h => by
  cases h; exact congrArg some (guard_encR _ _ w).symm

theorem rol (w : RWord) : Statement (.rol w) := fun _ h => by
  cases h; exact congrArg some (guard_encR _ _ w).symm

theorem shf (w : RWord) : Statement (.shf w) := fun _ h => by
  cases h; exact congrArg some (guard_encR _ _ w).symm

theorem bfx (w : RWord) : Statement (.bfx w) := fun _ h => by
  cases h; exact congrArg some (guard_encR _ _ w).symm

theorem bfi (w : RWord) : Statement (.bfi w) := fun _ h => by
  cases h; exact congrArg some (guard_encR _ _ w).symm

theorem popc (w : RWord) : Statement (.popc w) := fun _ h => by
  cases h; exact congrArg some (guard_encR _ _ w).symm

theorem clz (w : RWord) : Statement (.clz w) := fun _ h => by
  cases h; exact congrArg some (guard_encR _ _ w).symm

theorem ctz (w : RWord) : Statement (.ctz w) := fun _ h => by
  cases h; exact congrArg some (guard_encR _ _ w).symm

theorem brev (w : RWord) : Statement (.brev w) := fun _ h => by
  cases h; exact congrArg some (guard_encR _ _ w).symm

theorem bperm (w : RWord) : Statement (.bperm w) := fun _ h => by
  cases h; exact congrArg some (guard_encR _ _ w).symm

theorem icmp (w : RWord) : Statement (.icmp w) := fun _ h => by
  cases h; exact congrArg some (guard_encR _ _ w).symm

theorem plop (w : RWord) : Statement (.plop w) := fun _ h => by
  cases h; exact congrArg some (guard_encR _ _ w).symm

theorem sel (w : RWord) : Statement (.sel w) := fun _ h => by
  cases h; exact congrArg some (guard_encR _ _ w).symm

theorem pmovGet (w : RWord) : Statement (.pmovGet w) := fun _ h => by
  cases h; exact congrArg some (guard_encR _ _ w).symm

theorem pmovSet (w : RWord) : Statement (.pmovSet w) := fun _ h => by
  cases h; exact congrArg some (guard_encR _ _ w).symm

theorem mov (w : RWord) : Statement (.mov w) := fun _ h => by
  cases h; exact congrArg some (guard_encR _ _ w).symm

theorem lxch (w : RWord) : Statement (.lxch w) := fun _ h => by
  cases h; exact congrArg some (guard_encR _ _ w).symm

theorem pagg (w : RWord) : Statement (.pagg w) := fun _ h => by
  cases h; exact congrArg some (guard_encR _ _ w).symm

theorem pfx (w : RWord) : Statement (.pfx w) := fun _ h => by
  cases h; exact congrArg some (guard_encR _ _ w).symm

theorem rred (w : RWord) : Statement (.rred w) := fun _ h => by
  cases h; exact congrArg some (guard_encR _ _ w).symm

theorem rredJoined (w : RWord) : Statement (.rredJoined w) := fun _ h => by
  cases h; exact congrArg some (guard_encR _ _ w).symm

theorem xset (w : RWord) : Statement (.xset w) := fun _ h => by
  cases h; exact congrArg some (guard_encR _ _ w).symm

theorem xadd (w : RWord) : Statement (.xadd w) := fun _ h => by
  cases h; exact congrArg some (guard_encR _ _ w).symm

theorem iaddImm (w : IWord) : Statement (.iaddImm w) := fun _ h => by
  cases h; exact congrArg some (guard_encI _ _ w).symm

theorem isubImm (w : IWord) : Statement (.isubImm w) := fun _ h => by
  cases h; exact congrArg some (guard_encI _ _ w).symm

theorem imulImm (w : IWord) : Statement (.imulImm w) := fun _ h => by
  cases h; exact congrArg some (guard_encI _ _ w).symm

theorem iminImm (w : IWord) : Statement (.iminImm w) := fun _ h => by
  cases h; exact congrArg some (guard_encI _ _ w).symm

theorem imaxImm (w : IWord) : Statement (.imaxImm w) := fun _ h => by
  cases h; exact congrArg some (guard_encI _ _ w).symm

theorem leaImm (w : IWord) : Statement (.leaImm w) := fun _ h => by
  cases h; exact congrArg some (guard_encI _ _ w).symm

theorem andImm (w : IWord) : Statement (.andImm w) := fun _ h => by
  cases h; exact congrArg some (guard_encI _ _ w).symm

theorem orImm (w : IWord) : Statement (.orImm w) := fun _ h => by
  cases h; exact congrArg some (guard_encI _ _ w).symm

theorem xorImm (w : IWord) : Statement (.xorImm w) := fun _ h => by
  cases h; exact congrArg some (guard_encI _ _ w).symm

theorem andnImm (w : IWord) : Statement (.andnImm w) := fun _ h => by
  cases h; exact congrArg some (guard_encI _ _ w).symm

theorem shlImm (w : IWord) : Statement (.shlImm w) := fun _ h => by
  cases h; exact congrArg some (guard_encI _ _ w).symm

theorem shrImm (w : IWord) : Statement (.shrImm w) := fun _ h => by
  cases h; exact congrArg some (guard_encI _ _ w).symm

theorem sarImm (w : IWord) : Statement (.sarImm w) := fun _ h => by
  cases h; exact congrArg some (guard_encI _ _ w).symm

theorem rolImm (w : IWord) : Statement (.rolImm w) := fun _ h => by
  cases h; exact congrArg some (guard_encI _ _ w).symm

theorem bfxImm (w : IWord) : Statement (.bfxImm w) := fun _ h => by
  cases h; exact congrArg some (guard_encI _ _ w).symm

theorem bpermImm (w : IWord) : Statement (.bpermImm w) := fun _ h => by
  cases h; exact congrArg some (guard_encI _ _ w).symm

theorem icmpImm (w : IWord) : Statement (.icmpImm w) := fun _ h => by
  cases h; exact congrArg some (guard_encI _ _ w).symm

theorem movi (w : IWord) : Statement (.movi w) := fun _ h => by
  cases h; exact congrArg some (guard_encI _ _ w).symm

theorem movhi (w : IWord) : Statement (.movhi w) := fun _ h => by
  cases h; exact congrArg some (guard_encI _ _ w).symm

theorem xaddImm (w : IWord) : Statement (.xaddImm w) := fun _ h => by
  cases h; exact congrArg some (guard_encI _ _ w).symm

theorem fadd (w : RWord) : Statement (.fadd w) := fun _ h => by
  cases h; exact congrArg some (guard_encR _ _ w).symm

theorem fsub (w : RWord) : Statement (.fsub w) := fun _ h => by
  cases h; exact congrArg some (guard_encR _ _ w).symm

theorem fmul (w : RWord) : Statement (.fmul w) := fun _ h => by
  cases h; exact congrArg some (guard_encR _ _ w).symm

theorem ffma (w : RWord) : Statement (.ffma w) := fun _ h => by
  cases h; exact congrArg some (guard_encR _ _ w).symm

theorem fmin (w : RWord) : Statement (.fmin w) := fun _ h => by
  cases h; exact congrArg some (guard_encR _ _ w).symm

theorem fmax (w : RWord) : Statement (.fmax w) := fun _ h => by
  cases h; exact congrArg some (guard_encR _ _ w).symm

theorem fminn (w : RWord) : Statement (.fminn w) := fun _ h => by
  cases h; exact congrArg some (guard_encR _ _ w).symm

theorem fmaxn (w : RWord) : Statement (.fmaxn w) := fun _ h => by
  cases h; exact congrArg some (guard_encR _ _ w).symm

theorem frnd (w : RWord) : Statement (.frnd w) := fun _ h => by
  cases h; exact congrArg some (guard_encR _ _ w).symm

theorem fdiv (w : RWord) : Statement (.fdiv w) := fun _ h => by
  cases h; exact congrArg some (guard_encR _ _ w).symm

theorem fsqrt (w : RWord) : Statement (.fsqrt w) := fun _ h => by
  cases h; exact congrArg some (guard_encR _ _ w).symm

theorem frcp (w : RWord) : Statement (.frcp w) := fun _ h => by
  cases h; exact congrArg some (guard_encR _ _ w).symm

theorem frsq (w : RWord) : Statement (.frsq w) := fun _ h => by
  cases h; exact congrArg some (guard_encR _ _ w).symm

theorem fcmp (w : RWord) : Statement (.fcmp w) := fun _ h => by
  cases h; exact congrArg some (guard_encR _ _ w).symm

theorem fclass (w : RWord) : Statement (.fclass w) := fun _ h => by
  cases h; exact congrArg some (guard_encR _ _ w).symm

theorem hadd2 (w : RWord) : Statement (.hadd2 w) := fun _ h => by
  cases h; exact congrArg some (guard_encR _ _ w).symm

theorem hmul2 (w : RWord) : Statement (.hmul2 w) := fun _ h => by
  cases h; exact congrArg some (guard_encR _ _ w).symm

theorem hfma2 (w : RWord) : Statement (.hfma2 w) := fun _ h => by
  cases h; exact congrArg some (guard_encR _ _ w).symm

theorem hmin2 (w : RWord) : Statement (.hmin2 w) := fun _ h => by
  cases h; exact congrArg some (guard_encR _ _ w).symm

theorem hmax2 (w : RWord) : Statement (.hmax2 w) := fun _ h => by
  cases h; exact congrArg some (guard_encR _ _ w).symm

theorem cvt (w : RWord) : Statement (.cvt w) := fun _ h => by
  cases h; exact congrArg some (guard_encR _ _ w).symm

theorem logc (w : RWord) : Statement (.logc w) := fun _ h => by
  cases h; exact congrArg some (guard_encR _ _ w).symm

theorem expc (w : RWord) : Statement (.expc w) := fun _ h => by
  cases h; exact congrArg some (guard_encR _ _ w).symm

theorem lmul (w : RWord) : Statement (.lmul w) := fun _ h => by
  cases h; exact congrArg some (guard_encR _ _ w).symm

theorem ldiv (w : RWord) : Statement (.ldiv w) := fun _ h => by
  cases h; exact congrArg some (guard_encR _ _ w).symm

theorem lpow (w : RWord) : Statement (.lpow w) := fun _ h => by
  cases h; exact congrArg some (guard_encR _ _ w).symm

theorem lroot (w : RWord) : Statement (.lroot w) := fun _ h => by
  cases h; exact congrArg some (guard_encR _ _ w).symm

theorem fex2 (w : RWord) : Statement (.fex2 w) := fun _ h => by
  cases h; exact congrArg some (guard_encR _ _ w).symm

theorem flg2 (w : RWord) : Statement (.flg2 w) := fun _ h => by
  cases h; exact congrArg some (guard_encR _ _ w).symm

theorem fsin (w : RWord) : Statement (.fsin w) := fun _ h => by
  cases h; exact congrArg some (guard_encR _ _ w).symm

theorem fcos (w : RWord) : Statement (.fcos w) := fun _ h => by
  cases h; exact congrArg some (guard_encR _ _ w).symm

theorem ftanh (w : RWord) : Statement (.ftanh w) := fun _ h => by
  cases h; exact congrArg some (guard_encR _ _ w).symm

theorem fsigm (w : RWord) : Statement (.fsigm w) := fun _ h => by
  cases h; exact congrArg some (guard_encR _ _ w).symm

theorem ld (w : MWord) : Statement (.ld w) := fun _ h => by
  cases h; exact congrArg some (guard_encM _ _ w).symm

theorem lds (w : MWord) : Statement (.lds w) := fun _ h => by
  cases h; exact congrArg some (guard_encM _ _ w).symm

theorem lda (w : MWord) : Statement (.lda w) := fun _ h => by
  cases h; exact congrArg some (guard_encM _ _ w).symm

theorem ldff (w : MWord) : Statement (.ldff w) := fun _ h => by
  cases h; exact congrArg some (guard_encM _ _ w).symm

theorem st (w : MWord) : Statement (.st w) := fun _ h => by
  cases h; exact congrArg some (guard_encM _ _ w).symm

theorem sts (w : MWord) : Statement (.sts w) := fun _ h => by
  cases h; exact congrArg some (guard_encM _ _ w).symm

theorem stl (w : MWord) : Statement (.stl w) := fun _ h => by
  cases h; exact congrArg some (guard_encM _ _ w).symm

theorem ldf (w : MWord) : Statement (.ldf w) := fun _ h => by
  cases h; exact congrArg some (guard_encM _ _ w).symm

theorem stf (w : MWord) : Statement (.stf w) := fun _ h => by
  cases h; exact congrArg some (guard_encM _ _ w).symm

theorem waitq (w : RWord) : Statement (.waitq w) := fun _ h => by
  cases h; exact congrArg some (guard_encR _ _ w).symm

theorem atom (w : RWord) : Statement (.atom w) := fun _ h => by
  cases h; exact congrArg some (guard_encR _ _ w).symm

theorem red (w : RWord) : Statement (.red w) := fun _ h => by
  cases h; exact congrArg some (guard_encR _ _ w).symm

theorem cas (w : RWord) : Statement (.cas w) := fun _ h => by
  cases h; exact congrArg some (guard_encR _ _ w).symm

theorem atadd2 (w : RWord) : Statement (.atadd2 w) := fun _ h => by
  cases h; exact congrArg some (guard_encR _ _ w).symm

theorem atomf (w : RWord) : Statement (.atomf w) := fun _ h => by
  cases h; exact congrArg some (guard_encR _ _ w).symm

theorem fence (w : RWord) : Statement (.fence w) := fun _ h => by
  cases h; exact congrArg some (guard_encR _ _ w).symm

theorem cflush (w : MWord) : Statement (.cflush w) := fun _ h => by
  cases h; exact congrArg some (guard_encM _ _ w).symm

theorem cinv (w : MWord) : Statement (.cinv w) := fun _ h => by
  cases h; exact congrArg some (guard_encM _ _ w).symm

theorem pref (w : MWord) : Statement (.pref w) := fun _ h => by
  cases h; exact congrArg some (guard_encM _ _ w).symm

theorem tkput (w : RWord) : Statement (.tkput w) := fun _ h => by
  cases h; exact congrArg some (guard_encR _ _ w).symm

theorem tkget (w : RWord) : Statement (.tkget w) := fun _ h => by
  cases h; exact congrArg some (guard_encR _ _ w).symm

theorem tktry (w : RWord) : Statement (.tktry w) := fun _ h => by
  cases h; exact congrArg some (guard_encR _ _ w).symm

theorem tkset (w : RWord) : Statement (.tkset w) := fun _ h => by
  cases h; exact congrArg some (guard_encR _ _ w).symm

theorem barMeet (w : RWord) : Statement (.barMeet w) := fun _ h => by
  cases h; exact congrArg some (guard_encR _ _ w).symm

theorem barPass (w : RWord) : Statement (.barPass w) := fun _ h => by
  cases h; exact congrArg some (guard_encR _ _ w).symm

theorem barSize (w : RWord) : Statement (.barSize w) := fun _ h => by
  cases h; exact congrArg some (guard_encR _ _ w).symm

theorem bra (w : BWord) : Statement (.bra w) := fun _ h => by
  cases h; exact congrArg some (guard_encB _ _ w).symm

theorem brx (w : RWord) : Statement (.brx w) := fun _ h => by
  cases h; exact congrArg some (guard_encR _ _ w).symm

theorem call (w : BWord) : Statement (.call w) := fun _ h => by
  cases h; exact congrArg some (guard_encB _ _ w).symm

theorem ret (w : RWord) : Statement (.ret w) := fun _ h => by
  cases h; exact congrArg some (guard_encR _ _ w).symm

theorem exit (w : RWord) : Statement (.exit w) := fun _ h => by
  cases h; exact congrArg some (guard_encR _ _ w).symm

theorem rcv (w : BWord) : Statement (.rcv w) := fun _ h => by
  cases h; exact congrArg some (guard_encB _ _ w).symm

theorem rsync (w : RWord) : Statement (.rsync w) := fun _ h => by
  cases h; exact congrArg some (guard_encR _ _ w).symm

theorem syncRelease (k : RodKey) (lane : Nat) : Statement (.syncRelease k lane) := fun _ h => by cases h

theorem nop (w : RWord) : Statement (.nop w) := fun _ h => by
  cases h; exact congrArg some (guard_encR _ _ w).symm

theorem yield (w : RWord) : Statement (.yield w) := fun _ h => by
  cases h; exact congrArg some (guard_encR _ _ w).symm

theorem grow (w : RWord) : Statement (.grow w) := fun _ h => by
  cases h; exact congrArg some (guard_encR _ _ w).symm

theorem shrink (w : RWord) : Statement (.shrink w) := fun _ h => by
  cases h; exact congrArg some (guard_encR _ _ w).symm

theorem jset (w : RWord) : Statement (.jset w) := fun _ h => by
  cases h; exact congrArg some (guard_encR _ _ w).symm

theorem jwait (w : RWord) : Statement (.jwait w) := fun _ h => by
  cases h; exact congrArg some (guard_encR _ _ w).symm

theorem cstat (w : RWord) : Statement (.cstat w) := fun _ h => by
  cases h; exact congrArg some (guard_encR _ _ w).symm

theorem cdone (w : RWord) : Statement (.cdone w) := fun _ h => by
  cases h; exact congrArg some (guard_encR _ _ w).symm

theorem valid (w : RWord) : Statement (.valid w) := fun _ h => by
  cases h; exact congrArg some (guard_encR _ _ w).symm

theorem slack (w : RWord) : Statement (.slack w) := fun _ h => by
  cases h; exact congrArg some (guard_encR _ _ w).symm

theorem srd (w : RWord) : Statement (.srd w) := fun _ h => by
  cases h; exact congrArg some (guard_encR _ _ w).symm

theorem rngc (w : RWord) : Statement (.rngc w) := fun _ h => by
  cases h; exact congrArg some (guard_encR _ _ w).symm

theorem carryWaitRelease (k : RodKey) (lane : Nat) : Statement (.carryWaitRelease k lane) := fun _ h => by cases h

theorem vadd (w : EWord) : Statement (.vadd w) := fun _ h => by
  cases h; exact congrArg some (guard_encE _ _ w).symm

theorem vsub (w : EWord) : Statement (.vsub w) := fun _ h => by
  cases h; exact congrArg some (guard_encE _ _ w).symm

theorem vmul (w : EWord) : Statement (.vmul w) := fun _ h => by
  cases h; exact congrArg some (guard_encE _ _ w).symm

theorem vfma (w : EWord) : Statement (.vfma w) := fun _ h => by
  cases h; exact congrArg some (guard_encE _ _ w).symm

theorem vmin (w : EWord) : Statement (.vmin w) := fun _ h => by
  cases h; exact congrArg some (guard_encE _ _ w).symm

theorem vmax (w : EWord) : Statement (.vmax w) := fun _ h => by
  cases h; exact congrArg some (guard_encE _ _ w).symm

theorem vscl (w : EWord) : Statement (.vscl w) := fun _ h => by
  cases h; exact congrArg some (guard_encE _ _ w).symm

theorem vcvt (w : EWord) : Statement (.vcvt w) := fun _ h => by
  cases h; exact congrArg some (guard_encE _ _ w).symm

theorem vmov (w : EWord) : Statement (.vmov w) := fun _ h => by
  cases h; exact congrArg some (guard_encE _ _ w).symm

theorem vfill (w : EWord) : Statement (.vfill w) := fun _ h => by
  cases h; exact congrArg some (guard_encE _ _ w).symm

theorem vcmp (w : EWord) : Statement (.vcmp w) := fun _ h => by
  cases h; exact congrArg some (guard_encE _ _ w).symm

theorem vsel (w : EWord) : Statement (.vsel w) := fun _ h => by
  cases h; exact congrArg some (guard_encE _ _ w).symm

theorem vsum (w : EWord) : Statement (.vsum w) := fun _ h => by
  cases h; exact congrArg some (guard_encE _ _ w).symm

theorem vmaxr (w : EWord) : Statement (.vmaxr w) := fun _ h => by
  cases h; exact congrArg some (guard_encE _ _ w).symm

theorem vlogc (w : EWord) : Statement (.vlogc w) := fun _ h => by
  cases h; exact congrArg some (guard_encE _ _ w).symm

theorem vexpc (w : EWord) : Statement (.vexpc w) := fun _ h => by
  cases h; exact congrArg some (guard_encE _ _ w).symm

theorem vex2 (w : EWord) : Statement (.vex2 w) := fun _ h => by
  cases h; exact congrArg some (guard_encE _ _ w).symm

theorem vsigm (w : EWord) : Statement (.vsigm w) := fun _ h => by
  cases h; exact congrArg some (guard_encE _ _ w).symm

theorem vtanh (w : EWord) : Statement (.vtanh w) := fun _ h => by
  cases h; exact congrArg some (guard_encE _ _ w).symm

theorem cpin (w : EWord) : Statement (.cpin w) := fun _ h => by
  cases h; exact congrArg some (guard_encE _ _ w).symm

theorem cpout (w : EWord) : Statement (.cpout w) := fun _ h => by
  cases h; exact congrArg some (guard_encE _ _ w).symm

theorem cpff (w : EWord) : Statement (.cpff w) := fun _ h => by
  cases h; exact congrArg some (guard_encE _ _ w).symm

theorem cp2d (w : EWord) : Statement (.cp2d w) := fun _ h => by
  cases h; exact congrArg some (guard_encE _ _ w).symm

theorem cppl (w : EWord) : Statement (.cppl w) := fun _ h => by
  cases h; exact congrArg some (guard_encE _ _ w).symm

theorem cpacc (w : EWord) : Statement (.cpacc w) := fun _ h => by
  cases h; exact congrArg some (guard_encE _ _ w).symm

theorem cpaci (w : EWord) : Statement (.cpaci w) := fun _ h => by
  cases h; exact congrArg some (guard_encE _ _ w).symm

theorem cppeer (w : EWord) : Statement (.cppeer w) := fun _ h => by
  cases h; exact congrArg some (guard_encE _ _ w).symm

theorem windef (w : EWord) : Statement (.windef w) := fun _ h => by
  cases h; exact congrArg some (guard_encE _ _ w).symm

theorem winrel (w : EWord) : Statement (.winrel w) := fun _ h => by
  cases h; exact congrArg some (guard_encE _ _ w).symm

theorem acres (w : EWord) : Statement (.acres w) := fun _ h => by
  cases h; exact congrArg some (guard_encE _ _ w).symm

theorem acrel (w : EWord) : Statement (.acrel w) := fun _ h => by
  cases h; exact congrArg some (guard_encE _ _ w).symm

theorem aczero (w : EWord) : Statement (.aczero w) := fun _ h => by
  cases h; exact congrArg some (guard_encE _ _ w).symm

theorem mma (w : EWord) : Statement (.mma w) := fun _ h => by
  cases h; exact congrArg some (guard_encE _ _ w).symm

theorem mscl (w : EWord) : Statement (.mscl w) := fun _ h => by
  cases h; exact congrArg some (guard_encE _ _ w).symm

theorem mchk (w : EWord) : Statement (.mchk w) := fun _ h => by
  cases h; exact congrArg some (guard_encE _ _ w).symm

theorem engineCommandStart (p : FrameId) (e : EngineId) : Statement (.engineCommandStart p e) := fun _ h => by cases h

theorem engineCommandFinish (p : FrameId) (e : EngineId) (pos : Nat) : Statement (.engineCommandFinish p e pos) := fun _ h => by cases h

theorem commandRunFault (p : FrameId) (e : EngineId) (pos : Nat) : Statement (.commandRunFault p e pos) := fun _ h => by cases h

theorem engineFaultDelivery (k : RodKey) : Statement (.engineFaultDelivery k) := fun _ h => by cases h

theorem trapHalt (w : RWord) : Statement (.trapHalt w) := fun _ h => by
  cases h; exact congrArg some (guard_encR _ _ w).symm

theorem trapSlice (w : RWord) : Statement (.trapSlice w) := fun _ h => by
  cases h; exact congrArg some (guard_encR _ _ w).symm

theorem trapWdog (w : RWord) : Statement (.trapWdog w) := fun _ h => by
  cases h; exact congrArg some (guard_encR _ _ w).symm

theorem rett (w : RWord) : Statement (.rett w) := fun _ h => by
  cases h; exact congrArg some (guard_encR _ _ w).symm

theorem sysrd (w : RWord) : Statement (.sysrd w) := fun _ h => by
  cases h; exact congrArg some (guard_encR _ _ w).symm

theorem syswr (w : RWord) : Statement (.syswr w) := fun _ h => by
  cases h; exact congrArg some (guard_encR _ _ w).symm

theorem engineIssueStop (p : FrameId) (e : EngineId) : Statement (.engineIssueStop p e) := fun _ h => by cases h

theorem engineIssueResume (p : FrameId) (e : EngineId) : Statement (.engineIssueResume p e) := fun _ h => by cases h

theorem engineStopped (p : FrameId) (e : EngineId) : Statement (.engineStopped p e) := fun _ h => by cases h

theorem eventClear (w : RWord) : Statement (.eventClear w) := fun _ h => by
  cases h; exact congrArg some (guard_encR _ _ w).symm

theorem rodWindowWrite (w : RWord) : Statement (.rodWindowWrite w) := fun _ h => by
  cases h; exact congrArg some (guard_encR _ _ w).symm

theorem engrd (w : RWord) : Statement (.engrd w) := fun _ h => by
  cases h; exact congrArg some (guard_encR _ _ w).symm

theorem engwr (w : RWord) : Statement (.engwr w) := fun _ h => by
  cases h; exact congrArg some (guard_encR _ _ w).symm

theorem ctxsv (w : RWord) : Statement (.ctxsv w) := fun _ h => by
  cases h; exact congrArg some (guard_encR _ _ w).symm

theorem ctxsvTeam (w : RWord) : Statement (.ctxsvTeam w) := fun _ h => by
  cases h; exact congrArg some (guard_encR _ _ w).symm

theorem ctxld (w : RWord) : Statement (.ctxld w) := fun _ h => by
  cases h; exact congrArg some (guard_encR _ _ w).symm

theorem ctxldTeam (w : RWord) : Statement (.ctxldTeam w) := fun _ h => by
  cases h; exact congrArg some (guard_encR _ _ w).symm

theorem tlbiVa (w : RWord) : Statement (.tlbiVa w) := fun _ h => by
  cases h; exact congrArg some (guard_encR _ _ w).symm

theorem tlbiAsid (w : RWord) : Statement (.tlbiAsid w) := fun _ h => by
  cases h; exact congrArg some (guard_encR _ _ w).symm

theorem tlbiAll (w : RWord) : Statement (.tlbiAll w) := fun _ h => by
  cases h; exact congrArg some (guard_encR _ _ w).symm

theorem tlbiComplete (p : FrameId) : Statement (.tlbiComplete p) := fun _ h => by cases h

theorem bkpt (w : RWord) : Statement (.bkpt w) := fun _ h => by
  cases h; exact congrArg some (guard_encR _ _ w).symm

theorem fwcall (w : RWord) : Statement (.fwcall w) := fun _ h => by
  cases h; exact congrArg some (guard_encR _ _ w).symm

theorem fwcallReply (p : FrameId) (status : BitVec 32) (reply : List (BitVec 32)) : Statement (.fwcallReply p status reply) := fun _ h => by cases h

theorem parkq (w : RWord) : Statement (.parkq w) := fun _ h => by
  cases h; exact congrArg some (guard_encR _ _ w).symm

theorem resumeRetry (w : RWord) : Statement (.resumeRetry w) := fun _ h => by
  cases h; exact congrArg some (guard_encR _ _ w).symm

theorem resumeSkip (w : RWord) : Statement (.resumeSkip w) := fun _ h => by
  cases h; exact congrArg some (guard_encR _ _ w).symm

theorem resumeAbort (w : RWord) : Statement (.resumeAbort w) := fun _ h => by
  cases h; exact congrArg some (guard_encR _ _ w).symm

theorem resumeRun (w : RWord) : Statement (.resumeRun w) := fun _ h => by
  cases h; exact congrArg some (guard_encR _ _ w).symm

theorem idle (w : RWord) : Statement (.idle w) := fun _ h => by
  cases h; exact congrArg some (guard_encR _ _ w).symm

theorem idleWake (p : FrameId) : Statement (.idleWake p) := fun _ h => by cases h

theorem handlerEntry (p : FrameId) : Statement (.handlerEntry p) := fun _ h => by cases h

theorem dadd (w : RWord) : Statement (.dadd w) := fun _ h => by
  cases h; exact congrArg some (guard_encR _ _ w).symm

theorem dmul (w : RWord) : Statement (.dmul w) := fun _ h => by
  cases h; exact congrArg some (guard_encR _ _ w).symm

theorem dfma (w : RWord) : Statement (.dfma w) := fun _ h => by
  cases h; exact congrArg some (guard_encR _ _ w).symm

theorem ddiv (w : RWord) : Statement (.ddiv w) := fun _ h => by
  cases h; exact congrArg some (guard_encR _ _ w).symm

theorem dsqrt (w : RWord) : Statement (.dsqrt w) := fun _ h => by
  cases h; exact congrArg some (guard_encR _ _ w).symm

theorem dcvt (w : RWord) : Statement (.dcvt w) := fun _ h => by
  cases h; exact congrArg some (guard_encR _ _ w).symm

theorem loadReturn (k : RodKey) (lane : Nat) (pos : Nat) : Statement (.loadReturn k lane pos) := fun _ h => by cases h

theorem fenceComplete (k : RodKey) (lane : Nat) : Statement (.fenceComplete k lane) := fun _ h => by cases h

theorem teamStart (p : FrameId) : Statement (.teamStart p) := fun _ h => by cases h

theorem requestServe (p : FrameId) : Statement (.requestServe p) := fun _ h => by cases h

theorem rodEviction (p : FrameId) : Statement (.rodEviction p) := fun _ h => by cases h

theorem teamRetire (p : FrameId) (ts : Nat) : Statement (.teamRetire p ts) := fun _ h => by cases h

theorem wrapUpThreshold (seq : Nat) : Statement (.wrapUpThreshold seq) := fun _ h => by cases h

theorem itemDivert (k : RodKey) : Statement (.itemDivert k) := fun _ h => by cases h

theorem deadlineKill (seq : Nat) : Statement (.deadlineKill seq) := fun _ h => by cases h

theorem launchCompletion (seq : Nat) : Statement (.launchCompletion seq) := fun _ h => by cases h

theorem stuckFrameWatchdog (p : FrameId) : Statement (.stuckFrameWatchdog p) := fun _ h => by cases h

theorem engineWatchdog (p : FrameId) (e : EngineId) : Statement (.engineWatchdog p e) := fun _ h => by cases h

theorem partitionWatchdog (p : FrameId) (recSeq : BitVec 16) : Statement (.partitionWatchdog p recSeq) := fun _ h => by cases h

theorem sliceTimeReached (p : FrameId) : Statement (.sliceTimeReached p) := fun _ h => by cases h

theorem timerReached (p : FrameId) : Statement (.timerReached p) := fun _ h => by cases h

theorem hubDoorbell (p : FrameId) : Statement (.hubDoorbell p) := fun _ h => by cases h

theorem debugRequest (p : FrameId) : Statement (.debugRequest p) := fun _ h => by cases h

theorem preemption (p : FrameId) : Statement (.preemption p) := fun _ h => by cases h

theorem schedulerChoice (p : FrameId) : Statement (.schedulerChoice p) := fun _ h => by cases h

theorem launchKill (seq : Nat) : Statement (.launchKill seq) := fun _ h => by cases h

theorem queueRegister (q desc part asid : Nat) : Statement (.queueRegister q desc part asid) := fun _ h => by cases h

theorem queueTailWrite (q : Nat) : Statement (.queueTailWrite q) := fun _ h => by cases h

theorem queueStopRequest (q : Nat) : Statement (.queueStopRequest q) := fun _ h => by cases h

theorem queueStartRequest (q : Nat) : Statement (.queueStartRequest q) := fun _ h => by cases h

theorem queueRestart (q : Nat) : Statement (.queueRestart q) := fun _ h => by cases h

theorem queueSwapIn (q : Nat) : Statement (.queueSwapIn q) := fun _ h => by cases h

theorem queueWatchdog (q : Nat) : Statement (.queueWatchdog q) := fun _ h => by cases h

theorem launch (q : Nat) : Statement (.launch q) := fun _ h => by cases h

theorem signal (q : Nat) : Statement (.signal q) := fun _ h => by cases h

theorem wait (q : Nat) : Statement (.wait q) := fun _ h => by cases h

theorem waitComplete (q : Nat) : Statement (.waitComplete q) := fun _ h => by cases h

theorem waitTimeout (q : Nat) : Statement (.waitTimeout q) := fun _ h => by cases h

theorem callq (q : Nat) : Statement (.callq q) := fun _ h => by cases h

theorem joinq (q : Nat) : Statement (.joinq q) := fun _ h => by cases h

theorem fencePacket (q : Nat) : Statement (.fencePacket q) := fun _ h => by cases h

theorem nopPacket (q : Nat) : Statement (.nopPacket q) := fun _ h => by cases h

theorem timestamp (q : Nat) : Statement (.timestamp q) := fun _ h => by cases h

theorem readShared (agent sector : Nat) : Statement (.readShared agent sector) := fun _ h => by cases h

theorem readUnique (agent sector : Nat) : Statement (.readUnique agent sector) := fun _ h => by cases h

theorem upgrade (agent sector : Nat) : Statement (.upgrade agent sector) := fun _ h => by cases h

theorem writeBack (agent sector : Nat) : Statement (.writeBack agent sector) := fun _ h => by cases h

theorem writeBackKeep (agent sector : Nat) : Statement (.writeBackKeep agent sector) := fun _ h => by cases h

theorem snoop (agent sector : Nat) (kind : SnoopKind) : Statement (.snoop agent sector kind) := fun _ h => by cases h

theorem untrackedRead (sector : Nat) : Statement (.untrackedRead sector) := fun _ h => by cases h

theorem untrackedWrite (sector : Nat) (mask : BitVec 64) (data : BitVec 512) : Statement (.untrackedWrite sector mask data) := fun _ h => by cases h

theorem homeAtomic (op : AtomOp) (addr size : Nat) (operand compare : BitVec 64) : Statement (.homeAtomic op addr size operand compare) := fun _ h => by cases h

theorem uClassAccess (sector : Nat) (mask : BitVec 64) (data : BitVec 512) : Statement (.uClassAccess sector mask data) := fun _ h => by cases h

theorem predictorDecay : Statement (.predictorDecay) := fun _ h => by cases h

theorem unmapRequest (part : Nat) (value : BitVec 32) : Statement (.unmapRequest part value) := fun _ h => by cases h

theorem unmapComplete (part : Nat) : Statement (.unmapComplete part) := fun _ h => by cases h

theorem leaseWrite (part : Nat) (value : BitVec 64) : Statement (.leaseWrite part value) := fun _ h => by cases h

theorem unmapStatusClear (part : Nat) (value : BitVec 32) : Statement (.unmapStatusClear part value) := fun _ h => by cases h

theorem migrationRequest (part : Nat) (value : BitVec 64) : Statement (.migrationRequest part value) := fun _ h => by cases h

theorem migrationSwitch (part : Nat) : Statement (.migrationSwitch part) := fun _ h => by cases h

theorem migrationRetire (page : Nat) : Statement (.migrationRetire page) := fun _ h => by cases h

theorem framePowerGate (p : FrameId) : Statement (.framePowerGate p) := fun _ h => by cases h

theorem slicePowerGate (die slice : Nat) : Statement (.slicePowerGate die slice) := fun _ h => by cases h

theorem drainedIsolation (agent : Nat) : Statement (.drainedIsolation agent) := fun _ h => by cases h

theorem forcedIsolation (agent : Nat) : Statement (.forcedIsolation agent) := fun _ h => by cases h

theorem resetRequest (die : Nat) : Statement (.resetRequest die) := fun _ h => by cases h

theorem drainForward (die : Nat) : Statement (.drainForward die) := fun _ h => by cases h

theorem dieReset (die : Nat) : Statement (.dieReset die) := fun _ h => by cases h

theorem forcedReset (die : Nat) : Statement (.forcedReset die) := fun _ h => by cases h

theorem linkDown (a b : Nat) : Statement (.linkDown a b) := fun _ h => by cases h

theorem powerOnReset (failed : List Nat) (source : Nat) : Statement (.powerOnReset failed source) := fun _ h => by cases h

theorem partitionChange (first : Nat × PartDesc) (more : List (Nat × PartDesc)) : Statement (.partitionChange first more) := fun _ h => by cases h

theorem timeSourceSelect (source : BitVec 3) : Statement (.timeSourceSelect source) := fun _ h => by cases h

theorem timeStatusRead : Statement (.timeStatusRead) := fun _ h => by cases h

theorem timeSourceLoss : Statement (.timeSourceLoss) := fun _ h => by cases h

theorem timeStep (ns : Nat) : Statement (.timeStep ns) := fun _ h => by cases h

theorem attestationRequest (nonce : BitVec 256) : Statement (.attestationRequest nonce) := fun _ h => by cases h

theorem maintenanceReplan (dies : List Nat) (results : List ReplanResult) : Statement (.maintenanceReplan dies results) := fun _ h => by cases h

theorem counterFlush : Statement (.counterFlush) := fun _ h => by cases h

theorem hubLinkFrame (asid addr : Nat) (bytes : List (BitVec 8)) (signal : Option SignalWrite) : Statement (.hubLinkFrame asid addr bytes signal) := fun _ h => by cases h

theorem firmwareContextRestart (p : FrameId) (addr : BitVec 64) : Statement (.firmwareContextRestart p addr) := fun _ h => by cases h

theorem debugAgentRelease (p : FrameId) : Statement (.debugAgentRelease p) := fun _ h => by cases h

theorem powerGateWake (t : GateTarget) : Statement (.powerGateWake t) := fun _ h => by cases h

theorem linkRetrain (a b : Nat) : Statement (.linkRetrain a b) := fun _ h => by cases h

theorem offsetMeasurement (offset : BitVec 64) : Statement (.offsetMeasurement offset) := fun _ h => by cases h

theorem rollbackCountRaise (count : Nat) : Statement (.rollbackCountRaise count) := fun _ h => by cases h

theorem orderlyShutdown : Statement (.orderlyShutdown) := fun _ h => by cases h

theorem powerLoss : Statement (.powerLoss) := fun _ h => by cases h

end Sys2Proof.Laws.GuardRead
end

