-- ==== Sys2Proof/Tests/Slice0.lean ====
section
/-!
SUPPORT. Sys2Proof/Tests/Slice0.lean: words written out from the spec's encodings, well-formedness, one-step results taken
from the spec's tables and examples or worked by hand from its rules, and for each statement a state that meets its
hypotheses.
-/

namespace Sys2Proof.Tests

open Sys2Proof Sys2Proof.Machine

-- One proof at a time: each keeps a kernel thread of its own.
set_option Elab.async false

/-! ## Small states -/

/-- The guard of an unguarded word. -/
def always : Guard := { neg := false, pred := 7 }

def rw (dst a b c : BitVec 8) (mod : BitVec 18 := 0) : RWord := { g := always, dst, a, b, c, mod }
def iw (dst a : BitVec 8) (imm : BitVec 34) : IWord := { g := always, dst, a, imm }
def mw (d base : BitVec 8) (off : BitVec 18 := 0) (size : BitVec 3 := 2) (scope : BitVec 3 := 0) : MWord :=
  { g := always, d, base, idx := 0, off, size, scope, idxv := false, nt := false }
def bw (tgt : BitVec 32) (a : BitVec 8 := 0) : BWord := { g := always, tgt, a, mod := 0 }
def ew (e0 e1 e2 : BitVec 8) (cmod : BitVec 5 := 0) : EWord :=
  { g := always, e0, e1, e2, con0 := 0, con1 := 0, con2 := 0, conv := 0, prod := 0, prodv := false, j := false, cmod }

def regsOf (l : List (Nat × Nat)) : Cells 32 := l.foldl (fun c e => cellSet e.1 (BitVec.ofNat 32 e.2) c) []
def fill (l : List (Nat × Nat)) (x : Lane) : Lane := { x with regs := regsOf l }

abbrev fr : FrameId := placedFrame
abbrev rk : RodKey := rodKey placedFrame 0
abbrev tk : TeamKey := { frame := placedFrame, slot := 0 }

/-- A rod with one item, in lane 0. -/
def soloRod (f : Lane → Lane) : Rod :=
  { placedRod with lanes := (Vector.replicate 32 Lane.reset).set 0 (f (placedRod.lane 0)) }

/-- A rod with two items, in lanes 0 and 1. -/
def pairRod (f g : Lane → Lane) : Rod :=
  { placedRod with lanes := ((Vector.replicate 32 Lane.reset).set 0 (f (placedRod.lane 0))).set 1 (g (placedRod.lane 1)) }

/-- A rod of the placed launch and its team, about to issue from lane 0. The placed page's lease is of class 3, so what a
lookup answers does not depend on a clock (R420). -/
def inState (r : Rod) : State :=
  let s := (State.reset.placeWord 0).setRod rk r
  { s.setTeam tk placedTeam with
    hub := { s.hub with launches := [placedLaunch], ready := true }
    cur := some { key := rk, lane := 0 } }

def solo (f : Lane → Lane) : State := inState (soloRod f)

/-- The firmware context of the same frame, about to issue. -/
def fwRod (f : Lane → Lane) : Rod := placedContext.setLane 0 (f (placedContext.lane 0))
def fwState (f : Lane → Lane) : State :=
  { ((State.reset.placeWord 0).modFrame fr (fun x => { x with fw := .running, asid := 1 })).setRod (fwKey fr) (fwRod f) with
    cur := some { key := fwKey fr, lane := 0 } }

/-- What a property of the next state is, where there is one. -/
def nextHas (o : Host.Outcome State Fault Refusal) (f : State → Bool) : Bool :=
  match o with
  | .next t => f t
  | _ => false

def laneOf (t : State) (k : RodKey) (n : Nat) : Lane := ((t.rod? k).map (fun r => r.lane n)).getD Lane.reset

/-- The word, run by one item with these registers, completes with those. -/
def gives (e : Instr × List (Nat × Nat) × List (Nat × Nat)) : Bool :=
  nextHas (exec e.1 (solo (fill e.2.1))) (fun t =>
    e.2.2.all (fun x => ((laneOf t rk 0).reg x.1).toNat == x.2)
      && (laneOf t rk 0).pc == BitVec.ofNat 64 (placedAt + 8))

/-- The word, run by one item with these registers, leaves predicate `n` at `b`. -/
def givesPred (e : Instr × List (Nat × Nat) × Nat × Bool) : Bool :=
  nextHas (exec e.1 (solo (fill e.2.1))) (fun t => (laneOf t rk 0).pred e.2.2.1 == e.2.2.2)

/-- The cause under which the word parks its item. -/
def parksUnder (i : Instr) (l : List (Nat × Nat)) : Option Nat :=
  match exec i (solo (fill l)) with
  | .next t => if (laneOf t rk 0).st = .parked then (t.frame fr).records.getLast?.map (fun x => x.cause.toNat) else none
  | _ => none

/-! ## Decoding: words written out from the encodings of the spec -/

/-- Guard bits 1 and 2, and the operand fields 0x12, 0x34, 0x56, 0x78 (R203, R205). -/
def sampleR (m : BitVec 18) : RWord :=
  { g := { neg := true, pred := 2 }, dst := 0x12, a := 0x34, b := 0x56, c := 0x78, mod := m }
def sampleI : IWord := { g := { neg := true, pred := 2 }, dst := 0x12, a := 0x34, imm := 0x256789ABC }
def sampleM : MWord :=
  { g := { neg := true, pred := 2 }, d := 0x12, base := 0x34, idx := 0x56, off := 0x2A5C3, size := 3, scope := 2,
    idxv := true, nt := false }
def sampleB : BWord := { g := { neg := true, pred := 2 }, tgt := 0xDEADBEEF, a := 0x34, mod := 0x2C3 }
def sampleE : EWord :=
  { g := { neg := true, pred := 2 }, e0 := 0x12, e1 := 0x34, e2 := 0x56, con0 := 0xA, con1 := 0xB, con2 := 0xC,
    conv := 5, prod := 0xD, prodv := true, j := false, cmod := 0x15 }

/-- Every word decodes to its instruction, and the instruction encodes to its word. -/
def allDecode (l : List (Nat × Instr)) : Bool :=
  l.all (fun e => (decode (BitVec.ofNat 64 e.1)).toOption == some e.2 && encode e.2 == some (BitVec.ofNat 64 e.1))

/-- Words of class 0, format R, every field written out (R203, R205 to R210, R217). -/
def words0A : List (Nat × Instr) := [
  (0x002848d159e2a5a5, .iadd (sampleR 0x2a5a5)),
  (0x006848d159e2a5a5, .isub (sampleR 0x2a5a5)),
  (0x00a848d159e2a5a5, .imul (sampleR 0x2a5a5)),
  (0x00e848d159e2a5a5, .imulh (sampleR 0x2a5a5)),
  (0x012848d159e2a5a5, .imad (sampleR 0x2a5a5)),
  (0x016848d159e2a5a5, .idiv (sampleR 0x2a5a5)),
  (0x01a848d159e2a5a5, .irem (sampleR 0x2a5a5)),
  (0x01e848d159e2a5a5, .imin (sampleR 0x2a5a5)),
  (0x022848d159e2a5a5, .imax (sampleR 0x2a5a5)),
  (0x026848d159e2a5a5, .iabs (sampleR 0x2a5a5)),
  (0x02a848d159e2a5a5, .ineg (sampleR 0x2a5a5)),
  (0x02e848d159e2a5a5, .lea (sampleR 0x2a5a5)),
  (0x032848d159e2a5a5, .and (sampleR 0x2a5a5)),
  (0x036848d159e2a5a5, .or (sampleR 0x2a5a5)),
  (0x03a848d159e2a5a5, .xor (sampleR 0x2a5a5)),
  (0x03e848d159e2a5a5, .andn (sampleR 0x2a5a5)),
  (0x042848d159e2a5a5, .lmux (sampleR 0x2a5a5)),
  (0x046848d159e2a5a5, .shl (sampleR 0x2a5a5)),
  (0x04a848d159e2a5a5, .shr (sampleR 0x2a5a5)),
  (0x04e848d159e2a5a5, .sar (sampleR 0x2a5a5)),
  (0x052848d159e2a5a5, .rol (sampleR 0x2a5a5)),
  (0x056848d159e2a5a5, .shf (sampleR 0x2a5a5))]

theorem test_decode_words0A : allDecode words0A = true := by decide +kernel

/-- Words of class 0, format R, every field written out (R203, R205 to R210, R217). -/
def words0B : List (Nat × Instr) := [
  (0x05a848d159e2a5a5, .bfx (sampleR 0x2a5a5)),
  (0x05e848d159e2a5a5, .bfi (sampleR 0x2a5a5)),
  (0x062848d159e2a5a5, .popc (sampleR 0x2a5a5)),
  (0x066848d159e2a5a5, .clz (sampleR 0x2a5a5)),
  (0x06a848d159e2a5a5, .ctz (sampleR 0x2a5a5)),
  (0x06e848d159e2a5a5, .brev (sampleR 0x2a5a5)),
  (0x072848d159e2a5a5, .bperm (sampleR 0x2a5a5)),
  (0x076848d159e2a5a5, .icmp (sampleR 0x2a5a5)),
  (0x07a848d159e2a5a5, .plop (sampleR 0x2a5a5)),
  (0x07e848d159e2a5a5, .sel (sampleR 0x2a5a5)),
  (0x082848d159e2a4a5, .pmovGet (sampleR 0x2a4a5)),
  (0x082848d159e2a5a5, .pmovSet (sampleR 0x2a5a5)),
  (0x086848d159e2a5a5, .mov (sampleR 0x2a5a5)),
  (0x092848d159e2a5a5, .lxch (sampleR 0x2a5a5)),
  (0x096848d159e2a5a5, .pagg (sampleR 0x2a5a5)),
  (0x09a848d159e2a5a5, .rred (sampleR 0x2a5a5)),
  (0x09a848d159e2a5b5, .rredJoined (sampleR 0x2a5b5)),
  (0x09e848d159e2a5a5, .pfx (sampleR 0x2a5a5)),
  (0x0a2848d159e2a5a5, .xset (sampleR 0x2a5a5)),
  (0x0a6848d159e2a5a5, .xadd (sampleR 0x2a5a5))]

theorem test_decode_words0B : allDecode words0B = true := by decide +kernel

/-- Words of class 1, format I, every field written out (R203, R205 to R210, R217). -/
def words1 : List (Nat × Instr) := [
  (0x202848d256789abc, .iaddImm sampleI),
  (0x206848d256789abc, .isubImm sampleI),
  (0x20a848d256789abc, .imulImm sampleI),
  (0x21e848d256789abc, .iminImm sampleI),
  (0x222848d256789abc, .imaxImm sampleI),
  (0x22e848d256789abc, .leaImm sampleI),
  (0x232848d256789abc, .andImm sampleI),
  (0x236848d256789abc, .orImm sampleI),
  (0x23a848d256789abc, .xorImm sampleI),
  (0x23e848d256789abc, .andnImm sampleI),
  (0x24a848d256789abc, .shrImm sampleI),
  (0x24e848d256789abc, .sarImm sampleI),
  (0x252848d256789abc, .rolImm sampleI),
  (0x25a848d256789abc, .bfxImm sampleI),
  (0x272848d256789abc, .bpermImm sampleI),
  (0x276848d256789abc, .icmpImm sampleI),
  (0x28a848d256789abc, .movi sampleI),
  (0x28e848d256789abc, .movhi sampleI),
  (0x2a6848d256789abc, .xaddImm sampleI),
  (0x246848d256789abc, .shlImm sampleI)]

theorem test_decode_words1 : allDecode words1 = true := by decide +kernel

/-- Words of class 2, format R, every field written out (R203, R205 to R210, R217). -/
def words2A : List (Nat × Instr) := [
  (0x402848d159e2a5a5, .fadd (sampleR 0x2a5a5)),
  (0x406848d159e2a5a5, .fsub (sampleR 0x2a5a5)),
  (0x40a848d159e2a5a5, .fmul (sampleR 0x2a5a5)),
  (0x40e848d159e2a5a5, .ffma (sampleR 0x2a5a5)),
  (0x412848d159e2a5a5, .fmin (sampleR 0x2a5a5)),
  (0x416848d159e2a5a5, .fmax (sampleR 0x2a5a5)),
  (0x41a848d159e2a5a5, .fminn (sampleR 0x2a5a5)),
  (0x41e848d159e2a5a5, .fmaxn (sampleR 0x2a5a5)),
  (0x422848d159e2a5a5, .frnd (sampleR 0x2a5a5)),
  (0x426848d159e2a5a5, .fdiv (sampleR 0x2a5a5)),
  (0x42a848d159e2a5a5, .fsqrt (sampleR 0x2a5a5)),
  (0x42e848d159e2a5a5, .frcp (sampleR 0x2a5a5)),
  (0x432848d159e2a5a5, .frsq (sampleR 0x2a5a5)),
  (0x436848d159e2a5a5, .fcmp (sampleR 0x2a5a5)),
  (0x43a848d159e2a5a5, .fclass (sampleR 0x2a5a5)),
  (0x43e848d159e2a5a5, .hadd2 (sampleR 0x2a5a5)),
  (0x442848d159e2a5a5, .hmul2 (sampleR 0x2a5a5)),
  (0x446848d159e2a5a5, .hfma2 (sampleR 0x2a5a5)),
  (0x44a848d159e2a5a5, .hmin2 (sampleR 0x2a5a5)),
  (0x44e848d159e2a5a5, .hmax2 (sampleR 0x2a5a5)),
  (0x452848d159e2a5a5, .cvt (sampleR 0x2a5a5)),
  (0x456848d159e2a5a5, .logc (sampleR 0x2a5a5))]

theorem test_decode_words2A : allDecode words2A = true := by decide +kernel

/-- Words of class 2, format R, every field written out (R203, R205 to R210, R217). -/
def words2B : List (Nat × Instr) := [
  (0x45a848d159e2a5a5, .expc (sampleR 0x2a5a5)),
  (0x45e848d159e2a5a5, .lmul (sampleR 0x2a5a5)),
  (0x462848d159e2a5a5, .ldiv (sampleR 0x2a5a5)),
  (0x466848d159e2a5a5, .lpow (sampleR 0x2a5a5)),
  (0x46a848d159e2a5a5, .lroot (sampleR 0x2a5a5)),
  (0x46e848d159e2a5a5, .fex2 (sampleR 0x2a5a5)),
  (0x472848d159e2a5a5, .flg2 (sampleR 0x2a5a5)),
  (0x476848d159e2a5a5, .fsin (sampleR 0x2a5a5)),
  (0x47a848d159e2a5a5, .fcos (sampleR 0x2a5a5)),
  (0x47e848d159e2a5a5, .ftanh (sampleR 0x2a5a5)),
  (0x482848d159e2a5a5, .fsigm (sampleR 0x2a5a5))]

theorem test_decode_words2B : allDecode words2B = true := by decide +kernel

/-- Words of class 3, formats M and R, every field written out (R203, R205 to R210, R217). -/
def words3A : List (Nat × Instr) := [
  (0x602848d15aa5c36a, .ld sampleM),
  (0x606848d15aa5c36a, .lds sampleM),
  (0x60a848d15aa5c36a, .lda sampleM),
  (0x60e848d15aa5c36a, .ldff sampleM),
  (0x612848d15aa5c36a, .st sampleM),
  (0x616848d15aa5c36a, .sts sampleM),
  (0x61a848d15aa5c36a, .stl sampleM),
  (0x61e848d15aa5c36a, .ldf sampleM),
  (0x622848d15aa5c36a, .stf sampleM),
  (0x626848d159e2a5a5, .waitq (sampleR 0x2a5a5)),
  (0x62a848d159e2a5a5, .atom (sampleR 0x2a5a5)),
  (0x62e848d159e2a5a5, .red (sampleR 0x2a5a5)),
  (0x632848d159e2a5a5, .cas (sampleR 0x2a5a5)),
  (0x636848d159e2a5a5, .atadd2 (sampleR 0x2a5a5)),
  (0x63a848d159e2a5a5, .atomf (sampleR 0x2a5a5)),
  (0x63e848d159e2a5a5, .fence (sampleR 0x2a5a5)),
  (0x642848d15aa5c36a, .cflush sampleM),
  (0x646848d15aa5c36a, .cinv sampleM),
  (0x64a848d15aa5c36a, .pref sampleM),
  (0x64e848d159e2a5a5, .tkput (sampleR 0x2a5a5)),
  (0x652848d159e2a5a5, .tkget (sampleR 0x2a5a5)),
  (0x656848d159e2a5a5, .tktry (sampleR 0x2a5a5))]

theorem test_decode_words3A : allDecode words3A = true := by decide +kernel

/-- Words of class 3, formats M and R, every field written out (R203, R205 to R210, R217). -/
def words3B : List (Nat × Instr) := [
  (0x65a848d159e2a5a5, .tkset (sampleR 0x2a5a5)),
  (0x65e848d159e025a5, .barMeet (sampleR 0x25a5)),
  (0x65e848d159e065a5, .barPass (sampleR 0x65a5)),
  (0x65e848d159e0a5a5, .barSize (sampleR 0xa5a5))]

theorem test_decode_words3B : allDecode words3B = true := by decide +kernel

/-- Words of class 4, formats B and R, every field written out (R203, R205 to R210, R217). -/
def words4 : List (Nat × Instr) := [
  (0x802b7ab6fbbcd2c3, .bra sampleB),
  (0x806848d159e2a5a5, .brx (sampleR 0x2a5a5)),
  (0x80ab7ab6fbbcd2c3, .call sampleB),
  (0x80e848d159e2a5a5, .ret (sampleR 0x2a5a5)),
  (0x812848d159e2a5a5, .exit (sampleR 0x2a5a5)),
  (0x816b7ab6fbbcd2c3, .rcv sampleB),
  (0x81a848d159e2a5a5, .rsync (sampleR 0x2a5a5)),
  (0x81e848d159e2a5a5, .nop (sampleR 0x2a5a5)),
  (0x822848d159e2a5a5, .yield (sampleR 0x2a5a5)),
  (0x826848d159e2a5a5, .grow (sampleR 0x2a5a5)),
  (0x82a848d159e2a5a5, .shrink (sampleR 0x2a5a5)),
  (0x82e848d159e2a5a5, .jset (sampleR 0x2a5a5)),
  (0x832848d159e2a5a5, .jwait (sampleR 0x2a5a5)),
  (0x836848d159e2a5a5, .cstat (sampleR 0x2a5a5)),
  (0x83a848d159e2a5a5, .cdone (sampleR 0x2a5a5)),
  (0x83e848d159e2a5a5, .valid (sampleR 0x2a5a5)),
  (0x842848d159e2a5a5, .slack (sampleR 0x2a5a5)),
  (0x846848d159e2a5a5, .srd (sampleR 0x2a5a5)),
  (0x84a848d159e2a5a5, .rngc (sampleR 0x2a5a5))]

theorem test_decode_words4 : allDecode words4 = true := by decide +kernel

/-- Words of class 5, format E, every field written out (R203, R205 to R210, R217). -/
def words5A : List (Nat × Instr) := [
  (0xa02848d15aaf2ed5, .vadd sampleE),
  (0xa06848d15aaf2ed5, .vsub sampleE),
  (0xa0a848d15aaf2ed5, .vmul sampleE),
  (0xa0e848d15aaf2ed5, .vfma sampleE),
  (0xa12848d15aaf2ed5, .vmin sampleE),
  (0xa16848d15aaf2ed5, .vmax sampleE),
  (0xa1a848d15aaf2ed5, .vscl sampleE),
  (0xa1e848d15aaf2ed5, .vcvt sampleE),
  (0xa22848d15aaf2ed5, .vmov sampleE),
  (0xa26848d15aaf2ed5, .vfill sampleE),
  (0xa2a848d15aaf2ed5, .vcmp sampleE),
  (0xa2e848d15aaf2ed5, .vsel sampleE),
  (0xa32848d15aaf2ed5, .vsum sampleE),
  (0xa36848d15aaf2ed5, .vmaxr sampleE),
  (0xa3a848d15aaf2ed5, .vlogc sampleE),
  (0xa3e848d15aaf2ed5, .vexpc sampleE),
  (0xa42848d15aaf2ed5, .vex2 sampleE),
  (0xa46848d15aaf2ed5, .vsigm sampleE),
  (0xa4a848d15aaf2ed5, .vtanh sampleE),
  (0xa82848d15aaf2ed5, .cpin sampleE),
  (0xa86848d15aaf2ed5, .cpout sampleE),
  (0xa8a848d15aaf2ed5, .cpff sampleE)]

theorem test_decode_words5A : allDecode words5A = true := by decide +kernel

/-- Words of class 5, format E, every field written out (R203, R205 to R210, R217). -/
def words5B : List (Nat × Instr) := [
  (0xa8e848d15aaf2ed5, .cp2d sampleE),
  (0xa92848d15aaf2ed5, .cppl sampleE),
  (0xa96848d15aaf2ed5, .cpacc sampleE),
  (0xa9a848d15aaf2ed5, .cpaci sampleE),
  (0xa9e848d15aaf2ed5, .cppeer sampleE),
  (0xb02848d15aaf2ed5, .windef sampleE),
  (0xb06848d15aaf2ed5, .winrel sampleE),
  (0xb0a848d15aaf2ed5, .acres sampleE),
  (0xb0e848d15aaf2ed5, .acrel sampleE),
  (0xb12848d15aaf2ed5, .aczero sampleE),
  (0xb16848d15aaf2ed5, .mma sampleE),
  (0xb1a848d15aaf2ed5, .mscl sampleE),
  (0xb1e848d15aaf2ed5, .mchk sampleE)]

theorem test_decode_words5B : allDecode words5B = true := by decide +kernel

/-- Words of class 6, format S, every field written out (R203, R205 to R210, R217). -/
def words6A : List (Nat × Instr) := [
  (0xc02848d159e2a4a5, .trapHalt (sampleR 0x2a4a5)),
  (0xc02848d159e2a5a5, .trapSlice (sampleR 0x2a5a5)),
  (0xc02848d159e2a6a5, .trapWdog (sampleR 0x2a6a5)),
  (0xc06848d159e2a5a5, .rett (sampleR 0x2a5a5)),
  (0xc0a848d159e2a5a5, .sysrd (sampleR 0x2a5a5)),
  (0xc12848d159e2a5a5, .engrd (sampleR 0x2a5a5)),
  (0xc16848d159e2a5a5, .engwr (sampleR 0x2a5a5)),
  (0xc1a848d159e2a4a5, .ctxsv (sampleR 0x2a4a5)),
  (0xc1a848d159e2a5a5, .ctxsvTeam (sampleR 0x2a5a5)),
  (0xc1e848d159e2a4a5, .ctxld (sampleR 0x2a4a5)),
  (0xc1e848d159e2a5a5, .ctxldTeam (sampleR 0x2a5a5)),
  (0xc22848d159e2a4a5, .tlbiVa (sampleR 0x2a4a5)),
  (0xc22848d159e2a5a5, .tlbiAsid (sampleR 0x2a5a5)),
  (0xc22848d159e2a6a5, .tlbiAll (sampleR 0x2a6a5)),
  (0xc26848d159e2a5a5, .bkpt (sampleR 0x2a5a5)),
  (0xc2a848d159e2a5a5, .fwcall (sampleR 0x2a5a5)),
  (0xc2e848d159e2a5a5, .parkq (sampleR 0x2a5a5)),
  (0xc32848d159e2a4a5, .resumeRetry (sampleR 0x2a4a5)),
  (0xc32848d159e2a5a5, .resumeSkip (sampleR 0x2a5a5)),
  (0xc32848d159e2a6a5, .resumeAbort (sampleR 0x2a6a5)),
  (0xc32848d159e2a7a5, .resumeRun (sampleR 0x2a7a5)),
  (0xc36848d159e2a5a5, .idle (sampleR 0x2a5a5))]

theorem test_decode_words6A : allDecode words6A = true := by decide +kernel

/-- Words of class 6, format S, every field written out (R203, R205 to R210, R217). -/
def words6B : List (Nat × Instr) := [
  (0xc0e848d159e01aa5, .syswr (sampleR 0x1AA5)),
  (0xc0e848d159e003a5, .eventClear (sampleR 0x3A5)),
  (0xc0e848d159e105a5, .rodWindowWrite (sampleR 0x105A5))]

theorem test_decode_words6B : allDecode words6B = true := by decide +kernel

/-- Words of class 7, format R, every field written out (R203, R205 to R210, R217). -/
def words7 : List (Nat × Instr) := [
  (0xe02848d159e2a5a5, .dadd (sampleR 0x2a5a5)),
  (0xe06848d159e2a5a5, .dmul (sampleR 0x2a5a5)),
  (0xe0a848d159e2a5a5, .dfma (sampleR 0x2a5a5)),
  (0xe0e848d159e2a5a5, .ddiv (sampleR 0x2a5a5)),
  (0xe12848d159e2a5a5, .dsqrt (sampleR 0x2a5a5)),
  (0xe16848d159e2a5a5, .dcvt (sampleR 0x2a5a5))]

theorem test_decode_words7 : allDecode words7 = true := by decide +kernel

/-- The worked encodings of the spec. -/
theorem test_worked_encodings : allDecode [
    (0x000C14181C000000, .iadd { rw 5 6 7 0 with g := { neg := false, pred := 3 } }),
    (0x401C282C30000020, .fadd (rw 10 11 12 0 0x20)),
    (0x605C10200800404E, .lds { mw 4 8 0x40 2 3 with idx := 2, idxv := true }),
    (0xA8245058000008C0, .cpin { ew 20 22 0 with g := { neg := true, pred := 1 }, conv := 1, prod := 1, prodv := true }),
    (0x801FFFFFFFF40000, .bra (bw (-3))), (0x81DC000000000000, .nop (rw 0 0 0 0)),
    (0x001FE3E010000000, .iadd (rw 248 248 4 0)), (0x811C000000000000, .exit (rw 0 0 0 0)),
    (0x289C100012345678, .movi (iw 4 0 0x12345678)), (0x275C040802000064, .icmpImm (iw 1 2 0x2000064)),
    (0x825C000000002600, .grow (rw 0 0 0 0 0x2600)), (0x849C28501C000100, .rngc (rw 10 20 7 0 0x100)),
    (0xE09C081018200030, .dfma (rw 2 4 6 8 0x30)), (0x451C08040400C000, .cvt (rw 2 1 1 0 0xC000)),
    (0x61DC180800001060, .ldf (mw 6 2 16 3)), (0x629C0C2014001220, .atom (rw 3 8 5 0 0x1220)),
    (0x63DC00000000C300, .fence (rw 0 0 0 0 0xC300)), (0x641C30200000000C, .cflush (mw 12 8 0 0 3)),
    (0x651C1C0008000000, .tkget (rw 7 0 2 0)), (0x65DC000004000000, .barMeet (rw 0 0 1 0)),
    (0xA19C101820400940, .vscl { ew 4 6 8 with con0 := 1, conv := 1, prod := 2, prodv := true }),
    (0xA95C5430440008C0, .cpacc { ew 21 12 17 with conv := 1, prod := 1, prodv := true }),
    (0xB01C0C1018000000, .windef (ew 3 4 6)),
    (0xB15C2830080000E0, .mma { ew 10 12 2 with prod := 1, prodv := true, j := true }),
    (0xC21C001018000000, .tlbiVa (rw 0 4 6 0))] = true := by decide +kernel

/-! ## Well-formedness: one ill-formed term for each check -/

/-- A guard of p7 with neg, a reserved modifier bit, a reserved operand value, an odd pair, an unused field set, an upper bit of
an immediate, a reserved size, an unused index, a bit of B's modifier, a condition token without its flag, a producer
without its flag, a reserved command modifier, an unknown system register and a modifier the format forbids. -/
def illFormed : List Instr :=
  [.iadd { rw 2 4 6 0 with g := { neg := true, pred := 7 } }, .iadd (rw 2 4 6 0 0x20000), .iadd (rw 240 4 6 0),
   .iadd (rw 3 4 6 0 0x20), .iadd (rw 2 4 6 1), .iaddImm (iw 2 4 0x100000000), .ld (mw 2 4 0 5), .ld { mw 2 4 with idx := 3 },
   .bra { bw 1 with mod := 1 }, .vadd { ew 4 6 8 with con0 := 1 }, .vadd { ew 4 6 8 with prod := 1 },
   .vadd (ew 4 6 8 31), .sysrd (rw 2 0 0 0 0xFF00), .atom (rw 3 8 5 0 0x12A0)]

theorem test_wellFormed_refuses : (illFormed.map Instr.wellFormed) = List.replicate 14 false := by decide +kernel

/-! ## Lane instructions: results by hand from the rules -/

/-- R239, R240, R241: wrap, saturation, division. -/
theorem test_integer : ([
    (.iadd (rw 2 4 6 0), [(4, 0xFFFFFFFF), (6, 1)], [(2, 0)]),
    (.iadd (rw 2 4 6 0 0x80), [(4, 0x7FFFFFFF), (6, 1)], [(2, 0x7FFFFFFF)]),
    (.isub (rw 2 4 6 0 0xC0), [(4, 3), (6, 5)], [(2, 0)]),
    (.isub (rw 4 4 6 0 0x20), [(4, 0), (5, 1), (6, 1), (7, 0)], [(4, 0xFFFFFFFF), (5, 0)]),
    (.imul (rw 2 4 6 0), [(4, 0x10001), (6, 0x10000)], [(2, 0x10000)]),
    (.imulh (rw 2 4 6 0), [(4, 0xFFFFFFFF), (6, 2)], [(2, 0xFFFFFFFF)]),
    (.imulh (rw 2 4 6 0 0x40), [(4, 0xFFFFFFFF), (6, 2)], [(2, 1)]),
    (.imad (rw 2 4 6 8), [(4, 3), (6, 4), (8, 5)], [(2, 17)]),
    (.idiv (rw 2 4 6 0), [(4, 0xFFFFFFF9), (6, 2)], [(2, 0xFFFFFFFD)]),
    (.idiv (rw 2 4 6 0), [(4, 9), (6, 0)], [(2, 0xFFFFFFFF)]),
    (.irem (rw 2 4 6 0), [(4, 0xFFFFFFF9), (6, 2)], [(2, 0xFFFFFFFF)]),
    (.imin (rw 2 4 6 0), [(4, 0xFFFFFFFF), (6, 1)], [(2, 0xFFFFFFFF)]),
    (.imax (rw 2 4 6 0 0x40), [(4, 0xFFFFFFFF), (6, 1)], [(2, 0xFFFFFFFF)]),
    (.iabs (rw 2 4 0 0 0x80), [(4, 0x80000000)], [(2, 0x7FFFFFFF)]),
    (.ineg (rw 2 4 0 0), [(4, 5)], [(2, 0xFFFFFFFB)]),
    (.lea (rw 2 4 6 0 0x300), [(5, 1), (6, 0xFFFFFFFF)], [(2, 0xFFFFFFF8), (3, 0)])]).all gives = true := by
  decide +kernel

/-- R242: logic and shifts. -/
theorem test_logic : ([
    (.and (rw 2 4 6 0), [(4, 0xC), (6, 0xA)], [(2, 8)]), (.or (rw 2 4 6 0), [(4, 0xC), (6, 0xA)], [(2, 14)]),
    (.xor (rw 2 4 6 0), [(4, 0xC), (6, 0xA)], [(2, 6)]), (.andn (rw 2 4 6 0), [(4, 0xC), (6, 0xA)], [(2, 4)]),
    (.lmux (rw 2 4 6 8 0x8600), [(4, 0xCC), (6, 0xAA), (8, 0xF0)], [(2, 0x86)]),
    (.shl (rw 2 4 6 0), [(4, 1), (6, 33)], [(2, 2)]), (.shr (rw 2 4 6 0), [(4, 0x80000000), (6, 31)], [(2, 1)]),
    (.sar (rw 2 4 6 0), [(4, 0x80000000), (6, 31)], [(2, 0xFFFFFFFF)]),
    (.rol (rw 2 4 6 0), [(4, 0x80000001), (6, 1)], [(2, 3)]),
    (.shf (rw 2 4 6 8), [(4, 0x12345678), (6, 0x9ABCDEF0), (8, 8)], [(2, 0xF0123456)])]).all gives = true := by
  decide +kernel

/-- R243 to R245: fields, counts and permutations. -/
theorem test_fields : ([
    (.bfx (rw 2 4 6 0), [(4, 0xF00), (6, 0x408)], [(2, 0xFFFFFFFF)]),
    (.bfx (rw 2 4 6 0 0x40), [(4, 0xF00), (6, 0x408)], [(2, 15)]),
    (.bfi (rw 2 4 6 8), [(4, 0xAB), (6, 0x810), (8, 0x11111111)], [(2, 0x11AB1111)]),
    (.popc (rw 2 4 0 0), [(4, 0xFF)], [(2, 8)]), (.clz (rw 2 4 0 0), [(4, 1)], [(2, 31)]),
    (.ctz (rw 2 4 0 0 0x20), [], [(2, 64)]), (.brev (rw 2 4 0 0), [(4, 1)], [(2, 0x80000000)]),
    (.bperm (rw 2 4 6 8), [(4, 0x03020100), (6, 0x7531), (8, 0x07060504)], [(2, 0x07050301)]),
    (.mov (rw 2 4 0 0 0x20), [(4, 1), (5, 2)], [(2, 1), (3, 2)]),
    (.sel (rw 2 4 6 7), [(4, 1), (6, 2)], [(2, 1)]),
    (.pmovGet (rw 2 0 0 0), [(2, 9)], [(2, 0)])]).all gives = true := by decide +kernel

/-- R252: the immediate forms. -/
theorem test_immediates : ([
    (.iaddImm (iw 2 4 0xFFFFFFFF), [(4, 5)], [(2, 4)]), (.isubImm (iw 2 4 7), [(4, 5)], [(2, 0xFFFFFFFE)]),
    (.imulImm (iw 2 4 3), [(4, 5)], [(2, 15)]), (.iminImm (iw 2 4 3), [(4, 0x80000000)], [(2, 0x80000000)]),
    (.imaxImm (iw 2 4 3), [(4, 0x80000000)], [(2, 3)]),
    (.leaImm (iw 2 4 0xFFFFFFFF), [(4, 0), (5, 1)], [(2, 0xFFFFFFFF), (3, 0)]),
    (.andImm (iw 2 4 6), [(4, 12)], [(2, 4)]), (.orImm (iw 2 4 6), [(4, 12)], [(2, 14)]),
    (.xorImm (iw 2 4 6), [(4, 12)], [(2, 10)]), (.andnImm (iw 2 4 6), [(4, 12)], [(2, 8)]),
    (.shlImm (iw 2 4 4), [(4, 3)], [(2, 48)]), (.shrImm (iw 2 4 4), [(4, 0x80000000)], [(2, 0x08000000)]),
    (.sarImm (iw 2 4 4), [(4, 0x80000000)], [(2, 0xF8000000)]), (.rolImm (iw 2 4 4), [(4, 0x80000001)], [(2, 0x18)]),
    (.bfxImm (iw 2 4 0x408), [(4, 0xF00)], [(2, 0xFFFFFFFF)]),
    (.bpermImm (iw 2 4 0x0123), [(4, 0x44332211)], [(2, 0x11223344)]),
    (.movi (iw 2 0 0x12345678), [], [(2, 0x12345678)]),
    (.movhi (iw 2 0 0x80000000), [(2, 7), (3, 9)], [(2, 7), (3, 0x80000000)])]).all gives = true := by
  decide +kernel

/-- R246, R247, R251: compares, predicates and index registers. -/
theorem test_predicates :
    ([(.icmp (rw 1 4 6 0 0x200), [(4, 0xFFFFFFFF), (6, 1)], 1, true),
      (.icmp (rw 1 4 6 0 0x2200), [(4, 0xFFFFFFFF), (6, 1)], 1, false),
      (.icmpImm (iw 1 2 0x2000064), [(2, 99)], 1, true),
      (.plop (rw 2 7 7 7 0x8000), [], 2, true), (.pmovSet (rw 0 4 0 0 0xFF00), [(4, 8)], 3, true),
      (.pfx (rw 1 4 0 0), [(4, 0)], 1, false), (.pagg (rw 1 7 0 0 0x200), [], 1, true)]).all givesPred = true
    ∧ nextHas (exec (.xset (rw 1 4 6 0)) (solo (fill [(4, 0x10005), (6, 3)])))
        (fun t => (laneOf t rk 0).xreg 1 == 0x00030005) = true
    ∧ nextHas (exec (.xaddImm (iw 1 0 1)) (solo (fun x => x.setXreg 1 0x0003FFFF)))
        (fun t => (laneOf t rk 0).xreg 1 == 0x00030000) = true
    ∧ nextHas (exec (.xadd (rw 1 0 6 0)) (solo (fun x => (fill [(6, 0xFFFFFFFF)] x).setXreg 1 0x00030002)))
        (fun t => (laneOf t rk 0).xreg 1 == 0x00030001) = true := by decide +kernel

/-- R253 to R257: FP32 and packed halves; values from the encodings of R135. -/
theorem test_floats : ([
    (.fadd (rw 2 4 6 0), [(4, 0x3F800000), (6, 0x40000000)], [(2, 0x40400000)]),
    (.fsub (rw 2 4 6 0 0x20), [(4, 0x3F800000), (6, 0x3F800000)], [(2, 0x80000000)]),
    (.fmul (rw 2 4 6 0), [(4, 0x7F800000), (6, 0)], [(2, 0x7FC00000)]),
    (.ffma (rw 2 4 6 8), [(4, 0x3F800001), (6, 0x3F800001), (8, 0xBF800002)], [(2, 0x28800000)]),
    (.fmin (rw 2 4 6 0), [(4, 0x3F800000), (6, 0x7F800001)], [(2, 0x7FC00000)]),
    (.fmax (rw 2 4 6 0), [(4, 0x80000000), (6, 0)], [(2, 0)]),
    (.fminn (rw 2 4 6 0), [(4, 0x3F800000), (6, 0x7F800001)], [(2, 0x3F800000)]),
    (.fmaxn (rw 2 4 6 0), [(4, 0xBF800000), (6, 0x3F800000)], [(2, 0x3F800000)]),
    (.frnd (rw 2 4 0 0), [(4, 0x40200000)], [(2, 0x40000000)]),
    (.fdiv (rw 2 4 6 0), [(4, 0x3F800000), (6, 0x40400000)], [(2, 0x3EAAAAAB)]),
    (.fdiv (rw 2 4 6 0 0x10), [(4, 0x3F800000), (6, 0x40400000)], [(2, 0x3EAAAAAA)]),
    (.fsqrt (rw 2 4 0 0), [(4, 0x40000000)], [(2, 0x3FB504F3)]), (.frcp (rw 2 4 0 0), [(4, 0x40800000)], [(2, 0x3E800000)]),
    (.frsq (rw 2 4 0 0), [(4, 0x40800000)], [(2, 0x3F000000)]),
    (.fclass (rw 2 4 0 0), [(4, 0x80000001)], [(2, 4)]),
    (.hadd2 (rw 2 4 6 0), [(4, 0x3C004000), (6, 0x3C003C00)], [(2, 0x40004200)]),
    (.hmul2 (rw 2 4 6 0 0x200), [(4, 0x3F804000), (6, 0x40403F80)], [(2, 0x40404000)]),
    (.hfma2 (rw 2 4 6 8), [(4, 0x3C003C00), (6, 0x40004000), (8, 0x3C000000)], [(2, 0x42004000)]),
    (.hmin2 (rw 2 4 6 0), [(4, 0x3C004000), (6, 0x40003C00)], [(2, 0x3C003C00)]),
    (.hmax2 (rw 2 4 6 0), [(4, 0x3C004000), (6, 0x40003C00)], [(2, 0x40004000)])]).all gives = true
    ∧ ([(.fcmp (rw 1 4 6 0 0x800), [(4, 0xBF800000), (6, 0)], 1, true),
        (.fcmp (rw 1 4 6 0 0x1800), [(4, 0x7F800001), (6, 0)], 1, true)]).all givesPred = true := by
  decide +kernel

/-- R148, R149, R258 to R260, R268, R269: conversions, logarithms, functions, FP64. -/
theorem test_conversions : ([
    (.cvt (rw 2 1 1 0 0xC000), [(1, 0x43E80000)], [(2, 0x7E)]),
    (.cvt (rw 2 4 1 0 0x16000), [(4, 0xC0200000)], [(2, 0xFFFFFFFE)]),
    (.cvt (rw 2 4 11 0 0x2000), [(4, 3)], [(2, 0x40400000)]),
    (.logc (rw 2 4 0 0), [(4, 0x40000000)], [(2, 0x00800000)]), (.expc (rw 2 4 0 0), [(4, 0x00800000)], [(2, 0x40000000)]),
    (.fex2 (rw 2 4 0 0), [(4, 0x3F800000)], [(2, 0x40000000)]), (.flg2 (rw 2 4 0 0), [(4, 0x41000000)], [(2, 0x40400000)]),
    (.fsin (rw 2 4 0 0), [(4, 0x80000000)], [(2, 0x80000000)]), (.fcos (rw 2 4 0 0), [(4, 0)], [(2, 0x3F800000)]),
    (.ftanh (rw 2 4 0 0), [(4, 0x7F800000)], [(2, 0x3F800000)]), (.fsigm (rw 2 4 0 0), [(4, 0)], [(2, 0x3F000000)]),
    (.dadd (rw 2 4 6 0), [(5, 0x3FF00000), (7, 0x3FF00000)], [(2, 0), (3, 0x40000000)]),
    (.dmul (rw 2 4 6 0), [(5, 0x40000000), (7, 0x40000000)], [(3, 0x40100000)]),
    (.dfma (rw 2 4 6 8), [(5, 0x40000000), (7, 0x40000000), (9, 0xC0100000)], [(2, 0), (3, 0)]),
    (.ddiv (rw 2 4 6 0), [(5, 0x3FF00000), (7, 0x40080000)], [(2, 0x55555555), (3, 0x3FD55555)]),
    (.dsqrt (rw 2 4 0 0), [(5, 0x40000000)], [(2, 0x667F3BCD), (3, 0x3FF6A09E)]),
    (.dcvt (rw 2 4 1 0), [(4, 0x3F800000)], [(2, 0), (3, 0x3FF00000)])]).all gives = true := by decide +kernel

/-- R43, R219: words that fail a check park their item under the check's cause. -/
theorem test_causes :
    parksUnder (.iadd (rw 240 4 6 0)) [] = some 0x03 ∧ parksUnder (.sysrd (rw 2 0 0 0)) [] = some 0x1A
    ∧ parksUnder (.mov (rw 248 4 0 0)) [] = some 0x0D ∧ parksUnder (.brx (rw 0 4 0 0)) [(4, 2)] = some 0x06
    ∧ parksUnder (.iadd { rw 2 4 6 0 with g := { neg := true, pred := 7 } }) [] = some 0x01
    ∧ parksUnder (.ldf (mw 2 4 0)) [(4, 4096)] = some 0x0A ∧ parksUnder (.lds (mw 2 4)) [(4, 2)] = some 0x06
    ∧ parksUnder (.ld (mw 2 4)) [(5, 1)] = some 0x07 := by decide +kernel

/-! ## Witnesses: states that meet the hypotheses of the statements -/

/-- The hypotheses of `CompletesWith` and `CompletesRounding` for one item. -/
def ready (i : Instr) : Bool :=
  let r := soloRod id
  decide (IssuesFreely (inState r) rk 0 r i ∧ (planOf i).hasCarry = false ∧ OperandsHold r (r.subRod 0) i
    ∧ actsOn i (r.lane 0) = true ∧ r.lanes[(0 : Fin 32)].rsCount.toNat + 2 ≤ 2 ^ 20 - 1)

/-- IntegerArithmetic, IntegerDivision, OperandFaultsAndContextFaults (its lanes that go on). -/
theorem witness_IntegerArithmetic :
    ([.iadd (rw 2 4 6 0), .isub (rw 2 4 6 0), .imul (rw 2 4 6 0), .imulh (rw 2 4 6 0), .imad (rw 2 4 6 8),
      .imin (rw 2 4 6 0), .imax (rw 2 4 6 0), .iabs (rw 2 4 0 0), .ineg (rw 2 4 0 0),
      .lea (rw 2 4 6 0)]).all ready = true := by decide +kernel

theorem witness_IntegerDivision : ([.idiv (rw 2 4 6 0), .irem (rw 2 4 6 0 0x60)]).all ready = true := by
  decide +kernel

theorem witness_LogicAndShifts :
    ([.and (rw 2 4 6 0), .or (rw 2 4 6 0), .xor (rw 2 4 6 0), .andn (rw 2 4 6 0), .lmux (rw 2 4 6 8), .shl (rw 2 4 6 0),
      .shr (rw 2 4 6 0), .sar (rw 2 4 6 0), .rol (rw 2 4 6 0), .shf (rw 2 4 6 8)]).all ready = true := by
  decide +kernel

theorem witness_BitFields :
    ([.bfx (rw 2 4 6 0), .bfi (rw 2 4 6 8), .popc (rw 2 4 0 0), .clz (rw 2 4 0 0), .ctz (rw 2 4 0 0), .brev (rw 2 4 0 0),
      .bperm (rw 2 4 6 8)]).all ready = true := by decide +kernel

theorem witness_ComparesSelectsMoves :
    ([.icmp (rw 1 4 6 0), .plop (rw 1 2 3 4), .sel (rw 2 4 6 1), .pmovGet (rw 2 0 0 0), .pmovSet (rw 0 4 0 0 0xFF00),
      .mov (rw 2 4 0 0), .pfx (rw 1 4 0 0), .xset (rw 1 4 6 0), .xadd (rw 1 0 6 0)]).all ready = true := by
  decide +kernel

theorem witness_ImmediateForms :
    ([.iaddImm (iw 2 4 1), .isubImm (iw 2 4 1), .imulImm (iw 2 4 1), .iminImm (iw 2 4 1), .imaxImm (iw 2 4 1),
      .leaImm (iw 2 4 1), .andImm (iw 2 4 1), .orImm (iw 2 4 1), .xorImm (iw 2 4 1), .andnImm (iw 2 4 1),
      .shlImm (iw 2 4 1), .shrImm (iw 2 4 1), .sarImm (iw 2 4 1), .rolImm (iw 2 4 1), .bfxImm (iw 2 4 1),
      .bpermImm (iw 2 4 1), .icmpImm (iw 1 4 1), .movi (iw 2 0 1), .movhi (iw 2 0 1),
      .xaddImm (iw 1 0 1)]).all ready = true := by decide +kernel

/-- Also with rounding mode 5, where a lane counts its roundings. -/
theorem witness_FloatArithmetic :
    ([.fadd (rw 2 4 6 0), .fadd (rw 2 4 6 0 0x50), .fsub (rw 2 4 6 0), .fmul (rw 2 4 6 0), .ffma (rw 2 4 6 8),
      .fdiv (rw 2 4 6 0), .fsqrt (rw 2 4 0 0), .frcp (rw 2 4 0 0), .frsq (rw 2 4 0 0), .frnd (rw 2 4 0 0),
      .fmin (rw 2 4 6 0), .fmax (rw 2 4 6 0), .fminn (rw 2 4 6 0), .fmaxn (rw 2 4 6 0)]).all ready = true := by
  decide +kernel

theorem witness_FloatTests : ([.fcmp (rw 1 4 6 0), .fclass (rw 2 4 0 0)]).all ready = true := by decide +kernel

theorem witness_RoundingModes :
    fp32Fmt.round { mode := 0, d := 0, ftz := false } false 0x3000001 (-24) false = .value 0xC00000 (-22)
    ∧ fp32Fmt.decode false 0x3F800000 ≠ .nan := by decide +kernel

theorem witness_PackedHalves :
    ([.hadd2 (rw 2 4 6 0), .hmul2 (rw 2 4 6 0), .hfma2 (rw 2 4 6 8 0x250), .hmin2 (rw 2 4 6 0),
      .hmax2 (rw 2 4 6 0)]).all ready = true := by decide +kernel

theorem witness_Conversions :
    ([.cvt (rw 2 1 1 0 0xC000), .cvt (rw 2 1 11 0 0x18000), .dcvt (rw 2 4 1 0)]).all ready = true
    ∧ intFmt 11 = some (32, true) ∧ intFmt 12 = some (16, true) := by decide +kernel

theorem witness_LogDomainAndFunctions :
    ([.logc (rw 2 4 0 0), .expc (rw 2 4 0 0), .lmul (rw 2 4 6 0), .ldiv (rw 2 4 6 0), .lpow (rw 2 4 0 3),
      .lroot (rw 2 4 0 0), .fex2 (rw 2 4 0 0), .flg2 (rw 2 4 0 0), .fsin (rw 2 4 0 0), .fcos (rw 2 4 0 0),
      .ftanh (rw 2 4 0 0), .fsigm (rw 2 4 0 0 0x50)]).all ready = true := by decide +kernel

theorem witness_DoublePrecision :
    ([.dadd (rw 2 4 6 0), .dmul (rw 2 4 6 0), .dfma (rw 2 4 6 8), .ddiv (rw 2 4 6 0), .dsqrt (rw 2 4 0 0)]).all
      ready = true
    ∧ Config.isStream 0 = false ∧ (rw 2 4 6 0).g.legal = true := by decide +kernel

/-- The slot that CSTAT names is declared. -/
def declaredState (r : Rod) : State :=
  let l := { placedLaunch with record := { placedLaunch.record with carry := (Vector.replicate 8 (0, 0)).set 0 (1, 7) } }
  { inState r with hub := { (inState r).hub with launches := [l] } }

theorem witness_SpecialReads :
    ([.srd (rw 2 0 0 0), .srd (rw 2 1 0 0), .slack (rw 2 0 0 0), .rngc (rw 2 4 6 0)]).all ready = true
    ∧ IssuesFreely (declaredState (soloRod id)) rk 0 (soloRod id) (.cstat (rw 2 0 0 0))
    ∧ OperandsHold (soloRod id) ((soloRod id).subRod 0) (.cstat (rw 2 0 0 0)) := by decide +kernel

/-- The word issues freely from lane 0 of the rod. -/
def freely (r : Rod) (i : Instr) : Bool := decide (IssuesFreely (inState r) rk 0 r i)

/-- The answer is this next state. -/
def isNext (o : Host.Outcome State Fault Refusal) (t : State) : Bool := nextHas o (fun u => decide (u = t))

def withPred (n : Nat) (x : Lane) : Lane := x.setPred n true

/-- Two items of one sub-rod, predicate p1 true in lane 0 alone. -/
def splitRod : Rod := pairRod (withPred 1) id
def onP1 : Guard := { neg := false, pred := 1 }

theorem witness_SubRodsPartByOutcome :
    let r := pairRod id (fun x => { x with pc := 8 })
    (∀ n : Fin 32, (3#32).getLsbD n.val = true → r.lanes[n].group = 0)
    ∧ (∀ n : Fin 32, r.lanes[n].group < r.nextGroup)
    ∧ (r.regroup 3).lanes[(1 : Fin 32)].group ≠ 0
    ∧ (r.regroup 3).lanes[(0 : Fin 32)].group ≠ (r.regroup 3).lanes[(1 : Fin 32)].group := by decide +kernel

/-- The taken lane goes to the target, the other to the next word; the misaligned target parks its lane. -/
theorem witness_Branches :
    let bra : BWord := { bw (-3) with g := onP1 }
    let call : BWord := { bw 4 10 with g := onP1 }
    freely splitRod (.bra bra)
    ∧ nextHas (exec (.bra bra) (inState splitRod)) (fun t => (laneOf t rk 0).pc == BitVec.ofNat 64 (placedAt - 16)
        && (laneOf t rk 1).pc == BitVec.ofNat 64 (placedAt + 8)
        && (laneOf t rk 0).group != (laneOf t rk 1).group) = true
    ∧ freely splitRod (.call call) ∧ splitRod.holds 10 = true ∧ splitRod.holds 11 = true
    ∧ nextHas (exec (.call call) (inState splitRod)) (fun t =>
        (laneOf t rk 0).pair 10 == BitVec.ofNat 64 (placedAt + 8)
          && (laneOf t rk 0).pc == BitVec.ofNat 64 (placedAt + 40)) = true := by decide +kernel

theorem witness_Branches_computed :
    let brx (v : Nat) : Rod := soloRod (fill [(4, v)])
    (∀ i ∈ [Instr.brx (rw 0 4 0 0), .ret (rw 0 4 0 0)], freely (brx 0x200) i ∧ freely (brx 0x202) i
        ∧ (brx 0x200).holds 4 = true ∧ (brx 0x200).holds 5 = true
        ∧ (brx 0x202).subRod 0 = 1#32 <<< 0 ∧ (((brx 0x202).lane 0).pair 4).toNat % 8 ≠ 0
        ∧ nextHas (exec i (inState (brx 0x200))) (fun t => (laneOf t rk 0).pc == 0x200) = true) := by decide +kernel

/-- A waiting lane whose mark no other live lane holds, and one that another lane shares. -/
def syncRod : Rod :=
  let e : Mark := { addr := BitVec.ofNat 64 placedAt, seq := 3 }
  pairRod (fun x => { x with st := .syncWait, marks := [e] }) (fun x => { x with st := .syncWait, marks := [e], group := 1 })

theorem witness_Reconvergence :
    freely splitRod (.rcv { bw 5 with g := onP1 })
    ∧ freely (soloRod (fun x => { x with marks := [{ addr := x.pc, seq := 0 }] })) (.rsync (rw 0 0 0 0))
    ∧ (inState syncRod).rod? rk = some syncRod ∧ syncRod.lanes[(0 : Fin 32)].st = .syncWait
    ∧ syncRod.lanes[(0 : Fin 32)].marks = [{ addr := BitVec.ofNat 64 placedAt, seq := 3 }]
    ∧ (∀ n : Fin 32, syncRod.lanes[n].live = true → { addr := BitVec.ofNat 64 placedAt, seq := 3 } ∈ syncRod.lanes[n].marks →
        syncRod.lanes[n].st = .syncWait
          ∧ syncRod.lanes[n].marks.head? = some { addr := BitVec.ofNat 64 placedAt, seq := 3 })
    ∧ nextHas (exec (.syncRelease rk 0) (inState syncRod)) (fun t =>
        [0, 1].all (fun n => (laneOf t rk n).st == .runnable && (laneOf t rk n).marks == []
          && (laneOf t rk n).pc == BitVec.ofNat 64 (placedAt + 8)
          && (laneOf t rk n).group == (laneOf t rk 0).group)) = true := by decide +kernel

/-- The last item of a rod, and one of two. -/
theorem witness_ItemsExit :
    let w := rw 0 0 0 0
    let v : RWord := { rw 0 0 0 0 with g := onP1 }
    freely (soloRod id) (.exit w) ∧ (soloRod id).liveMask &&& ~~~(1#32) = 0 ∧ freely splitRod (.exit v)
    ∧ splitRod.subRod 0 &&& splitRod.maskWhere (fun x => x.guard onP1) = 1 ∧ splitRod.liveMask &&& ~~~(1#32) ≠ 0
    ∧ ((inState (soloRod id)).launch? 1).isSome = true ∧ (inState (soloRod id)).team? tk = some placedTeam
    ∧ nextHas (exec (.exit w) (inState (soloRod id))) (fun t => t.rod? rk == none
        && ((t.team? tk).map (fun x => x.retired)) == some 1) = true
    ∧ nextHas (exec (.exit v) (inState splitRod)) (fun t => (laneOf t rk 0).st == .retired
        && (laneOf t rk 1).st == .runnable
        && (t.launch? 1).map (fun l => l.outcomes) == some [(0, .normal)]) = true := by decide +kernel

theorem witness_PlainControl :
    let r := soloRod (fun x => { fill [(4, 1)] x with regs := regsOf [(4, 1), (100, 5), (200, 6)] })
    freely r (.nop (rw 0 0 0 0)) ∧ freely r (.yield (rw 0 0 0 0)) ∧ freely r (.grow (rw 0 0 0 0 0x2600))
    ∧ (inState r).blocksFree fr r.fast r.slow 8 7 = true ∧ ((inState r).frame fr).olderWaits (ageKey r) = false
    ∧ 1 * 8 ≤ Config.blocksOf fr.die ∧ ((inState r).recordOfLaunch 1).teamRods = 1
    ∧ nextHas (exec (.grow (rw 0 0 0 0 0x2600)) (inState r)) (fun t => (t.rod? rk).map (fun q => (q.fast, q.slow)) == some (8, 7))
      = true := by decide +kernel

theorem witness_PlainControl_joins :
    let r := soloRod (fun x => { fill [(4, 1)] x with regs := regsOf [(4, 1), (100, 5), (200, 6)] })
    let ahead : Rod := { r with sigs := r.sigs.set 3 1 }
    freely r (.shrink (rw 0 0 0 0 0x2600)) ∧ freely r (.jset (rw 3 4 0 0))
    ∧ (placedTeam.join 3).pending = [] ∧ freely r (.jwait (rw 3 0 0 0)) ∧ freely ahead (.jwait (rw 3 0 0 0))
    ∧ (placedTeam.join 3).base < ahead.sigs.toList.getD 3 0
    ∧ r.subRod 0 &&& r.maskWhere (fun x => x.guard always) ≠ 0
    ∧ nextHas (exec (.shrink (rw 0 0 0 0 0x2600)) (inState r)) (fun t =>
        (t.rod? rk).map (fun q => (q.fast, q.slow, (q.lane 0).reg 4, (q.lane 0).reg 100, (q.lane 0).reg 200))
          == some (6, 2, 1, 0, 0)) = true
    ∧ nextHas (exec (.jset (rw 3 4 0 0)) (inState r)) (fun t => (t.team? tk).map (fun x => (x.join 3).mask) == some 1) = true
    ∧ nextHas (exec (.jwait (rw 3 0 0 0)) (inState ahead)) (fun t => (laneOf t rk 0).wait == .jwait 3) = true := by
  decide +kernel

/-- Slot c0 is declared with distance 1; item 4 has published these generations. -/
def carryState (r : Rod) (gens : List Word) (closed : Bool) : State :=
  { declaredState r with
    carry := tableSet { launch := 1, item := 4, slot := 0 } { gens := gens, last := gens.getLast?, closed := closed } [] }

def item5 (f : Lane → Lane) : Rod := soloRod (fun x => f { x with item := 5 })
def item4 (f : Lane → Lane) : Rod := soloRod (fun x => f { x with item := 4 })

theorem witness_CarryAndDeadlineWords :
    let r := soloRod id
    let p := soloRod (fun x => { x with phase := true, preds := 2 })
    let rd := item5 (fun x => { x with st := .carryWait, wait := .carryRead [0] })
    let wr := item4 (fun x => { x with st := .carryWait, wait := .carryWrite 0 })
    IssuesFreely (declaredState r) rk 0 r (.cdone (rw 0 0 0 0)) ∧ freely p (.valid (rw 0 1 0 0))
    ∧ nextHas (exec (.valid (rw 0 1 0 0)) (inState p)) (fun t => (laneOf t rk 0).valid) = true
    ∧ (carryState rd [9] false).rod? rk = some rd ∧ (rd.lane 0).st = .carryWait
    ∧ (carryRead (carryState rd [9] false) (carryState rd [9] false).carry 1 (rd.lane 0) 0).isSome = true
    ∧ (carryState wr [9] false).rod? rk = some wr
    ∧ publishKind (carryState wr [9] false) (carryState wr [9] false).carry 1 (wr.lane 0) 0 ≠ .wait
    ∧ isNext (exec (.carryWaitRelease rk 0) (carryState rd [9] false)) ((carryState rd [9] false).setRod rk
        (rd.mapLanes 1 (fun _ x => { x with st := .runnable, wait := .none }))) = true := by decide +kernel

theorem witness_CarryReads :
    let r := item5 id
    let i : Instr := .mov (rw 2 248 0 0)
    (∀ s ∈ [carryState r [9, 8] false, carryState r [] false, carryState r [] true], IssuesFreely s rk 0 r i)
    ∧ r.subRod 0 = 1#32 <<< 0 ∧ r.holds 2 = true
    ∧ (carryRead (carryState r [9, 8] false) (carryState r [9, 8] false).carry 1 (r.lane 0) 0).isSome = true
    ∧ carryRead (carryState r [] false) (carryState r [] false).carry 1 (r.lane 0) 0 = none
    ∧ nextHas (exec i (carryState r [9, 8] false)) (fun t => (laneOf t rk 0).reg 2 == 9
        && (carryBuf t.carry 1 4 0).gens == [8]) = true
    ∧ nextHas (exec i (carryState r [] true)) (fun t => (laneOf t rk 0).reg 2 == 7
        && (laneOf t rk 0).carryBits == 1) = true
    ∧ nextHas (exec i (carryState r [] false)) (fun t => (laneOf t rk 0).st == .carryWait
        && (laneOf t rk 0).pc == BitVec.ofNat 64 placedAt) = true := by decide +kernel

theorem witness_CarryWrites :
    let r := item4 (fill [(4, 77)])
    let i : Instr := .mov (rw 248 4 0 0)
    let full := carryState r [1, 2, 3, 4] false
    (∀ s ∈ [carryState r [9] false, full], IssuesFreely s rk 0 r i) ∧ r.holds 4 = true ∧ (r.lane 0).phase = false
    ∧ publishKind (carryState r [9] false) (carryState r [9] false).carry 1 (r.lane 0) 0 = .store
    ∧ publishKind full full.carry 1 (r.lane 0) 0 = .wait
    ∧ nextHas (exec i (carryState r [9] false)) (fun t => (carryBuf t.carry 1 4 0).gens == [9, 77]) = true
    ∧ nextHas (exec i full) (fun t => (laneOf t rk 0).wait == .carryWrite 0) = true := by decide +kernel

/-- Two lanes exchange, count and reduce. -/
theorem witness_CrossLane :
    let r := pairRod (fill [(4, 5), (6, 1)]) (fill [(4, 7), (6, 0)])
    (∀ i ∈ [Instr.lxch (rw 2 4 6 0), .pagg (rw 2 7 0 0), .rred (rw 2 4 0 0)],
      freely r i ∧ (planOf i).hasCarry = false ∧ OperandsHold r (r.subRod 0) i)
    ∧ nextHas (exec (.lxch (rw 2 4 6 0)) (inState r)) (fun t =>
        (laneOf t rk 0).reg 2 == 7 && (laneOf t rk 1).reg 2 == 5) = true
    ∧ nextHas (exec (.pagg (rw 2 7 0 0)) (inState r)) (fun t => (laneOf t rk 1).reg 2 == 3) = true
    ∧ nextHas (exec (.rred (rw 2 4 0 0)) (inState r)) (fun t => (laneOf t rk 1).reg 2 == 12) = true := by decide +kernel

/-! ### Memory -/

/-- The state after the pages of an access have been looked up, so that the hub holds them as handed out. -/
def warmed (s : State) (r : Rod) (need : Need) (va n : Nat) : State :=
  (s.pages fr (s.asidOf rk r) need (pageStarts va n)).2

def heldPages (s : State) (r : Rod) (need : Need) (va n : Nat) : List Xlat :=
  match (s.pages fr (s.asidOf rk r) need (pageStarts va n)).1 with
  | .ok l => l
  | .error _ => []

/-- The word issues for the lone item, and its pages are held. -/
def reaches (r : Rod) (i : Instr) (need : Need) (va n : Nat) : Bool :=
  let s := warmed (inState r) r need va n
  decide (IssuesAlone s rk 0 r i ∧ Translated s rk r need va n (heldPages s r need va n)) && heldPages s r need va n != []

/-- Register pair g4:g5 holds 0x2000, g8 a value. -/
def atPage : Rod := soloRod (fill [(4, 0x2000), (8, 0xA1B2C3D4)])
def twoPages : Rod :=
  pairRod (fun x => withPred 1 (fill [(4, 0x2000)] x)) (fun x => withPred 1 (fill [(4, 0x2000), (5, 1)] x))

theorem witness_LoadsTakeEntries :
    let g : MWord := { mw 8 4 with g := onP1 }
    let p := soloRod (fun x => withPred 1 (fill [(4, 0x2000)] x))
    let s := warmed (warmed (inState twoPages) twoPages .read 0x2000 4) twoPages .read 0x100002000 4
    (∀ i ∈ [Instr.ld (mw 8 4), .lds (mw 8 4), .lda (mw 8 4)], reaches atPage i .read 0x2000 4 = true)
    ∧ reaches p (.ldff g) .read 0x2000 4 = true ∧ mwHeld (mw 8 4) atPage .pair ∧ mwHeld g twoPages .pair
    ∧ mwAddress (mw 8 4) (atPage.lane 0) = 0x2000
    ∧ IssuesFreely s rk 0 twoPages (.ldff g) ∧ twoPages.subRod 0 = (1#32 <<< 0) ||| (1#32 <<< 1)
    ∧ mwAddress g (twoPages.lane 1) = 0x100002000 := by decide +kernel

theorem sameState (s t : State)
    (h : (decide (s.mem = t.mem) && decide (s.rods = t.rods) && decide (s.teams = t.teams) && decide (s.frames = t.frames)
      && decide (s.dies = t.dies) && decide (s.carry = t.carry) && decide (s.hub = t.hub) && decide (s.cur = t.cur)
      && decide (s.agenda = t.agenda) && decide (s.mid = t.mid) && decide (s.free = t.free)) = true) : s = t := by
  cases s; cases t; simp_all

theorem witness_LoadsTakeEntries_pages :
    let s := warmed (warmed (inState twoPages) twoPages .read 0x2000 4) twoPages .read 0x100002000 4
    (s.pages fr (s.asidOf rk twoPages) .read (pageStarts 0x2000 4)).2 = s := sameState _ _ (by decide +kernel)

theorem witness_LoadsTakeEntries_noPage :
    let s := warmed (warmed (inState twoPages) twoPages .read 0x2000 4) twoPages .read 0x100002000 4
    (s.pages fr (s.asidOf rk twoPages) .read (pageStarts 0x100002000 4)).2 = s := sameState _ _ (by decide +kernel)

theorem witness_LoadsTakeEntries_failing :
    let g : MWord := { mw 8 4 with g := onP1 }
    let s := warmed (warmed (inState twoPages) twoPages .read 0x2000 4) twoPages .read 0x100002000 4
    (match (s.pages fr (s.asidOf rk twoPages) .read (pageStarts 0x100002000 4)).1 with
      | .error c => decide (c = .notPresent)
      | _ => false) = true
    ∧ nextHas (exec (.ldff g) s) (fun t => (laneOf t rk 0).loads.length == 1 && (laneOf t rk 1).loads.length == 0
        && (laneOf t rk 0).pred 1 && !(laneOf t rk 1).pred 1 && (laneOf t rk 1).st == .runnable) = true
    ∧ decide (Issues (inState atPage) rk 0 atPage (.waitq (rw 0 0 0 0))) = true := by decide +kernel

/-- A load under way: its entry, with a translation that lasts. -/
def loadEntry (cut : Bool) : LoadEntry :=
  { addr := 0x2000, kind := .ld, size := 4, scope := 0, dst := 8, ordinal := 0, value := 0, cut := cut
    xlats := [{ asid := 1, part := 0, glob := false, va := 0, pa := 0, bytes := 2 ^ 30, r := true, w := true, x := true,
                ord := 0, expiry := 0 }] }

def loading (cut : Bool) : Rod := soloRod (fun x => { x with loads := [loadEntry cut] })

theorem witness_LoadReturns :
    let r := loading false
    let e := loadEntry false
    let s := inState r
    s.rod? rk = some r ∧ r.lanes[(0 : Fin 32)].loads[0]? = some e ∧ mayReturn r.lanes[(0 : Fin 32)].loads 0 = true
    ∧ e.xlats ≠ [] ∧ (∀ y ∈ e.xlats, s.leaseLives fr e.scope 0x2000 4 y = true) ∧ (s.performLoad rk r e).2.rods = s.rods
    ∧ (match (s.performLoad rk r e).1 with | .value v => v == 0 | _ => false) = true
    ∧ (State.readPieces fr e.scope (piecesOf e.xlats 0x2000 4) s).1 = none
    ∧ (match (s.performLoad rk r (loadEntry true)).1 with | .mark c => c == .linkDown | _ => false) = true
    ∧ nextHas (exec (.loadReturn rk 0 0) (inState (loading true))) (fun t =>
        ((laneOf t rk 0).marked.map (fun m => (m.reg, m.cause))) == [(8, .linkDown)]) = true := by decide +kernel

/-- ST, STS and STL meet their premises, and the bytes a store leaves are what a load of the frame finds (R275, R277). -/
theorem witness_GlobalStores :
    (∀ i ∈ [Instr.st (mw 8 4), .sts (mw 8 4), .stl (mw 8 4)], reaches atPage i .write 0x2000 4 = true)
    ∧ mwHeld (mw 8 4) atPage .pair ∧ (atPage.lane 0).deferred = []
    ∧ (let s := warmed (inState atPage) atPage .write 0x2000 4
       let xs := heldPages s atPage .write 0x2000 4
       (State.writePieces fr 0 true (piecesOf xs 0x2000 4) (leBytes 4 (mwStored (mw 8 4) (atPage.lane 0))) s).1 = none)
    ∧ nextHas (exec (.st (mw 8 4)) (inState atPage)) (fun t =>
        (t.readSeg fr .frame false 128 0 4).2.1 == [0xD4, 0xC3, 0xB2, 0xA1]) = true := by decide +kernel

theorem witness_StoresStayInPlace :
    let m : FrameId := { die := 0, frame := 0 }
    let s := inState atPage
    Config.isStream m.die = false ∧ s.storePlace m.die 128 .frame true = .frame ∧ s.storePlace fr.die 128 .frame true = .frame
    ∧ s.dieSector fr.die 128 false = none ∧ (∀ q ∈ s.framesOfDie fr.die, s.frameSector q 128 false = none)
    ∧ s.poisoned 128 = false ∧ (s.dir 128).st = .dI ∧ s.mem.wf = true := by decide +kernel

theorem witness_FrameStoreAccess :
    let r := soloRod (fill [(4, 8), (8, 0xA1B2C3D4)])
    let s := inState r
    (∀ i ∈ [Instr.ldf (mw 8 4 4), .stf (mw 8 4 4), .atomf (rw 2 4 8 0 0x1000)], freely r i = true
        ∧ decide (IssuesAlone s rk 0 r i) = true)
    ∧ s.team? (teamKeyOf rk r) = some placedTeam ∧ mwHeld (mw 8 4 4) r .reg ∧ mwOffset (mw 8 4 4) (r.lane 0) = 12
    ∧ 12 + mwBytes (mw 8 4 4) ≤ placedTeam.fsBytes
    ∧ (laneOperands r (r.lane 0) (planOf (.atomf (rw 2 4 8 0 0x1000)))).isOk = true
    ∧ nextHas (exec (.stf (mw 8 4 4)) s) (fun t => (t.team? tk).map (fun x => cellsRead x.fs 12 4)
        == some [0xD4, 0xC3, 0xB2, 0xA1]) = true
    ∧ nextHas (exec (.atomf (rw 2 4 8 0 0x1000)) s) (fun t => (laneOf t rk 0).reg 2 == 0
        && (t.team? tk).map (fun x => cellsRead x.fs 8 4) == some [0xD4, 0xC3, 0xB2, 0xA1]) = true := by decide +kernel

theorem witness_AtomicUpdates :
    let s := warmed (inState atPage) atPage .both 0x2000 4
    (∀ i ∈ [Instr.atom (rw 2 4 8 0 0x1200), .cas (rw 2 4 8 6 0x1200), .atadd2 (rw 2 4 8 0 0x1200)],
      reaches atPage i .both 0x2000 4 = true ∧ (laneOperands atPage (atPage.lane 0) (planOf i)).isOk = true)
    ∧ reaches atPage (.red (rw 0 4 8 0 0x1200)) .write 0x2000 4 = true
    ∧ (piecesOf (heldPages s atPage .both 0x2000 4) 0x2000 4).length = 1
    ∧ s.dieSector fr.die 128 false = none ∧ s.poisoned 128 = false ∧ (s.dir 128).st = .dI ∧ s.mem.wf = true
    ∧ nextHas (exec (.red (rw 0 4 8 0 0x1200)) (inState atPage)) (fun t => (laneOf t rk 0).loads == []) = true := by
  decide +kernel

theorem witness_FencesAndMaintenance :
    let r := soloRod (fun x => { fill [(4, 0x2000), (8, 64)] x with fence := some { order := 2, scope := 2, on := true } })
    let q := soloRod (fill [(4, 0x2000), (8, 64)])
    let z := soloRod (fill [(4, 0x2000)])
    freely q (.fence (rw 0 0 0 0 0xC300)) = true
    ∧ (inState r).rod? rk = some r ∧ r.lanes[(0 : Fin 32)].fence = some { order := 2, scope := 2, on := true }
    ∧ r.lanes[(0 : Fin 32)].st = .runnable ∧ r.lanes[(0 : Fin 32)].loads = []
    ∧ (∀ i ∈ [Instr.cflush (mw 8 4 0 0 2), .cinv (mw 8 4 0 0 2)], reaches q i .read 0x2000 64 = true
        ∧ decide (IssuesAlone (inState z) rk 0 z i) = true)
    ∧ q.holds 8 = true ∧ (∀ g ∈ FieldUse.pair.regs (mw 8 4 0 0 2).base ++ (idxUse (mw 8 4 0 0 2)).regs 0, q.holds g = true)
    ∧ decide (IssuesAlone (inState q) rk 0 q (.pref (mw 0 4 0 0))) = true
    ∧ nextHas (exec (.fenceComplete rk 0) (inState r)) (fun t => (laneOf t rk 0).fence == none
        && (laneOf t rk 0).pc == BitVec.ofNat 64 (placedAt + 8)) = true := by decide +kernel

/-! ### Tokens and barriers -/

theorem witness_TokenQueues :
    let r := soloRod (fill [(4, 77)])
    let s := inState r
    let full := s.setTeam tk (placedTeam.setQueue 3 { tokens := [9], reserved := 0, producer := 1, consumer := 1 })
    (∀ i ∈ [Instr.tkput (rw 0 4 3 0), .tkget (rw 2 0 3 0), .tktry (rw 2 0 3 1), .tkset (rw 0 0 3 0 0x8800)],
      freely r i = true ∧ decide (IssuesFreely full rk 0 r i) = true
        ∧ (laneOperands r (r.lane 0) (planOf i)).isOk = true)
    ∧ s.team? tk = some placedTeam ∧ (placedTeam.queue 3).producer ≤ 1 ∧ (placedTeam.queue 3).consumer ≤ 1
    ∧ s.laneTokens tk 3 = 0 ∧ full.laneTokens tk 3 ≠ 0
    ∧ nextHas (exec (.tkput (rw 0 4 3 0)) s) (fun t => (t.team? tk).map (fun x => (x.queue 3).tokens) == some [77]) = true
    ∧ nextHas (exec (.tkget (rw 2 0 3 0)) full) (fun t => (laneOf t rk 0).reg 2 == 9) = true
    ∧ nextHas (exec (.tkget (rw 2 0 3 0)) s) (fun t => (laneOf t rk 0).wait == .tkget 3 2) = true
    ∧ nextHas (exec (.tktry (rw 2 0 3 1)) full) (fun t => (laneOf t rk 0).reg 2 == 9 && (laneOf t rk 0).pred 1) = true := by
  decide +kernel

theorem witness_FrameBarriers :
    let r := soloRod (fill [(4, 1)])
    let s := (inState r).setTeam tk (placedTeam.setBarrier 1 { expected := 2, arrivals := 0, gen := false, gone := 0 })
    let one := inState r
    (∀ i ∈ [Instr.barMeet (rw 0 0 1 0), .barPass (rw 0 0 1 0 0x4000), .barSize (rw 0 4 1 0 0x8000)],
      decide (IssuesFreely s rk 0 r i) = true ∧ freely r i = true)
    ∧ r.arrived.getLsbD 1 = false ∧ r.holds 4 = true ∧ (one.recordOfLaunch 1).teamRods = 1
    ∧ (placedTeam.barrier 1).expected = 1 ∧ (placedTeam.barrier 1).arrivals = 0
    ∧ nextHas (exec (.barMeet (rw 0 0 1 0)) s) (fun t => (laneOf t rk 0).wait == .barMeet 1 false) = true
    ∧ nextHas (exec (.barPass (rw 0 0 1 0 0x4000)) one) (fun t => (t.team? tk).map (fun x => x.barrier 1)
        == some { expected := 1, arrivals := 0, gen := true, gone := 0 }) = true
    ∧ nextHas (exec (.barSize (rw 0 4 1 0 0x8000)) s) (fun t => (t.team? tk).map (fun x => (x.barrier 1).expected)
        == some 1) = true := by decide +kernel

/-! ### Words, steps and faults -/

theorem witness_UnassignedWords :
    decode 0x003C000000000000 = .error .undefinedInstruction     -- pred 7 with neg 1
    ∧ decode 0x089C000000000000 = .error .undefinedInstruction   -- class 0, index 0x22
    ∧ decode 0x289C000000000000 = .ok (.movi (iw 0 0 0))         -- class 1, index 0x22
    ∧ decode 0xE19C000000000000 = .error .extension              -- class 7, index 0x06
    ∧ decode 0x65DC00000000C000 = .error .reservedOperation      -- BAR, operation 3
    ∧ decode 0xC21C000000000300 = .error .reservedOperation      -- TLBI, operation 3
    ∧ decode 0xA4DC000000000000 = .error .undefinedInstruction := by decide +kernel

/-- A well-formed instruction of each format and its word. -/
theorem witness_DecodeOfEncode :
    ([Instr.iadd (rw 2 4 6 0), .movi (iw 2 0 1), .ld (mw 8 4), .bra (bw (-1)), .vadd (ew 4 6 8), .tlbiAll (rw 0 0 0 0 0x200),
      .dadd (rw 2 4 6 0)]).all (fun i => i.wellFormed && (encode i).isSome
        && (encode i).map (fun w => (decode w).toOption) == some (some i)) = true := by decide +kernel

/-- From reset with a word placed, a step keeps the memory canonical and runs the word. -/
theorem witness_StepKeepsMemoryCanonical :
    (State.reset.withFetchWord 64 0x289C100012345678).mem.wf = true
    ∧ nextHas (step (State.reset.withFetchWord 64 0x289C100012345678)) (fun t => t.mem.wf
        && (laneOf t rk 0).reg 4 == 0x12345678 && (laneOf t rk 31).reg 4 == 0x12345678
        && (laneOf t rk 0).pc == BitVec.ofNat 64 (placedAt + 8)) = true
    ∧ nextHas (step (State.reset.withFetchWord 64 0xC09C100000000700)) (fun t =>
        (laneOf t (fwKey fr) 0).reg 4 == 4 && (laneOf t (fwKey fr) 0).pc == BitVec.ofNat 64 (placedAt + 8)) = true := by
  decide +kernel

theorem witness_StepRunsDecodedWord :
    let s : State := { (State.reset.placeProgram 0x289C100012345678) with agenda := [] }
    let s1 := (s.boundaries fr).markIssued 0 { key := rk, lane := 0 }
    let e := { s with agenda := [.event (.hubDoorbell fr)] }
    let f := (State.reset.placeProgram 0xC09C100000000700)
    (s.boundaries fr).select fr 0 = some { key := rk, lane := 0 } ∧ s.hub.powered = true
    ∧ s1.rod? rk ≠ none
    ∧ ((s1.rod? rk).map (fun r => (s1.fetch rk r (r.lane 0).pc).1)) = some (.instr (.movi (iw 4 0 0x12345678)))
    ∧ (match (s1.page { p := fr, asid := 1, va := placedAt } .execute).1 with | .ok x => x.x | _ => false) = true
    ∧ breakpointAt (s1.frame fr) rk (BitVec.ofNat 64 placedAt) = false
    ∧ e.agenda.length = 1 ∧ encode (.hubDoorbell fr) = none
    ∧ f.agenda = [.firmware fr] ∧ ({ f with agenda := [] } : State).firmwareMay fr = true
    ∧ (f.frame fr).handlerDue = false := by decide +kernel

theorem witness_WordChecksPark :
    let i : Instr := .iadd (rw 240 4 6 0)
    let r := soloRod id
    (inState r).cur = some { key := rk, lane := 0 } ∧ (inState r).rod? rk = some r ∧ (r.lane 0).st = .runnable
    ∧ wordCause (inState r) rk r i = some .illegalOperand ∧ (encode i).isSome = true
    ∧ opClass (.sysrd (rw 2 0 0 0)) = 6 ∧ opClass (.dadd (rw 2 4 6 0)) = 7 ∧ opClass i = 0 ∧ check5 i = false
    ∧ check5 (.iadd (rw 248 4 6 0)) = true ∧ check6 ((inState r).recordOfLaunch 1).declared (.iadd (rw 248 4 6 0)) = false
    ∧ nextHas (exec i (inState r)) (fun t => (t.frame fr).records.map (fun x => (x.cause, x.lanes, x.word, x.pc))
        == [(3, 1, 0x001FC01018000000, BitVec.ofNat 64 placedAt)]) = true := by decide +kernel

/-- One block is held; g20 is not. -/
def smallRod : Rod := { soloRod id with fast := 1, slow := 0 }

theorem witness_OperandFaultsAndContextFaults :
    let i : Instr := .iadd (rw 2 20 6 0)
    let k := fwKey fr
    let s := fwState id
    let bad : Instr := .sysrd (rw 2 0 0 0 0x1000)
    freely smallRod i = true ∧ (planOf i).hasCarry = false
    ∧ (match laneOperands smallRod (smallRod.lane 0) (planOf i) with | .error c => c == .registerNotAllocated | _ => false) = true
    ∧ s.cur = some { key := k, lane := 0 } ∧ tableFind k s.rods = some (fwRod id) ∧ (fwRod id).subRod 0 = 1
    ∧ ((fwRod id).lane 0).st = .runnable ∧ wordCause s k (fwRod id) (.iadd (rw 240 0 0 0)) = some .illegalOperand
    ∧ nextHas (exec (.iadd (rw 240 0 0 0)) s) (fun t => (t.frame fr).fw == .faulted && (t.frame fr).status == 2
        && (t.frame fr).fwfault == (BitVec.ofNat 64 placedAt ||| 3)) = true
    ∧ nextHas (exec bad s) (fun t => (t.frame fr).fw == .faulted || (t.frame fr).fw == .running) = true := by
  decide +kernel

/-! ### Engines -/

/-- Regions, blocks, descriptors and addresses for every command. -/
def cmdRod : Rod :=
  { soloRod (fill [(4, 0x100), (5, 0x00040001), (6, 0x200), (7, 0x00040001), (8, 0x300), (9, 0x00040001), (10, 0x400),
      (11, 0x00010001), (12, 0x40), (13, 16), (14, 0x2000), (16, 0x101), (20, 0x2004), (21, 0x82004), (22, 0x40), (24, 0x40),
      (25, 0x00020008), (26, 64), (28, 0x80), (31, 0x48000010), (33, 0x00020010), (35, 0x01020211)]) with
    rows := [0, 1, 2, 3] }

def putting (w : EWord) : EWord := { w with prodv := true, prod := 4 }

def commands : List Instr :=
  [.vadd (ew 4 6 8), .vsub (ew 4 6 8), .vmul (ew 4 6 8), .vfma (ew 4 6 8), .vmin (ew 4 6 8), .vmax (ew 4 6 8),
   .vscl (ew 4 6 8), .vcvt (ew 4 6 16), .vmov (ew 4 6 0), .vfill (ew 4 6 0), .vcmp (ew 4 6 8), .vsel (ew 4 6 8),
   .vsum (ew 10 6 0), .vmaxr (ew 10 6 0), .vlogc (ew 4 6 0), .vexpc (ew 4 6 0), .vex2 (ew 4 6 0), .vsigm (ew 4 6 0),
   .vtanh (ew 4 6 0), .cpin (ew 12 14 0), .cpout (ew 12 14 0), .cpff (putting (ew 12 14 0 2)), .cp2d (ew 24 14 26),
   .cppl (ew 1 14 26), .cpacc (ew 22 18 21), .cpaci (ew 22 18 21), .cppeer (ew 12 28 27), .windef (ew 1 30 32),
   .winrel (ew 1 0 0), .aczero (ew 18 20 0), .mma (ew 34 18 0), .mscl (ew 18 20 8), .mchk (putting (ew 18 20 0))]

/-- The hypotheses of CommandsEnterQueues for one command, and its entry. -/
def enters (i : Instr) : Bool :=
  let s := inState cmdRod
  match eShape i with
  | none => false
  | some (w, q) =>
    let is := mkIssue rk cmdRod i 1
    match capture is w q with
    | .error _ => false
    | .ok ops =>
      freely cmdRod i && (cmdRod.lane 0).guard w.g && !s.queueClosed fr (engineOf (wordOf i))
        && operandCause s is placedTeam (commandOf is ops) == none
        && bindingsAdmit placedTeam (engineOf (wordOf i)) (commandOf is ops)
        && nextHas (exec i s) (fun t => ((t.frame fr).engine (engineOf (wordOf i))).entries.map (fun c => c.word) == [wordOf i])

theorem witness_CommandsEnterQueues : commands.length = 33 ∧ commands.all enters = true := by decide +kernel

/-- The join register j2 has the rod as its only member, or two members of whom this one has not signed. -/
def joinState (mask : BitVec 32) : State :=
  (inState cmdRod).setTeam tk ({ placedTeam with rods := 2, started := 2 }.setJoin 2 { mask := mask, base := 0, pending := [] })

def joined (w : EWord) : EWord := { w with j := true, e2 := 2 }

theorem witness_JoinedWordsSign :
    (∀ i ∈ [Instr.cpin (joined (ew 12 14 0)), .cpout (joined (ew 12 14 0)), .cppl (joined (ew 1 14 0)),
        .mma (joined (ew 34 18 0))],
      freely cmdRod i = true
        ∧ nextHas (exec i (joinState 3)) (fun t => (t.team? tk).map (fun x => ((x.join 2).pending.length, (x.join 2).base))
            == some (1, 0)) = true
        ∧ nextHas (exec i (joinState 1)) (fun t => (t.team? tk).map (fun x => ((x.join 2).pending.length, (x.join 2).base))
            == some (0, 1) && ((t.frame fr).engine (engineOf (wordOf i))).entries.length == 1) = true)
    ∧ decide ((joinState 1).nothingWaits fr) = true ∧ cmdRod.rod = 0 ∧ cmdRod.sigs.toList.getD 2 0 = 0 := by decide +kernel

theorem witness_JoinedWordsSign_reduction :
    let i : Instr := .rredJoined (rw 2 4 0 0 0x210)
    freely cmdRod i = true ∧ (planOf i).hasCarry = false ∧ OperandsHold cmdRod (cmdRod.subRod 0) i
    ∧ nextHas (exec i (joinState 3)) (fun t => (laneOf t rk 0).joined == [{ j := 2, sig := 0, dst := 2, wide := false }]
        && (t.team? tk).map (fun x => (x.join 2).pending.map (fun y => y.partials.map (fun z => z.value)))
          == some [[0x100]]) = true := by decide +kernel

theorem witness_AccumulatorRows :
    let r := { soloRod (fill [(4, 0), (6, 8)]) with rows := [0, 1] }
    let s := inState r
    let other := { soloRod id with rod := 1, rows := [7] }
    let s' := s.setRod (rodKey fr 1) other
    (∀ i ∈ [Instr.acres (ew 4 6 0), .acrel (ew 4 6 0), .acres (ew 4 7 0)], freely r i = true)
    ∧ s.team? tk = some placedTeam ∧ r.holds 4 = true ∧ r.holds 6 = true ∧ 0 + 8 ≤ placedTeam.accRows
    ∧ (∀ x, x < 8 → x ∈ ownRows s tk r ∨ s.rowFree tk x = true) ∧ (s.frame fr).olderWaits (ageKey r) = false
    ∧ (∀ x, x < 2 → x ∈ ownRows s tk r)
    ∧ s'.rowFree tk 7 = false ∧ 7 ∉ ownRows s' tk r ∧ s.rowsBusy tk (List.range' 0 8) 0 = false
    ∧ s.memberSlot tk r.rod = some 0
    ∧ nextHas (exec (.acres (ew 4 6 0)) s) (fun t => (t.rod? rk).map (fun q => q.rows) == some [0, 1, 2, 3, 4, 5, 6, 7])
      = true := by decide +kernel

/-- The state after an instruction or event. -/
def go (i : Instr) (s : State) : State :=
  match exec i s with
  | .next t => t
  | _ => s

/-- Source values 1.0 to 4.0 at 0x200 and 10.0 at 0x300; window w1 over INT2 elements, the first of row 0 being -2, its
sign plane alone set (R163, R165). -/
def vectorTeam : Team :=
  let fs1 := (List.range 4).foldl (fun m j => cellsWrite m (0x200 + 4 * j) (leBytes 4 ([0x3F800000, 0x40000000, 0x40400000,
    0x40800000].getD j 0))) []
  { placedTeam with fs := cellsWrite (cellsWrite fs1 0x300 (leBytes 4 0x41200000)) 0 [0x01] }

def cmdState : State := (inState cmdRod).setTeam tk (vectorTeam.setWindow 1 { w0 := 0xC800001000000000, w1 := 0x0002001000000000 })

/-- A command of an engine, issued and started. -/
def started (i : Instr) : State := go (.engineCommandStart fr (engineOf (wordOf i))) (go i cmdState)

def startsGo (i : Instr) : Bool :=
  let s := go i cmdState
  match s.startable fr (engineOf (wordOf i)), s.team? tk with
  | some (_, c), some t => decide (s.nothingWaits fr) && issueCheck fr.die ((s.recordOfLaunch c.launch).teams) t c == none
      && s.startCheck tk t c == .go && (((started i).frame fr).engine (engineOf (wordOf i))).entries.map (fun x => x.st) == [.running]
  | _, _ => false

theorem witness_CommandsStart :
    ([Instr.vadd (ew 4 6 8), .cpin (ew 12 14 0), .windef (ew 2 30 32), .mma (ew 34 18 0), .aczero (ew 18 20 0),
      .cppl (ew 1 14 26)]).all startsGo = true
    ∧ (go (.mma (ew 34 18 0)) (inState cmdRod)).startable fr .me ≠ none
    ∧ (match (go (.mma (ew 34 18 0)) (inState cmdRod)).startable fr .me with
        | some (_, c) => (go (.mma (ew 34 18 0)) (inState cmdRod)).startCheck tk placedTeam c == .fault .windowFault
        | none => false) = true
    ∧ (inState cmdRod).memberSlot tk 0 = some 0
    ∧ (inState cmdRod).startable fr .ve = none := by decide +kernel

/-- A peer team that is not resident yet: CPPEER waits. -/
theorem witness_CommandsStart_waits :
    let s0 := inState cmdRod
    let s : State := { s0 with hub := { s0.hub with launches := [{ placedLaunch with record :=
      { placedLaunch.record with count := 64 } }] } }
    let r := { cmdRod with lanes := cmdRod.lanes.set 0 { cmdRod.lane 0 with regs := cellSet 29 1 (cmdRod.lane 0).regs } }
    let s1 := go (.cppeer (ew 12 28 27)) (s.setRod rk r)
    (match s1.entry? fr .ce 0, s1.team? tk with
      | some c, some t => s1.startCheck tk t c == .wait && issueCheck fr.die ((s1.recordOfLaunch c.launch).teams) t c == none
      | _, _ => false) = true
    ∧ s1.startable fr .ce = none := by decide +kernel

/-- VADD leaves 11.0, 2.0, ...; the MMA leaves (-2) * (-2); ACZERO clears (R308, R325, R326). -/
theorem witness_CommandsFinish :
    let s := started (.vadd (ew 4 6 8))
    (match s.entry? fr .ve 0, s.team? tk with
      | some c, some _ => decide (s.nothingWaits fr) && c.isReduce == false && c.st == .running && c.fault == none
          && c.reaching == false
      | _, _ => false) = true
    ∧ nextHas (exec (.engineCommandFinish fr .ve 0) s) (fun t => ((t.frame fr).engine .ve).entries == []
        && (t.team? tk).map (fun x => ((List.range 4).map (fun j => ofLe (cellsRead x.fs (0x100 + 4 * j) 4))))
          == some [0x41300000, 0x40000000, 0x40400000, 0x40800000]) = true
    ∧ (let s := started (.cpin (ew 12 14 0))
       match s.entry? fr .ce 0, s.team? tk with
        | some c, some t => c.reaching && c.st == .running && c.progress == 0 && c.index == 0x20
            && (s.reach fr t c).fault == none && decide ((s.reach fr t c).s.nothingWaits fr)
        | _, _ => false) = true := by decide +kernel

/-- The reduction of a team of one member ends: its register takes the value. -/
theorem witness_CommandsFinish_reduction :
    let s := go (.engineCommandStart fr .ve) (go (.rredJoined (rw 2 4 0 0 0x210)) (joinState 1))
    (match s.entry? fr .ve 0, s.rod? rk with
      | some c, some r => decide (s.nothingWaits fr) && c.isReduce && c.st == .running && c.partials.map (fun q => q.rod) == [0]
          && (List.finRange 32).all (fun a => r.lanes[a].joined.all (fun x => x.dst < 248))
          && s.memberSlot (cmdTeam fr c) 0 == some 0 && (s.team? (cmdTeam fr c)).isSome
      | _, _ => false) = true
    ∧ nextHas (exec (.engineCommandFinish fr .ve 0) s) (fun t => ((t.frame fr).engine .ve).entries == []
        && (laneOf t rk 0).reg 2 == 0x100 && (laneOf t rk 0).joined == []) = true := by decide +kernel

def effectIs (i : Instr) (f : Team → Effect → Bool) : Bool :=
  let s := go i cmdState
  match s.startable fr (engineOf (wordOf i)), s.team? tk with
  | some (_, c), some t => f t (s.effectOf t c).1 && !c.isReduce && !(engineOf c.word == .ve && vectorOverlaps (vectorShape c))
  | _, _ => false

theorem witness_EngineEffects :
    effectIs (.vadd (ew 4 6 8)) (fun _ e => e.acc == []) = true
    ∧ effectIs (.mma (ew 34 18 0)) (fun t e => !(t.window 1).overlaps && cellGet (cellsPut t.acc e.acc) 0 == 4
        && cellGet (cellsPut t.acc e.acc) 1 == 0 && e.fs == []) = true
    ∧ effectIs (.aczero (ew 18 20 0)) (fun _ e => e.acc.length == 16) = true := by decide +kernel

theorem witness_EngineFaultsAndStops :
    let r0 := { cmdRod with lanes := cmdRod.lanes.set 0 { cmdRod.lane 0 with regs := cellSet 15 1 (cmdRod.lane 0).regs } }
    let s := go (.engineCommandStart fr .ce) (go (.cpin (ew 12 14 0)) (inState r0))
    let ok := started (.cpin (ew 12 14 0))
    let f : EngineFault := { cause := .watchdog, orig := none, word := 0, addr := 0, progress := 0, engine := .ve }
    let r1 := { soloRod id with engineFaults := [f] }
    let e := (inState cmdRod).modFrame fr (fun x => { x with engctl := 2 })
    (match s.entry? fr .ce 0, s.team? tk with
      | some c, some t => c.reaching && c.st == .running && (s.reach fr t c).fault == some (.notPresent, 0x100002000)
      | _, _ => false) = true
    ∧ (match ok.entry? fr .ce 0, ok.team? tk with | some c, some t => (ok.reach fr t c).fault == none | _, _ => false) = true
    ∧ nextHas (exec (.commandRunFault fr .ce 0) s) (fun t => (t.frame fr).records.map (fun x => (x.cause, x.isEngine))
        == [(7, true)]) = true
    ∧ (inState r1).rod? rk = some r1 ∧ (∀ n : Fin 32, r1.lanes[n].fence = none)
    ∧ nextHas (exec (.engineFaultDelivery rk) (inState r1)) (fun t => (laneOf t rk 0).st == .parked
        && (t.frame fr).records.map (fun x => (x.cause, x.engineFlag)) == [(0x17, true)]) = true
    ∧ (e.frame fr).engctl &&& (1#32 <<< EngineId.num .ce) ≠ 0 ∧ ((e.frame fr).engine .ce).entries = []
    ∧ decide (e.nothingWaits fr) = true := by decide +kernel

/-! ### The firmware context -/

/-- The firmware context of the frame about to issue, beside whatever the frame holds. -/
def withFw (s : State) (f : Lane → Lane) : State :=
  { (s.modFrame fr (fun x => { x with fw := .running, asid := 1 })).setRod (fwKey fr) (fwRod f) with
    cur := some { key := fwKey fr, lane := 0 } }

/-- The firmware word issues with its operands. -/
def fwReady (s : State) (f : Lane → Lane) (i : Instr) : Bool :=
  decide (IssuesAlone (withFw s f) (fwKey fr) 0 (fwRod f) i)
    && (laneOperands (fwRod f) ((fwRod f).lane 0) (planOf i)).isOk

def fwRun (s : State) (f : Lane → Lane) (i : Instr) (g : State → Bool) : Bool := nextHas (exec i (withFw s f)) g

/-- A system register number in mod[17:8]. -/
def sysMod (n : Nat) : BitVec 18 := BitVec.ofNat 18 (n * 256)

/-- A rod of one item that an illegal word has parked. -/
def parkedState : State := go (.iadd (rw 240 4 6 0)) (solo (fill [(4, 5)]))

theorem witness_SystemRegisters :
    let f := fill [(4, 7), (5, 9)]
    ([0x000, 0x005, 0x006, 0x009, 0x00D, 0x013, 0x018].all (fun n => fwReady State.reset id (.sysrd (rw 2 0 0 0 (sysMod n))))
      && [0x001, 0x002, 0x003, 0x007, 0x00B, 0x00E].all (fun n => fwReady State.reset id (.sysrd (rw 3 0 0 0 (sysMod n))))
      && [0x002, 0x004, 0x007, 0x008, 0x00B, 0x00C, 0x00E, 0x005, 0x006, 0x009, 0x00A, 0x010, 0x013].all (fun n =>
        fwReady State.reset f (.syswr (rw 0 4 0 0 (sysMod n))))
      && fwReady State.reset f (.eventClear (rw 0 4 0 0 0x300))) = true
    ∧ fwRun State.reset id (.sysrd (rw 2 0 0 0 0)) (fun t => (laneOf t (fwKey fr) 0).reg 2 == 0x01000601) = true
    ∧ fwRun State.reset f (.syswr (rw 0 4 0 0 (sysMod 0x002))) (fun t => (t.frame fr).status == 3) = true
    ∧ fwRun State.reset f (.syswr (rw 0 4 0 0 (sysMod 0x005))) (fun t => (t.frame fr).vec == 0x0000000900000000) = true
    ∧ fwRun State.reset f (.syswr (rw 0 4 0 0 (sysMod 0x007))) (fun t => (t.frame fr).share == 7) = true
    ∧ fwRun State.reset f (.syswr (rw 0 4 0 0 (sysMod 0x008))) (fun t => (t.frame fr).fw == .faulted
        && (t.frame fr).fwfault == (BitVec.ofNat 64 placedAt ||| 3)) = true
    ∧ fwRun State.reset f (.syswr (rw 0 4 0 0 (sysMod 0x00B))) (fun t => (t.frame fr).engctl == 7) = true
    ∧ fwRun (State.reset.modFrame fr (fun x => { x with event := 0x2C })) (fill [(4, 0x24)]) (.eventClear (rw 0 4 0 0 0x300))
        (fun t => (t.frame fr).event == 8) = true := by decide +kernel

theorem witness_SystemRegisters_window :
    let s := parkedState
    let w (n : Nat) : Instr := .rodWindowWrite (rw 0 4 0 0 (sysMod (0x100 + n)))
    ((s.frame fr).wrod = 0 ∧ (laneOf s rk 0).st = .parked ∧ (laneOf s rk 0).loads = [])
    ∧ ([0, 239, 0xF0, 0xF4, 0xF7, 0xF8, 0xF9].all (fun n => fwReady s (fill [(4, 8)]) (w n))) = true
    ∧ fwReady s id (.sysrd (rw 2 0 0 0 (sysMod 0x104))) = true
    ∧ fwRun s id (.sysrd (rw 2 0 0 0 (sysMod 0x104))) (fun t => (laneOf t (fwKey fr) 0).reg 2 == 5) = true
    ∧ fwRun s (fill [(4, 8)]) (w 239) (fun t => (laneOf t rk 0).reg 239 == 8) = true
    ∧ fwRun s (fill [(4, 8)]) (w 0xF8) (fun t => (laneOf t rk 0).pc == 8) = true
    ∧ fwRun s (fill [(4, 9)]) (w 0xF8) (fun t => (t.frame fr).fw == .faulted) = true
    ∧ fwRun s (fill [(4, 9)]) (w 0xF5) (fun t => (laneOf t rk 0).xreg 1 == 9) = true
    ∧ fwRun (solo id) (fill [(4, 8)]) (w 0) (fun t => (t.frame fr).fw == .faulted) = true := by decide +kernel

/-- A frame's copy of time is near package time. -/
theorem clock_small (s : State) (p : FrameId) (h : s.hub.now = 0) : (s.frameTime p).toNat ≤ 20 := by
  have e : (0 : DWord).toNat = 0 := rfl
  have : Config.clockSkew p % 41 < 41 := Nat.mod_lt _ (by decide)
  simp only [State.frameTime, h, e, BitVec.toNat_ofNat]
  omega

/-- Handler entry, return, timers; an enabled event, none, and a running handler. -/
theorem witness_FirmwareHandler :
    let due := withFw (State.reset.modFrame fr (fun f => { f with event := 8, vec := 0x400 })) id
    let inh := withFw (State.reset.modFrame fr (fun f => { f with status := 1, epc := 0x600 })) id
    let armed := State.reset.modFrame fr (fun f => { f with sliceArmed := true, timerArmed := true })
    let asleep := State.reset.modFrame fr (fun f => { f with fw := .idle 0, event := 8 })
    due.rod? (fwKey fr) = some (fwRod id) ∧ (due.frame fr).fw = .running
    ∧ (due.frame fr).eventBits &&& (due.frame fr).evmask ≠ 0
    ∧ nextHas (exec (.handlerEntry fr) due) (fun t => (laneOf t (fwKey fr) 0).pc == 0x400 && (t.frame fr).status == 1
        && (t.frame fr).epc == BitVec.ofNat 64 placedAt) = true
    ∧ decide (IssuesAlone inh (fwKey fr) 0 (fwRod id) (.rett (rw 0 0 0 0))) = true
    ∧ nextHas (exec (.rett (rw 0 0 0 0)) inh) (fun t => (laneOf t (fwKey fr) 0).pc == 0x600 && (t.frame fr).status == 0)
        = true
    ∧ nextHas (exec (.rett (rw 0 0 0 0)) (fwState id)) (fun t => (t.frame fr).fw == .faulted) = true
    ∧ (armed.frame fr).slice.toNat = 0 ∧ (armed.frame fr).timer.toNat = 0
    ∧ nextHas (exec (.sliceTimeReached fr) armed) (fun t => (t.frame fr).event == 4) = true
    ∧ (asleep.frame fr).fw = .idle 0
    ∧ nextHas (exec (.idleWake fr) asleep) (fun t => (t.frame fr).fw == .running) = true := by decide +kernel

theorem witness_FirmwareHandler_more :
    let due := { withFw (State.reset.modFrame fr (fun f => { f with event := 8 })) id with agenda := [.firmware fr] }
    let bad := withFw (State.reset.modFrame fr (fun f => { f with fw := .faulted, status := 3 })) id
    let bad' := bad.modFrame fr (fun f => { f with fw := .faulted })
    due.hub.powered = true ∧ ({ due with agenda := [] } : State).firmwareMay fr = true ∧ (due.frame fr).handlerDue = true
    ∧ fwReady State.reset id (.idle (rw 0 4 0 0)) = true
    ∧ fwRun State.reset id (.idle (rw 0 4 0 0)) (fun t => (t.frame fr).fw == .idle 0) = true
    ∧ bad'.rod? (fwKey fr) = some (fwRod id) ∧ (bad'.frame fr).fw = .faulted
    ∧ nextHas (exec (.firmwareContextRestart fr 0x807) bad') (fun t => (t.frame fr).fw == .running
        && (t.frame fr).status == 1 && (laneOf t (fwKey fr) 0).pc == 0x800) = true := by decide +kernel

/-- A slice time of all ones lies ahead of every copy of time. -/
theorem witness_FirmwareHandler_later :
    (State.reset.frameTime fr).toNat < (0xFFFFFFFFFFFFFFFF : DWord).toNat :=
  Nat.lt_of_le_of_lt (clock_small _ _ rfl) (by decide)

theorem witness_FirmwareCalls :
    let s := parkedState
    let call : Instr := .fwcall (rw 2 16 0 0 (sysMod 3))
    let calling := go call (withFw State.reset (fill [(16, 77)]))
    fwReady s id (.parkq (rw 16 0 0 1)) = true ∧ fwReady State.reset id (.parkq (rw 16 0 0 1)) = true
    ∧ fwRun s id (.parkq (rw 16 0 0 1)) (fun t => (laneOf t (fwKey fr) 0).pred 1
        && (laneOf t (fwKey fr) 0).reg 16 == 3 && (laneOf t (fwKey fr) 0).reg 17 == 1
        && (laneOf t (fwKey fr) 0).reg 19 == 0x001FC010) = true
    ∧ ([Instr.tlbiVa (rw 0 4 6 0), .tlbiAsid (rw 0 0 6 0 0x100), .tlbiAll (rw 0 0 0 0 0x200), .bkpt (rw 0 0 0 0),
        call].all (fwReady State.reset id)) = true
    ∧ fwRun State.reset id (.tlbiAll (rw 0 0 0 0 0x200)) (fun t => (t.frame fr).fw == .tlbi 2 0 0 [] && t.tlbiQuiet 8 2 0 0
        && nextHas (exec (.tlbiComplete fr) t) (fun u => (u.frame fr).fw == .running)) = true
    ∧ fwRun State.reset id (.bkpt (rw 0 0 0 0)) (fun t => (t.frame fr).fw == .debug) = true
    ∧ (calling.frame fr).fw = .calling 3 2 16
    ∧ nextHas (exec (.fwcallReply fr 5 (List.replicate 16 6)) calling) (fun t => (laneOf t (fwKey fr) 0).reg 2 == 5
        && (laneOf t (fwKey fr) 0).reg 31 == 6 && (t.frame fr).fw == .running) = true := by decide +kernel

/-- RESUME of a parked item, TRAP of a running rod, a handle of no record, and a halted rod. -/
theorem witness_TrapsAndResumes :
    let s := parkedState
    let handle := fill [(4, 0)]
    let none' := fill [(4, 0x10000)]
    let two := go (.iadd { rw 240 4 6 0 with g := always }) (inState (pairRod id (fun x => { x with group := 1 })))
    ([Instr.resumeRetry (rw 0 4 0 0), .resumeSkip (rw 0 4 0 0 0x100), .resumeAbort (rw 0 4 6 0 0x200),
      .resumeRun (rw 0 4 0 0 0x300)].all (fun i => fwReady s handle i && fwReady s none' i)) = true
    ∧ (((s.frame fr).recordOfHandle 0).map (fun x => x.isEngine)) = some false ∧ (s.frame fr).recordOfHandle 0x10000 = none
    ∧ fwRun s handle (.resumeRetry (rw 0 4 0 0)) (fun t => (laneOf t rk 0).st == .runnable
        && (laneOf t rk 0).pc == BitVec.ofNat 64 placedAt) = true
    ∧ fwRun s handle (.resumeSkip (rw 0 4 0 0 0x100)) (fun t => (laneOf t rk 0).pc == BitVec.ofNat 64 (placedAt + 8)) = true
    ∧ (laneOf two rk 0).st = .parked ∧ (laneOf two rk 1).st = .runnable
    ∧ fwRun two handle (.resumeAbort (rw 0 4 6 0 0x200)) (fun t => (laneOf t rk 0).st == .retired
        && (t.launch? 1).map (fun l => (l.outcomes, l.faultCount)) == some ([(0, .killed)], 1)) = true
    ∧ ([Instr.trapHalt (rw 0 4 0 0), .trapSlice (rw 0 4 0 0 0x100), .trapWdog (rw 0 4 0 0 0x200)].all
        (fwReady (solo id) id)) = true
    ∧ fwRun (solo id) id (.trapHalt (rw 0 4 0 0)) (fun t => (t.rod? rk).map (fun q => q.stop) == some .halt
        && (t.frame fr).records.map (fun x => (x.cause, x.lanes)) == [(0x13, 1)]) = true
    ∧ fwRun (solo id) id (.trapWdog (rw 0 4 0 0 0x200)) (fun t => (laneOf t rk 0).st == .parked) = true
    ∧ fwRun State.reset id (.trapHalt (rw 0 4 0 0)) (fun t => (t.frame fr).fw == .faulted) = true := by decide +kernel

/-- A stopped command, its record, and RESUME on it. -/
theorem witness_TrapsAndResumes_engine :
    let r0 := { cmdRod with lanes := cmdRod.lanes.set 0 { cmdRod.lane 0 with regs := cellSet 15 1 (cmdRod.lane 0).regs } }
    let s := go (.commandRunFault fr .ce 0) (go (.engineCommandStart fr .ce) (go (.cpin (ew 12 14 0)) (inState r0)))
    let h := fill [(4, ((s.frame fr).records.map (fun x => x.slot + 256 * x.lane + 65536 * x.seq.toNat)).headD 0)]
    let halted := go (.trapHalt (rw 0 4 0 0)) (withFw (solo id) id)
    ((s.frame fr).records.map (fun x => (x.isEngine, ((s.frame fr).stoppedCommand x.seq).isSome))) = [(true, true)]
    ∧ decide (s.nothingWaits fr) = true ∧ s.memberSlot tk 0 = some 0
    ∧ fwReady s h (.resumeRetry (rw 0 4 0 0)) = true
    ∧ fwRun s h (.resumeRetry (rw 0 4 0 0)) (fun t => ((t.frame fr).engine .ce).entries.map (fun c => c.st) == [.running]) = true
    ∧ fwRun s h (.resumeAbort (rw 0 4 6 0 0x200)) (fun t => ((t.frame fr).engine .ce).entries == []
        && (t.rod? rk).map (fun q => q.engineFaults.length) == some 1) = true
    ∧ fwRun s h (.resumeSkip (rw 0 4 0 0 0x100)) (fun t => (t.frame fr).fw == .faulted) = true
    ∧ fwRun halted (fill [(4, 0)]) (.resumeRun (rw 0 4 0 0 0x300)) (fun t => (t.rod? rk).map (fun q => q.stop) == some .none)
      = true := by decide +kernel

/-! ### Contexts -/

/-- Pages 0 to 15 have homes by override, so that no lookup depends on the hash (R435). -/
def homed (s : State) : State :=
  { s with hub := { s.hub with override := (List.range 16).map (fun k => (k, 0)) } }

/-- A halted rod without register blocks, and its image's address. -/
def bareRod : Rod := { soloRod id with fast := 0, slow := 0, stop := .halt }
def ctxRegs : Lane → Lane := fill [(4, 0x1000)]
def ctxState : State := homed (inState bareRod)

theorem witness_EngineAccessAndContexts :
    let s := go (.vadd (ew 4 6 8)) (inState cmdRod)
    let rd (v : Nat) : Lane → Lane := fill [(4, v)]
    let stopped := s.modFrame fr (fun f => { f with engctl := 0x707 })
    fwReady s (rd 0) (.engrd (rw 16 4 0 0)) = true ∧ (s.selected fr (selectorOf 0)).isSome = true
    ∧ (s.entry? fr .ve 0).isSome = true ∧ s.entry? fr .ve 1 = none
    ∧ (s.selected fr (selectorOf 0x10030000)).isSome = true ∧ (s.selected fr (selectorOf 0x60000000)).isSome = false
    ∧ fwRun s (rd 0) (.engrd (rw 16 4 0 0)) (fun t => (laneOf t (fwKey fr) 0).reg 17 == 0xA01C1018) = true
    ∧ fwReady stopped (rd 0) (.engwr (rw 0 4 16 0)) = true
    ∧ fwRun s (rd 0) (.engwr (rw 0 4 16 0)) (fun t => (t.frame fr).fw == .faulted) = true
    ∧ fwRun stopped (rd 0) (.engwr (rw 0 4 16 0)) (fun t => ((t.frame fr).engine .ve).entries == []) = true
    ∧ fwRun stopped (fill [(4, 0x10030000), (16, 5), (17, 6), (18, 7), (19, 8)]) (.engwr (rw 0 4 16 0)) (fun t =>
        (t.team? tk).map (fun x => x.window 3) == some { w0 := 0x0000000600000005, w1 := 0x0000000800000007 }) = true := by
  decide +kernel

/-- An entry written into a stopped engine's queue. -/
theorem witness_EngineAccessAndContexts_entry :
    let stopped := (inState cmdRod).modFrame fr (fun f => { f with engctl := 0x707 })
    let regs := fill [(4, 0), (16, 0x18000000), (17, 0xA01C1010), (18, 0x100), (24, 1)]
    ((fwRod regs).lane 0).block 16 ≠ [] ∧ fieldOf (((fwRod regs).lane 0).block 16) 0x20 1 = 1
    ∧ stopped.queueFull fr .ve = false
    ∧ fwRun stopped regs (.engwr (rw 0 4 16 0)) (fun t => ((t.frame fr).engine .ve).entries.map (fun c => (c.word, c.e0))
        == [(0xA01C101018000000, 0x100)]) = true := by decide +kernel

/-- CTXSV of a halted rod: the premises of its save; of a running one it faults. -/
theorem witness_EngineAccessAndContexts_save :
    let s := withFw ctxState ctxRegs
    fwReady ctxState ctxRegs (.ctxsv (rw 0 4 6 0)) = true ∧ s.rod? rk = some bareRod ∧ bareRod.stop ≠ .none
    ∧ bareRod.rows.Pairwise (· < ·) ∧ (∀ n : Fin 32, bareRod.lanes[n].loads = []) ∧ s.team? tk = some placedTeam
    ∧ fwRun (inState (soloRod id)) ctxRegs (.ctxsv (rw 0 4 6 0)) (fun t => (t.frame fr).fw == .faulted) = true := by
  decide +kernel

/-- The image of that rod: the header, then the items, of which the first alone holds a program counter and a state. -/
def bareHeader : List Byte := [1, 0, 16, 122, 1, 0, 0, 0, 0, 82, 0, 0, 1, 0, 0, 0, 1] ++ zeros 24 ++ [2] ++ zeros 470
def bareItem (n : Nat) : List Byte := if n = 0 then [0, 0, 16, 0, 0, 0, 0, 0, 2] ++ zeros 631 else zeros 640
def bareImage : List Byte := bareHeader ++ (List.range 32).flatMap bareItem

theorem witness_EngineAccessAndContexts_items :
    ∀ n ∈ List.range 32, laneImage (withFw ctxState ctxRegs) bareRod n = bareItem n := by decide +kernel

theorem witness_EngineAccessAndContexts_image :
    rodImage (withFw ctxState ctxRegs) bareRod 32 0 [] [] = bareImage := by
  have h : (List.range 32).flatMap (laneImage (withFw ctxState ctxRegs) bareRod) = (List.range 32).flatMap bareItem := by
    rw [List.flatMap_def, List.flatMap_def, List.map_congr_left witness_EngineAccessAndContexts_items]
  unfold rodImage bareImage
  rw [h]
  have hf : bareRod.fast = 0 := rfl
  have hs : bareRod.slow = 0 := rfl
  simp only [hf, hs, List.range_zero, List.flatMap_nil, List.append_nil]
  refine congrArg (fun h => h ++ (List.range 32).flatMap bareItem) ?_
  decide +kernel

theorem witness_EngineAccessAndContexts_stored :
    (match (withFw ctxState ctxRegs).saveImage fr 0x1000 bareImage with
      | .ok s1 => s1.rod? rk == some bareRod && s1.team? tk == some placedTeam
      | .error _ => false) = true := by decide +kernel

theorem witness_EngineAccessAndContexts_saved :
    (match (withFw ctxState ctxRegs).saveImage fr 0x1000 (rodImage (withFw ctxState ctxRegs) bareRod 32 0 [] []) with
      | .ok s1 => s1.rod? rk == some bareRod && s1.team? tk == some placedTeam
      | .error _ => false) = true := by
  rw [witness_EngineAccessAndContexts_image]
  exact witness_EngineAccessAndContexts_stored

/-- A team with 256 bytes of frame store and no rod on the frame. -/
def bareTeam : Team := { placedTeam with fsBytes := 256, fs := cellsWrite [] 5 [0xAB], accRows := 0, retired := 1 }
def teamState : State := homed { (inState bareRod) with rods := [], teams := tableSet tk bareTeam [] }

theorem witness_EngineAccessAndContexts_team :
    let s := withFw teamState ctxRegs
    fwReady teamState ctxRegs (.ctxsvTeam (rw 0 4 6 0 0x100)) = true ∧ s.team? tk = some bareTeam ∧ s.teamIdle tk = true
    ∧ (match s.saveImage fr 0x1000 (teamImage s tk bareTeam 0) with
        | .ok s1 => s1.team? tk == some bareTeam
        | .error _ => false) = true := by decide +kernel

/-- Headers of images of rod 0 and of team 0 of launch 1, in memory; the rod's team is on the frame. -/
def headed (s : State) (magic : Nat) : State :=
  { s with mem := cellsWrite (cellsWrite s.mem 0x1000 (leBytes 4 magic ++ [1])) 0x1010 [1] }
def rodHeader : State := headed { ctxState with rods := [] } 0x7A100001
def teamHeader : State := headed { teamState with teams := [] } 0x7A100002

theorem witness_EngineAccessAndContexts_load :
    let s := withFw rodHeader ctxRegs
    fwReady rodHeader ctxRegs (.ctxld (rw 0 4 6 0)) = true ∧ s.rod? rk = none
    ∧ (match s.loadImage fr 0x1000 512 with
        | .ok (h, _) => fieldOf h 0 4 == 0x7A100001 && fieldOf h 4 2 == 1 && fieldOf h 6 2 == 0 && fieldOf h 0x2A 2 == 0
            && (s.residentTeam fr (fieldOf h 0x10 8) (fieldOf h 0x20 8)).isSome
        | .error _ => false) = true
    ∧ fwReady ctxState ctxRegs (.ctxld (rw 0 4 6 0)) = true ∧ ((withFw ctxState ctxRegs).rod? rk).isSome = true := by
  decide +kernel

theorem witness_EngineAccessAndContexts_loaded :
    (match (withFw rodHeader ctxRegs).loadImage fr 0x1000 20992 with
      | .ok (b, _) => b.length == 20992
      | .error _ => false) = true := by decide +kernel

theorem witness_EngineAccessAndContexts_teamLoad :
    let s := withFw teamHeader ctxRegs
    fwReady teamHeader ctxRegs (.ctxldTeam (rw 0 4 6 0 0x100)) = true ∧ s.team? tk = none
    ∧ (match s.loadImage fr 0x1000 256 with
        | .ok (h, _) => fieldOf h 0 4 == 0x7A100002 && fieldOf h 4 2 == 1 && fieldOf h 6 2 == 0 && fieldOf h 0x24 4 == 0
            && bitmapOf 128 ((h.drop 0x40).take 128) == []
            && (match s.loadImage fr 0x1000 (teamImageSize 0 0 32 0) with | .ok _ => true | .error _ => false)
        | .error _ => false) = true := by decide +kernel

/-! ### Launches -/

/-- The frame's active bank holds the placed launch. -/
def banked (s : State) : State := s.modFrame fr (fun f => { f with active := some placedLaunch.bank })

/-- A launch with no team yet. -/
def freshState : State :=
  let s := inState (soloRod id)
  banked { s with rods := [], teams := [], hub := { s.hub with launches := [{ placedLaunch with nextTeam := 0 }] } }

/-- A rod of one item blocked in a request. -/
def asking (w : Wait) (k : RequestKind) : State :=
  let r := soloRod (fun x => { x with st := .blocked, wait := w })
  (banked (inState r)).modFrame fr (fun f => { f with requests := [{ launch := 1, item0 := 0, kind := k }] })

theorem witness_LaunchesAndTeams_start :
    let s := freshState
    (s.activeLaunch fr).map (fun l => (l.wrapped, l.killed, l.nextTeam, l.record.deadline)) = some (false, false, 0, 0)
    ∧ (s.activeLaunch fr).map (fun l => decide (l.nextTeam < l.record.teams)) = some true
    ∧ placedLaunch.frames[0 % (max 1 placedLaunch.frames.length)]? = some fr ∧ s.takesWork fr = true
    ∧ s.freeChoice fr = s ∧ (s.frame fr).olderWaits (1, placedLaunch.teamItem 0) = false ∧ s.teamFits fr 4096 64 = true
    ∧ s.blocksFree fr 0 0 8 7 = true ∧ s.freeTeamSlot fr = some 0 ∧ s.freeRodSlot fr = some 0
    ∧ nextHas (exec (.teamStart fr) s) (fun t => (t.rod? rk).map (fun q => (q.fast, q.slow, q.liveMask)) == some (8, 7, 0xFFFFFFFF)
        && (laneOf t rk 3).item == 3 && (t.team? tk).map (fun x => x.fsBytes) == some 4096) = true := by decide +kernel

theorem witness_LaunchesAndTeams_requests :
    let grow := asking (.grow 8 7) (.grow 0 0 8 7)
    let tight := grow.setRod rk { (soloRod (fun x => { x with st := .blocked, wait := .grow 8 7 })) with fast := 1, slow := 0 }
    let acres := asking (.acres 0 4) (.acres 0 0 0 4)
    let start := (asking (.grow 8 7) (.rodStart 0 1)).setTeam tk { placedTeam with rods := 2 }
    (grow.oldestRequest fr).map (fun y => y.kind) = some (.grow 0 0 8 7)
    ∧ (∀ x ∈ [grow, acres, start], ∀ z ∈ (x.frame fr).requests, x.requestLives fr z = true)
    ∧ (start.launch? 1).map (fun l => l.closed 0) = some false
    ∧ (∀ x, 0 ≤ x → x < 0 + 4 → acres.rowFree tk x = true)
    ∧ tight.blocksFree fr 1 0 8 7 = true ∧ (State.reset.oldestRequest fr) = none
    ∧ nextHas (exec (.requestServe fr) tight) (fun t => (t.rod? rk).map (fun q => (q.fast, q.slow)) == some (8, 7)
        && (laneOf t rk 0).st == .runnable) = true
    ∧ nextHas (exec (.requestServe fr) acres) (fun t => (t.rod? rk).map (fun q => q.rows) == some [0, 1, 2, 3]) = true
    ∧ start.freeRodSlot fr = some 1
    ∧ nextHas (exec (.requestServe fr) start) (fun t => (t.rod? (rodKey fr 1)).map (fun q => (q.rod, q.item0)) == some (1, 32))
      = true := by decide +kernel

/-- Two stuck rods, the younger of which is evicted, and then reloaded. -/
def stuckState : State :=
  let blocked (r : Rod) : Rod := { r with lanes := r.lanes.map (fun x =>
    if x.st = .runnable then { x with st := .blocked, wait := .grow 8 7 } else x) }
  let s := banked (inState (blocked (soloRod id)))
  ((s.setRod (rodKey fr 1) { blocked (soloRod id) with rod := 1, item0 := 32 }).setTeam tk
    { placedTeam with rods := 2, started := 2 }).modFrame fr (fun f =>
      { f with requests := [{ launch := 1, item0 := 0, kind := .grow 0 0 8 7 }, { launch := 1, item0 := 32, kind := .grow 1 0 8 7 }] })

theorem witness_LaunchesAndTeams_eviction :
    let s := stuckState
    let t := go (.rodEviction fr) s
    let u := t.modFrame fr (fun f => { f with requests := f.requests.filter (fun y => y.kind == .reload 0 1) })
    (s.evictee fr).map (fun e => e.1) = some 1
    ∧ (s.evictee fr).map (fun e => s.evictionReady fr e.1 e.2) = some true
    ∧ State.reset.evictee fr = none
    ∧ t.rod? (rodKey fr 1) = none ∧ (t.frame fr).savedRods.length = 1 ∧ (u.oldestRequest fr).map (fun y => y.kind) = some (.reload 0 1)
    ∧ ((t.frame fr).savedRod 1 0 1).isSome = true ∧ (u.residentTeam fr 1 0).isSome = true
    ∧ nextHas (exec (.requestServe fr) u) (fun v => (v.rod? (rodKey fr 1)).map (fun q => q.rod) == some 1) = true := by
  decide +kernel

/-- The same with a context area in the save pool: the image of a rod without registers is stored there. -/
def areaState : State :=
  let s := homed stuckState
  let bare := s.modRod (rodKey fr 1) (fun r => { r with fast := 0, slow := 0 })
  { bare with hub := { bare.hub with launches := bare.hub.launches.map (fun l => { l with areas := [(fr, 0x4000, 0x8000)] }) } }

theorem witness_LaunchesAndTeams_area :
    (match areaState.evictee fr with
      | some (n, r) => n == 1 && areaState.evictionReady fr n r && areaState.rod? (rodKey fr 1) == some r
          && (match areaState.storeImage fr 1 (areaState.imageOfRod (rodKey fr 1) r (areaState.frame fr).saveEpoch) with
            | .ok (some (.area a _), s1) => a == 0x4000 && s1.rods == areaState.rods
            | _ => false)
      | none => false) = true := by decide +kernel

/-- A team whose only rod has retired, one that still runs, and what its launch leaves. -/
theorem witness_LaunchesAndTeams_end :
    let s := banked (go (.exit (rw 0 0 0 0)) (solo id))
    let t := go (.teamRetire fr 0) s
    (s.team? tk).map (fun x => s.teamDone tk x) = some true
    ∧ ((solo id).team? tk).map (fun x => (solo id).teamDone tk x) = some false
    ∧ (t.team? tk).isNone = true ∧ (t.launch? 1).map (fun l => (l.retired, l.over)) = some ([0], true)
    ∧ ((solo id).launch? 1).map (fun l => l.over) = some false
    ∧ nextHas (exec (.launchCompletion 1) t) (fun u => (u.launch? 1).isNone) = true := by decide +kernel

/-- A second launch of higher priority waits for the frame. -/
def rival : Launch := { placedLaunch with seq := 2, nextTeam := 0, priority := 5 }
def contested : State :=
  let s := banked (inState (soloRod id))
  { s with hub := { s.hub with launches := [placedLaunch, rival] } }

theorem witness_LaunchesAndTeams_choice :
    let s := contested
    (bestLaunch 0 (s.candidates fr)).map (fun l => l.seq) = some 2 ∧ s.takesWork fr = true ∧ s.activeBusy fr = true
    ∧ (freshState.activeBusy fr) = false ∧ (bestLaunch 0 (freshState.candidates fr)).isSome = true
    ∧ (s.activeLaunch fr).map (fun l => (l.seq, l.priority, l.record.notPreemptible)) = some (1, 0, false)
    ∧ (s.die 8).phase = .running ∧ (s.frame fr).preempting = none := by decide +kernel

/-- The rod stops at its boundary, and the engines report that they have; then the frame is quiet, its rod and team are saved,
and it is the rival's. -/
theorem witness_LaunchesAndTeams_preemption :
    let b := go (.preemption fr) contested
    let t := engines.foldl (fun s e => go (.engineStopped fr e) s) (b.boundaries fr)
    let u := go (.preemption fr) t
    (b.frame fr).engctl = 7 ∧ (t.frame fr).preempting = some { next := some rival.bank, share := 4 }
    ∧ t.boundaries fr = t ∧ t.quiet fr = true ∧ (t.frame fr).fw ≠ .faulted ∧ t.areaOf 1 fr = none
    ∧ (u.frame fr).active = some rival.bank ∧ u.rodsOn fr = [] ∧ (u.frame fr).savedTeams.length = 1
    ∧ (u.frame fr).share = 4 := by decide +kernel

/-! ### Deadlines and watchdogs -/

/-- The placed launch at a time, with a deadline and a wrap-up budget. -/
def timed (now d b : Nat) (r : Rod) : State :=
  let s := inState r
  { s with hub := { s.hub with
      now := BitVec.ofNat 64 now
      launches := [{ placedLaunch with record := { placedLaunch.record with
        deadline := BitVec.ofNat 64 d, budget := BitVec.ofNat 32 b, wrapOff := 64 } }] } }

def diverts (t : State) : Option Bool := (t.rod? rk).map (fun q => q.divert)

theorem witness_DeadlinesAndWatchdogs :
    let r := soloRod id
    let owing := { r with divert := true }
    nextHas (exec (.wrapUpThreshold 1) (timed 99 150 50 r)) (fun t => diverts t == some false) = true
    ∧ nextHas (exec (.wrapUpThreshold 1) (timed 100 150 50 r)) (fun t => diverts t == some true
        && (t.launch? 1).map (fun l => l.wrapped) == some true) = true
    ∧ nextHas (exec (.wrapUpThreshold 1) (timed 150 150 0 r)) (fun t => (t.rod? rk).isNone) = true
    ∧ nextHas (exec (.deadlineKill 1) (timed 149 150 50 r)) (fun t => (t.rod? rk).isSome) = true
    ∧ nextHas (exec (.deadlineKill 1) (timed 150 150 50 r)) (fun t => (t.rod? rk).isNone
        && (t.launch? 1).map (fun l => (l.killed, l.outcomes)) == some (true, [(0, .killed)])) = true
    ∧ nextHas (exec (.launchKill 1) (timed 0 0 0 r)) (fun t =>
        (t.launch? 1).map (fun l => (l.killed, l.killAll)) == some (true, true)) = true
    ∧ (timed 150 150 50 owing).rod? rk = some owing ∧ owing.stop = .none ∧ (∀ m : Fin 32, owing.lanes[m].fence = none)
    ∧ nextHas (exec (.itemDivert rk) (timed 100 150 50 owing)) (fun t => (laneOf t rk 0).phase
        && (laneOf t rk 0).pc == BitVec.ofNat 64 (placedAt + 64)) = true := by decide +kernel

/-- A rod stuck in a barrier, alone on its frame; a command that waits for a token; a record nobody has resolved. -/
theorem witness_DeadlinesAndWatchdogs_watchdogs :
    let late (s : State) : State := { s with hub := { s.hub with now := 1000000000 } }
    let r := soloRod (fun x => { x with st := .blocked, wait := .barMeet 0 true })
    let s := late ((inState r).modFrame fr (fun f => { f with stuckSince := some 0 }))
    let waiting := go (.vadd { ew 4 6 8 with conv := 1, con0 := 4 }) (inState cmdRod)
    let w := late (waiting.modEngine fr .ve (fun q => { q with stalledSince := some ((1, 0, 0), 0) }))
    let p := late parkedState
    (inState r).frameStuck fr = true ∧ s.evictee fr = none ∧ (solo id).frameStuck fr = false
    ∧ nextHas (exec (.stuckFrameWatchdog fr) s) (fun t => (t.frame fr).records.map (fun x => x.cause) == [0x17]
        && (t.frame fr).event == 16 && (laneOf t rk 0).st == .parked) = true
    ∧ (w.stalledHead fr .ve).map (fun c => (c.launch, c.team, c.ord)) = some (1, 0, 0) ∧ w.stalledHead fr .ce = none ∧ decide (w.nothingWaits fr) = true
    ∧ nextHas (exec (.engineWatchdog fr .ve) w) (fun t => ((t.frame fr).engine .ve).entries == []
        && (t.rod? rk).map (fun q => q.engineFaults.length) == some 1) = true
    ∧ ((p.frame fr).records.map (fun x => (x.seq, x.resolved, x.withdrawn))) = [(0, false, false)]
    ∧ (parkedState.partOf 1).queueWdogMs = 1000
    ∧ nextHas (exec (.partitionWatchdog fr 0) p) (fun t => t.hub.reports == [.partitionWatchdog fr 0]) = true := by
  decide +kernel

/-! ### Queues and packets -/

/-- The bytes of a packet: type, scope and barrier, and its fields. -/
def packet (type hi : Nat) (f : List (Nat × Nat × Nat)) : List Byte :=
  f.foldl (fun b e => b.take e.1 ++ leBytes e.2.1 e.2.2 ++ b.drop (e.1 + e.2.1))
    (([0, 0] ++ leBytes 1 hi ++ leBytes 1 type) ++ List.replicate 60 0)

/-- A resident queue 3 with one packet, whose ring lies at 0x1000 and whose descriptor lies at 0x2000. -/
def activeQueue : Queue := { Queue.registered 0x2000 0 1 with state := 1, enabled := true, ring := 0x1000, tail := 1 }

def withQueue (b : List (Nat × List Byte)) (x : Queue) : State :=
  let s := homed (State.reset.placeWord 0)
  { s with
    mem := b.foldl (fun m e => cellsWrite m e.1 e.2) s.mem
    hub := { s.hub with ready := true, queues := [(3, x)] } }

def queueHas (o : Host.Outcome State Fault Refusal) (f : State → Queue → Bool) : Bool :=
  nextHas o (fun t => match t.queue? 3 with | some y => f t y | none => false)

theorem witness_QueueEvents :
    let s := withQueue [] activeQueue
    queueHas (exec (.queueRegister 3 0x100 0 1) State.reset) (fun _ y => y.desc == 0x100 && y.state == 5) = true
    ∧ (State.reset.partition 0).isDefined = true ∧ State.reset.inPartition 0 0x100 = true
    ∧ State.reset.inPartition 0 (0x100 + 511) = true
    ∧ queueHas (exec (.queueRegister 3 0x100 0 1) s) (fun _ y => y.desc == 0x2000) = true
    ∧ (let t := withQueue [(0x2100, [16])] { activeQueue with notified := true, state := 0, tail := 0 }
       queueHas (exec (.queueTailWrite 3) t) (fun _ y => y.tail == 16 && y.state == 1) = true
        ∧ queueHas (exec (.queueTailWrite 3) (withQueue [(0x2100, [17])] { activeQueue with notified := true }))
            (fun _ y => y.state == 4 && y.error == 3) = true
        ∧ queueHas (exec (.queueTailWrite 3) (withQueue [] { activeQueue with notified := true, state := 3 }))
            (fun u _ => u.hub.swapRequests == [3]) = true)
    ∧ queueHas (exec (.queueStopRequest 3) (withQueue [(0x2108, [1])] activeQueue)) (fun _ y => y.state == 5) = true
    ∧ queueHas (exec (.queueStopRequest 3) (withQueue [(0x2108, [1])] { activeQueue with started := [{ num := 0, ring := 0 }] }))
        (fun _ y => y.state == 1 && y.stopping) = true
    ∧ queueHas (exec (.queueStopRequest 3) (withQueue [(0x2108, [3])] activeQueue)) (fun _ y => { y with notified := false } == activeQueue) = true := by
  decide +kernel

def holding : WaitPacket := { num := 0, addr := 0x1200, value := 7, timeout := 100, goOn := true, sector := 0x48 }
def waitingQueue (w : WaitPacket) : Queue :=
  { activeQueue with state := 2, issueIdx := 1, nextNum := 1, wait := some w, started := [{ num := 0, ring := 0 }] }

theorem witness_QueueEvents_more :
    let line0 : List Byte := leBytes 8 0x1000 ++ [4, 0, 3, 0] ++ leBytes 2 1 ++ [0, 0]
    let stopped := { activeQueue with state := 5, enabled := false }
    let failed := { activeQueue with state := 4, error := 2 }
    let w := waitingQueue holding
    let now (s : State) (n : Nat) : State := { s with hub := { s.hub with now := BitVec.ofNat 64 n } }
    queueHas (exec (.queueStopRequest 3) (withQueue [(0x2108, [1])] w)) (fun _ y => y.state == 5 && y.issueIdx == 0) = true
    ∧ queueHas (exec (.queueStartRequest 3) (withQueue [(0x2000, line0), (0x2100, [1]), (0x2108, [2])] stopped))
        (fun _ y => y.enabled && y.state == 1) = true
    ∧ queueHas (exec (.queueStartRequest 3) (withQueue [(0x2108, [2])] stopped)) (fun _ y => y.state == 4 && y.error == 8) = true
    ∧ queueHas (exec (.queueRestart 3) (withQueue [(0x2100, [1])] failed)) (fun _ y => y.state == 1 && y.error == 0) = true
    ∧ queueHas (exec (.queueSwapIn 3) (withQueue [(0x2100, [1])] { activeQueue with state := 3 })) (fun _ y => y.state == 3) = true
    ∧ (let s := withQueue [(0x2100, [1])] { activeQueue with state := 3 }
       queueHas (exec (.queueSwapIn 3) { s with hub := { s.hub with swapRequests := [3] } }) (fun _ y => y.state == 1) = true)
    ∧ queueHas (exec (.queueWatchdog 3) (now (withQueue [] w) 1000000001)) (fun t _ => t.hub.reports == [.queueWatchdog 3])
      = true
    ∧ queueHas (exec (.queueWatchdog 3) (now (withQueue [] w) 1000000000)) (fun t _ => t.hub.reports == []) = true := by
  decide +kernel

/-- The premises of the packet clauses for a packet at the ring's head, and what the next state holds. -/
def starts (s : State) (type : Nat) (x : Queue) : Bool :=
  x.hasNext && decide (s.queue? 3 = some x) && (match s.hubRead x.asid x.nextAddr 64 with
    | (.ok b, _) => packetType b == type && packetError x.levels.length b == none && (!packetBarrier b || x.started == [])
    | _ => false)

def runsPacket (i : Instr) (type : Nat) (b : List (Nat × List Byte)) (x : Queue) (f : State → Queue → Bool) : Bool :=
  starts (withQueue b x) type x && queueHas (exec i (withQueue b x)) f

theorem witness_Packets :
    let one (b : List Byte) : List (Nat × List Byte) := [(0x1000, b)]
    let q := activeQueue
    runsPacket (.nopPacket 3) 7 (one (packet 7 0 [])) q (fun _ y => y.readIdx == 1 && y.state == 0) = true
    ∧ runsPacket (.joinq 3) 5 (one (packet 5 0x80 [])) q (fun _ y => y.readIdx == 1) = true
    ∧ runsPacket (.signal 3) 2 (one (packet 2 0 [(8, 8, 0x1200), (0x10, 8, 0x1122)])) q (fun t y => y.readIdx == 1
        && cellsRead t.mem 0x1200 2 == [0x22, 0x11]) = true
    ∧ runsPacket (.signal 3) 2 (one (packet 2 0 [(8, 8, 0x1000), (0x10, 8, 1), (0x18, 1, 1)])) q (fun t _ =>
        cellsRead t.mem 0x1000 4 == [1, 0, 0, 2]) = true
    ∧ runsPacket (.signal 3) 2 (one (packet 2 0 [(8, 8, 0x40000000), (0x10, 8, 1)])) q (fun _ y => y.error == 4) = true
    ∧ runsPacket (.timestamp 3) 8 (one (packet 8 0 [(8, 8, 0x1200)])) q (fun _ y => y.readIdx == 1) = true
    ∧ runsPacket (.fencePacket 3) 6 (one (packet 6 0 [(8, 4, 0x100)])) q (fun _ y => y.readIdx == 1) = true
    ∧ runsPacket (.callq 3) 4 (one (packet 4 0 [(8, 8, 0x1100), (0x10, 4, 2)])) q (fun _ y => y.levels == [(0x1100, 2)]) = true
    ∧ runsPacket (.wait 3) 3 (one (packet 3 0 [(8, 8, 0x1200)])) q (fun _ y => y.readIdx == 1 && y.wait == none) = true
    ∧ runsPacket (.wait 3) 3 (one (packet 3 0 [(8, 8, 0x1200), (0x10, 8, 7)])) q (fun _ y => y.state == 2 && y.readIdx == 0
        && y.wait.isSome) = true
    ∧ runsPacket (.wait 3) 3 (one (packet 3 0 [(8, 8, 0x40000000)])) q (fun _ y => y.error == 4) = true
    ∧ runsPacket (.nopPacket 3) 7 [(0x1100, packet 7 0 [])] { q with levels := [(0x1100, 2)], issueIdx := 1 }
        (fun _ y => y.levels == [(0x1140, 1)] && y.issueIdx == 1) = true := by decide +kernel

/-- A packet that the look-ahead has read before its bytes changed; a swapped WAIT whose time is over; a FENCE after a launch. -/
theorem witness_Packets_ahead :
    let nop := packet 7 0 []
    let s := withQueue [(0x1000, packet 7 0 [])] { activeQueue with ahead := [packet 5 0 []] }
    (match s.hubRead 1 0x1000 64 with | (.ok b, _) => b == nop | _ => false) = true
    ∧ ((s.lookAhead 3).queue? 3).map (fun y => y.ahead) = some [packet 5 0 []]
    ∧ ((withQueue [(0x1000, nop)] activeQueue).lookAhead 3 |>.queue? 3).map (fun y => y.ahead) = some [nop]
    ∧ (let x := { waitingQueue holding with state := 3 }
       let w := withQueue [] x
       queueHas (exec (.waitTimeout 3) { w with hub := { w.hub with now := 101 } }) (fun t _ => t.hub.swapRequests == [3]) = true)
    ∧ runsPacket (.fencePacket 3) 6 [(0x1000, packet 6 0x30 [])] { activeQueue with doneFrames := [fr] } (fun _ y =>
        y.readIdx == 1) = true := by decide +kernel

/-- Malformed packets of each checked type, and one of no type. -/
theorem witness_Packets_errors :
    let bad (i : Instr) (b : List Byte) (c : Nat) : Bool :=
      queueHas (exec i (withQueue [(0x1000, b)] activeQueue)) (fun _ y => y.state == 4 && y.error == c && y.errorIndex == 0)
    bad (.signal 3) (packet 2 0 [(8, 8, 4)]) 7 = true ∧ bad (.wait 3) (packet 3 0 [(0x20, 1, 2)]) 2 = true
    ∧ bad (.callq 3) (packet 4 0 [(8, 8, 0x1100)]) 5 = true ∧ bad (.joinq 3) (packet 5 0 [(8, 1, 1)]) 2 = true
    ∧ bad (.fencePacket 3) (packet 6 0x50 []) 2 = true ∧ bad (.nopPacket 3) (packet 9 0 []) 1 = true
    ∧ bad (.timestamp 3) (packet 8 0 [(8, 8, 1)]) 7 = true := by decide +kernel

/-- A WAIT whose word is there, is not, cannot be read, and whose time is over. -/
theorem witness_Packets_waits :
    let now (n : Nat) (x : Queue) : State := let s := withQueue [] x; { s with hub := { s.hub with now := BitVec.ofNat 64 n } }
    queueHas (exec (.waitComplete 3) (withQueue [(0x1200, [7])] (waitingQueue holding))) (fun _ y => y.state == 0) = true
    ∧ queueHas (exec (.waitComplete 3) (withQueue [(0x1200, [6])] (waitingQueue holding))) (fun _ y => y.state == 2) = true
    ∧ queueHas (exec (.waitComplete 3) (withQueue [] (waitingQueue { holding with addr := 0x40000000 }))) (fun _ y =>
        y.state == 4 && y.error == 4) = true
    ∧ queueHas (exec (.waitTimeout 3) (now 100 (waitingQueue holding))) (fun _ y => y.state == 2) = true
    ∧ queueHas (exec (.waitTimeout 3) (now 101 (waitingQueue holding))) (fun _ y => y.state == 0) = true
    ∧ queueHas (exec (.waitTimeout 3) (now 101 (waitingQueue { holding with goOn := false }))) (fun _ y =>
        y.state == 4 && y.error == 6) = true := by decide +kernel

/-- A launch record of one rod at 0x1100, and the LAUNCH packet that names it with an explicit list of one frame. -/
def launchBytes (f : List (Nat × Nat × Nat)) : List Byte :=
  let b := packet 0 0 [(0, 8, 0x100000), (8, 8, 5), (0x18, 4, 0x01010100), (0x1C, 2, 1)] ++ List.replicate 192 0
  f.foldl (fun b e => b.take e.1 ++ leBytes e.2.1 e.2.2 ++ b.drop (e.1 + e.2.1)) b

def launchAt (f : List (Nat × Nat × Nat)) : List (Nat × List Byte) :=
  [(0x1000, packet 1 0x30 [(8, 8, 0x1100), (0x10, 4, 0x100), (0x14, 2, 1), (0x16, 1, 2), (0x18, 8, 0x1300)]),
   (0x1100, launchBytes f), (0x1300, [0, 8])]

theorem witness_Packets_launch :
    runsPacket (.launch 3) 1 (launchAt []) activeQueue (fun t y => t.hub.launches.map (fun l => (l.seq, l.frames, l.record.teams))
        == [(1, [fr], 1)] && y.started == [{ num := 0, ring := 0 }]) = true
    ∧ runsPacket (.launch 3) 1 (launchAt [(0x18, 1, 3), (0x50, 8, 0x1400)]) activeQueue (fun t y => t.hub.launches == []
        && y.readIdx == 1 && cellsRead t.mem 0x1428 2 == [3, 1]) = true
    ∧ runsPacket (.launch 3) 1 (launchAt [(8, 8, 0)]) activeQueue (fun t y => t.hub.launches == [] && y.readIdx == 1) = true := by
  decide +kernel

/-! ### Directory, translation control, package -/

/-- Sector 0x4000 of memory holds 1, 2, 3 in its first bytes. -/
def sec : Nat := 0x4000
def cohState : State := { State.reset with mem := cellsWrite [] (64 * sec) [1, 2, 3] }

/-- The sector after one agent has read it, and after one has written it. -/
def sharedOnce : State := cohState.readMiss 0 sec
def ownedDirty : State :=
  let s := cohState.writeMiss 0 sec
  match s.agentSector 0 sec with
  | some x => s.putAgentSector 0 { x.write (segMask 0 1) (segData 0 [9]) with st := .m }
  | none => s

theorem witness_Coherence :
    let s := cohState
    s.heldAs 0 sec = .i ∧ s.poisoned sec = false ∧ (s.dir sec).st = .dI
    ∧ (sharedOnce.dir sec).st = .dX ∧ (sharedOnce.heldAs 0 sec) = .e
    ∧ nextHas (exec (.readShared 1 sec) sharedOnce) (fun t => t.heldAs 1 sec == .s && (t.dir sec).holders == 3) = true
    ∧ (let two := go (.readShared 1 sec) sharedOnce
       two.heldAs 1 sec = .s ∧ (two.dir sec).st = .dS ∧ (two.dir sec).holders.getLsbD 1 = true
        ∧ nextHas (exec (.upgrade 1 sec) two) (fun t => t.heldAs 1 sec == .m && t.heldAs 0 sec == .i
            && (t.dir sec).owner == 1) = true
        ∧ nextHas (exec (.readUnique 2 sec) two) (fun t => t.heldAs 2 sec == .e && (t.dir sec).holders == 4) = true)
    ∧ ownedDirty.heldAs 0 sec = .m ∧ (ownedDirty.dir sec).holders.getLsbD 0 = true
    ∧ nextHas (exec (.writeBack 0 sec) ownedDirty) (fun t => cellsRead t.mem (64 * sec) 3 == [9, 2, 3]
        && t.heldAs 0 sec == .i) = true
    ∧ nextHas (exec (.writeBackKeep 0 sec) ownedDirty) (fun t => cellsRead t.mem (64 * sec) 3 == [9, 2, 3]
        && t.heldAs 0 sec == .e) = true := by decide +kernel

/-- An owner whose frames hold nothing of the sector has nothing to gather. -/
theorem witness_Coherence_gather :
    ownedDirty.gather 0 sec = ownedDirty := by decide +kernel

theorem witness_Coherence_more :
    let s := ownedDirty
    nextHas (exec (.snoop 0 sec .share) s) (fun t => t.heldAs 0 sec == .o && (t.dir sec).st == .dO) = true
    ∧ nextHas (exec (.snoop 0 sec .clean) s) (fun t => t.heldAs 0 sec == .s && cellGet t.mem (64 * sec) == 9) = true
    ∧ nextHas (exec (.snoop 0 sec .invalidate) s) (fun t => t.heldAs 0 sec == .i && cellGet t.mem (64 * sec) == 9) = true
    ∧ nextHas (exec (.untrackedRead sec) s) (fun t => (t.dir sec).st == .dS && cellGet t.mem (64 * sec) == 9) = true
    ∧ nextHas (exec (.untrackedWrite sec 2 0x0700) cohState) (fun t => cellsRead t.mem (64 * sec) 3 == [1, 7, 3]) = true
    ∧ nextHas (exec (.uClassAccess sec 1 5) cohState) (fun t => cellsRead t.mem (64 * sec) 3 == [5, 2, 3]) = true
    ∧ (cohState.dir sec).holders = 0
    ∧ nextHas (exec (.homeAtomic (.add false false) (64 * sec) 4 1 0) cohState) (fun t => cellsRead t.mem (64 * sec) 4 == [2, 2, 3, 0])
      = true
    ∧ atomResult .cas 32 1 0 5 = none ∧ 60 % 64 + 4 ≤ 64
    ∧ (let warm : State := State.reset.modDie 8 (fun d => { d with predictor := [(0, 5, 3)] })
       nextHas (exec .predictorDecay warm) (fun t => (t.die 8).predictor == [(0, 5, 3)]) = true
        ∧ nextHas (exec .predictorDecay { warm with hub := { warm.hub with now := 100000 } }) (fun t =>
            (t.die 8).predictor == [(0, 5, 2)]) = true) := by decide +kernel

/-- An address space of partition 0, and a holder with an expiry. -/
def xlState (now h : Nat) : State :=
  let s := State.reset.placeWord 0
  { s with hub := { s.hub with now := BitVec.ofNat 64 now, handed := [((false, 1, 8), h)] } }

theorem witness_TranslationControl :
    let s := xlState 0 100
    let busy := go (.unmapRequest 0 0x80000001) s
    let later := { busy with hub := { busy.hub with now := 140 } }
    (s.hub.xl[0].umstat.getLsbD 0 = false) ∧ (s.asidEntry 1).valid = true ∧ (s.asidEntry 1).part = 0
    ∧ busy.hub.xl[0].umstat.getLsbD 0 = true ∧ busy.hub.xl[0].umholders = 0x100
    ∧ nextHas (exec (.unmapRequest 0 0x80000002) s) (fun t => t.hub.xl[0].umstat == 6 && t.hub.xl[0].umseq == 1) = true
    ∧ nextHas (exec (.unmapRequest 0 1) s) (fun t => t.hub.xl[0].umctl == 1) = true
    ∧ busy.holdersLeft 0 busy.hub.xl[0] ≠ 0 ∧ later.holdersLeft 0 later.hub.xl[0] = 0
    ∧ nextHas (exec (.unmapComplete 0) later) (fun t => t.hub.xl[0].umstat == 2 && t.hub.xl[0].umseq == 1) = true
    ∧ nextHas (exec (.leaseWrite 0 0x0003000200010001) s) (fun t => t.hub.xl[0].lease == 0x0000000200010001) = true
    ∧ nextHas (exec (.leaseWrite 0 0x0000000000010001) s) (fun t => t.hub.xl[0].umstat == 4) = true := by decide +kernel

/-- A reclaim whose holders are all clear; two pages that move to tower 3. -/
theorem witness_TranslationControl_more :
    let s := xlState 200 100
    let busy := go (.unmapRequest 0 0x80010001) s
    let v : DWord := 0x8000000000000000 ||| (2 <<< 52) ||| (3 <<< 48) ||| 0x5000
    let moving := go (.migrationRequest 0 v) s
    let once := go (.migrationSwitch 0) moving
    let old := { once with hub := { once.hub with now := 20240 } }
    busy.holdersLeft 0 busy.hub.xl[0] = 0 ∧ busy.hub.xl[0].umctl.getLsbD 16 = true
    ∧ nextHas (exec (.unmapComplete 0) busy) (fun t => t.hub.xl[0].umstat == 2) = true
    ∧ moving.hub.migrations = [{ part := 0, page := 5, left := 2, tower := 3 }]
    ∧ State.reset.inPartition 0 0x5000 = true
    ∧ once.homeOf 5 = 3 ∧ once.hub.migrations = [{ part := 0, page := 6, left := 1, tower := 3 }]
    ∧ nextHas (exec (.migrationSwitch 0) once) (fun t => t.hub.migrations == [] && t.hub.xl[0].mgctl.getLsbD 63 == false) = true
    ∧ nextHas (exec (.migrationRequest 0 0x8000000000005000) s) (fun t => t.hub.xl[0].mgctl == 0x4000000000005000) = true
    ∧ tableFind 5 once.hub.redirects = some 200 ∧ (200 : Nat) + 20040 ≤ old.now
    ∧ nextHas (exec (.migrationRetire 5) old) (fun t => tableFind 5 t.hub.redirects == none) = true := by decide +kernel

theorem witness_ResetsPowerAndHub :
    let s := State.reset
    let busy := solo id
    let late (x : State) : State := { x with hub := { x.hub with now := 10001 } }
    let q := s.modDie 8 (fun d => { d with phase := .drainingWork })
    let iso := { (s.modDie 8 (fun d => { d with phase := .isolating })) with hub := { s.hub with isolated := 1#64 <<< 8 } }
    (s.teamsOn fr = [] ∧ s.rodsOn fr = []) ∧ busy.teamsOn fr ≠ []
    ∧ nextHas (exec (.framePowerGate fr) s) (fun t => (t.frame fr).gated) = true
    ∧ nextHas (exec (.slicePowerGate 8 3) s) (fun t => (t.die 8).gatedSlices == [3]) = true
    ∧ nextHas (exec (.slicePowerGate 8 11) (s.modDie 8 (fun d => { d with gatedSlices := [3] }))) (fun t =>
        (t.die 8).gatedSlices == [3]) = true
    ∧ (s.die 8).phase = .running ∧ s.hub.isolated.getLsbD 8 = false
    ∧ nextHas (exec (.resetRequest 1) s) (fun t => t.hub.reports == [.resetRefused 1]) = true
    ∧ nextHas (exec (.resetRequest 8) s) (fun t => (t.die 8).phase == .drainingWork) = true
    ∧ (∀ e, e < 54 → (s.die e).phase ≠ .drainForward)
    ∧ nextHas (exec (.resetRequest 8) (s.modDie 9 (fun d => { d with phase := .drainForward }))) (fun t =>
        t.hub.heldResets == [8] && (t.die 8).phase == .running) = true
    ∧ (q.die 8).phase = .drainingWork ∧ q.dieEmpty 8 = true ∧ busy.dieEmpty 8 = false
    ∧ nextHas (exec (.drainForward 8) (s.modDie 8 (fun d => { d with phase := .drainForward }))) (fun t =>
        (t.die 8).phase == .isolating) = true
    ∧ nextHas (exec (.drainForward 8) (late (s.modDie 8 (fun d => { d with phase := .drainForward })))) (fun t =>
        (t.die 8).phase == .running && t.hub.reports == [.resetRefused 8]) = true
    ∧ s.hub.agentFails 8 = false ∧ iso.hub.linksDown = []
    ∧ nextHas (exec (.dieReset 8) iso) (fun t => (t.die 8).phase == .running && (t.frame fr).fw == .running
        && !t.hub.isolated.getLsbD 8) = true := by decide +kernel

theorem witness_ResetsPowerAndHub_more :
    let s := State.reset
    let lost := { ownedDirty with hub := ownedDirty.hub }
    isLink 8 99 = true ∧ isLink 8 9 = true ∧ isLink 8 22 = false ∧ s.linkUp 8 9 = true
    ∧ nextHas (exec (.linkDown 8 9) s) (fun t => !t.linkUp 8 9 && nextHas (exec (.linkRetrain 9 8) t) (fun u => u.linkUp 8 9))
      = true
    ∧ peerBit 8 = some 0 ∧ lost.ownedBy 0 = [sec]
    ∧ nextHas (exec (.forcedIsolation 8) lost) (fun t => t.poisoned sec && t.hub.isolated == 1#64 <<< 8) = true
    ∧ nextHas (exec (.drainedIsolation 66) s) (fun t => (t.partition 2).isolated) = true
    ∧ s.dieHolds 8 = false ∧ (solo id).dieHolds 8 = true
    ∧ badTable (s.hub.tableWith [(1, PartDesc.first)]).toList = true ∧ badTable s.hub.partitions.toList = false
    ∧ nextHas (exec (.partitionChange (0, PartDesc.undefinedPart) []) s) (fun t =>
        t.hub.reports == [.partitionRefused 0] && (t.partition 0).isDefined) = true
    ∧ (let half (m : Word) (n : BitVec 4) (a : Nat) : PartDesc :=
         { PartDesc.first with
           dieMask := m, netMask := n, quota := 512, firstAsid := 1 + 2000 * a, asidCount := 2000, ranges := [(2 ^ 40 * a, 2 ^ 40)]
           saveBase := 2 ^ 40 * a, saveSize := 2 ^ 30 }
       let two := [(1, half 0xFFFF0000 0xC 1)]
       (∀ e ∈ s.affected ((0, half 0xFFFF 3 0) :: two), s.dieHolds e = false)
        ∧ nextHas (exec (.partitionChange (0, half 0xFFFF 3 0) two) s) (fun t =>
            (t.partition 0).dieMask == 0xFFFF && (t.partition 1).isDefined) = true)
    ∧ nextHas (exec (.maintenanceReplan [8] [.disable [2]]) s) (fun t => (t.die 8).disabled == [2]) = true
    ∧ nextHas (exec (.maintenanceReplan [8] [.raise 2]) s) (fun t => (t.die 8).supplySteps == 2) = true
    ∧ nextHas (exec (.powerOnReset [54] 0) s) (fun t => t.hub.recovery) = true
    ∧ nextHas (exec (.powerOnReset [3] 0) s) (fun t => t.hub.ready && t.hub.isolated == 8#64) = true
    ∧ nextHas (exec (.timeStep 1000000) s) (fun t => t.hub.now == 0) = true
    ∧ nextHas (exec (.timeStep 1000000) { s with hub := { s.hub with stepDue := 1000000 } }) (fun t =>
        t.hub.timeStatus == 4 && t.hub.now == 1000000 && t.hub.stepDue == 0) = true
    ∧ nextHas (exec (.forcedReset 8) ownedDirty) (fun t => t.poisoned sec && (t.die 8).phase == .isolating) = true
    ∧ s.hub.imageFails 54 = false ∧ s.hub.agentFails 3 = false
    ∧ nextHas (exec (.hubLinkFrame 1 0x1200 [7] none) (withQueue [] activeQueue)) (fun t => cellGet t.mem 0x1200 == 7) = true
    ∧ (let off : State := { s with hub := { s.hub with powered := false }, agenda := [.tick 1] }
       nextHas (step off) (fun t => t.agenda == [] && t.hub.now == 0) = true) := by decide +kernel

/-! ### Further forms of the statements -/

/-- FCLASS under .ftz is illegal (FloatTests); NaNs of the two formats (LogDomainAndFunctions), float targets (Conversions). -/
theorem witness_FloatTests_more :
    let w := rw 2 4 0 0 0x80
    w.g.legal = true ∧ RMod.ftz w.mod = true ∧ wordCause (inState (soloRod id)) rk (soloRod id) (.fclass w) = some .illegalOperand
    ∧ fp32Fmt.decode false 0x7FC00000 = .nan ∧ fp32Fmt.decode false 0x3F800000 = .fin false 0x800000 (-23) false
    ∧ fp32Fmt.decode false 0xFF800000 = .inf true ∧ l32Of 0x40000001 = .nan ∧ floatFmt 3 = some fp16Fmt
    ∧ fp16Fmt.round { mode := 0, d := 0, ftz := false } false 1 20 false = .overflow := by decide +kernel

/-- Another rod holds the blocks a GROW wants, and a JSET finds an instance pending (PlainControl). -/
theorem witness_PlainControl_waits :
    let r := { soloRod (fill [(4, 1)]) with fast := 1, slow := 0 }
    let big := { soloRod id with rod := 1 }
    let others := (List.range' 1 32).foldl (fun s n => s.setRod (rodKey fr n) { big with rod := n }) (inState r)
    let i : Instr := .grow (rw 0 0 0 0 0x2600)
    let pend : Instance := { word := 0, e0 := 0, e1 := 0, e2 := 0, captured := none, item := 0, count := 0, signed := 0, last := 0,
                             ord := 0, counted := true, partials := [] }
    let busy := (inState r).setTeam tk (placedTeam.setJoin 3 { mask := 1, base := 0, pending := [pend] })
    IssuesFreely others rk 0 r i ∧ others.blocksFree fr 1 0 6 2 = false ∧ 1 * 6 ≤ Config.blocksOf fr.die
    ∧ nextHas (exec i others) (fun t => (laneOf t rk 0).wait == .grow 6 2 && (t.frame fr).requests.length == 1) = true
    ∧ IssuesFreely busy rk 0 r (.jset (rw 3 4 0 0))
    ∧ nextHas (exec (.jset (rw 3 4 0 0)) busy) (fun t => (laneOf t rk 0).wait == .jset 3) = true := by decide +kernel

/-- IADD of a carry on one item with and without a generation, and on two items of which the second reads the first's. -/
theorem witness_CarryReads_words :
    let i : Instr := .iadd (rw 2 248 6 0)
    let r := item5 (fill [(6, 3)])
    let both : Instr := .iadd (rw 248 248 6 0)
    let p := pairRod (fun x => { fill [(6, 3)] x with item := 5 }) (fun x => { fill [(6, 4)] x with item := 6 })
    let s := carryState p [9] false
    IssuesAlone (carryState r [9] false) rk 0 r i ∧ (planOf i).hasCarry = true
    ∧ (laneOperands r (r.lane 0) (planOf i)).isOk = true
    ∧ nextHas (exec i (carryState r [9] false)) (fun t => (laneOf t rk 0).reg 2 == 12) = true
    ∧ nextHas (exec i (carryState r [] false)) (fun t => (laneOf t rk 0).wait == .carryRead [0]) = true
    ∧ IssuesPair s rk 0 1 p both
    ∧ nextHas (exec both s) (fun t => (carryBuf t.carry 1 5 0).gens == [] && (carryBuf t.carry 1 6 0).gens == [16]) = true := by
  decide +kernel

/-- Two items of one page, whose bytes stand apart. -/
def twoItems : Rod := pairRod (fill [(4, 0x2000), (8, 0xA1B2C3D4)]) (fill [(4, 0x2002), (8, 0x11223344)])

/-- The word issues for two items of one page, and their pages are held. -/
def reachBoth (i : Instr) (need : Need) : Bool :=
  let s := warmed (inState twoItems) twoItems need 0x2000 4
  decide (IssuesPair s rk 0 1 twoItems i) && (s.pages fr 1 need (pageStarts 0x2000 4)).1.isOk

/-- ST of two items, of which the second is reached after the first has stored (GlobalStores). -/
def storing : State := warmed (homed (inState twoItems)) twoItems .write 0x2000 4
def storedOnce : Option Cause × State :=
  let ps := piecesOf (heldPages storing twoItems .write 0x2000 4) 0x2000 4
  let x := State.writePieces fr 0 true ps (leBytes 4 0xA1B2C3D4) storing
  (x.1, (x.2.inFlight rk 0 0 true 0x2000 ps).onLane rk 0 (fun y => { y with pc := y.pc + 8 }))

theorem witness_GlobalStores_pair :
    let ys := heldPages storedOnce.2 twoItems .write 0x2002 4
    reachBoth (.st (mw 8 4)) .write = true ∧ storedOnce.1 = none
    ∧ (storedOnce.2.pages fr (storedOnce.2.asidOf rk twoItems) .write (pageStarts 0x2002 4)).1.isOk = true
    ∧ (State.writePieces fr 0 true (piecesOf ys 0x2002 4) (leBytes 4 0x11223344) storedOnce.2).1 = none
    ∧ nextHas (exec (.st (mw 8 4)) (inState twoItems)) (fun t =>
        (t.readSeg fr .frame false 128 0 8).2.1 == [0xD4, 0xC3, 0x44, 0x33, 0x22, 0x11, 0, 0]) = true := by decide +kernel

theorem witness_GlobalStores_pages :
    (storedOnce.2.pages fr (storedOnce.2.asidOf rk twoItems) .write (pageStarts 0x2002 4)).2 = storedOnce.2 :=
  sameState _ _ (by decide +kernel)

/-- Two items that add to one word, in memory and in the frame store (AtomicUpdates, FrameStoreAccess). -/
def addingRod : Rod := pairRod (fill [(4, 0x2000), (6, 16), (8, 5)]) (fill [(4, 0x2000), (6, 16), (8, 7)])
/-- Their line is watched, so that atomics are performed at the home. -/
def addingState : State :=
  let s := homed (inState addingRod)
  { s with hub := { s.hub with queues := [(3, { Queue.registered 0x1F00 0 1 with state := 5 })] } }
def adding : State := warmed addingState addingRod .write 0x2000 4
def addedOnce : Option Cause × Nat × State :=
  match piecesOf (heldPages adding addingRod .write 0x2000 4) 0x2000 4 with
  | p :: _ =>
    let x := adding.atomicAt fr 0 p (.add false false) 5 0
    (x.1, x.2.1, (x.2.2.inFlight rk 0 0 false 0x2000 [p]).onLane rk 0 Lane.advance)
  | [] => (some .linkDown, 0, adding)

/-- Both items load from the page they hold (LoadsTakeEntries). -/
theorem witness_LoadsTakeEntries_items :
    IssuesFreely adding rk 0 addingRod (.ld (mw 8 4)) ∧ tableFind rk adding.rods = some addingRod ∧ mwHeld (mw 8 4) addingRod .pair
    ∧ (∀ n : Fin 32, n.val < 2 → mwAddress (mw 8 4) addingRod.lanes[n] = 0x2000)
    ∧ (adding.pages fr (adding.asidOf rk addingRod) .read (pageStarts 0x2000 4)).1.isOk = true := by decide +kernel

theorem witness_LoadsTakeEntries_held :
    (adding.pages fr (adding.asidOf rk addingRod) .read (pageStarts 0x2000 4)).2 = adding := sameState _ _ (by decide +kernel)

theorem witness_AtomicUpdates_pair :
    let i : Instr := .red (rw 0 4 8 0 0x1000)
    IssuesPair adding rk 0 1 addingRod i ∧ adding.mid = none
    ∧ (∀ n : Fin 32, n.val < 2 → (laneOperands addingRod addingRod.lanes[n] (planOf i)).isOk = true)
    ∧ addedOnce.1 = none
    ∧ (addedOnce.2.2.pages fr (addedOnce.2.2.asidOf rk addingRod) .write (pageStarts 0x2000 4)).1.isOk = true
    ∧ (piecesOf (heldPages addedOnce.2.2 addingRod .write 0x2000 4) 0x2000 4).length = 1
    ∧ nextHas (exec (.atom (rw 2 4 8 0 0x1000)) addingState) (fun t =>
        (laneOf t rk 0).loads.map (fun e => e.value) == [0] && (laneOf t rk 1).loads.map (fun e => e.value) == [5]) = true := by
  decide +kernel

theorem witness_AtomicUpdates_pages :
    (addedOnce.2.2.pages fr (addedOnce.2.2.asidOf rk addingRod) .write (pageStarts 0x2000 4)).2 = addedOnce.2.2 :=
  sameState _ _ (by decide +kernel)

theorem witness_FrameStoreAccess_pair :
    let i : Instr := .atomf (rw 2 6 8 0 0x1000)
    IssuesPair (inState addingRod) rk 0 1 addingRod i
    ∧ (∀ n : Fin 32, n.val < 2 → (laneOperands addingRod addingRod.lanes[n] (planOf i)).isOk = true)
    ∧ nextHas (exec i (inState addingRod)) (fun t => (laneOf t rk 0).reg 2 == 0 && (laneOf t rk 1).reg 2 == 5
        && (t.team? tk).map (fun x => cellsRead x.fs 16 4) == some [12, 0, 0, 0]) = true := by decide +kernel

/-- CFLUSH of two items, one sector each (FencesAndMaintenance). -/
def flushRod : Rod := pairRod (fill [(4, 0x2000), (8, 64)]) (fill [(4, 0x2040), (8, 64)])
def flushing : State := warmed (inState flushRod) flushRod .read 0x2000 64
def flushedOnce : State :=
  ((sectorsOf (heldPages flushing flushRod .read 0x2000 64) 0x2000 64).foldl (rangeSector State.flushSector rk 0 2 0x2000)
    flushing).onLane rk 0 (fun x => { x with pc := x.pc + 8 })

theorem witness_FencesAndMaintenance_pair :
    IssuesPair flushing rk 0 1 flushRod (.cflush (mw 8 4 0 0 2)) ∧ IssuesPair flushing rk 0 1 flushRod (.cinv (mw 8 4 0 0 2))
    ∧ (flushedOnce.pages fr (flushedOnce.asidOf rk flushRod) .read (pageStarts 0x2040 64)).1.isOk = true
    ∧ nextHas (exec (.cflush (mw 8 4 0 0 2)) (inState flushRod)) (fun t =>
        (laneOf t rk 1).pc == BitVec.ofNat 64 (placedAt + 8)) = true := by decide +kernel

theorem witness_FencesAndMaintenance_pages :
    (flushedOnce.pages fr (flushedOnce.asidOf rk flushRod) .read (pageStarts 0x2040 64)).2 = flushedOnce :=
  sameState _ _ (by decide +kernel)

/-- An arrival that completes the generation while this rod has already arrived (FrameBarriers). -/
theorem witness_FrameBarriers_arrived :
    let r := { soloRod (fill [(4, 1)]) with arrived := 2 }
    let s := (inState r).setTeam tk (placedTeam.setBarrier 1 { expected := 2, arrivals := 1, gen := false, gone := 0 })
    IssuesFreely s rk 0 r (.barMeet (rw 0 0 1 0)) ∧ r.arrived.getLsbD 1 = true
    ∧ nextHas (exec (.barMeet (rw 0 0 1 0)) s) (fun t => (laneOf t rk 0).wait == .barMeet 1 false
        && (t.team? tk).map (fun x => (x.barrier 1).arrivals) == some 1) = true
    ∧ nextHas (exec (.barPass (rw 0 0 1 0 0x4000)) s) (fun t => (laneOf t rk 0).st == .runnable
        && (t.team? tk).map (fun x => (x.barrier 1).arrivals) == some 1) = true := by decide +kernel

/-- The last of two members signs (JoinedWordsSign): the command of rod 0, with its operands; the reduction of both rods. -/
def pendingJoin (old : Instance) : State :=
  (inState cmdRod).setTeam tk ({ placedTeam with rods := 2, started := 2 }.setJoin 2 { mask := 3, base := 0, pending := [old] })

theorem witness_JoinedWordsSign_last :
    let i : Instr := .cpin (joined (ew 12 14 0))
    let j : Instr := .rredJoined (rw 2 4 0 0 0x210)
    let old (w : DWord) (l : List Partial) : Instance :=
      { word := w, e0 := 1, e1 := 2, e2 := 3, captured := some 1, item := 32, count := 0, signed := 2, last := 1, ord := 0,
        counted := true, partials := l }
    let s := pendingJoin (old (wordOf i) [])
    let t := pendingJoin (old (wordOf j) [{ rod := 1, value := 7, lanes := 1, sig := 0 }])
    IssuesFreely s rk 0 cmdRod i ∧ IssuesFreely t rk 0 cmdRod j ∧ s.queueClosed fr .ce = false ∧ t.queueClosed fr .ve = false
    ∧ (∀ e ∈ s.rods, e.1.frame = fr → ∀ a : Fin 32, e.2.lanes[a].st ≠ .blocked)
    ∧ nextHas (exec i s) (fun u => ((u.frame fr).engine .ce).entries.map (fun c => (c.members, c.e1, c.st)) == [(3, 0x2000, .queued)]
        && (u.team? tk).map (fun x => (x.join 2).base) == some 1) = true
    ∧ nextHas (exec j t) (fun u => ((u.frame fr).engine .ve).entries.map (fun c => (reduceResult c, c.partials.length))
        == [(0x107, 2)]) = true := by decide +kernel

/-- A row that an earlier command of the team names stays with the rod: its release waits (AccumulatorRows). -/
theorem witness_AccumulatorRows_release :
    let s := go (.mma (ew 34 18 0)) cmdState
    let r := (s.rod? rk).getD cmdRod
    let u := { s with cur := some { key := rk, lane := 0 } }
    let v := u.setRod rk { r with lanes := r.lanes.set 0 { r.lane 0 with regs := regsOf [(4, 0), (6, 2)] } }
    let q := (v.rod? rk).getD cmdRod
    IssuesFreely v rk 0 q (.acrel (ew 4 6 0)) ∧ ((v.team? tk).map (fun t => (t.releasing, v.rowsBusy tk [0, 1] t.nextOrd)))
      = some ([], true)
    ∧ nextHas (exec (.acrel (ew 4 6 0)) v) (fun t => (t.team? tk).map (fun x => x.releasing.map (fun e => (e.1, e.2.1)))
        == some [(0, [0, 1])]) = true := by decide +kernel

/-- Copies within the frame and out of it, and what scaling and checking leave (EngineEffects). -/
theorem witness_EngineEffects_more :
    effectIs (.vcvt (ew 4 6 16)) (fun _ e => e.payload == 0) = true
    ∧ effectIs (.vsum (ew 10 6 0)) (fun _ e => e.payload == 0x41200000) = true
    ∧ effectIs (.vmaxr (ew 10 6 0)) (fun _ e => e.payload == 0x40800000) = true
    ∧ effectIs (.mscl (ew 18 20 8)) (fun _ e => e.fs == [] && e.acc.length == 16) = true
    ∧ effectIs (.mchk (putting (ew 18 20 0))) (fun t e => cellsPut t.acc e.acc == t.acc && e.payload == 0) = true
    ∧ effectIs (.cpacc (ew 22 18 21)) (fun _ e => e.acc == []) = true
    ∧ effectIs (.cpaci (ew 22 18 21)) (fun _ e => e.fs == []) = true
    ∧ ([Instr.cpin (ew 12 14 0), .cpout (ew 12 14 0), .cpff (putting (ew 12 14 0 2)), .cp2d (ew 24 14 26), .cppl (ew 1 14 26)].all
        (fun i => match (started i).entry? fr .ce 0, (started i).team? tk with
          | some c, some _ => c.reaching && c.st == .running
          | _, _ => false)) = true
    ∧ (placedTeam.window 1).formed = false ∧ (vectorTeam.setWindow 1 { w0 := 0xC800001000000000, w1 := 0x0002001000000000 }).fsBytes = 4096
    ∧ ({ w0 := 0xC800001000000000, w1 := 0x0002001000000000 } : Window).formed = true := by decide +kernel

/-- A reserved number is an illegal operand of SYSRD, and a read-only register one of SYSWR (SystemRegisters). -/
theorem witness_SystemRegisters_reserved :
    let s := withFw State.reset id
    let w (n : Nat) : RWord := rw 2 0 0 0 (sysMod n)
    wordCause s (fwKey fr) (fwRod id) (.sysrd (w 0x020)) = some .illegalOperand
    ∧ wordCause s (fwKey fr) (fwRod id) (.syswr (w 0x00F)) = some .illegalOperand ∧ (w 0x020).g.legal = true
    ∧ s.cur = some { key := fwKey fr, lane := 0 } ∧ s.rod? (fwKey fr) = some (fwRod id)
    ∧ tableFind (fwKey fr) s.rods = some (fwRod id) ∧ ((fwRod id).lane 0).st = .runnable ∧ (fwRod id).subRod 0 = 1#32
    ∧ (fwRod id).quiet 1#32
    ∧ fwRun State.reset id (.sysrd (rw 2 0 0 0 (sysMod 0x001))) (fun t => (laneOf t (fwKey fr) 0).reg 2 == 0x0800) = true := by
  decide +kernel

/-- Evictions: a frame's dirty byte moves to the die cache, a die's dirty sector of a U page home; a host's store (StoresStayInPlace). -/
theorem witness_StoresStayInPlace_more :
    let s := homed (inState atPage)
    let dirty : State := (s.writeSeg fr .frame true true 128 0 [7]).2
    let out := dirty.evictFrame fr 128 true
    (dirty.frameSector fr 128 true).map (fun x => x.dirty.getLsbD 0) = some true ∧ (s.frame fr).cache.length < 1024
    ∧ (out.frameSector fr 128 true) = none ∧ (out.dieSector fr.die 128 true).map (fun x => x.dirty) = some 1
    ∧ (∀ q ∈ out.framesOfDie fr.die, out.frameSector q 128 true = none) ∧ out.severed fr.die 128 = false
    ∧ cellGet (out.evictDie fr.die 128 true).mem 0x2000 = 7
    ∧ controlOffset 0x2000 = none ∧ s.severed hubNode 128 = false ∧ s.poisoned 128 = false
    ∧ cellGet (s.outside (.hostStore 0x2000 [5])).mem 0x2000 = 5
    ∧ s.agentOut 8 = false ∧ s.watched 128 = false ∧ deviceSector 128 = true := by decide +kernel

/-- A team whose command still runs keeps CTXSV.team waiting; once it has finished the team is saved (EngineAccessAndContexts). -/
def waitingSave : State :=
  let s := homed (started (.aczero (ew 18 20 0)))
  { s with rods := s.rods.filter (fun e => e.1 != rk) }

theorem witness_EngineAccessAndContexts_waits :
    let s := waitingSave
    let t := go (.ctxsvTeam (rw 0 4 6 0 0x100)) (withFw s ctxRegs)
    fwReady s ctxRegs (.ctxsvTeam (rw 0 4 6 0 0x100)) = true ∧ (s.team? tk).isSome = true
    ∧ (s.rodsOn fr).any (fun e => e.2.teamSlot == 0) = false ∧ s.commandsDone tk = false
    ∧ (t.frame fr).fw = .saving 0 0x1000 ∧ t.teamIdle tk = false
    ∧ ((go (.engineCommandFinish fr .me 0) t).teamIdle tk) = true := by decide +kernel

/-- A stopped command's image appends to a stopped engine's queue; a state byte above 4 does not (EngineAccessAndContexts). -/
theorem witness_EngineAccessAndContexts_stopped :
    let stopped := (inState cmdRod).modFrame fr (fun f => { f with engctl := 0x707 })
    let regs (st : Nat) : Lane → Lane := fill [(4, 0), (16, 0x18000000), (17, 0xA01C1010), (18, 0x100), (24, st)]
    let b (st : Nat) : List Byte := ((fwRod (regs st)).lane 0).block 16
    fieldOf (b 4) 0x20 1 = 4 ∧ fieldOf (b 4) 0x21 1 = 0 ∧ fieldOf (b 5) 0x20 1 = 5
    ∧ stopped.slotsFree placedTeam ((stopped.frame fr).asRemoved (cmdOf stopped tk placedTeam (b 4))) = true
    ∧ fwRun stopped (regs 4) (.engwr (rw 0 4 16 0)) (fun t => ((t.frame fr).engine .ve).entries.map (fun c => c.st) == [.stopped])
      = true
    ∧ fwRun stopped (regs 5) (.engwr (rw 0 4 16 0)) (fun t => (t.frame fr).fw == .faulted) = true := by decide +kernel

/-- A saved team all of whose rods have retired asks for its return (LaunchesAndTeams). -/
def savedAlone : State :=
  let s := banked (inState (soloRod id))
  ({ s with rods := [], teams := [] }).modFrame fr (fun f =>
    { f with savedTeams := [{ team := { placedTeam with retired := 1, fs := [(5, 0xAB)] }, cmds := [], epoch := 0, wrapped := false, place := none, slots := [] }]
             requests := [{ launch := 1, item0 := 0, kind := .reloadTeam 0 }] })

theorem witness_LaunchesAndTeams_return :
    let s := savedAlone
    (s.oldestRequest fr).map (fun y => y.kind) = some (.reloadTeam 0) ∧ (s.launch? 1).map (fun l => l.dead 0) = some false
    ∧ (∀ z ∈ (s.frame fr).requests, s.requestLives fr z = true) ∧ s.residentTeam fr 1 0 = none ∧ s.freeTeamSlot fr = some 0
    ∧ s.takesWork fr = true ∧ (s.frame fr).preempting = none ∧ s.teamFits fr placedTeam.fsBytes placedTeam.accRows = true
    ∧ ((s.frame fr).savedTeam 1 0).map (fun v => ((s.frame fr).roomFor v, s.placeReads fr v.place)) = some (true, true)
    ∧ nextHas (exec (.requestServe fr) s) (fun t => (t.team? tk).map (fun x => cellGet x.fs 5) == some 0xAB
        && (t.frame fr).requests == []) = true := by decide +kernel

/-- An owed divert is taken at its last moment; a tick does not pass a moment of a launch (DeadlinesAndWatchdogs). -/
theorem witness_DeadlinesAndWatchdogs_time :
    let owing := { soloRod id with divert := true }
    let s := timed 2200 150 50 owing
    (s.launch? 1).map (fun l => (l.record.deadline != 0, l.completed, l.record.deadline.toNat - l.record.budget.toNat)) = some (true, false, 100)
    ∧ (rk, owing) ∈ s.rods ∧ s.rods = [(rk, owing)] ∧ owing.stop = .none ∧ owing.engineFaults = [] ∧ owing.traps = []
    ∧ (timed 0 0 0 owing).nextMoment 70 = 70 := by decide +kernel

theorem witness_DeadlinesAndWatchdogs_due : whenCopyReads fr (150 - 50 + 2000) ≤ 2200 := by
  unfold whenCopyReads; omega

/-- A core chiplet holds a sector clean, and drops it (Coherence). -/
theorem witness_Coherence_drop :
    let s := cohState.readMiss 8 sec
    let m := s.outside (.coreStore 8 (64 * sec) [9])
    ((s.agentSector 8 sec).map (fun x => x.st)) = some .e ∧ ((s.outside (.coreDrop 8 sec)).agentSector 8 sec) = none
    ∧ ((m.agentSector 8 sec).map (fun x => x.st)) = some .m
    ∧ (((m.outside (.coreDrop 8 sec)).agentSector 8 sec).map (fun x => x.st)) = some .m := by decide +kernel

/-- A stall that is over is forgotten at a step's end (StepRunsDecodedWord). -/
theorem witness_StepRunsDecodedWord_stall :
    let s := (inState cmdRod).modEngine fr .ve (fun q => { q with stalledSince := some ((1, 0, 0), 5) })
    (((s.noteHeads).frame fr).engine .ve).stalledSince = none := by decide +kernel

/-! ### Operand faults, rounding modes and carries beside each other -/

/-- 0x3000001 * 2^-24 is 3 + 2^-24, whose quantum is 2^-22: a quarter above 0xC00000 (R150 to R152). -/
theorem witness_RoundingModes_all :
    let at_ (mode m : Nat) (e : Int) : Rounded := fp32Fmt.round { mode := mode, d := 0, ftz := false } false m e false
    [0, 1, 2, 3, 4, 5].map (fun k => at_ k 0x3000001 (-24)) = [.value 0xC00000 (-22), .value 0xC00000 (-22), .value 0xC00000 (-22),
      .value 0xC00001 (-22), .value 0xC00000 (-22), .value 0xC00001 (-22)]
    ∧ [0, 1, 2, 3, 4, 5].all (fun k => decide (at_ k 1 200 = .overflow)) = true
    ∧ floatFmt 1 = some fp32Fmt ∧ fp32Fmt.hasInf = true
    ∧ fp32Fmt.put .ieee { mode := 1, d := 0, ftz := false } (.fin false 1 200 false) = 0x7F7FFFFF
    ∧ fp32Fmt.put .ieee { mode := 0, d := 0, ftz := false } (.fin false 1 200 false) = 0x7F800000 := by decide +kernel

/-- The index register x0 keeps lane 0 in its bound, lane 1 at it (R115). -/
def indexedRod : Rod :=
  pairRod (fun x => { fill [(6, 3), (10, 40)] x with xregs := x.xregs.set 0 0x00100002 })
    (fun x => { fill [(6, 3), (10, 40)] x with xregs := x.xregs.set 0 0x00010001 })

/-- A lane that fails beside one that completes: of registers, and under a carry destination (CarryReads,
OperandFaultsAndContextFaults). -/
theorem witness_OperandFaultsAndContextFaults_lanes :
    let i : Instr := .iadd (rw 2 8 6 0 4)
    let s := inState indexedRod
    let bad : BitVec 32 := 2
    freely indexedRod i = true ∧ (planOf i).hasCarry = false
    ∧ (∀ n : Fin 32, bad.getLsbD n.val = true ↔ (indexedRod.subRod 0).getLsbD n.val = true ∧ actsOn i indexedRod.lanes[n] = true
        ∧ (laneOperands indexedRod indexedRod.lanes[n] (planOf i)).isOk = false)
    ∧ (match laneOperands indexedRod indexedRod.lanes[(1 : Fin 32)] (planOf i) with | .error c => c == .indexBound | _ => false) = true
    ∧ nextHas (exec i s) (fun t => (laneOf t rk 0).reg 2 == 43 && (laneOf t rk 0).pc == BitVec.ofNat 64 (placedAt + 8)
        && (laneOf t rk 1).st == .parked && (laneOf t rk 1).reg 2 == 0
        && (t.frame fr).records.map (fun x => (x.cause, x.lanes)) == [(0x05, 2)]) = true
    ∧ (let r := item5 (fun x => { fill [(6, 3)] x with xregs := x.xregs.set 0 0x00010001 })
       let c : Instr := .iadd (rw 248 8 6 0 4)
       IssuesAlone (carryState r [9] false) rk 0 r c ∧ (planOf c).hasCarry = true
        ∧ (laneOperands r (r.lane 0) (planOf c)).isOk = false
        ∧ nextHas (exec c (carryState r [9] false)) (fun t => (laneOf t rk 0).st == .parked
            && (carryBuf t.carry 1 5 0).gens == []) = true) := by decide +kernel

/-! ### Accesses that fail -/

/-- The cause and address under which a memory word parks the lone item. -/
def parksAt (i : Instr) (r : Rod) (s : State) : Option (Nat × Nat) :=
  match exec i s with
  | .next t =>
    if (laneOf t rk 0).st = .parked && { laneOf t rk 0 with st := .runnable, record := none } = r.lane 0 then
      (t.frame fr).records.getLast?.map (fun x => (x.cause.toNat, x.addr.toNat))
    else none
  | _ => none

/-- The first page of an access fails, and no lookup changes anything. -/
def pageFails (r : Rod) (need : Need) (va n : Nat) : Bool :=
  let s := warmed (inState r) r need va n
  match (s.pages fr (s.asidOf rk r) need (pageStarts va n)).1 with
  | .error c => c == .notPresent && !s.failsLate fr (s.asidOf rk r) need (pageStarts va n)
  | .ok _ => false

/-- Addresses that are not aligned, or of no page (LoadsTakeEntries, GlobalStores, AtomicUpdates). -/
theorem witness_LoadsTakeEntries_faults :
    let odd := soloRod (fill [(4, 0x2002), (8, 1)])
    let far := soloRod (fill [(4, 0x2000), (5, 1), (8, 1)])
    let loads := [Instr.ld (mw 8 4), .lds (mw 8 4), .lda (mw 8 4)]
    let stores := [Instr.st (mw 8 4), .sts (mw 8 4), .stl (mw 8 4)]
    let atoms := [Instr.atom (rw 2 4 8 0 0x1200), .cas (rw 2 4 8 6 0x1200), .atadd2 (rw 2 4 8 0 0x1200), .red (rw 0 4 8 0 0x1200)]
    (loads ++ stores ++ atoms).all (fun i => decide (IssuesAlone (inState odd) rk 0 odd i)
      && decide (IssuesAlone (inState far) rk 0 far i)) = true
    ∧ (∀ i ∈ loads.tail ++ stores.tail ++ atoms, parksAt i odd (inState odd) = some (0x06, 0x2002))
    ∧ (∀ i ∈ loads ++ stores ++ atoms, parksAt i far (inState far) = some (0x07, 0x100002000))
    ∧ (∀ need ∈ [Need.read, .write, .both], pageFails far need 0x100002000 4 = true)
    ∧ mwHeld (mw 8 4) odd .pair ∧ mwHeld (mw 8 4) far .pair
    ∧ (odd.lane 0).deferred = [] ∧ (odd.lane 0).writes = []
    ∧ (∀ i ∈ atoms, (laneOperands far (far.lane 0) (planOf i)).isOk = true) := by decide +kernel

theorem witness_LoadsTakeEntries_faultPages :
    let far := soloRod (fill [(4, 0x2000), (5, 1), (8, 1)])
    let s := warmed (inState far) far .read 0x100002000 4
    (s.pages fr (s.asidOf rk far) .read (pageStarts 0x100002000 4)).2 = s := sameState _ _ (by decide +kernel)

/-- The same in the frame store; what an item may still read of a byte that another has replaced (FrameStoreAccess). -/
theorem witness_FrameStoreAccess_faults :
    let odd := soloRod (fill [(4, 2), (8, 1)])
    let far := soloRod (fill [(4, 4096), (8, 1)])
    [Instr.ldf (mw 8 4), .stf (mw 8 4), .atomf (rw 2 4 8 0 0x1000)].all (fun i =>
      decide (IssuesAlone (inState odd) rk 0 odd i) && decide (IssuesAlone (inState far) rk 0 far i)
        && parksAt i odd (inState odd) == some (0x06, 2) && parksAt i far (inState far) == some (0x0A, 4096)) = true
    ∧ mwHeld (mw 8 4) odd .reg ∧ mwHeld (mw 8 4) far .reg
    ∧ (laneOperands far (far.lane 0) (planOf (.atomf (rw 2 4 8 0 0x1000)))).isOk = true := by decide +kernel

theorem witness_FrameStoreAccess_views :
    let r := soloRod (fill [(4, 8)])
    let t := placedTeam.laneWrite 1 8 [7]
    let u := (t.laneWrite 0 8 [9]).ordered [0]
    t.unseen = [{ item := 1, addr := 8, old := 0, num := 1 }] ∧ (t.staleFor 0 8 4).length = 1 ∧ t.staleFor 1 8 4 = []
    ∧ IssuesFreely ((inState r).setTeam tk t) rk 0 r (.ldf (mw 8 4)) ∧ mwOffset (mw 8 4) (r.lane 0) = 8
    -- what item 0 wrote over item 1's byte is ordered: the initial value is read no more (R179, R197)
    ∧ u.unseen = [] ∧ cellGet u.fs 8 = 9
    ∧ nextHas (exec (.ldf (mw 8 4)) ((inState r).setTeam tk t)) (fun v => v.free == (inState r).free + 1
        && (laneOf v rk 0).pc == BitVec.ofNat 64 (placedAt + 8)) = true := by decide +kernel

/-! ### Translation (TranslationControl) -/

/-- Tables of four levels at 0x20000 to 0x23000: leaves of 1 GiB, 2 MiB and 4 KiB, and sixteen entries of one 64 KiB page; lease
class 3, or 0 for the 2 MiB page, which is read only (R414 to R416). -/
def tabled : State :=
  let l : List (Nat × DWord) :=
    [(0x20000, 0x21001), (0x20008, 0x60000003), (0x21000, 0x22001), (0x21008, 0x4000061F), (0x22000, 0x23001), (0x22008, 0x600007),
     (0x23000, 0x5617), (0x23010, 0x6797), (0x23018, 0x760B)]
      ++ (List.range 16).map (fun k => (0x23080 + 8 * k, BitVec.ofNat 64 (0x70657 + 4096 * k)))
  let s := inState (soloRod id)
  { s with
    mem := l.foldl (fun m e => putDword m e.1 e.2) s.mem
    hub := { s.hub with asids := tableSet 1 { root := 0x20000, part := 0, valid := true } s.hub.asids } }

/-- Where a page lies, how long it is and its first address, or the cause that ends the access. -/
def walkOf (s : State) (va : Nat) (need : Need) : Except Nat (Nat × Nat × Nat) :=
  match (s.page { p := fr, asid := 1, va := va } need).1 with
  | .ok x => .ok (x.va, x.bytes, x.pa)
  | .error c => .error c.code.toNat

def walksTo (va : Nat) (need : Need) (x : Except Nat (Nat × Nat × Nat)) : Bool :=
  match walkOf tabled va need, x with
  | .ok a, .ok b => a == b
  | .error a, .error b => a == b
  | _, _ => false

theorem witness_TranslationControl_walk :
    let s := tabled
    (s.frame fr).tlb = [] ∧ (s.die fr.die).tlb = [] ∧ s.hub.walks = [] ∧ (s.asidEntry 1).valid = true
    ∧ (∀ a ∈ [0x20000, 0x21000, 0x22000, 0x23000], s.inPartition 0 a = true ∧ s.entryReads a)
    ∧ tableWord s 0x23080 = 0x70657 ∧ tableWord s 0x230F8 = 0x7F657 := by decide +kernel

theorem witness_TranslationControl_walkBlocks :
    walksTo 0x40000123 .read (.ok (0x40000000, 2 ^ 30, 0x40000000)) = true
    ∧ walksTo 0x212345 .read (.ok (0x200000, 2 ^ 21, 0x600000)) = true ∧ walksTo 0x212345 .write (.error 0x08) = true
    ∧ walksTo 0x8000000000 .read (.error 0x07) = true ∧ walksTo (2 ^ 47) .read (.error 0x07) = true := by decide +kernel

theorem witness_TranslationControl_walkPages :
    walksTo 0xABC .read (.ok (0, 4096, 0x5000)) = true ∧ walksTo 0x1000 .read (.error 0x07) = true
    ∧ walksTo 0x2000 .read (.error 0x09) = true ∧ walksTo 0x3000 .write (.error 0x07) = true := by decide +kernel

theorem witness_TranslationControl_walkRun : walksTo 0x1F123 .execute (.ok (0x10000, 65536, 0x70000)) = true := by decide +kernel

/-- A translation that the frame holds, for an hour. -/
theorem witness_TranslationControl_held :
    let x : Xlat := { asid := 1, part := 0, glob := false, va := 0x9000, pa := 0xA000, bytes := 4096, r := true, w := false,
                      x := false, ord := 0, expiry := 3600000000000 }
    let s := tabled.modFrame fr (fun f => { f with tlb := [x] })
    (s.frame fr).tlb = [x] ∧ x.covers 1 (s.asidEntry 1).part 0x9ABC = true ∧ x.permits .read = true
    ∧ s.hub.now = 0 ∧ pageStarts 0x9FFE 4 = [0x9FFE, 0xA000] := by decide +kernel

theorem witness_TranslationControl_lasts (p : FrameId) :
    (BitVec.ofNat 64 (0 + Config.clockSkew p % 41 - 20)).toNat + 1000 ≤ 3600000000000 := by
  have h : Config.clockSkew p % 41 < 41 := Nat.mod_lt _ (by decide)
  rw [BitVec.toNat_ofNat, Nat.mod_eq_of_lt (by omega)]
  omega

/-- The second item's page has a table in a poisoned sector: no first fault (LoadsTakeEntries). -/
def poisonRod : Rod :=
  pairRod (fun x => withPred 1 (fill [(4, 0x2000)] x)) (fun x => withPred 1 (fill [(4, 0x40000000)] x))
def poisonTables : State :=
  let s := inState poisonRod
  { s with mem := putDword s.mem 0x11008 0x12001, hub := { s.hub with poisoned := [0x12000 / 64] } }
def poisonWalk : State :=
  warmed (warmed poisonTables poisonRod .read 0x2000 4) poisonRod .read 0x40000000 4

theorem witness_LoadsTakeEntries_poison :
    let g : MWord := { mw 8 4 with g := onP1 }
    IssuesFreely poisonWalk rk 0 poisonRod (.ldff g) ∧ poisonRod.subRod 0 = (1#32 <<< 0) ||| (1#32 <<< 1)
    ∧ (match (poisonWalk.pages fr 1 .read (pageStarts 0x40000000 4)).1 with | .error c => c == .poison | _ => false) = true
    ∧ (poisonWalk.pages fr 1 .read (pageStarts 0x2000 4)).1.isOk = true
    ∧ poisonWalk.failsLate fr 1 .read (pageStarts 0x40000000 4) = false
    ∧ nextHas (exec (.ldff g) poisonWalk) (fun t => (laneOf t rk 0).loads.length == 1 && (laneOf t rk 1).st == .parked
        && (laneOf t rk 1).pred 1 && (t.frame fr).records.map (fun (x : Record) => (x.cause, x.lanes)) == [(0x18, 2)]) = true := by
  decide +kernel

theorem witness_LoadsTakeEntries_poisonPages :
    (poisonWalk.pages fr 1 .read (pageStarts 0x2000 4)).2 = poisonWalk
    ∧ (poisonWalk.pages fr 1 .read (pageStarts 0x40000000 4)).2 = poisonWalk :=
  ⟨sameState _ _ (by decide +kernel), sameState _ _ (by decide +kernel)⟩

/-- A load that returned this value. -/
def isValue (r : Returned) (v : Nat) : Bool := match r with | .value n => n == v | .mark _ => false

/-! ### Copies of a sector (LoadReturns, GlobalStores, AtomicUpdates, FencesAndMaintenance) -/

/-- A store's byte in the frame, in the P die that owns the sector, and there once a core chiplet has read it. -/
def copies0 : State := homed (inState atPage)
def inFrame : State := (copies0.writeSeg fr .frame true false 128 0 [7]).2
def inDie : State := (copies0.writeSeg fr .own false false 128 0 [7]).2
def sharedOut : State := inDie.readMiss 8 128
/-- A byte in the cache of an NC die. -/
def ncFrame : FrameId := { die := 0, frame := 0 }
def inNcDie : State := (copies0.writeSeg ncFrame .die false false 128 0 [7]).2

theorem witness_LoadReturns_kinds :
    let at_ (kind : LoadKind) (xs : List Xlat) : LoadEntry := { loadEntry false with kind := kind, value := 9, xlats := xs }
    let s := inState (loading false)
    let xs := (loadEntry false).xlats
    let old := xs.map (fun x => { x with bytes := 1 })
    isValue (s.performLoad rk (loading false) (at_ .atomic xs)).1 9 = true
    ∧ isValue (s.performLoad rk (loading false) (at_ .lda xs)).1 0 = true
    ∧ (s.pages fr 1 .read (pageStarts 0x2000 4)).1.isOk = true
    ∧ isValue (s.performLoad rk (loading false) (at_ .ld [])).1 0 = true
    ∧ physOf xs 0x203E = some (0x203E, 0) ∧ physOf xs 0x2040 = some (0x2040, 0) ∧ physOf old 0x203E = none
    ∧ piecesOf xs 0x203E 4 = [{ sector := 128, off := 62, len := 2, ord := 0 }, { sector := 129, off := 0, len := 2, ord := 0 }]
    := by decide +kernel

/-- Every copy that a read may find, and the home's bytes (LoadReturns). -/
theorem witness_LoadReturns_copies :
    let s := copies0
    deviceSector 128 = true ∧ deviceSector (2 ^ 41 / 64) = false ∧ s.severed fr.die 128 = false
    ∧ s.severed fr.die (2 ^ 41 / 64) = false ∧ s.frameSector fr 128 false = none
    ∧ (∀ q ∈ s.framesOfDie fr.die, s.frameSector q 128 false = none) ∧ s.dieSector fr.die 128 false = none
    ∧ (s.dir 128).st = .dI ∧ s.poisoned 128 = false
    ∧ (inFrame.frameSector fr 128 false).any (fun x => x.valid &&& segMask 0 1 == segMask 0 1) = true
    ∧ (inDie.dieSector fr.die 128 false).any (fun x => x.valid == allBytes && x.st == .m) = true ∧ inDie.framesClean fr.die 128 false
    ∧ Config.isStream fr.die = true ∧ (inDie.readSeg fr .own false 128 0 1).2.1 = [7] := by decide +kernel

/-- Writes and atomics in a die cache (GlobalStores, AtomicUpdates). -/
theorem witness_GlobalStores_die :
    inDie.watched 128 = false ∧ (inDie.dieSector fr.die 128 false).any (fun x => x.st == .m) = true
    ∧ copies0.framesClean fr.die 128 true ∧ copies0.framesClean 0 128 false ∧ Config.isStream 0 = false
    ∧ ((copies0.writeSeg fr .die false true 128 3 [5]).2.dieSector fr.die 128 true).map (fun x => (x.dirty, x.st)) = some (8, .m)
    ∧ (inDie.atomicSeg fr .die false 128 0 4 (fun v => some (v + 1))).2.1 = 7
    ∧ ((inDie.atomicSeg fr .die false 128 0 4 (fun v => some (v + 1))).2.2.readSeg fr .own false 128 0 4).2.1 = [8, 0, 0, 0] := by
  decide +kernel

/-- What a release, an acquire, a flush and a discard start from (FencesAndMaintenance). -/
theorem witness_FencesAndMaintenance_copies :
    (inFrame.frameSector fr 128 false).any (fun x => x.dirty != 0) = true
    ∧ ((inFrame.releaseAt fr 1).dieSector fr.die 128 false).map (fun x => x.dirty) = some 1
    ∧ (((inFrame.releaseAt fr 1).acquireAt fr 1).frame fr).cache = []
    ∧ Config.agentOfDie fr.die = some 0 ∧ Config.agentOfDie 0 = none
    -- owned and dirty, then shared; of an NC die; clean
    ∧ (inDie.dieSector fr.die 128 false).map (fun x => (x.st, x.dirty)) = some (.m, 1) ∧ inDie.framesClean fr.die 128 false
    ∧ (sharedOut.dieSector fr.die 128 false).map (fun x => (x.st, x.dirty)) = some (.o, 1)
    ∧ ((sharedOut.dir 128).st, (sharedOut.dir 128).owner) = (.dO, 0)
    ∧ (inNcDie.dieSector 0 128 false).map (fun x => x.dirty) = some 1 ∧ (inNcDie.dir 128).st = .dI
    ∧ ((copies0.readSeg fr .die false 128 0 1).2.2.dieSector fr.die 128 false).map (fun x => (x.st, x.dirty)) = some (.e, 0)
    ∧ cellGet (inDie.flushSector fr.die 128 false 3).mem 0x2000 = 7 ∧ cellGet (inNcDie.flushSector 0 128 false 3).mem 0x2000 = 7
    ∧ cellGet (sharedOut.discardSector fr.die 128 false 3).mem 0x2000 = 7
    ∧ (sharedOut.discardSector fr.die 128 false 3).dieSector fr.die 128 false = none := by decide +kernel

/-! ### Queues, barriers and joins that end (TokenQueues, FrameBarriers, JoinedWordsSign, CommandsFinish) -/

theorem witness_TokenQueues_faults :
    let r := soloRod (fill [(4, 77)])
    let bound := (inState r).setTeam tk (placedTeam.setQueue 3 { tokens := [9], reserved := 0, producer := 2, consumer := 2 })
    let full := (inState r).setTeam tk (placedTeam.setQueue 3 { tokens := List.replicate 15 9, reserved := 1, producer := 1, consumer := 1 })
    [Instr.tkput (rw 0 4 3 0), .tkget (rw 2 0 3 0), .tktry (rw 2 0 3 1)].all (fun i =>
      decide (IssuesFreely bound rk 0 r i) && parksAt i r bound == some (0x03, 0)) = true
    ∧ IssuesFreely full rk 0 r (.tkput (rw 0 4 3 0)) ∧ parksAt (.tkput (rw 0 4 3 0)) r full = some (0x0F, 0) := by decide +kernel

/-- The second arrival frees the rod that waits, and both may arrive again. -/
theorem witness_FrameBarriers_freed :
    let r := soloRod (fill [(4, 1)])
    let q := { soloRod (fun x => { x with st := .blocked, wait := .barMeet 1 false }) with rod := 1, arrived := 2 }
    let s := ((inState r).setTeam tk (placedTeam.setBarrier 1 { expected := 2, arrivals := 1, gen := false, gone := 0 })).setRod
      (rodKey fr 1) q
    IssuesFreely s rk 0 r (.barMeet (rw 0 0 1 0)) ∧ s.rod? (rodKey fr 1) = some q ∧ q.divert = false ∧ r.divert = false
    ∧ [Instr.barMeet (rw 0 0 1 0), .barPass (rw 0 0 1 0 0x4000)].all (fun i => nextHas (exec i s) (fun t =>
        (laneOf t (rodKey fr 1) 0).st == .runnable && (laneOf t (rodKey fr 1) 0).pc == BitVec.ofNat 64 (placedAt + 8)
          && (laneOf t rk 0).st == .runnable && (laneOf t rk 0).pc == BitVec.ofNat 64 (placedAt + 8)
          && (t.rod? (rodKey fr 1)).map (fun x => x.arrived) == some 0 && (t.rod? rk).map (fun x => x.arrived) == some 0
          && (t.team? tk).map (fun x => x.barrier 1) == some { expected := 2, arrivals := 0, gen := true, gone := 0 }))
      = true := by decide +kernel

/-- A reduction whose only member signs. -/
theorem witness_JoinedWordsSign_sole :
    let i : Instr := .rredJoined (rw 2 4 0 0 0x210)
    let s := joinState 1
    IssuesFreely s rk 0 cmdRod i ∧ s.queueClosed fr .ve = false
    ∧ (∀ e ∈ s.rods, e.1.frame = fr → ∀ a : Fin 32, e.2.lanes[a].st ≠ .blocked)
    ∧ nextHas (exec i s) (fun u => ((u.frame fr).engine .ve).entries.map (fun c => (reduceResult c, c.partials.length, c.ord))
        == [(0x100, 1, 0)] && (u.team? tk).map (fun x => (x.join 2).base) == some 1) = true := by decide +kernel

/-- A reduction of two rods ends: both receive the sum; a copy from memory ends, and its token stands in its slot. -/
def reducing : State :=
  let old : Instance :=
    { word := wordOf (.rredJoined (rw 2 4 0 0 0x210)), e0 := 0, e1 := 0, e2 := 0, captured := some 1, item := 32, count := 0,
      signed := 2, last := 1, ord := 7, counted := true, partials := [{ rod := 1, value := 7, lanes := 1, sig := 7 }] }
  let q := { soloRod (fun x => { x with joined := [{ j := 2, sig := 7, dst := 3, wide := false }] }) with rod := 1 }
  let s := (pendingJoin old).setRod (rodKey fr 1) q
  go (.engineCommandStart fr .ve) (go (.rredJoined (rw 2 4 0 0 0x210)) s)

theorem witness_CommandsFinish_rods :
    (match reducing.entry? fr .ve 0 with
      | some c => c.isReduce && c.st == .running && c.partials.map (fun q => q.rod) == [1, 0] && decide (reducing.nothingWaits fr)
      | none => false) = true
    ∧ reducing.memberSlot tk 1 = some 1
    ∧ nextHas (exec (.engineCommandFinish fr .ve 0) reducing) (fun t => ((t.frame fr).engine .ve).entries == []
        && (laneOf t rk 0).reg 2 == 0x107 && (laneOf t (rodKey fr 1) 0).reg 3 == 0x107
        && (laneOf t rk 0).joined == [] && (laneOf t (rodKey fr 1) 0).joined == []) = true
    ∧ nextHas (exec (.engineCommandFinish fr .ce 0) (started (.cpin (putting (ew 12 14 0))))) (fun t =>
        ((t.frame fr).engine .ce).entries == []
          && (t.team? tk).map (fun x => ((x.queue 4).tokens.length, (x.queue 4).reserved, cellsRead x.fs 0x40 2)) == some (1, 0, [0, 0]))
      = true := by decide +kernel

/-! ### Directory, fetch, resumption, saving and the stuck frame -/

/-- A read of a sector whose owner already shares it, and a sector whose home tower has been left out (Coherence). -/
def owning : State := ownedDirty.readMiss 1 sec
def unserving : State :=
  { cohState with hub := { cohState.hub with isolated := withBit cohState.hub.isolated 32 true, override := [(sec / 64, 0)] } }

theorem witness_Coherence_owner :
    (ownedDirty.dir sec).st = .dX ∧ (owning.dir sec).st = .dO ∧ (owning.dir sec).owner = 0 ∧ owning.heldAs 0 sec = .o
    ∧ nextHas (exec (.readShared 2 sec) owning) (fun t => t.heldAs 2 sec == .s && t.heldAs 0 sec == .o
        && (t.dir sec).st == .dO && (t.dir sec).holders == 7 && cellGet t.mem (64 * sec) == 1) = true
    ∧ unserving.unserved sec = true ∧ unserving.severed (agentNode 0) sec = true
    ∧ cellGet (go (.untrackedWrite sec 2 0x0700) unserving).mem (64 * sec + 1) = 2 := by decide +kernel

theorem witness_Coherence_ownerGather : owning.gather 0 sec = owning := by decide +kernel

/-- A YIELD whose guard is false in every item has no effect (PlainControl). -/
theorem witness_PlainControl_yield :
    let i : Instr := .yield { rw 0 0 0 0 with g := { neg := false, pred := 2 } }
    freely splitRod i = true ∧ splitRod.subRod 0 &&& splitRod.maskWhere (fun x => x.guard { neg := false, pred := 2 }) = 0
    ∧ nextHas (exec i (inState splitRod)) (fun t => (t.rod? rk).map (fun q => q.yielded) == some false
        && (laneOf t rk 1).pc == BitVec.ofNat 64 (placedAt + 8)) = true
    ∧ nextHas (exec (.yield (rw 0 0 0 0)) (inState splitRod)) (fun t => (t.rod? rk).map (fun q => q.yielded) == some true) = true := by
  decide +kernel

/-- A word that was read ahead and has been written since; an interval that is over at the end of a step (StepRunsDecodedWord). -/
theorem witness_StepRunsDecodedWord_ahead :
    let old := (banked (homed ((solo id).placeWord 0x001C000000000000))).holdCode fr (BitVec.ofNat 64 placedAt)
    let s := (old.writeSeg fr .frame true false (placedAt / 64) 0 (leBytes 8 0x289C100012345678)).2
    (s.frame fr).codeHeld = [(1, BitVec.ofNat 64 placedAt, 0x001C000000000000)]
    ∧ (match (s.page { p := fr, asid := 1, va := placedAt } .execute).1 with | .ok x => x.x | .error _ => false) = true
    ∧ (s.readSeg fr .frame false (placedAt / 64) 0 8).2.1 = leBytes 8 0x289C100012345678
    ∧ (s.frame fr).olderWords 1 (BitVec.ofNat 64 placedAt) 0x289C100012345678 = [0x001C000000000000]
    ∧ (let t := (solo id).modFrame fr (fun f => { f with stuckSince := some 5 })
       t.frameHeld fr = false ∧ (t.closeStep.frame fr).stuckSince = none) := by decide +kernel

/-- A slice that ends lets the rod's TKGET take the token that came meanwhile (TrapsAndResumes). -/
theorem witness_TrapsAndResumes_tokens :
    let r := soloRod (fun x => { x with st := .blocked, wait := .tkget 3 2 })
    let sliced := go (.trapSlice (rw 0 4 0 0 0x100)) (withFw (inState r) (fill [(4, 0)]))
    let s := sliced.setTeam tk (placedTeam.setQueue 3 { tokens := [9], reserved := 0, producer := 1, consumer := 1 })
    (s.rod? rk).map (fun q => q.stop) = some .slice ∧ fwReady s (fill [(4, 0)]) (.resumeRun (rw 0 4 0 0 0x300)) = true
    ∧ ((s.frame fr).recordOfHandle 0).map (fun x => (x.isEngine, x.ofRod r)) = some (false, true)
    ∧ fwRun s (fill [(4, 0)]) (.resumeRun (rw 0 4 0 0 0x300)) (fun t => (t.rod? rk).map (fun q => q.stop) == some .none
        && (laneOf t rk 0).st == .runnable && (laneOf t rk 0).reg 2 == 9) = true := by decide +kernel

/-- CTXSV of a rod whose row a running command names waits, and completes after it (EngineAccessAndContexts). -/
def waitingRod : State :=
  let s := homed (started (.aczero (ew 18 20 0)))
  s.modRod rk (fun r => { r with fast := 0, slow := 0, stop := .halt, rows := [0] })

theorem witness_EngineAccessAndContexts_waitingRod :
    let s := withFw waitingRod ctxRegs
    let t := go (.ctxsv (rw 0 4 6 0)) s
    let u := go (.engineCommandFinish fr .me 0) t
    fwReady waitingRod ctxRegs (.ctxsv (rw 0 4 6 0)) = true
    ∧ (s.rod? rk).map (fun q => (q.stop, s.rowsQuiet fr q, q.rows)) = some (.halt, false, [0])
    ∧ (t.frame fr).fw = .savingRod 0 0x1000 ∧ (t.finishSave fr).frame fr = t.frame fr
    ∧ (u.rod? rk).map (fun q => (u.rowsQuiet fr q, (List.finRange 32).all (fun n => q.lanes[n].loads == []))) = some (true, true)
    ∧ (u.team? tk).isSome = true := by decide +kernel

/-- The context that waits to save the rod of `ctxState`; once it runs again it is the state of `witness_EngineAccessAndContexts_saved`,
whose image is written. -/
def savingState : State := (withFw ctxState ctxRegs).modFrame fr (fun f => { f with fw := .savingRod 0 0x1000 })

theorem witness_EngineAccessAndContexts_savedRod :
    (savingState.frame fr).fw = .savingRod 0 0x1000 ∧ savingState.rod? rk = some bareRod ∧ savingState.rowsQuiet fr bareRod = true
    ∧ (List.finRange 32).all (fun n => bareRod.lanes[n].loads == []) = true
    ∧ savingState.modFrame fr (fun f => { f with fw := .running }) = withFw ctxState ctxRegs
    ∧ (match (savingState.modFrame fr (fun f => { f with fw := .running })).saveImage fr 0x1000
          (rodImage (savingState.modFrame fr (fun f => { f with fw := .running })) bareRod 32 0 [] []) with
        | .ok s1 => s1.rod? rk == some bareRod && s1.team? tk == some placedTeam
        | .error _ => false) = true := by
  have h : savingState.modFrame fr (fun f => { f with fw := .running }) = withFw ctxState ctxRegs := by decide +kernel
  refine ⟨by decide +kernel, by decide +kernel, by decide +kernel, by decide +kernel, h, ?_⟩
  rw [h]
  exact witness_EngineAccessAndContexts_saved

/-- A stuck frame with a rod to evict is not the watchdog's (DeadlinesAndWatchdogs). -/
theorem witness_DeadlinesAndWatchdogs_evictee :
    let s := stuckState
    s.frameStuck fr = true ∧ (s.evictee fr).isSome = true
    ∧ nextHas (exec (.stuckFrameWatchdog fr) (s.modFrame fr (fun f => { f with stuckSince := some 0 }))) (fun t =>
        (t.frame fr).stuckSince == none && (t.frame fr).records == []) = true := by decide +kernel

end Sys2Proof.Tests
end

section
namespace Sys2Proof.Machine

/-! ## How the lanes of a sub-rod part (R43) -/

/-- The lowest lane of a mask with the outcome of lane `l`, as `Rod.regroup` finds it. -/
def Rod.leader (r : Rod) (m : BitVec 32) (l : Fin 32) : Nat :=
  ((List.range 32).find? (fun k => m.getLsbD k && (r.lane k).sameOutcome r.lanes[l])).getD l.val

/-- A lane after its mask has parted by outcome, where it did part. -/
def Rod.parted (r : Rod) (m : BitVec 32) (l : Fin 32) (x : Lane) : Lane :=
  if r.leader m l = lowest m then x else { x with group := r.nextGroup + r.leader m l }

theorem parted_group (r : Rod) (m : BitVec 32) (l : Fin 32) (x : Lane) :
    (r.parted m l x).group = if r.leader m l = lowest m then x.group else r.nextGroup + r.leader m l := by
  unfold Rod.parted
  split <;> rfl

theorem regroup_cases (r : Rod) (m : BitVec 32) :
    ((∀ l : Fin 32, m.getLsbD l.val = true → r.leader m l = lowest m) ∧ r.regroup m = r)
    ∨ r.regroup m = { r.mapLanes m (r.parted m) with nextGroup := r.nextGroup + 32 } := by
  by_cases h : (List.finRange 32).all (fun l => !m.getLsbD l.val || r.leader m l == lowest m) = true
  · refine .inl ⟨fun l hl => ?_, if_pos h⟩
    have hal := (List.all_eq_true.1 h) l (List.mem_finRange l)
    simp only [hl, Bool.not_true, Bool.false_or, beq_iff_eq] at hal
    exact hal
  · exact .inr (if_neg h)

theorem sameOutcome_refl (x : Lane) : x.sameOutcome x = true := (sameOutcome_iff _ _).2 ⟨rfl, rfl, rfl, rfl⟩

theorem sameOutcome_symm {x y : Lane} (h : x.sameOutcome y = true) : y.sameOutcome x = true := by
  obtain ⟨h1, h2, h3, h4⟩ := (sameOutcome_iff _ _).1 h
  exact (sameOutcome_iff _ _).2 ⟨h1.symm, h2.symm, h3.symm, h4.symm⟩

theorem sameOutcome_trans {x y z : Lane} (h : x.sameOutcome y = true) (h' : y.sameOutcome z = true) :
    x.sameOutcome z = true := by
  obtain ⟨h1, h2, h3, h4⟩ := (sameOutcome_iff _ _).1 h
  obtain ⟨g1, g2, g3, g4⟩ := (sameOutcome_iff _ _).1 h'
  exact (sameOutcome_iff _ _).2 ⟨h1.trans g1, h2.trans g2, h3.trans g3, h4.trans g4⟩

/-- A lane of the mask has a leader in the mask, of its own outcome. -/
theorem leader_spec (r : Rod) {m : BitVec 32} {l : Fin 32} (hl : m.getLsbD l.val = true) :
    ∃ k : Fin 32, r.leader m l = k.val ∧ r.lanes[k].sameOutcome r.lanes[l] = true := by
  unfold Rod.leader
  cases hf : (List.range 32).find? (fun k => m.getLsbD k && (r.lane k).sameOutcome r.lanes[l]) with
  | none =>
    rw [List.find?_eq_none] at hf
    exact absurd (hf l.val (by simp)) (by simp [hl, r.lane_eq l, sameOutcome_refl])
  | some k =>
    have hk : k < 32 := List.mem_range.1 (List.mem_of_find?_eq_some hf)
    have hs := List.find?_some hf
    simp only [Rod.lane_lt r hk, Bool.and_eq_true] at hs
    exact ⟨⟨k, hk⟩, rfl, hs.2⟩

/-- Two lanes of the mask have one leader exactly when they have one outcome. -/
theorem leader_eq_iff (r : Rod) {m : BitVec 32} {a b : Fin 32} (ha : m.getLsbD a.val = true) (hb : m.getLsbD b.val = true) :
    r.leader m a = r.leader m b ↔ r.lanes[a].sameOutcome r.lanes[b] = true := by
  constructor
  · intro h
    obtain ⟨k, hk, hka⟩ := leader_spec r ha
    obtain ⟨j, hj, hjb⟩ := leader_spec r hb
    obtain rfl : k = j := Fin.ext (hk.symm.trans (h.trans hj))
    exact sameOutcome_trans (sameOutcome_symm hka) hjb
  · intro h
    obtain ⟨k, hk, -⟩ := leader_spec r ha
    have hp : (fun k => m.getLsbD k && (r.lane k).sameOutcome r.lanes[a])
        = fun k => m.getLsbD k && (r.lane k).sameOutcome r.lanes[b] := by
      funext k
      have : (r.lane k).sameOutcome r.lanes[a] = (r.lane k).sameOutcome r.lanes[b] :=
        Bool.eq_iff_iff.2 ⟨(sameOutcome_trans · h), (sameOutcome_trans · (sameOutcome_symm h))⟩
      rw [this]
    unfold Rod.leader
    rw [hp]
    cases hf : (List.range 32).find? (fun k => m.getLsbD k && (r.lane k).sameOutcome r.lanes[b]) with
    | some _ => rfl
    | none =>
      rw [List.find?_eq_none] at hf
      exact absurd (hf b.val (by simp)) (by simp [hb, r.lane_eq b, sameOutcome_refl])

theorem parted_group_eq_iff {r : Rod} {m : BitVec 32} {g : Nat}
    (hg : ∀ n : Fin 32, m.getLsbD n.val = true → r.lanes[n].group = g) (hn : ∀ n : Fin 32, r.lanes[n].group < r.nextGroup)
    {a b : Fin 32} (ha : m.getLsbD a.val = true) (hb : m.getLsbD b.val = true) :
    (r.parted m a r.lanes[a]).group = (r.parted m b r.lanes[b]).group ↔ r.leader m a = r.leader m b := by
  have h1 := hg a ha
  have h2 := hg b hb
  have h3 := hn a
  rw [parted_group, parted_group]
  split <;> split <;> omega

/-- Parting changes a lane's sub-rod number alone, and keeps it below the next fresh one. -/
theorem parted_frame {r : Rod} {m : BitVec 32} {n : Fin 32} (hn : r.lanes[n].group < r.nextGroup)
    (hm : m.getLsbD n.val = true) :
    { r.parted m n r.lanes[n] with group := r.lanes[n].group } = r.lanes[n]
      ∧ (r.parted m n r.lanes[n]).group < r.nextGroup + 32 := by
  obtain ⟨k, hk, -⟩ := leader_spec r hm
  refine ⟨by unfold Rod.parted; split <;> rfl, ?_⟩
  rw [parted_group]
  split <;> omega

/-- A lane that left its sub-rod has a fresh number. -/
theorem parted_fresh {r : Rod} {m : BitVec 32} {n : Fin 32} (h : (r.parted m n r.lanes[n]).group ≠ r.lanes[n].group) :
    r.nextGroup ≤ (r.parted m n r.lanes[n]).group := by
  rw [parted_group] at h ⊢
  split at h
  · exact absurd rfl h
  · rw [if_neg ‹_›]
    exact Nat.le_add_right _ _

end Sys2Proof.Machine

open Sys2Proof Sys2Proof.Machine

/-- Settles O15: lanes of one outcome have one leader, and a sub-rod's number is its leader's. -/
theorem subRodsPartByOutcome : Obligations.SubRodsPartByOutcome := by
  intro r m g hg hn
  rcases regroup_cases r m with ⟨hall, he⟩ | he <;> rw [he]
  · refine ⟨fun a b ha hb => ?_, fun n => ⟨?_, fun _ => ?_, hn n⟩, fun a b ha _ h => absurd (hg a ha) h, ?_⟩
    rotate_left
    · rfl
    · rfl
    · rfl
    rw [← sameOutcome_iff, ← leader_eq_iff r ha hb, hg a ha, hg b hb, hall a ha, hall b hb]
    simp
  · have hlane := mapLanes_lane r m (r.parted m)
    refine ⟨fun a b ha hb => ?_, fun n => ?_, fun a b ha hb h => ?_, by simp only [Rod.mapLanes]⟩
    · simp only [hlane, ha, hb, if_true]
      rw [parted_group_eq_iff hg hn ha hb, leader_eq_iff r ha hb, sameOutcome_iff]
    · simp only [hlane]
      cases hm : m.getLsbD n.val with
      | false => exact ⟨rfl, fun _ => rfl, Nat.lt_add_right 32 (hn n)⟩
      | true => exact ⟨(parted_frame (hn n) hm).1, fun h => (nomatch h), (parted_frame (hn n) hm).2⟩
    · simp only [hlane, ha, hb, if_true, Bool.false_eq_true, if_false] at h ⊢
      have := parted_fresh (r := r) (m := m) (n := a) (by rwa [hg a ha])
      have := hn b
      omega
end

section
namespace Sys2Proof.Machine

/-! ## Words that change their rod alone -/

/-- The rod of the sub-rod that issues. -/
theorem IssuesFreely.rod {s : State} {k : RodKey} {l : Nat} {r : Rod} {i : Instr} (h : IssuesFreely s k l r i) :
    s.rod? k = some r := h.1.2.1

/-- A word that issues freely and makes `q` of its rod: the lanes of `q` part by outcome. -/
theorem issueWord_setRod {i : Instr} {body : Issue → State → State} {s : State} {k : RodKey} {l : Nat} {r q : Rod}
    (h : IssuesFreely s k l r i) (hb : body (mkIssue k r i (r.subRod l)) s = s.setRod k q) :
    issueWord i body s = .next (s.setRod k (q.regroup (r.subRod l))) := by
  rw [issueWord_free h, hb, State.modRod_of_some (State.rod?_setRod_same _ _ _), State.setRod_setRod]

/-- The lanes of a sub-rod that stands together share one outcome. -/
theorem together_lanes {r : Rod} {m : BitVec 32} {l : Nat} (h : r.together m l) {a b : Fin 32}
    (ha : m.getLsbD a.val = true) (hb : m.getLsbD b.val = true) :
    r.lanes[a].st = r.lanes[b].st ∧ r.lanes[a].pc = r.lanes[b].pc ∧ r.lanes[a].wait = r.lanes[b].wait
      ∧ r.lanes[a].record = r.lanes[b].record := by
  obtain ⟨a1, a2, a3, a4⟩ := (sameOutcome_iff _ _).1 (h a ha)
  obtain ⟨b1, b2, b3, b4⟩ := (sameOutcome_iff _ _).1 (h b hb)
  exact ⟨a1.symm.trans b1, a2.symm.trans b2, a3.symm.trans b3, a4.symm.trans b4⟩

/-- A sub-rod whose lanes all go on to the next word, whatever else becomes of them, stays together. -/
theorem regroup_advanced {r q : Rod} {m : BitVec 32} {l : Nat} (h : r.together m l)
    (hq : ∀ n : Fin 32, m.getLsbD n.val = true → q.lanes[n].sameOutcome r.lanes[n].advance = true) :
    q.regroup m = q := by
  refine regroup_together (fun a b ha hb => ?_)
  obtain ⟨h1, h2, h3, h4⟩ := together_lanes h ha hb
  obtain ⟨a1, a2, a3, a4⟩ := (sameOutcome_iff _ _).1 (hq a ha)
  obtain ⟨b1, b2, b3, b4⟩ := (sameOutcome_iff _ _).1 (hq b hb)
  rw [sameOutcome_iff]
  refine ⟨a1.trans (h1.trans b1.symm), ?_, a3.trans (h3.trans b3.symm), a4.trans (h4.trans b4.symm)⟩
  rw [a2, b2, Lane.advance_pc, Lane.advance_pc, h2]

/-! ## Reconvergence (R44, R45) -/

/-- RSYNC waits exactly where the item holds a mark of the word's address. -/
theorem rsyncLane_eq (x : Lane) :
    rsyncLane x = if x.marks.any (fun e => e.addr == x.pc) then
      { x with st := .syncWait, wait := .none, marks := x.marks.dropWhile (fun e => e.addr != x.pc) }
    else x.advance := by
  have hd : x.marks.dropWhile (fun e => e.addr != x.pc) = [] ↔ x.marks.any (fun e => e.addr == x.pc) = false := by
    simp [List.dropWhile_eq_nil_iff]
  unfold rsyncLane marksFrom
  cases hm : x.marks.dropWhile (fun e => e.addr != x.pc) with
  | nil => simp [hd.1 hm]
  | cons e t =>
    have : x.marks.any (fun e => e.addr == x.pc) = true := by
      rw [← Bool.not_eq_false, ← hd, hm]
      exact List.cons_ne_nil _ _
    simp [this]

/-- RCV's mark on an enabled item, which goes on (R44). -/
def Lane.pushMark (x : Lane) (w : BWord) (seq : BitVec 32) : Lane :=
  { x with
    marks := ({ addr := BitVec.ofInt 64 ((x.pc.toNat : Int) + 8 + 8 * w.tgt.toInt), seq } :: x.marks).take 8
    pc := x.pc + 8 }

theorem rcvBody_eq {w : BWord} {s : State} {k : RodKey} {r : Rod} {m : BitVec 32} (hr : s.rod? k = some r) :
    rcvBody w (mkIssue k r (.rcv w) m) s = s.setRod k
      { r.mapLanes m (fun _ x => if x.guard w.g then x.pushMark w r.markSeq else x.advance) with
        markSeq := r.markSeq + 1 } := by
  unfold rcvBody
  rw [show (mkIssue k r (.rcv w) m).key = k from rfl, State.modRod_of_some hr]
  refine congrArg (fun q : Rod => s.setRod k { q with markSeq := r.markSeq + 1 })
    (mapLanes_congr (m := m) (fun n hn => ?_))
  rw [enabled_eq, hn, Bool.true_and, show actsOn (.rcv w) r.lanes[n] = r.lanes[n].guard w.g from rfl]
  split <;> rfl

theorem rsyncBody_eq {w : RWord} {s : State} {k : RodKey} {r : Rod} {m : BitVec 32} (hr : s.rod? k = some r) :
    rsyncBody (mkIssue k r (.rsync w) m) s = s.setRod k
      (r.mapLanes m (fun _ x => if x.guard w.g then rsyncLane x else x.advance)) := by
  unfold rsyncBody
  rw [show (mkIssue k r (.rsync w) m).key = k from rfl, State.modRod_of_some hr]
  refine congrArg (s.setRod k) (mapLanes_congr (m := m) (fun n hn => ?_))
  rw [enabled_eq, hn, Bool.true_and, show actsOn (.rsync w) r.lanes[n] = r.lanes[n].guard w.g from rfl]

theorem waitsOn_iff (x : Lane) (e : Mark) : x.waitsOn e = true ↔ x.st = .syncWait ∧ x.marks.head? = some e := by
  simp [Lane.waitsOn]

theorem satisfied_iff (r : Rod) (e : Mark) : r.satisfied e = true ↔
    ∀ n : Fin 32, r.lanes[n].live = true → e ∈ r.lanes[n].marks →
      r.lanes[n].st = .syncWait ∧ r.lanes[n].marks.head? = some e := by
  simp only [Rod.satisfied, List.all_eq_true, List.mem_finRange, true_imp_iff, Bool.or_eq_true, Bool.not_eq_true',
    Bool.and_eq_false_iff, waitsOn_iff, List.contains_eq_mem, decide_eq_false_iff_not]
  refine forall_congr' (fun n => ⟨fun h hl he => ?_, fun h => ?_⟩)
  · rcases h with (h | h) | h
    · rw [hl] at h
      cases h
    · exact absurd he h
    · exact h
  · by_cases hl : r.lanes[n].live = true
    · by_cases he : e ∈ r.lanes[n].marks
      · exact .inr (h hl he)
      · exact .inl (.inr he)
    · exact .inl (.inl (Bool.eq_false_iff.2 hl))

/-- A lane of a rod whose mark is released. -/
theorem syncRelease_lane (r : Rod) (e : Mark) (n : Fin 32) :
    (r.syncRelease e).lanes[n] = if r.lanes[n].st = .syncWait ∧ r.lanes[n].marks.head? = some e then
      { r.lanes[n] with st := .runnable, marks := r.lanes[n].marks.tail, pc := r.lanes[n].pc + 8, group := r.nextGroup }
    else r.lanes[n] := by
  have h := mapLanes_lane r (r.maskWhere (fun x => x.waitsOn e)) (fun _ x =>
    ({ x with st := .runnable, marks := x.marks.drop 1, group := r.nextGroup }).advance) n
  rw [maskWhere_getLsbD] at h
  refine h.trans ?_
  simp only [waitsOn_iff, List.drop_one]
  rfl

theorem execSyncRelease_of_satisfied {s : State} {k : RodKey} {r : Rod} {lane : Fin 32} {e : Mark} {rest : List Mark}
    (hr : s.rod? k = some r) (hst : r.lanes[lane].st = .syncWait) (hm : r.lanes[lane].marks = e :: rest)
    (hs : r.satisfied e = true) : execSyncRelease k lane.val s = .next (s.setRod k (r.syncRelease e)) := by
  have hw : r.lanes[lane].waitsOn e = true := (waitsOn_iff _ _).2 ⟨hst, by rw [hm]; rfl⟩
  unfold execSyncRelease
  rw [State.modRod_of_some hr, Rod.lane_eq, hm]
  simp only [hw, hs, Bool.and_self, if_true]

end Sys2Proof.Machine

open Sys2Proof Sys2Proof.Machine

/-- Settles O17: RCV leaves its sub-rod together, RSYNC parts it by what `rsyncLane` says, and a release is due exactly where
the mark is satisfied. -/
theorem reconvergence : Obligations.Reconvergence := by
  refine ⟨fun w s k l r h => ?_, fun w s k l r h => ?_, fun s k r lane e rest hr hst hm hs => ?_⟩
  · refine (issueWord_setRod h (rcvBody_eq h.rod)).trans ?_
    rw [regroup_advanced h.2.2 (fun n hn => ?_)]
    · rfl
    · dsimp only
      rw [mapLanes_lane, hn, if_pos rfl]
      split <;> exact sameOutcome_refl _
  · refine (issueWord_setRod h (rsyncBody_eq h.rod)).trans ?_
    have hlane (x : Lane) : (if x.guard w.g then rsyncLane x else x.advance)
        = if x.guard w.g && x.marks.any (fun e => e.addr == x.pc) then
            { x with st := .syncWait, wait := .none, marks := x.marks.dropWhile (fun e => e.addr != x.pc) }
          else x.advance := by
      rw [rsyncLane_eq]
      cases x.guard w.g <;> rfl
    simp only [hlane]
  · refine ⟨r.syncRelease e, execSyncRelease_of_satisfied hr hst hm ((satisfied_iff r e).2 hs), ?_, fun n => ?_⟩
    · simp only [Rod.syncRelease, Rod.mapLanes]
    · have hlane : (r.syncRelease e).lanes[lane].group = r.nextGroup := by
        rw [syncRelease_lane, if_pos ⟨hst, by rw [hm]; rfl⟩]
      rw [syncRelease_lane, hlane]
end

section
namespace Sys2Proof.Machine

/-! ## Faults of some lanes of an instruction (R43, R366) -/

/-- The lanes of a fault list. -/
def faultMask (l : List (Nat × Cause × DWord)) : BitVec 32 := l.foldr (fun e m => m ||| (1#32 <<< e.1)) 0

theorem faultMask_getLsbD (l : List (Nat × Cause × DWord)) (n : Fin 32) :
    (faultMask l).getLsbD n.val = true ↔ ∃ e ∈ l, e.1 = n.val := by
  induction l with
  | nil => simp [faultMask]
  | cons e t ih =>
    have hbit : (1#32 <<< e.1).getLsbD n.val = true ↔ e.1 = n.val := by
      have := n.isLt
      simp only [BitVec.getLsbD_shiftLeft, BitVec.getLsbD_one, Bool.and_eq_true, decide_eq_true_eq, Bool.not_eq_true',
        decide_eq_false_iff_not]
      omega
    rw [show faultMask (e :: t) = faultMask t ||| (1#32 <<< e.1) from rfl, BitVec.getLsbD_or, Bool.or_eq_true, ih, hbit]
    simp only [List.mem_cons, exists_eq_or_imp]
    exact or_comm

/-- Lanes that fail with one cause at one address have one record. -/
theorem faultGroups_uniform {c : Cause} {a : DWord} : ∀ {l : List (Nat × Cause × DWord)}, l ≠ [] →
    (∀ e ∈ l, e.2 = (c, a)) → faultGroups l = [(faultMask l, c, a)]
  | [], h, _ => absurd rfl h
  | [(n, d)], _, h => by
    obtain rfl : d = (c, a) := h (n, d) (by simp)
    simp [faultGroups, faultMask]
  | (n, d) :: e :: t, _, h => by
    obtain rfl : d = (c, a) := h (n, d) (by simp)
    have ih := faultGroups_uniform (l := e :: t) (List.cons_ne_nil _ _) (fun x hx => h x (List.mem_cons_of_mem _ hx))
    rw [faultGroups, ih]
    simp [faultMask]

/-- The state once the lanes of a mask of an item's rod have parked under one record. -/
theorem takeFault_rod {s : State} {p : FrameId} {slot : Nat} {r : Rod} (hr : s.rod? (rodKey p slot) = some r) (m : BitVec 32)
    (i : FaultInfo) : s.takeFault (rodKey p slot) m i
      = (s.modFrame p (fun f => { f with
          records := f.records ++ [recordOf s (rodKey p slot) r m i], recSeq := f.recSeq + 1 })).setRod (rodKey p slot)
        (r.park m (s.frame p).recSeq) := by
  unfold State.takeFault
  rw [hr]
  rfl

theorem State.frame_modFrame_same (s : State) (p : FrameId) (g : Frame → Frame) :
    (s.modFrame p g).frame p = g (s.frame p) := State.frame_setFrame_same _ _ _

theorem State.frame_setRod (s : State) (k : RodKey) (r : Rod) (p : FrameId) : (s.setRod k r).frame p = s.frame p := rfl

theorem park_lane (r : Rod) (m : BitVec 32) (seq : BitVec 16) (n : Fin 32) :
    (r.park m seq).lanes[n] = if m.getLsbD n.val then
      { r.lanes[n] with st := .parked, wait := .none, fence := none, record := some seq } else r.lanes[n] :=
  mapLanes_lane r m _ n

/-- Parting a mask by outcome changes the sub-rod numbers alone. -/
theorem regroup_lane (r : Rod) (m : BitVec 32) (n : Fin 32) (g : Nat) :
    { (r.regroup m).lanes[n] with group := g } = { r.lanes[n] with group := g } := by
  rcases regroup_cases r m with ⟨-, he⟩ | he <;> rw [he]
  have hp : { r.parted m n r.lanes[n] with group := g } = { r.lanes[n] with group := g } := by
    unfold Rod.parted
    split <;> rfl
  dsimp only
  rw [mapLanes_lane]
  split
  · exact hp
  · rfl

/-! ## Lane words without carries (R53, R115, R204) -/

/-- A word that passes the checks of R219 passes the check of its fields. -/
theorem check5_of_wordCause {s : State} {k : RodKey} {r : Rod} {i : Instr} (h : wordCause s k r i = none) :
    check5 i = true := by
  unfold wordCause at h
  dsimp only at h
  split at h
  · cases h
  split at h
  · cases h
  split at h
  · cases h
  split at h
  · cases h
  · rename_i hc
    rw [Bool.not_eq_true, Bool.or_eq_false_iff, Bool.not_eq_false'] at hc
    exact hc.1

/-- THE FUNCTION OF A LANE WORD: the word acts through its lane function, which makes `f` of the operands of each lane
wherever the word passes the check of its fields. -/
def Computes (i : Instr) (f : LaneResult) : Prop :=
  ∃ F : State → Issue → LaneIn → LaneOut, (∀ s, exec i s = issueWord i (laneBody F) s)
    ∧ (check5 i = true → ∀ s k r m x, F s (mkIssue k r i m) x = f s k r x)

theorem computes_laneOp {i : Instr} {F f : LaneIn → LaneOut} (he : ∀ s, exec i s = laneOp i F s) (hf : ∀ x, F x = f x) :
    Computes i (fun _ _ _ => f) := ⟨fun _ _ => F, he, fun _ _ _ _ _ x => hf x⟩

/-- A lane's step is its result, where it has no marks. -/
theorem laneStep_eq_laneResult {r : Rod} {kb : DWord} {i : Instr} {f : LaneIn → LaneOut} {x : Lane} {n : Nat}
    (h : x.marked = []) : laneStep r (planOf i) kb f x n = laneResult r kb i f n x := by
  unfold laneStep laneResult
  cases laneOperands r x (planOf i) with
  | error e => rfl
  | ok o =>
    dsimp only
    split
    · rfl
    · rw [complete_quiet h]

/-- A completed lane goes on from where it stood. -/
theorem laneResult_sameOutcome {r : Rod} {kb : DWord} {i : Instr} {f : LaneIn → LaneOut} {x y : Lane} {n : Nat}
    (h : laneResult r kb i f n x = .ok y) : y.sameOutcome x.advance = true := by
  unfold laneResult at h
  cases ho : laneOperands r x (planOf i) with
  | error e => rw [ho] at h; cases h
  | ok o =>
    rw [ho] at h
    dsimp only at h
    split at h
    · cases h
    · cases h
      obtain ⟨h1, h2, h3, h4⟩ := apply_outcome (f (laneIn kb x n o (fun _ => 0))).write o.dst x
      exact (sameOutcome_iff _ _).2 ⟨h1, congrArg (· + 8) h2, h3, h4⟩

/-- What the lanes of the sub-rod `m` hold after a word without carries: results, the next word where it does not act, and
nothing new where it fails. -/
def plainLane (r : Rod) (kb : DWord) (i : Instr) (f : LaneIn → LaneOut) (n : Fin 32) (x : Lane) : Lane :=
  if actsOn i x then (match laneResult r kb i f n.val x with | .ok y => y | .error _ => x) else x.advance

/-- The lanes of a pass that fail, with their causes. -/
def plainFails (k : RodKey) (r : Rod) (kb : DWord) (i : Instr) (f : LaneIn → LaneOut) (m : BitVec 32) :
    List (Nat × Cause × DWord) :=
  (List.finRange 32).filterMap (fun n =>
    if (mkIssue k r i m).enabled.getLsbD n.val then
      match laneResult r kb i f n.val r.lanes[n] with
      | .error c => some (n.val, c, (0 : DWord))
      | .ok _ => none
    else none)

theorem plainPass_eq {f : LaneIn → LaneOut} {s : State} {k : RodKey} {r : Rod} {i : Instr} {m : BitVec 32}
    (hq : ∀ n : Fin 32, m.getLsbD n.val = true → r.lanes[n].marked = []) :
    plainPass f (mkIssue k r i m) s
      = (s.setRod k (r.mapLanes m (plainLane r (keyOf s r) i f))).takeFaults k (wordOf i)
          (plainFails k r (keyOf s r) i f m) := by
  unfold plainPass plainFails
  refine congrArg₂ (fun q l => (s.setRod k q).takeFaults k (wordOf i) l)
    (mapLanes_congr (m := m) (fun n hn => ?_)) (List.filterMap_congr (fun n _ => ?_))
  · rw [enabled_eq, hn, Bool.true_and, plainLane]
    dsimp only [mkIssue]
    rw [laneStep_eq_laneResult (hq n hn)]
    rfl
  · cases hn : (mkIssue k r i m).enabled.getLsbD n.val with
    | false => rfl
    | true =>
      simp only [if_true]
      dsimp only [mkIssue]
      rw [laneStep_eq_laneResult (hq n (enabled_sub hn))] <;> rfl

theorem mem_plainFails {k : RodKey} {r : Rod} {kb : DWord} {i : Instr} {f : LaneIn → LaneOut} {m : BitVec 32}
    {e : Nat × Cause × DWord} : e ∈ plainFails k r kb i f m ↔ ∃ n : Fin 32, e.1 = n.val ∧ m.getLsbD n.val = true
      ∧ actsOn i r.lanes[n] = true ∧ laneResult r kb i f n.val r.lanes[n] = .error e.2.1 ∧ e.2.2 = 0 := by
  obtain ⟨a, c, d⟩ := e
  simp only [plainFails, List.mem_filterMap, List.mem_finRange, true_and, enabled_eq, Bool.and_eq_true]
  refine exists_congr (fun n => ?_)
  by_cases h : m.getLsbD n.val = true ∧ actsOn i r.lanes[n] = true
  · rw [if_pos h]
    cases laneResult r kb i f n.val r.lanes[n] with
    | ok y => simp
    | error b =>
      simp only [Option.some.injEq, Prod.mk.injEq, Except.error.injEq, h, true_and]
      exact ⟨fun ⟨h1, h2, h3⟩ => ⟨h1.symm, h2, h3.symm⟩, fun ⟨h1, h2, h3⟩ => ⟨h1.symm, h2, h3.symm⟩⟩
  · rw [if_neg h]
    exact ⟨fun h' => (nomatch h'), fun h' => absurd ⟨h'.2.1, h'.2.2.1⟩ h⟩

end Sys2Proof.Machine
end

section
namespace Sys2Proof.Machine

theorem IssuesFreely.check5 {s : State} {k : RodKey} {l : Nat} {r : Rod} {i : Instr} (h : IssuesFreely s k l r i) :
    check5 i = true := check5_of_wordCause h.1.2.2.2.2

/-- What a lane word without carries leaves, before the lanes part by outcome. -/
theorem exec_of_computes {i : Instr} {f : LaneResult} (h : Computes i f) {s : State} {k : RodKey} {l : Nat} {r : Rod}
    (hi : IssuesFreely s k l r i) (hc : (planOf i).hasCarry = false) :
    exec i s = .next ((((s.setRod k (r.mapLanes (r.subRod l) (plainLane r (keyOf s r) i (f s k r)))).takeFaults k (wordOf i)
      (plainFails k r (keyOf s r) i (f s k r) (r.subRod l)))).modRod k (fun q => q.regroup (r.subRod l))) := by
  obtain ⟨F, he, hf⟩ := h
  have hF : F s (mkIssue k r i (r.subRod l)) = f s k r := funext (fun x => hf hi.check5 s k r _ x)
  rw [he, issueWord_free hi, laneBody, show (mkIssue k r i (r.subRod l)).instr = i from rfl, hc, hF]
  simp only [Bool.false_eq_true, if_false]
  rw [plainPass_eq (fun n hn => (hi.2.1 n hn).2.1)]

theorem plainLane_sameOutcome {r : Rod} {kb : DWord} {i : Instr} {f : LaneIn → LaneOut} {n : Fin 32} {x : Lane}
    (h : actsOn i x = true → (laneResult r kb i f n.val x).isOk = true) :
    (plainLane r kb i f n x).sameOutcome x.advance = true := by
  unfold plainLane
  split
  · have hok := h ‹_›
    cases hl : laneResult r kb i f n.val x with
    | error c => rw [hl] at hok; cases hok
    | ok y => exact laneResult_sameOutcome hl
  · exact sameOutcome_refl _

theorem lowest_mem {m : BitVec 32} (h : m ≠ 0) : ∃ n : Fin 32, lowest m = n.val ∧ m.getLsbD n.val = true := by
  obtain ⟨n, hn⟩ : ∃ n : Fin 32, m.getLsbD n.val = true := by
    by_contra hne
    push Not at hne
    exact h (BitVec.eq_of_getLsbD_eq (fun j hj => by simpa using hne ⟨j, hj⟩))
  obtain ⟨h1, h2⟩ := lowest_spec n hn
  exact ⟨⟨lowest m, h1⟩, rfl, h2⟩

/-! ### Lanes that fail with one cause -/

section
variable {k : RodKey} {r : Rod} {kb : DWord} {i : Instr} {f : LaneIn → LaneOut} {m bad : BitVec 32} {c : Cause}

theorem plainFails_nil (h : ∀ n : Fin 32, m.getLsbD n.val = true → actsOn i r.lanes[n] = true →
    (laneResult r kb i f n.val r.lanes[n]).isOk = true) : plainFails k r kb i f m = [] := by
  rw [List.eq_nil_iff_forall_not_mem]
  intro e he
  obtain ⟨n, -, hn, ha, hr, -⟩ := mem_plainFails.1 he
  have := h n hn ha
  rw [hr] at this
  cases this

variable (hbad : ∀ n : Fin 32, bad.getLsbD n.val = true ↔
    m.getLsbD n.val = true ∧ actsOn i r.lanes[n] = true ∧ (laneResult r kb i f n.val r.lanes[n]).isOk = false)
  (hcause : ∀ n : Fin 32, bad.getLsbD n.val = true → laneResult r kb i f n.val r.lanes[n] = .error c)
include hbad hcause

theorem plainFails_cause : ∀ e ∈ plainFails k r kb i f m, e.2 = (c, 0) := by
  intro e he
  obtain ⟨n, -, hn, ha, hr, h0⟩ := mem_plainFails.1 he
  have h1 := hcause n ((hbad n).2 ⟨hn, ha, by rw [hr]; rfl⟩)
  exact Prod.ext (Except.error.inj (hr.symm.trans h1)) h0

theorem faultMask_plainFails : faultMask (plainFails k r kb i f m) = bad := by
  refine BitVec.eq_of_getLsbD_eq (fun j hj => Bool.eq_iff_iff.2 ?_)
  rw [faultMask_getLsbD _ ⟨j, hj⟩]
  constructor
  · rintro ⟨e, he, hej⟩
    obtain ⟨n, hn', hn, ha, hr, -⟩ := mem_plainFails.1 he
    obtain rfl : n = ⟨j, hj⟩ := Fin.ext (hn'.symm.trans hej)
    exact (hbad _).2 ⟨hn, ha, by rw [hr]; rfl⟩
  · intro hj'
    obtain ⟨hn, ha, -⟩ := (hbad ⟨j, hj⟩).1 hj'
    exact ⟨(j, c, 0), mem_plainFails.2 ⟨⟨j, hj⟩, rfl, hn, ha, hcause ⟨j, hj⟩ hj', rfl⟩, rfl⟩

/-- Where the lanes `bad` fail with one cause, they have one record. -/
theorem faultGroups_plainFails (hb : bad ≠ 0) : faultGroups (plainFails k r kb i f m) = [(bad, c, 0)] := by
  have hm := faultMask_plainFails (k := k) hbad hcause
  have hne : plainFails k r kb i f m ≠ [] := by
    intro h0
    rw [h0] at hm
    exact hb hm.symm
  rw [faultGroups_uniform hne (plainFails_cause hbad hcause), hm]

theorem plainLane_of_bad {n : Fin 32} (hn : bad.getLsbD n.val = true) : plainLane r kb i f n r.lanes[n] = r.lanes[n] := by
  obtain ⟨-, ha, -⟩ := (hbad n).1 hn
  rw [plainLane, if_pos ha, hcause n hn]

end

theorem plainWord_of_computes {i : Instr} {f : LaneResult} (h : Computes i f) : PlainWord i f := by
  intro s p slot l r c bad k result rest hi hc hbad hcause
  have hrest : ∀ n : Fin 32, (r.subRod l).getLsbD n.val = true →
      plainLane r (keyOf s r) i (f s k r) n r.lanes[n] = rest n r.lanes[n] := by
    intro n hn
    simp only [rest, hn, if_true, plainLane]
    rfl
  have hex := exec_of_computes h hi hc
  rw [mapLanes_congr hrest] at hex
  constructor
  · intro hb
    have hok : ∀ n : Fin 32, (r.subRod l).getLsbD n.val = true → actsOn i r.lanes[n] = true →
        (result n r.lanes[n]).isOk = true := by
      intro n hn ha
      by_contra hno
      have := (hbad n).2 ⟨hn, ha, Bool.eq_false_iff.2 hno⟩
      simp [hb] at this
    rw [hex, takeFaults_nil _ _ _ (plainFails_nil hok), State.modRod_of_some (State.rod?_setRod_same _ _ _),
      State.setRod_setRod, regroup_advanced hi.2.2 (fun n hn => ?_)]
    rw [mapLanes_lane, hn, if_pos rfl, ← hrest n hn]
    exact plainLane_sameOutcome (hok n hn)
  · intro hb
    set q := r.mapLanes (r.subRod l) rest with hq
    obtain ⟨a, hlow, ha⟩ := lowest_mem hb
    have hbadlane : ∀ n : Fin 32, bad.getLsbD n.val = true → q.lanes[n] = r.lanes[n] := by
      intro n hn
      have hm := ((hbad n).1 hn).1
      rw [hq, mapLanes_lane, hm, if_pos rfl, ← hrest n hm]
      exact plainLane_of_bad hbad hcause hn
    rw [State.takeFaults, faultGroups_plainFails hbad hcause hb, List.foldl_cons, List.foldl_nil,
      takeFault_rod (State.rod?_setRod_same _ _ _), State.modRod_of_some (State.rod?_setRod_same _ _ _),
      State.setRod_setRod] at hex
    refine ⟨_, _, recordOf (s.setRod k q) k q bad (laneFault c (wordOf i) 0), hex, State.rod?_setRod_same _ _ _, ?_, rfl, rfl,
      ?_, rfl, rfl, rfl, rfl, rfl, rfl, fun n => ?_⟩
    · rw [State.frame_setRod, State.frame_modFrame_same, State.frame_setRod]
    · have hpc : (r.lane l).pc = r.lanes[a].pc := ((sameOutcome_iff _ _).1 (hi.2.2 a ((hbad a).1 ha).1)).2.1
      have h0 : (bad == 0) = false := by simpa using hb
      simp only [recordOf, h0, Bool.false_eq_true, if_false, hlow, Rod.lane_eq, hbadlane a ha, hpc]
    · rw [regroup_lane, park_lane]
      split
      · rw [hbadlane n ‹_›]
        rfl
      · rw [hq, mapLanes_lane]
        simp only [rest]
        split <;> rfl

/-! ## Words that round nothing: their operands alone decide whether a lane fails -/

section
variable {r q : Rod} {kb : DWord} {i : Instr} {f : LaneIn → LaneWrite} {s : State} {k : RodKey} {n : Nat} {x : Lane}

theorem laneResult_gives_of_ok (h : (laneOperands r x (planOf i)).isOk = true) :
    laneResult r kb i (gives f s k q) n x = .ok (written r kb i f n x) := by
  unfold laneResult written gives
  cases ho : laneOperands r x (planOf i) with
  | error c =>
    rw [ho] at h
    cases h
  | ok o =>
    simp only [drawsFault, bne_self_eq_false, Bool.false_and, Bool.false_eq_true, if_false]
    rw [advance_rsCount_zero]

theorem laneResult_gives_of_error {c : Cause} (h : laneOperands r x (planOf i) = .error c) :
    laneResult r kb i (gives f s k q) n x = .error c := by
  unfold laneResult
  rw [h]

theorem laneResult_gives_isOk :
    (laneResult r kb i (gives f s k q) n x).isOk = (laneOperands r x (planOf i)).isOk := by
  cases h : laneOperands r x (planOf i) with
  | error c => rw [laneResult_gives_of_error h]; rfl
  | ok o => rw [laneResult_gives_of_ok (by rw [h]; rfl)]; rfl

theorem laneResult_gives_error {c : Cause} :
    laneResult r kb i (gives f s k q) n x = .error c ↔ laneOperands r x (planOf i) = .error c := by
  refine ⟨fun h => ?_, laneResult_gives_of_error⟩
  cases ho : laneOperands r x (planOf i) with
  | error e => exact congrArg Except.error (Except.error.inj ((laneResult_gives_of_error ho).symm.trans h))
  | ok o =>
    rw [laneResult_gives_of_ok (by rw [ho]; rfl)] at h
    cases h

end

end Sys2Proof.Machine
end

section
namespace Sys2Proof.Machine

/-! ## The functions of the integer words (R239 to R252) -/

theorem computes_int {i : Instr} {m : BitVec 18} {u sat : Bool} {F v : Nat → Int → Int → Int → Int}
    (he : ∀ s, exec i s = laneOp i (intLane (RMod.w m) u sat F) s) (hf : ∀ n a b c, F n a b c = v n a b c) :
    Computes i (gives (integerWrite m u sat v)) := by
  obtain rfl : F = v := by
    funext n a b c
    exact hf n a b c
  refine computes_laneOp he (fun x => ?_)
  unfold intLane integerWrite LaneOut.of
  split <;> rfl

theorem computes_bits {i : Instr} {m : BitVec 18} {F f : (w : Nat) → BitVec w → BitVec w → BitVec w → BitVec w}
    (he : ∀ s, exec i s = laneOp i (bitLane (RMod.w m) F) s) (hf : ∀ n a b c, F n a b c = f n a b c) :
    Computes i (gives (bitsWrite m f)) := by
  obtain rfl : F = f := by
    funext n a b c
    exact hf n a b c
  refine computes_laneOp he (fun x => ?_)
  unfold bitLane bitsWrite LaneOut.of
  split <;> rfl

theorem computes_shift {i : Instr} {m : BitVec 18} {F : (w : Nat) → BitVec w → Word → BitVec w}
    {f : (w : Nat) → BitVec w → Nat → BitVec w} (he : ∀ s, exec i s = laneOp i (shiftLane (RMod.w m) F) s)
    (hf : ∀ n a b, F n a b = f n a (b.toNat % n)) : Computes i (gives (shiftWrite m f)) := by
  refine computes_laneOp he (fun x => ?_)
  unfold shiftLane shiftWrite LaneOut.of
  simp only [hf]
  split <;> rfl

/-- Truncated division by absolute values. -/
theorem tdiv_eq_natAbs (a b : Int) : Int.tdiv a b =
    if (a < 0) = (b < 0) then ((a.natAbs / b.natAbs : Nat) : Int) else -((a.natAbs / b.natAbs : Nat) : Int) := by
  have hneg (n : Nat) : (Int.negSucc n < 0) = True := eq_true (Int.negSucc_lt_zero n)
  have hpos (n : Nat) : (Int.ofNat n < 0) = False := eq_false (by simp)
  rcases a with a | a <;> rcases b with b | b <;> simp only [hneg, hpos, eq_self, if_true, eq_iff_iff, iff_false, iff_true, not_true_eq_false, if_false] <;> rfl

theorem idivFn_eq (u sat : Bool) (n : Nat) (a b c : Int) : idivFn u sat n a b c =
    if b = 0 then (2 : Int) ^ n - 1
    else if u = false ∧ a = -(2 : Int) ^ (n - 1) ∧ b = -1 then (if sat then (2 : Int) ^ (n - 1) - 1 else -(2 : Int) ^ (n - 1))
    else if (a < 0) = (b < 0) then ((a.natAbs / b.natAbs : Nat) : Int) else -((a.natAbs / b.natAbs : Nat) : Int) := by
  unfold idivFn
  rw [tdiv_eq_natAbs]
  simp only [Bool.and_eq_true, Bool.not_eq_true', beq_iff_eq, and_assoc]

theorem iremFn_eq (u : Bool) (n : Nat) (a b c : Int) : iremFn n a b c =
    if b = 0 then a
    else if u = false ∧ a = -(2 : Int) ^ (n - 1) ∧ b = -1 then 0
    else a - (if (a < 0) = (b < 0) then ((a.natAbs / b.natAbs : Nat) : Int) else -((a.natAbs / b.natAbs : Nat) : Int)) * b := by
  unfold iremFn
  split
  · rfl
  split
  · rename_i h
    obtain ⟨-, -, rfl⟩ := h
    rw [Int.tmod_neg, Int.tmod_one]
  · rw [← tdiv_eq_natAbs, Int.tmod_def, Int.mul_comm]

theorem arithmeticResults_computes (w : RWord) : ∀ e ∈ arithmeticResults w, Computes e.1 e.2 := by
  simp only [arithmeticResults, List.forall_mem_cons, List.not_mem_nil, false_imp_iff, implies_true, and_true]
  refine ⟨?_, ?_, ?_, ?_, ?_, ?_, ?_, ?_, ?_, ?_, ?_, ?_⟩
  · exact computes_int (fun _ => rfl) (fun _ _ _ _ => rfl)
  · exact computes_int (fun _ => rfl) (fun _ _ _ _ => rfl)
  · exact computes_int (fun _ => rfl) (fun _ _ _ _ => rfl)
  · exact computes_int (fun _ => rfl) (fun _ _ _ _ => rfl)
  · exact computes_int (fun _ => rfl) (fun _ _ _ _ => rfl)
  · exact computes_int (fun _ => rfl) (fun _ a b _ => min_def a b)
  · exact computes_int (fun _ => rfl) (fun _ a b _ => max_def a b)
  · exact computes_int (fun _ => rfl) (fun _ a _ _ => by
      show |a| = _
      split
      · exact abs_of_neg ‹_›
      · exact abs_of_nonneg (not_lt.1 ‹_›))
  · exact computes_int (fun _ => rfl) (fun _ a _ _ => (Int.zero_sub a).symm)
  · exact computes_laneOp (fun _ => rfl) (fun _ => rfl)
  · exact computes_int (fun _ => rfl) (fun n a b c => idivFn_eq _ _ n a b c)
  · exact computes_int (fun _ => rfl) (fun n a b c => iremFn_eq _ n a b c)

theorem rotateLeft_eq_ofFnLE (w : Nat) (a : BitVec w) (b : Word) :
    a.rotateLeft (b.toNat % w) = BitVec.ofFnLE (fun k : Fin w => a.getLsbD ((k.val + (w - b.toNat % w)) % w)) := by
  refine BitVec.eq_of_getLsbD_eq (fun i hi => ?_)
  have hn : b.toNat % w < w := Nat.mod_lt _ (by omega)
  generalize b.toNat % w = r at hn ⊢
  rw [BitVec.getLsbD_rotateLeft_of_le hn, BitVec.getLsbD_ofFnLE, dif_pos hi]
  by_cases h : i < r
  · rw [decide_eq_true h, cond_true, Nat.mod_eq_of_lt (show i + (w - r) < w by omega), Nat.add_comm]
  · rw [decide_eq_false h, cond_false, decide_eq_true hi, Bool.true_and,
      show i + (w - r) = (i - r) + w by omega, Nat.add_mod_right, Nat.mod_eq_of_lt (by omega)]

theorem lmuxFn_eq_ofFnLE (f0 f1 n : Nat) (a b c : BitVec n) : lmuxFn f0 f1 n a b c = BitVec.ofFnLE (fun k : Fin n =>
    (if c.getLsbD k.val then f1 else f0).testBit (2 * (a.getLsbD k.val).toNat + (b.getLsbD k.val).toNat)) := by
  refine congrArg BitVec.ofFnLE (funext (fun k => ?_))
  unfold tableBit
  cases a.getLsbD k.val <;> cases b.getLsbD k.val <;> rfl

theorem reverse_eq_ofFnLE (n : Nat) (a : BitVec n) :
    a.reverse = BitVec.ofFnLE (fun k : Fin n => a.getLsbD (n - 1 - k.val)) := by
  refine BitVec.eq_of_getLsbD_eq (fun i hi => ?_)
  rw [BitVec.getLsbD_reverse, BitVec.getLsbD_ofFnLE, dif_pos hi, BitVec.getMsbD, decide_eq_true hi, Bool.true_and]

theorem shiftLeft_eq_ofNat (n : Nat) (a : BitVec n) (k : Nat) : a <<< k = BitVec.ofNat n (a.toNat * 2 ^ k) :=
  BitVec.eq_of_toNat_eq (by rw [BitVec.toNat_shiftLeft, BitVec.toNat_ofNat, Nat.shiftLeft_eq])

theorem ushiftRight_eq_ofNat (n : Nat) (a : BitVec n) (k : Nat) : a >>> k = BitVec.ofNat n (a.toNat / 2 ^ k) := by
  refine BitVec.eq_of_toNat_eq ?_
  rw [BitVec.toNat_ushiftRight, BitVec.toNat_ofNat, Nat.shiftRight_eq_div_pow,
    Nat.mod_eq_of_lt (lt_of_le_of_lt (Nat.div_le_self _ _) a.isLt)]

theorem sshiftRight_eq_ofInt (n : Nat) (a : BitVec n) (k : Nat) :
    a.sshiftRight k = BitVec.ofInt n (a.toInt / (2 : Int) ^ k) := by
  rw [BitVec.sshiftRight_eq, Int.shiftRight_eq_div_pow, Nat.cast_pow, Nat.cast_ofNat]

/-- A funnel shift as arithmetic on the 64-bit value of the pair (R242). -/
theorem shfFn_eq (left : Bool) (a b c : Word) : shfFn left a b c =
    BitVec.ofNat 32 (if left then (b.toNat * 2 ^ 32 + a.toNat) * 2 ^ (c.toNat % 32) / 2 ^ 32
      else (b.toNat * 2 ^ 32 + a.toNat) / 2 ^ (c.toNat % 32)) := by
  have hf : (b ++ a : DWord).toNat = b.toNat * 2 ^ 32 + a.toNat := by
    rw [BitVec.toNat_append, Nat.shiftLeft_eq, Nat.mul_comm, Nat.two_pow_add_eq_or_of_lt a.isLt, Nat.mul_comm]
  unfold shfFn
  refine BitVec.eq_of_toNat_eq ?_
  cases left
  · simp only [Bool.false_eq_true, if_false, BitVec.extractLsb'_toNat, BitVec.toNat_ushiftRight, hf, Nat.shiftRight_eq_div_pow,
      BitVec.toNat_ofNat, Nat.pow_zero, Nat.div_one]
  · simp only [if_true, BitVec.extractLsb'_toNat, BitVec.toNat_shiftLeft, hf, Nat.shiftRight_eq_div_pow, Nat.shiftLeft_eq,
      BitVec.toNat_ofNat]
    omega

theorem fieldPos_eq (b : Word) : fieldPos b = min (b.toNat % 256) 32 := by
  simp [fieldPos, BitVec.extractLsb'_toNat]

theorem fieldLen_eq (b : Word) : fieldLen b = min (b.toNat / 256 % 256) 32 := by
  simp [fieldLen, BitVec.extractLsb'_toNat, Nat.shiftRight_eq_div_pow]

theorem bfxFn_eq (u : Bool) (a b : Word) : bfxFn u a b =
    let n := min (b.toNat / 256 % 256) 32
    let f : Int := (if u then (a.toNat : Int) else a.toInt) / (2 : Int) ^ min (b.toNat % 256) 32 % (2 : Int) ^ n
    if n = 0 then 0 else BitVec.ofInt 32 (if u ∨ f < (2 : Int) ^ (n - 1) then f else f - (2 : Int) ^ n) := by
  unfold bfxFn
  simp only [fieldPos_eq, fieldLen_eq, viewOf, Bool.or_eq_true, decide_eq_true_eq]

theorem bfiFn_eq (a b c : Word) : bfiFn a b c =
    let p := min (b.toNat % 256) 32
    let n := min (b.toNat / 256 % 256) 32
    let m : Word := BitVec.ofNat 32 ((2 ^ n - 1) * 2 ^ p)
    (c &&& ~~~m) ||| BitVec.ofNat 32 (a.toNat % 2 ^ n * 2 ^ p) := by
  unfold bfiFn
  simp only [fieldPos_eq, fieldLen_eq]

theorem bitResults_computes (w : RWord) : ∀ e ∈ bitResults w, Computes e.1 e.2 := by
  simp only [bitResults, List.forall_mem_cons, List.not_mem_nil, false_imp_iff, implies_true, and_true]
  refine ⟨?_, ?_, ?_, ?_, ?_, ?_, ?_, ?_, ?_, ?_, ?_, ?_, ?_, ?_, ?_, ?_, ?_⟩
  · exact computes_bits (fun _ => rfl) (fun _ _ _ _ => rfl)
  · exact computes_bits (fun _ => rfl) (fun _ _ _ _ => rfl)
  · exact computes_bits (fun _ => rfl) (fun _ _ _ _ => rfl)
  · exact computes_bits (fun _ => rfl) (fun _ _ _ _ => rfl)
  · exact computes_bits (fun _ => rfl) (fun n a b c => lmuxFn_eq_ofFnLE _ _ n a b c)
  · exact computes_shift (fun _ => rfl) (fun n a _ => shiftLeft_eq_ofNat n a _)
  · exact computes_shift (fun _ => rfl) (fun n a _ => ushiftRight_eq_ofNat n a _)
  · exact computes_shift (fun _ => rfl) (fun n a _ => sshiftRight_eq_ofInt n a _)
  · exact computes_shift (fun _ => rfl) rotateLeft_eq_ofFnLE
  · exact computes_laneOp (fun _ => rfl) (fun _ => congrArg (fun v => LaneOut.of (.reg v)) (shfFn_eq _ _ _ _))
  · exact computes_laneOp (fun _ => rfl) (fun _ => congrArg (fun v => LaneOut.of (.reg v)) (bfxFn_eq _ _ _))
  · exact computes_laneOp (fun _ => rfl) (fun _ => congrArg (fun v => LaneOut.of (.reg v)) (bfiFn_eq _ _ _))
  · exact computes_laneOp (fun _ => rfl) (fun _ => congrArg (fun n => LaneOut.of (.reg (BitVec.ofNat 32 n)))
      List.countP_eq_length_filter.symm)
  · exact computes_laneOp (fun _ => rfl) (fun _ => rfl)
  · exact computes_laneOp (fun _ => rfl) (fun _ => rfl)
  · exact computes_bits (fun _ => rfl) (fun n a _ _ => reverse_eq_ofFnLE n a)
  · exact computes_laneOp (fun _ => rfl) (fun _ => rfl)

theorem condInt_eq_conditionHolds {code : Nat} (h : code ≤ 5) (a b : Int) : condInt code a b = conditionHolds code a b := by
  have heq : (a == b) = decide (a = b) := rfl
  interval_cases code <;> simp [condInt, conditionHolds, heq, bne]

theorem combine_eq_getD {op : Nat} (h : op < 4) (t p : Bool) :
    combine op t p = [t, t && p, t || p, t ^^ p].getD op t := by
  interval_cases op <;> rfl

theorem bits_lt (m : BitVec 18) (lo len : Nat) : RMod.bits m lo len < 2 ^ len := (m.extractLsb' lo len).isLt

theorem rOk_ok {w : RWord} {h : Shape} (hw : rOk w h = true) : h.ok = true := by
  simp only [rOk, Bool.and_eq_true] at hw
  exact hw.1.2

/-- ICMP's condition field holds one of the six codes wherever the word passes its check (R246). -/
theorem icmp_condition_le {w : RWord} (h : check5 (.icmp w) = true) : RMod.bits w.mod 8 3 ≤ 5 :=
  of_decide_eq_true (rOk_ok h)

theorem icmpImm_condition_le {w : IWord} (h : check5 (.icmpImm w) = true) : (w.imm.extractLsb' 24 3).toNat ≤ 5 := by
  have ⟨_, hi⟩ := Bool.and_eq_true_iff.1 h
  exact of_decide_eq_true (Bool.and_eq_true_iff.1 (Bool.and_eq_true_iff.1 hi).1).1

theorem icmpTest_eq {wide u : Bool} {code : Nat} (h : code ≤ 5) (x : LaneIn) : icmpTest wide u code x =
    if wide then conditionHolds code (viewOf u x.a) (viewOf u x.b) else conditionHolds code (viewOf u x.wa) (viewOf u x.wb) := by
  unfold icmpTest
  split <;> exact condInt_eq_conditionHolds h _ _

theorem computes_icmp (w : RWord) : Computes (.icmp w) (gives (fun x =>
    let u := w.mod.getLsbD 13
    let t := if RMod.w w.mod then conditionHolds (RMod.bits w.mod 8 3) (viewOf u x.a) (viewOf u x.b)
      else conditionHolds (RMod.bits w.mod 8 3) (viewOf u x.wa) (viewOf u x.wb)
    let p := x.c != 0
    .pred ([t, t && p, t || p, t ^^ p].getD (RMod.bits w.mod 11 2) t))) := by
  refine ⟨_, fun _ => rfl, fun h s k r m x => ?_⟩
  simp only [icmpTest_eq (icmp_condition_le h), combine_eq_getD (bits_lt w.mod 11 2)]
  rfl

/-- A table by two predicates, each given as the low bit of a number (R247). -/
theorem tableBit_eq_testBit (f0 f1 : Nat) (a b c : DWord) : tableBit (if c != 0 then f1 else f0) (a != 0) (b != 0)
    = (if c = 0 then f0 else f1).testBit (2 * (a != 0).toNat + (b != 0).toNat) := by
  have hc : (if (c != 0) = true then f1 else f0) = if c = 0 then f0 else f1 := by
    by_cases h : c = 0 <;> simp [h]
  unfold tableBit
  rw [hc]
  cases a != 0 <;> cases b != 0 <;> rfl

/-- The predicates of a lane as a word: p7 is not among them (R246, R113). -/
theorem preds_setWidth (x : Lane) :
    x.preds.setWidth 32 = BitVec.ofFnLE (fun k : Fin 32 => decide (k.val < 7) && x.pred k.val) := by
  refine BitVec.eq_of_getLsbD_eq (fun i hi => ?_)
  rw [BitVec.getLsbD_setWidth, BitVec.getLsbD_ofFnLE, dif_pos hi, decide_eq_true hi, Bool.true_and]
  unfold Lane.pred
  by_cases h : i < 7
  · simp [h]
  · simp only [h, decide_false, Bool.false_and]
    exact BitVec.getLsbD_of_ge _ _ (by omega)

theorem setWidth_eq_extract {n k m : Nat} (h : m ≤ k) (v : BitVec n) : (v.setWidth k).extractLsb' 0 m = v.setWidth m := by
  refine BitVec.eq_of_toNat_eq ?_
  rw [BitVec.extractLsb'_toNat, Nat.shiftRight_zero, BitVec.toNat_setWidth, BitVec.toNat_setWidth,
    Nat.mod_mod_of_dvd _ (Nat.pow_dvd_pow 2 h)]

theorem moveResults_computes (w : RWord) : ∀ e ∈ moveResults w, Computes e.1 e.2 := by
  simp only [moveResults, List.forall_mem_cons, List.not_mem_nil, false_imp_iff, implies_true, and_true]
  refine ⟨computes_icmp w, ?_, ?_, ?_, ?_, ?_, ?_, ?_, ?_⟩
  · exact computes_laneOp (fun _ => rfl) (fun x => congrArg (fun b => LaneOut.of (.pred b)) (tableBit_eq_testBit _ _ _ _ _))
  · refine computes_laneOp (fun _ => rfl) (fun x => congrArg (fun v => LaneOut.of (.value (RMod.w w.mod) v)) ?_)
    by_cases h : x.c = 0 <;> simp [h]
  · exact computes_laneOp (fun _ => rfl) (fun x => congrArg (fun v => LaneOut.of (.reg v)) (preds_setWidth x.lane))
  · exact computes_laneOp (fun _ => rfl) (fun x => congrArg (fun v => LaneOut.of (.preds _ v))
      (setWidth_eq_extract (by decide) x.a).symm)
  · exact computes_laneOp (fun _ => rfl) (fun _ => rfl)
  · exact computes_laneOp (fun _ => rfl) (fun _ => rfl)
  · exact computes_laneOp (fun _ => rfl) (fun x => congrArg₂ (fun a b => LaneOut.of (.xreg (xregWord b a)))
      (setWidth_eq_extract (by decide) x.a).symm (setWidth_eq_extract (by decide) x.b).symm)
  · exact computes_laneOp (fun _ => rfl) (fun x => congrArg (fun b => LaneOut.of (.xreg (xaddFn (x.lane.xreg w.dst.toNat) b)))
      (setWidth_eq_extract (by decide) x.b).symm)

/-! ## The functions of the immediate words (R252) -/

/-- An immediate form of a 32-bit integer entry. -/
theorem computes_intImm {i : Instr} {b : Word} {F : Nat → Int → Int → Int → Int} {f : Word → Word}
    (he : ∀ s, exec i s = laneOp i (fun x => intLane false false false F (withB b x)) s)
    (hf : ∀ a : Word, BitVec.ofInt 32 (F 32 a.toInt b.toInt 0) = f a) (hc : ∀ n a b c, F n a b c = F n a b 0) :
    Computes i (gives (fun x => .value false ((f x.wa).setWidth 64))) := by
  refine computes_laneOp he (fun x => congrArg (fun v => LaneOut.of (.value false (BitVec.setWidth 64 v))) ?_)
  simp only [intResult, Bool.false_eq_true, if_false, viewOf, withB]
  rw [hc, BitVec.setWidth_setWidth_of_le _ (by decide), BitVec.setWidth_eq]
  exact hf _

/-- An immediate form of a 32-bit bitwise entry. -/
theorem computes_bitImm {i : Instr} {b : Word} {F : (w : Nat) → BitVec w → BitVec w → BitVec w → BitVec w} {f : Word → Word}
    (he : ∀ s, exec i s = laneOp i (fun x => bitLane false F (withB b x)) s) (hf : ∀ a c : Word, F 32 a b c = f a) :
    Computes i (gives (fun x => .value false ((f x.wa).setWidth 64))) := by
  refine computes_laneOp he (fun x => congrArg (fun v => LaneOut.of (.value false (BitVec.setWidth 64 v))) ?_)
  simp only [withB]
  rw [BitVec.setWidth_setWidth_of_le _ (by decide), BitVec.setWidth_eq]
  exact hf _ _

/-- An immediate form of a shift. -/
theorem computes_shiftImm {i : Instr} {b : Word} {F : (w : Nat) → BitVec w → Word → BitVec w} {f : Word → Word}
    (he : ∀ s, exec i s = laneOp i (fun x => shiftLane false F (withB b x)) s) (hf : ∀ a : Word, F 32 a b = f a) :
    Computes i (gives (fun x => .value false ((f x.wa).setWidth 64))) := by
  refine computes_laneOp he (fun x => congrArg (fun v => LaneOut.of (.value false (BitVec.setWidth 64 v))) ?_)
  simp only [withB]
  rw [BitVec.setWidth_setWidth_of_le _ (by decide), BitVec.setWidth_eq]
  exact hf _

theorem ofInt_min (a b : Word) : BitVec.ofInt 32 (min a.toInt b.toInt) = if a.toInt ≤ b.toInt then a else b := by
  rw [min_def]
  split <;> exact BitVec.ofInt_toInt

theorem ofInt_max (a b : Word) : BitVec.ofInt 32 (max a.toInt b.toInt) = if a.toInt ≤ b.toInt then b else a := by
  rw [max_def]
  split <;> exact BitVec.ofInt_toInt

theorem ofInt_sub_toInt (a b : Word) : BitVec.ofInt 32 (a.toInt - b.toInt) = a - b := by
  refine BitVec.eq_of_toInt_eq ?_
  rw [BitVec.toInt_ofInt, BitVec.toInt_sub]

theorem ofInt_mul_toInt (a b : Word) : BitVec.ofInt 32 (a.toInt * b.toInt) = a * b := by
  rw [BitVec.ofInt_mul, BitVec.ofInt_toInt, BitVec.ofInt_toInt]

/-- LEA's immediate form adds the sign-extended immediate. -/
theorem leaFn_zero (a : DWord) (b : Word) : leaFn false 0 a b = a + b.signExtend 64 := by
  unfold leaFn
  rw [pow_zero, mul_one, BitVec.ofInt_add, BitVec.signExtend]
  refine congrArg₂ _ ?_ rfl
  exact BitVec.eq_of_toNat_eq (by simp)

theorem computes_icmpImm (w : IWord) : Computes (.icmpImm w) (gives (fun x =>
    let u := w.imm.getLsbD 29
    .pred (conditionHolds (w.imm.extractLsb' 24 3).toNat (viewOf u x.wa)
      (viewOf u ((w.imm.extractLsb' 0 24).signExtend 32 : Word))))) := by
  refine ⟨_, fun _ => rfl, fun h s k r m x => congrArg (fun b => LaneOut.of (.pred b)) ?_⟩
  rw [icmpTest_eq (icmpImm_condition_le h)]
  simp only [Bool.false_eq_true, if_false, withB, LaneIn.wa, LaneIn.wb, IWord.short]
  rw [BitVec.setWidth_setWidth_of_le _ (by decide), BitVec.setWidth_eq]

theorem immediateResults_computes (w : IWord) : ∀ e ∈ immediateResults w, Computes e.1 e.2 := by
  simp only [immediateResults, List.forall_mem_cons, List.not_mem_nil, false_imp_iff, implies_true, and_true]
  refine ⟨?_, ?_, ?_, ?_, ?_, ?_, ?_, ?_, ?_, ?_, ?_, ?_, ?_, ?_, ?_, ?_, computes_icmpImm w, ?_, ?_, ?_⟩
  · exact computes_intImm (F := iaddFn) (f := fun a => a + IWord.long w) (fun _ => rfl) (fun a => by
      show BitVec.ofInt 32 (a.toInt + _) = _
      rw [BitVec.ofInt_add, BitVec.ofInt_toInt, BitVec.ofInt_toInt]) (fun _ _ _ _ => rfl)
  · exact computes_intImm (F := isubFn) (f := fun a => a - IWord.long w) (fun _ => rfl) (fun a => ofInt_sub_toInt a _) (fun _ _ _ _ => rfl)
  · exact computes_intImm (F := imulFn) (f := fun a => a * IWord.long w) (fun _ => rfl) (fun a => ofInt_mul_toInt a _) (fun _ _ _ _ => rfl)
  · exact computes_intImm (F := iminFn) (f := fun a => if a.toInt ≤ (IWord.long w).toInt then a else IWord.long w) (fun _ => rfl) (fun a => ofInt_min a _) (fun _ _ _ _ => rfl)
  · exact computes_intImm (F := imaxFn) (f := fun a => if a.toInt ≤ (IWord.long w).toInt then IWord.long w else a) (fun _ => rfl) (fun a => ofInt_max a _) (fun _ _ _ _ => rfl)
  · exact computes_laneOp (fun _ => rfl) (fun x => congrArg (fun v => LaneOut.of (.pair v)) (leaFn_zero x.a _))
  · exact computes_bitImm (F := andFn) (f := fun a => a &&& IWord.long w) (fun _ => rfl) (fun _ _ => rfl)
  · exact computes_bitImm (F := orFn) (f := fun a => a ||| IWord.long w) (fun _ => rfl) (fun _ _ => rfl)
  · exact computes_bitImm (F := xorFn) (f := fun a => a ^^^ IWord.long w) (fun _ => rfl) (fun _ _ => rfl)
  · exact computes_bitImm (F := andnFn) (f := fun a => a &&& ~~~IWord.long w) (fun _ => rfl) (fun _ _ => rfl)
  · exact computes_shiftImm (F := shlFn) (f := fun a => a <<< ((IWord.long w).toNat % 32)) (fun _ => rfl) (fun _ => rfl)
  · exact computes_shiftImm (F := shrFn) (f := fun a => a >>> ((IWord.long w).toNat % 32)) (fun _ => rfl) (fun _ => rfl)
  · exact computes_shiftImm (F := sarFn) (f := fun a => a.sshiftRight ((IWord.long w).toNat % 32)) (fun _ => rfl) (fun _ => rfl)
  · exact computes_shiftImm (F := rolFn) (f := fun a => a.rotateLeft ((IWord.long w).toNat % 32)) (fun _ => rfl) (fun _ => rfl)
  · exact computes_laneOp (fun _ => rfl) (fun _ => rfl)
  · exact computes_laneOp (fun _ => rfl) (fun _ => rfl)
  · exact computes_laneOp (fun _ => rfl) (fun _ => rfl)
  · exact computes_laneOp (fun _ => rfl) (fun _ => rfl)
  · exact computes_laneOp (fun _ => rfl) (fun _ => rfl)

/-! ## The functions of the floating-point words (R253 to R260) -/

theorem condFloat_eq_getD {code : Nat} (h : code < 8) (x y : Num) : condFloat code x y =
    let un := x.isNan || y.isNan
    let c := x.cmp y
    [!un && c == .eq, un || c != .eq, !un && c == .lt, !un && (c == .lt || c == .eq),
      !un && c == .gt, !un && (c == .gt || c == .eq), un, !un].getD code false := by
  unfold condFloat
  interval_cases code <;> cases x.cmp y <;> rfl

theorem floatResults_computes (w : RWord) : ∀ e ∈ floatResults w, Computes e.1 e.2 := by
  simp only [floatResults, List.forall_mem_cons, List.not_mem_nil, false_imp_iff, implies_true, and_true]
  refine ⟨?_, ?_, ?_, ?_, ?_, ?_, ?_, ?_, ?_, ?_, ?_, ?_, ?_, ?_, ?_⟩
  · exact computes_laneOp (fun _ => rfl) (fun _ => rfl)
  · exact computes_laneOp (fun _ => rfl) (fun _ => rfl)
  · exact computes_laneOp (fun _ => rfl) (fun _ => rfl)
  · exact computes_laneOp (fun _ => rfl) (fun _ => rfl)
  · exact computes_laneOp (fun _ => rfl) (fun _ => rfl)
  · exact computes_laneOp (fun _ => rfl) (fun _ => rfl)
  · exact computes_laneOp (fun _ => rfl) (fun _ => rfl)
  · exact computes_laneOp (fun _ => rfl) (fun _ => rfl)
  · exact computes_laneOp (fun _ => rfl) (fun _ => rfl)
  · exact computes_laneOp (fun _ => rfl) (fun _ => rfl)
  · exact computes_laneOp (fun _ => rfl) (fun _ => rfl)
  · exact computes_laneOp (fun _ => rfl) (fun _ => rfl)
  · exact computes_laneOp (fun _ => rfl) (fun _ => rfl)
  · exact computes_laneOp (fun _ => rfl) (fun x =>
      congrArg (fun b => LaneOut.of (.pred b)) (condFloat_eq_getD (bits_lt w.mod 10 3) _ _))
  · exact computes_laneOp (fun _ => rfl) (fun _ => rfl)

/-- Half `k` of an operand as a number. -/
theorem halfIn_eq (m : BitVec 18) (v : DWord) (k : Nat) :
    halfIn m v k = (halfFmt m).decode (RMod.ftz m) (v.toNat / 2 ^ (16 * k) % 2 ^ 16) := by
  rw [halfIn, BitVec.extractLsb'_toNat, Nat.shiftRight_eq_div_pow]

theorem computes_packed {w : RWord} {i : Instr} {f : Num → Num → Num → Num}
    (he : ∀ s, exec i s = laneOp i (packedLane w.mod f) s) :
    Computes i (givesRounded w.mod 2 (fun x =>
      let fmt : FloatFmt := if w.mod.getLsbD 9 then bf16Fmt else fp16Fmt
      let v (z : DWord) (k : Nat) : Num := fmt.decode (RMod.ftz w.mod) (z.toNat / 2 ^ (16 * k) % 2 ^ 16)
      let half (k : Nat) : BitVec 16 :=
        BitVec.ofNat 16 (roundsTo fmt w.mod x k (f (v x.a k) (v x.b k) (v x.c k)))
      .reg (half 1 ++ half 0))) := by
  refine computes_laneOp he (fun x => ?_)
  simp only [packedLane, halfIn_eq]
  rfl

/-- CVT rounds, and counts its rounding, unless both formats are integer formats (R153). -/
theorem cvtLane_eq (w : RWord) (x : LaneIn) : cvtLane w x =
    let ints := (intFmt (RMod.bits w.mod 13 5)).isSome && (intFmt w.b.toNat).isSome
    { write := .reg (BitVec.ofNat 32 (convert (RMod.bits w.mod 13 5) w.b.toNat
        (if ints then { mode := 0, d := 0, ftz := false } else laneRounding w.mod x 0)
        (w.mod.getLsbD 8) (w.mod.getLsbD 12) (RMod.ftz w.mod) x.wa.toNat))
      draws := if RMod.rm w.mod = 5 then (if ints then 0 else 1) else 0 } := by
  simp only [cvtLane, convRounds, drawsOf, RMod.nan, LaneIn.wa]
  by_cases h : ((intFmt (RMod.bits w.mod 13 5)).isSome && (intFmt w.b.toNat).isSome) = true
  · simp only [h, Bool.not_true, Bool.false_eq_true, if_false, if_true, ite_self]
  · simp only [h, Bool.not_false, Bool.false_eq_true, if_false, if_true]

theorem formatResults_computes (w : RWord) : ∀ e ∈ formatResults w, Computes e.1 e.2 := by
  simp only [formatResults, List.forall_mem_cons, List.not_mem_nil, false_imp_iff, implies_true, and_true]
  refine ⟨computes_packed (f := fun a b _ => sumNum (RMod.rm w.mod) [a, b]) (fun _ => rfl),
    computes_packed (f := fun a b _ => a.mul b) (fun _ => rfl),
    computes_packed (f := fun a b c => sumNum (RMod.rm w.mod) [a.mul b, c]) (fun _ => rfl),
    computes_packed (f := fun a b _ => a.minMax false b) (fun _ => rfl),
    computes_packed (f := fun a b _ => a.minMax true b) (fun _ => rfl), computes_laneOp (fun _ => rfl) (cvtLane_eq w), ?_⟩
  refine ⟨?_, ?_, ?_, ?_, ?_, ?_, ?_, ?_, ?_, ?_, ?_, ?_⟩ <;> exact computes_laneOp (fun _ => rfl) (fun _ => rfl)

/-! ## The functions of the special words (R266 to R269) -/

theorem computes_srd (w : RWord) : Computes (.srd w) (fun s k r x =>
    let l := s.recordOfLaunch r.launch
    { write := .value (srWide w.a.toNat) ([x.lane.item, BitVec.ofNat 64 x.num, BitVec.ofNat 64 r.rod, BitVec.ofNat 64 r.team,
        BitVec.ofNat 64 k.frame.frame, BitVec.ofNat 64 k.frame.die, BitVec.ofNat 64 r.launch, s.frameTime k.frame,
        l.deadline, (if x.lane.phase then 1 else 0), l.param, l.count, (if Config.isStream k.frame.die then 0 else 1),
        x.lane.carryBits.setWidth 64].getD w.a.toNat (x.lane.carryBits.setWidth 64))
      draws := 0 }) := by
  refine ⟨_, fun _ => rfl, fun _ s k r m x => congrArg (fun v => LaneOut.of (.value (srWide w.a.toNat) v)) ?_⟩
  generalize w.a.toNat = n
  by_cases h : n < 13
  · interval_cases n <;> try rfl
    show BitVec.ofNat 64 (Config.classOf k.frame.die) = if Config.isStream k.frame.die then 0 else 1
    unfold Config.classOf
    split <;> rfl
  · obtain ⟨k, rfl⟩ := Nat.exists_eq_add_of_le (not_lt.1 h)
    rw [Nat.add_comm]
    cases k <;> rfl

theorem computes_slack (w : RWord) : Computes (.slack w) (fun s k r _ =>
    { write := .pair (match s.launch? r.launch with
        | some l => if l.record.deadline = 0 then 0x7FFFFFFFFFFFFFFF else l.slack (s.frameTime k.frame).toNat
        | none => 0x7FFFFFFFFFFFFFFF)
      draws := 0 }) := by
  refine ⟨_, fun _ => rfl, fun _ s k r m x => congrArg (fun v => LaneOut.of (.pair v)) ?_⟩
  unfold slackOf
  show (match s.launch? r.launch with
    | some l => l.slack (s.frameTime k.frame).toNat
    | none => BitVec.ofNat 64 (2 ^ 63 - 1)) = _
  cases s.launch? r.launch with
  | none => rfl
  | some l =>
    dsimp only
    split
    · rw [Launch.slack, if_pos ‹_›]
      rfl
    · rfl

theorem computes_rngc (w : RWord) : Computes (.rngc w) (gives (fun x =>
    let g := rngc x.a x.wb x.key
    match RMod.bits w.mod 8 2 with
    | 0 => .reg g.1
    | 1 => .pair (g.2 ++ g.1)
    | _ => .reg (BitVec.ofNat 32 (fp32Fmt.put .ieee { mode := 0, d := 0, ftz := false }
        (Num.mk' false (g.1.toNat / 256) (-24)))))) := by
  refine computes_laneOp (fun _ => rfl) (fun x => ?_)
  unfold rngcLane
  have hsh (v : Word) : (v >>> 8).toNat = v.toNat / 256 := by
    rw [BitVec.toNat_ushiftRight, Nat.shiftRight_eq_div_pow]
  dsimp only
  rw [hsh]
  have h := bits_lt w.mod 8 2
  generalize RMod.bits w.mod 8 2 = n at h ⊢
  interval_cases n <;> rfl

theorem specialResults_computes (w : RWord) : ∀ e ∈ specialResults w, Computes e.1 e.2 := by
  simp only [specialResults, List.forall_mem_cons, List.not_mem_nil, false_imp_iff, implies_true, and_true]
  refine ⟨computes_srd w, ⟨_, fun _ => rfl, fun _ _ _ _ _ _ => rfl⟩, computes_slack w, computes_rngc w,
    computes_laneOp (fun _ => rfl) (fun _ => rfl), computes_laneOp (fun _ => rfl) (fun _ => rfl), computes_laneOp (fun _ => rfl) (fun _ => rfl), computes_laneOp (fun _ => rfl) (fun _ => rfl),
    computes_laneOp (fun _ => rfl) (fun _ => rfl), computes_laneOp (fun _ => rfl) (fun _ => rfl)⟩

/-- Every lane word computes the result that the table names (R204). -/
theorem laneResults_computes (w : RWord) : ∀ e ∈ laneResults w, Computes e.1 e.2 := by
  unfold laneResults
  simp only [List.forall_mem_append]
  exact ⟨⟨⟨⟨⟨arithmeticResults_computes w, bitResults_computes w⟩, moveResults_computes w⟩, floatResults_computes w⟩,
    formatResults_computes w⟩, specialResults_computes w⟩

end Sys2Proof.Machine
end

section
namespace Sys2Proof.Machine

/-! ## Words are issued -/

/-- Every word of the machine acts through `issueWord`; the rows that are no words have no encoding. -/
theorem exec_word {i : Instr} (h : (encode i).isSome = true) : ∃ body, ∀ s, exec i s = issueWord i body s := by
  cases i
  all_goals try exact absurd h Bool.false_ne_true
  all_goals exact ⟨_, fun _ => rfl⟩

/-- A word that fails a check is the fault of its whole sub-rod (R219). -/
theorem exec_of_wordCause {i : Instr} (he : (encode i).isSome = true) {s : State} {k : RodKey} {l : Nat} {r : Rod} {c : Cause}
    (hcur : s.cur = some { key := k, lane := l }) (hr : s.rod? k = some r) (hl : l < 32) (hst : (r.lane l).st = .runnable)
    (hc : wordCause s k r i = some c) : exec i s
      = .next ((s.takeFault k (r.subRod l) (laneFault c (wordOf i) 0)).modRod k (fun q => q.regroup (r.subRod l))) := by
  obtain ⟨body, hb⟩ := exec_word he
  simp only [hb, issueWord, hcur, hr, hst, hl, and_self, if_true, runWord, hc]

/-! ## A lane's sub-rod number -/

theorem withGroup_eq {x : Lane} {g : Nat} (h : x.group = g) : { x with group := g } = x := by
  subst h
  rfl

theorem apply_group (w : LaneWrite) (d : Operand) (x : Lane) : (w.apply d x).group = x.group := by
  unfold LaneWrite.apply
  cases w <;> cases d <;> simp

theorem written_group (r : Rod) (kb : DWord) (i : Instr) (f : LaneIn → LaneWrite) (n : Nat) (x : Lane) :
    (written r kb i f n x).group = x.group := by
  unfold written
  split
  · exact apply_group _ _ _
  · rfl

/-! ## A fault of the firmware context (R367) -/

theorem State.modRod_report (s : State) (k : RodKey) (g : Rod → Rod) (x : Report) :
    (s.report x).modRod k g = (s.modRod k g).report x := by
  unfold State.modRod
  rw [show (s.report x).rod? k = s.rod? k from rfl]
  split <;> rfl

theorem rod?_fwKey_of_find {s : State} {p : FrameId} {r : Rod} (h : tableFind (fwKey p) s.rods = some r) :
    s.rod? (fwKey p) = some r := by
  simp [State.rod?, tableGet, h, show (fwKey p).slot = .firmware from rfl]

/-- A single lane is a sub-rod that stays together. -/
theorem regroup_one (r : Rod) : r.regroup 1 = r := by
  have hone (n : Fin 32) (h : (1 : BitVec 32).getLsbD n.val = true) : n = 0 := by
    revert n
    decide
  refine regroup_together (fun a b ha hb => ?_)
  rw [hone a ha, hone b hb]
  exact sameOutcome_refl _

theorem contextFault_eq {s : State} {p : FrameId} {r : Rod} (hr : s.rod? (fwKey p) = some r) (c : Cause) (pc : DWord) :
    s.contextFault p c pc = ((s.setFrame p { s.frame p with
        fw := .faulted
        status := (s.frame p).status ||| 2
        fwfault := (pc &&& ~~~0xFF#64) ||| c.code.setWidth 64 }).setRod (fwKey p)
          (r.setLane 0 { r.lane 0 with fence := none })).report (.contextFault p) := by
  unfold State.contextFault
  rw [State.modRod_of_some (show (s.modFrame p _).rod? (fwKey p) = some r from hr)]
  rfl

theorem exec_contextFault {i : Instr} (he : (encode i).isSome = true) {s : State} {p : FrameId} {r : Rod} {c : Cause}
    (hcur : s.cur = some { key := fwKey p, lane := 0 }) (hr : tableFind (fwKey p) s.rods = some r) (hm : r.subRod 0 = 1)
    (hst : (r.lane 0).st = .runnable) (hc : wordCause s (fwKey p) r i = some c) :
    exec i s = .next (s.contextFault p c (r.lane 0).pc) := by
  have hr' := rod?_fwKey_of_find hr
  have hf : s.takeFault (fwKey p) 1 (laneFault c (wordOf i) 0) = s.contextFault p c (r.lane 0).pc := by
    unfold State.takeFault
    rw [hr']
    rfl
  rw [exec_of_wordCause he hcur hr' (by decide) hst hc, hm, hf, contextFault_eq hr', State.modRod_report,
    State.modRod_of_some (State.rod?_setRod_same _ _ _), regroup_one]
  rw [State.setRod_setRod]

end Sys2Proof.Machine

open Sys2Proof Sys2Proof.Machine

/-- Settles O41: every lane word computes the result its table names, so its failing lanes park and its others complete; a word
check that fails in the firmware context stops it. -/
theorem operandFaultsAndContextFaults : Obligations.OperandFaultsAndContextFaults := by
  refine ⟨fun w s p slot l r c bad => ?_, fun w e he => plainWord_of_computes (laneResults_computes w e he),
    fun w e he => plainWord_of_computes (immediateResults_computes w e he), fun i s p r c he hcur hr hm hst hc => ?_⟩
  · intro k i f hi hcarry hbad hwho hcause
    have hp := (plainWord_of_computes (i := i) (f := gives f) (computes_int (fun _ => rfl) (fun _ _ _ _ => rfl)))
      s p slot l r c bad hi hcarry
    simp only [laneResult_gives_isOk, laneResult_gives_error] at hp
    obtain ⟨t, q, x, ht, hq, hrec, hx1, hx2, hx3, hx4, hx5, hmem, hteams, hcar, hhub, hlanes⟩ := (hp hwho hcause).2 hbad
    refine ⟨t, q, x, ht, hq, hrec, hx1, hx2, hx3, hx4, hx5, hmem, hteams, hcar, hhub, fun n => (hlanes n).trans ?_⟩
    by_cases hb : bad.getLsbD n.val = true
    · rw [if_pos hb, if_pos hb]
    rw [if_neg hb, if_neg hb]
    dsimp only
    by_cases hn : (r.subRod l).getLsbD n.val = true
    · rw [if_pos hn, if_pos hn]
      by_cases ha : actsOn i r.lanes[n] = true
      · have hok : (laneOperands r r.lanes[n] (planOf i)).isOk = true := by
          by_contra hno
          exact hb ((hwho n).2 ⟨hn, ha, Bool.eq_false_iff.2 hno⟩)
        rw [if_pos ha, if_pos ha, laneResult_gives_of_ok hok]
        exact withGroup_eq (written_group _ _ _ _ _ _)
      · rw [if_neg ha, if_neg ha]
        rfl
    · rw [if_neg hn, if_neg hn]
  · rw [exec_contextFault he hcur hr hm hst hc, contextFault_eq (rod?_fwKey_of_find hr)]
end

section
namespace Sys2Proof.Machine

/-! ## Tables as lists -/

theorem mem_of_tableFind {α β : Type} [DecidableEq α] {k : α} {v : β} :
    ∀ {t : List (α × β)}, tableFind k t = some v → (k, v) ∈ t
  | [], h => by cases h
  | (a, u) :: t, h => by
    unfold tableFind at h
    split at h
    · rename_i ha
      cases h
      rw [ha]
      exact List.mem_cons_self
    · exact List.mem_cons_of_mem _ (mem_of_tableFind h)

theorem mem_tableSet {α β : Type} [DecidableEq α] {k : α} {v : β} {e : α × β} :
    ∀ {t : List (α × β)}, e ∈ tableSet k v t → e = (k, v) ∨ e ∈ t
  | [], h => .inl (List.mem_singleton.1 h)
  | (a, u) :: t, h => by
    unfold tableSet at h
    split at h
    · exact (List.mem_cons.1 h).imp_right (List.mem_cons_of_mem _)
    · rcases List.mem_cons.1 h with h | h
      · exact .inr (h ▸ List.mem_cons_self)
      · exact (mem_tableSet h).imp_right (List.mem_cons_of_mem _)

theorem foldl_fixed {α β : Type} {f : β → α → β} {b : β} : ∀ {l : List α}, (∀ a ∈ l, f b a = b) → l.foldl f b = b
  | [], _ => rfl
  | a :: l, h => by
    rw [List.foldl_cons, h a List.mem_cons_self]
    exact foldl_fixed (fun x hx => h x (List.mem_cons_of_mem _ hx))

/-! ## Vectors that are read and written by number -/

theorem vector_getD {α : Type} {n : Nat} (v : Vector α n) (d : α) (k : Fin n) : v.toList.getD k.val d = v[k] := by
  simp [List.getD_eq_getElem?_getD]

theorem Team.queue_fin (t : Team) (n : Fin 16) : t.queue n.val = t.queues[n] := vector_getD _ _ n

theorem Team.queue_setQueue (t : Team) (q : Nat) (x : TokenQueue) {n : Nat} (hn : n < 16) :
    (t.setQueue q x).queue n = if n = q then x else t.queue n := by
  rw [show n = (⟨n, hn⟩ : Fin 16).val from rfl, Team.queue_fin, Team.queue_fin]
  simp [Team.setQueue]

theorem Team.window_fin (t : Team) (n : Fin 16) : t.window n.val = t.windows[n] := vector_getD _ _ n

theorem Team.window_setWindow (t : Team) (q : Nat) (x : Window) {n : Nat} (hn : n < 16) :
    (t.setWindow q x).window n = if n = q then x else t.window n := by
  rw [show n = (⟨n, hn⟩ : Fin 16).val from rfl, Team.window_fin, Team.window_fin]
  simp [Team.setWindow]

theorem Team.join_fin (t : Team) (n : Fin 16) : t.join n.val = t.joins[n] := vector_getD _ _ n

/-! ## A frame on which nothing waits (R60, R63, R293, R323) -/

/-- No lane of a rod on the frame is blocked. -/
def State.noneBlocked (s : State) (p : FrameId) : Prop :=
  ∀ e ∈ s.rods, e.1.frame = p → ∀ l : Fin 32, e.2.lanes[l].st ≠ .blocked

theorem mem_rodsOn {s : State} {p : FrameId} {e : Nat × Rod} : e ∈ s.rodsOn p ↔ (rodKey p e.1, e.2) ∈ s.rods := by
  obtain ⟨n, r⟩ := e
  simp only [State.rodsOn, List.mem_filterMap, Prod.exists]
  constructor
  · rintro ⟨⟨f, sl⟩, x, hx, h⟩
    cases sl with
    | firmware => cases h
    | rod j =>
      dsimp only at h
      split at h
      · rename_i hf
        cases h
        cases hf
        exact hx
      · cases h
  · exact fun h => ⟨rodKey p n, r, h, by simp [rodKey]⟩

theorem mem_teamsOn {s : State} {p : FrameId} {e : Nat × Team} :
    e ∈ s.teamsOn p ↔ (({ frame := p, slot := e.1 } : TeamKey), e.2) ∈ s.teams := by
  obtain ⟨n, t⟩ := e
  simp only [State.teamsOn, List.mem_filterMap, Prod.exists]
  constructor
  · rintro ⟨⟨f, sl⟩, x, hx, h⟩
    dsimp only at h
    split at h
    · rename_i hf
      cases h
      cases hf
      exact hx
    · cases h
  · exact fun h => ⟨_, t, h, by simp⟩

theorem getWaiters_nil {r : Rod} (h : ∀ l : Fin 32, r.lanes[l].st ≠ .blocked) (q : Nat) : getWaiters r q = [] := by
  unfold getWaiters
  rw [List.filter_eq_nil_iff]
  intro l hl
  have hb := h ⟨l, List.mem_range.1 hl⟩
  rw [← Rod.lane_lt r (List.mem_range.1 hl)] at hb
  split
  · simp [hb]
  · simp

theorem serveTeam_of_noneBlocked {s : State} {tk : TeamKey} (h : s.noneBlocked tk.frame) : s.serveTeam tk = s := by
  have hold (q : Nat) : s.oldestGet tk q = none := by
    unfold State.oldestGet
    have hnil : (s.rodsOn tk.frame).filterMap (fun e => if e.2.teamSlot = tk.slot && e.2.takesTokens then
        match getWaiters e.2 q with
        | l :: _ => some (ageKey e.2, (e.1, l))
        | [] => none
      else none) = [] := by
      rw [List.filterMap_eq_nil_iff]
      intro e he
      rw [getWaiters_nil (h _ (mem_rodsOn.1 he) rfl)]
      split <;> rfl
    exact congrArg (fun l => (oldestOf l).map Prod.snd) hnil
  refine foldl_fixed (fun q _ => ?_)
  unfold State.serveGets
  rw [hold q]
  split <;> rfl

theorem settleRows_of_no_releasing {s : State} {tk : TeamKey} (h : ∀ t, s.team? tk = some t → t.releasing = []) :
    s.settleRows tk = s := by
  unfold State.settleRows
  cases ht : s.team? tk with
  | none => rfl
  | some t =>
    have hr := h t ht
    dsimp only
    rw [hr]
    simp only [List.filter_nil, List.foldl_nil]
    rw [show ({ t with releasing := [] } : Team) = t by rw [← hr]]
    show { s with teams := tableSet tk t s.teams } = s
    rw [tableSet_of_find ht]

theorem settleJoins_of_no_pending {s : State} {tk : TeamKey} (h : ∀ t, s.team? tk = some t → ∀ n : Fin 16, t.joins[n].pending = []) :
    s.settleJoins tk = s := by
  refine foldl_fixed (fun n hn => ?_)
  unfold State.settleJoin
  cases ht : s.team? tk with
  | none => rfl
  | some t =>
    have hp := h t ht ⟨n, List.mem_range.1 hn⟩
    rw [← Team.join_fin] at hp
    simp only [hp]

theorem settleFrame_of_nothingWaits {s : State} {p : FrameId} (h : s.nothingWaits p) : s.settleFrame p = s := by
  obtain ⟨hteams, hrods⟩ := h
  refine foldl_fixed (fun e _ => ?_)
  have hteam (t : Team) (ht : s.team? { frame := p, slot := e.1 } = some t) := hteams _ (mem_of_tableFind ht) rfl
  dsimp only
  rw [settleRows_of_no_releasing (fun t ht => (hteam t ht).1), settleJoins_of_no_pending (fun t ht => (hteam t ht).2),
    serveTeam_of_noneBlocked (tk := { frame := p, slot := e.1 }) hrods]

/-- What waits on a frame does not change with a team that keeps its joins and releases. -/
theorem nothingWaits_setTeam {s : State} {p : FrameId} {tk : TeamKey} {t u : Team} (h : s.nothingWaits p)
    (ht : s.team? tk = some t) (hj : u.joins = t.joins) (hr : u.releasing = t.releasing) : (s.setTeam tk u).nothingWaits p := by
  refine ⟨fun e he hp => ?_, h.2⟩
  rcases mem_tableSet he with rfl | he
  · rw [hj, hr]
    exact h.1 _ (mem_of_tableFind ht) hp
  · exact h.1 e he hp

theorem nothingWaits_setRod {s : State} {p : FrameId} {k : RodKey} {r : Rod} (h : s.nothingWaits p)
    (hr : k.frame = p → ∀ l : Fin 32, r.lanes[l].st ≠ .blocked) : (s.setRod k r).nothingWaits p := by
  refine ⟨h.1, fun e he hp => ?_⟩
  rcases mem_tableSet he with rfl | he
  · exact hr hp
  · exact h.2 e he hp

/-! ## The tokens of a command (R64) -/

/-- One token leaves a queue of a team. -/
def Team.dropToken (t : Team) (q : Nat) : Team := t.setQueue q { t.queue q with tokens := (t.queue q).tokens.drop 1 }

theorem foldl_dropToken_queue {n : Nat} (hn : n < 16) : ∀ {l : List Nat}, l.Nodup → ∀ t : Team,
    (l.foldl Team.dropToken t).queue n
      = { t.queue n with tokens := if n ∈ l then (t.queue n).tokens.drop 1 else (t.queue n).tokens }
  | [], _, _ => rfl
  | q :: l, h, t => by
    obtain ⟨hq, hl⟩ := List.nodup_cons.1 h
    rw [List.foldl_cons, foldl_dropToken_queue hn hl, Team.dropToken, Team.queue_setQueue _ _ _ hn]
    by_cases hnq : n = q
    · subst hnq
      simp [hq]
    · simp [hnq]

/-- A team of which only queues have changed. -/
theorem setQueue_frame {t u : Team} (h : u = { t with queues := u.queues }) (q : Nat) (x : TokenQueue) :
    u.setQueue q x = { t with queues := (u.setQueue q x).queues } :=
  congrArg (fun v : Team => { v with queues := (u.setQueue q x).queues }) h

theorem foldl_dropToken_frame {t : Team} : ∀ (l : List Nat) {u : Team}, u = { t with queues := u.queues } →
    l.foldl Team.dropToken u = { t with queues := (l.foldl Team.dropToken u).queues }
  | [], _, h => h
  | q :: l, u, h => by
    rw [List.foldl_cons]
    have hq : u.dropToken q = { t with queues := (u.dropToken q).queues } := setQueue_frame h q _
    exact foldl_dropToken_frame l hq

theorem takeTokens_eq (t : Team) (c : Cmd) : takeTokens t c =
    let t1 := c.consumes.foldl Team.dropToken t
    match c.produces with
    | some q => t1.setQueue q { t1.queue q with reserved := (t1.queue q).reserved + 1 }
    | none => t1 := by
  unfold takeTokens
  cases c.produces <;> rfl

theorem takeTokens_frame (t : Team) (c : Cmd) : takeTokens t c = { t with queues := (takeTokens t c).queues } := by
  have h := foldl_dropToken_frame c.consumes (t := t) (u := t) rfl
  rw [takeTokens_eq]
  dsimp only
  split
  · exact setQueue_frame h _ _
  · exact h

theorem takeTokens_queue {t : Team} {c : Cmd} {n : Nat} (hc : c.consumes.Nodup) (hn : n < 16) :
    (takeTokens t c).queue n = { t.queue n with
      tokens := if n ∈ c.consumes then (t.queue n).tokens.drop 1 else (t.queue n).tokens
      reserved := (t.queue n).reserved + (if c.produces = some n then 1 else 0) } := by
  have h := foldl_dropToken_queue hn hc t
  rw [takeTokens_eq]
  dsimp only
  cases hp : c.produces with
  | none => simpa using h
  | some q =>
    dsimp only
    rw [Team.queue_setQueue _ _ _ hn]
    by_cases hnq : n = q
    · subst hnq
      simp [h]
    · simp [h, hnq, Ne.symm hnq]

theorem windowEffect_frame (t : Team) (c : Cmd) : windowEffect t c = { t with windows := (windowEffect t c).windows } := by
  unfold windowEffect
  split
  · rfl
  dsimp only
  split <;> rfl

/-! ## The command that can start (R64, R302, R361, R443) -/

/-- What holds of the head whose start conditions hold. -/
theorem claimantAfter_some {s : State} {p : FrameId} {e : EngineId} {earlier : List (Option (Nat × Cmd))} {n : Nat} {c : Cmd}
    (h : s.claimantAfter p e earlier = some (n, c)) : ((s.frame p).engine e).head? = some n
      ∧ ((s.frame p).engine e).entries[n]? = some c ∧ s.peerWaits c = false ∧ s.rowsEvicted p c = false
      ∧ ∃ t, s.team? (cmdTeam p c) = some t ∧ tokensReady t c = true := by
  unfold State.claimantAfter at h
  cases hh : ((s.frame p).engine e).head? with
  | none => rw [hh] at h; cases h
  | some m =>
    rw [hh] at h
    dsimp only at h
    cases he : ((s.frame p).engine e).entries[m]? with
    | none => rw [he] at h; cases h
    | some d =>
      rw [he] at h
      dsimp only at h
      cases ht : s.team? { frame := p, slot := d.teamSlot } with
      | none => rw [ht] at h; cases h
      | some t =>
        rw [ht] at h
        dsimp only at h
        split at h
        · rename_i hc
          cases h
          simp only [Bool.and_eq_true, Bool.not_eq_true'] at hc
          obtain ⟨⟨⟨⟨hready, -⟩, hpeer⟩, hrows⟩, -⟩ := hc
          exact ⟨rfl, he, hpeer, hrows, t, ht, hready⟩
        · cases h

theorem claimant_eq (s : State) (p : FrameId) (e : EngineId) : ∃ earlier, s.claimant p e = s.claimantAfter p e earlier := by
  cases e
  · exact ⟨[], rfl⟩
  · exact ⟨_, rfl⟩
  · exact ⟨_, rfl⟩

theorem startable_some {s : State} {p : FrameId} {e : EngineId} {n : Nat} {c : Cmd} (h : s.startable p e = some (n, c)) :
    (∃ earlier, s.claimantAfter p e earlier = some (n, c)) ∧ (s.frame p).mayStart e c = true := by
  obtain ⟨earlier, he⟩ := claimant_eq s p e
  obtain ⟨h1, h2⟩ := Option.filter_eq_some_iff.1 h
  exact ⟨⟨earlier, he ▸ h1⟩, h2⟩

theorem startCheck_ne_wait {s : State} {tk : TeamKey} {t : Team} {c : Cmd} (hp : s.peerWaits c = false)
    (hr : s.rowsEvicted tk.frame c = false) : s.startCheck tk t c ≠ .wait := by
  have hof (o : Option Cause) : ofCause o ≠ .wait := by cases o <;> exact StartCheck.noConfusion
  have hpeer : s.peerStart c ≠ .wait := by
    unfold State.peerStart
    rw [hp]
    simp only [Bool.false_eq_true, if_false]
    split
    · split
      · exact StartCheck.noConfusion
      · split
        · split <;> exact StartCheck.noConfusion
        · exact StartCheck.noConfusion
    · exact StartCheck.noConfusion
  unfold State.startCheck
  rw [hr]
  simp only [Bool.false_eq_true, if_false]
  split
  · exact StartCheck.noConfusion
  · split
    · exact hof _
    · exact hof _
    · exact hof _
    · exact hof _
    · exact hof _
    · exact hof _
    · exact hpeer
    · exact hof _
    · exact StartCheck.noConfusion

/-- The effect of a command takes free values, and changes nothing else. -/
theorem effectOf_frame (s : State) (t : Team) (c : Cmd) : (s.effectOf t c).2 = { s with free := (s.effectOf t c).2.free } := by
  unfold State.effectOf
  dsimp only
  split
  · rfl
  · split <;> rfl

/-! ## The start (R302, R303) -/

theorem reservePeer_of_not_peer {s : State} {c : Cmd} (h : c.isReduce = true ∨ c.index ≠ 0x27) : s.reservePeer c = s := by
  have hn : c.remoteQueue = none := by
    unfold Cmd.remoteQueue
    rcases h with h | h
    · simp [h]
    · simp [h]
  unfold State.reservePeer
  rw [hn]

theorem startCommand_go {s s1 : State} {p : FrameId} {e : EngineId} {n : Nat} {c : Cmd} {t : Team} {ef : Effect}
    (hs : s.startable p e = some (n, c)) (ht : s.team? (cmdTeam p c) = some t) (hw : s.nothingWaits p)
    (hi : issueCheck p.die ((s.recordOfLaunch c.launch).teams) t c = none) (hc : s.startCheck (cmdTeam p c) t c = .go)
    (hpeer : c.isReduce = true ∨ c.index ≠ 0x27) (he : s.effectOf t c = (ef, s1)) :
    s.startCommand p e = (s1.setTeam (cmdTeam p c) (windowEffect (takeTokens t c) c)).modEngine p e (fun q =>
      { entries := q.entries.set n
          { c with st := .running, effect := ef, epoch := none, window := t.window (c.e0.extractLsb' 0 4).toNat }
        stalledSince := none }) := by
  have hs1 : s1 = { s with free := s1.free } := by
    have := effectOf_frame s t c
    rwa [he] at this
  have hw1 : s1.nothingWaits p := by
    rw [hs1]
    exact hw
  have ht1 : s1.team? (cmdTeam p c) = some t := by
    rw [hs1]
    exact ht
  have hjoins : (windowEffect (takeTokens t c) c).joins = t.joins := by
    rw [windowEffect_frame, takeTokens_frame]
  have hrel : (windowEffect (takeTokens t c) c).releasing = t.releasing := by
    rw [windowEffect_frame, takeTokens_frame]
  unfold State.startCommand
  simp only [hs, ht, hi, hc, he]
  rw [reservePeer_of_not_peer hpeer]
  exact settleFrame_of_nothingWaits (nothingWaits_setTeam hw1 ht1 hjoins hrel)

theorem startCommand_fault {s : State} {p : FrameId} {e : EngineId} {n slot : Nat} {c : Cmd} {t : Team} {r : Rod} {cause : Cause}
    (hs : s.startable p e = some (n, c)) (ht : s.team? (cmdTeam p c) = some t) (hw : s.nothingWaits p)
    (hi : issueCheck p.die ((s.recordOfLaunch c.launch).teams) t c = none) (hc : s.startCheck (cmdTeam p c) t c = .fault cause)
    (hun : c.rod ∈ t.unretired) (hst : c.rod < t.started) (hm : s.memberSlot (cmdTeam p c) c.rod = some slot)
    (hr : s.rod? (rodKey p slot) = some r) :
    s.startCommand p e = (s.modEngine p e (fun q => { q with entries := q.entries.eraseIdx n })).setRod (rodKey p slot)
      { r with engineFaults := r.engineFaults ++
          [{ cause := .engineCommandFault, orig := some cause.code, word := c.word, addr := 0, progress := c.progress,
             engine := e }] } := by
  have hfault : (s.modEngine p e (fun q => q.dropEntry n)).commandFault p e c .engineCommandFault (some cause.code) 0
      = (s.modEngine p e (fun q => { q with entries := q.entries.eraseIdx n })).setRod (rodKey p slot)
        { r with engineFaults := r.engineFaults ++
            [{ cause := .engineCommandFault, orig := some cause.code, word := c.word, addr := 0, progress := c.progress,
               engine := e }] } := by
    unfold State.commandFault State.engineFaultTo
    rw [show (s.modEngine p e (fun q => q.dropEntry n)).team? (cmdTeam p c) = some t from ht]
    simp only [List.contains_iff_mem, hun, if_true, hst]
    unfold State.modMember
    rw [show (s.modEngine p e (fun q => q.dropEntry n)).memberSlot (cmdTeam p c) c.rod = some slot from hm]
    exact State.modRod_of_some (show (s.modEngine p e (fun q => q.dropEntry n)).rod? (rodKey p slot) = some r from hr) _
  have hw2 : (s.modEngine p e (fun q => { q with entries := q.entries.eraseIdx n })).nothingWaits p := hw
  unfold State.startCommand
  simp only [hs, ht, hi, hc]
  rw [hfault]
  exact settleFrame_of_nothingWaits (nothingWaits_setRod hw2 (fun _ => hw.2 _ (mem_of_tableFind hr) rfl))

end Sys2Proof.Machine

open Sys2Proof Sys2Proof.Machine

/-- Settles O45: the head that `startable` names meets every condition, and where nothing else of the frame waits the start is its
own effect alone. -/
theorem commandsStart : Obligations.CommandsStart := by
  refine ⟨fun s p e h => ?_, fun s s1 p e n c t ef => ?_, fun t c n hc hn => ?_, fun t c m hred hm => ?_⟩
  · show Host.Outcome.next (s.startCommand p e) = _
    unfold State.startCommand
    rw [h]
  · intro tk hs ht hw hi
    refine ⟨fun hc hpeer he => congrArg Host.Outcome.next (startCommand_go hs ht hw hi hc hpeer he), ?_,
      fun cause slot r hc hun hst hm hr => congrArg Host.Outcome.next (startCommand_fault hs ht hw hi hc hun hst hm hr)⟩
    obtain ⟨⟨earlier, hcl⟩, hmay⟩ := startable_some hs
    obtain ⟨hhead, hent, hpeer, hrows, u, hu, hready⟩ := claimantAfter_some hcl
    obtain rfl : u = t := Option.some.inj (hu.symm.trans ht)
    obtain ⟨hlt, hnot, hbefore⟩ := List.findIdx?_eq_some_iff_getElem.1 hhead
    simp only [tokensReady, Bool.and_eq_true, List.all_eq_true, bne_iff_ne] at hready
    simp only [Frame.mayStart, Bool.and_eq_true, Bool.not_eq_true'] at hmay
    obtain ⟨⟨⟨hctl, hstop⟩, -⟩, -⟩ := hmay
    refine ⟨hent, ?_, fun m d hmn hd => ?_, hready.1, fun q hq => ?_, hctl, fun d hd hst => ?_, startCheck_ne_wait hpeer hrows⟩
    · rw [List.getElem?_eq_getElem hlt] at hent
      cases hent
      simpa using hnot
    · have := hbefore m hmn
      rw [List.getElem?_eq_getElem (hmn.trans hlt)] at hd
      cases hd
      simpa using this
    · have := hready.2
      rw [hq] at this
      simpa [TokenQueue.room] using this
    · rw [List.any_eq_false] at hstop
      exact hstop d hd (by simp [hst])
  · rw [takeTokens_queue hc hn]
    refine ⟨rfl, rfl, ?_⟩
    rw [takeTokens_frame]
  · unfold windowEffect
    simp only [hred, Bool.false_eq_true, if_false]
    refine ⟨fun h => ?_, fun h => ?_⟩
    · rw [h]
      exact Team.window_setWindow _ _ _ hm
    · rw [h]
      exact Team.window_setWindow _ _ _ hm
end

section
namespace Sys2Proof.Machine

/-! ## Join registers (R59, R60) -/

theorem Team.join_setJoin (t : Team) (m : Nat) (j : Join) {n : Nat} (hn : n < 16) :
    (t.setJoin m j).join n = if n = m then j else t.join n := by
  rw [show n = (⟨n, hn⟩ : Fin 16).val from rfl, Team.join_fin, Team.join_fin]
  simp [Team.setJoin]

theorem Team.setJoin_setJoin (t : Team) (n : Nat) (i j : Join) : (t.setJoin n i).setJoin n j = t.setJoin n j := by
  simp only [Team.setJoin, Team.mk.injEq, true_and, and_true]
  ext k
  simp only [Vector.getElem_ofFn, Fin.getElem_fin]
  split <;> rfl

/-- A join register with a member is one of the sixteen. -/
theorem lt_of_join_mask {t : Team} {n b : Nat} (h : (t.join n).mask.getLsbD b = true) : n < 16 := by
  by_contra hn
  have : t.join n = Join.reset := by
    unfold Team.join
    rw [List.getD_eq_default]
    simpa using hn
  rw [this] at h
  simp [Join.reset] at h

/-- The team after a signature: its join register is `j`, and one more order number is taken. -/
def Team.afterSign (t : Team) (n : Nat) (j : Join) : Team := { t.setJoin n j with nextOrd := t.nextOrd + 1 }

/-- The rod after a signature: the number of its next one on join register `n` is `b`. -/
def Rod.afterSign (r : Rod) (n b : Nat) : Rod :=
  { r with sigs := Vector.ofFn (fun j => if j.val = n then b else r.sigs[j]) }

@[simp] theorem Rod.lanes_afterSign (r : Rod) (n b : Nat) : (r.afterSign n b).lanes = r.lanes := by
  simp only [Rod.afterSign]

theorem Team.join_afterSign (t : Team) (j : Join) {n : Nat} (hn : n < 16) : (t.afterSign n j).join n = j := by
  rw [← show (t.setJoin n j).join n = (t.afterSign n j).join n from rfl, Team.join_setJoin _ _ _ hn, if_pos rfl]

@[simp] theorem Team.retired_afterSign (t : Team) (n : Nat) (j : Join) : (t.afterSign n j).retired = t.retired := by
  simp only [Team.afterSign, Team.setJoin]

@[simp] theorem Team.rods_afterSign (t : Team) (n : Nat) (j : Join) : (t.afterSign n j).rods = t.rods := by
  simp only [Team.afterSign, Team.setJoin]

theorem Team.absent_afterSign (t : Team) (n : Nat) (j : Join) : (t.afterSign n j).absent = t.absent := by
  simp only [Team.absent, Team.retired_afterSign, Team.rods_afterSign]

theorem complete_afterSign (i : Instance) (j j' : Join) (t : Team) (n : Nat) :
    i.complete j (t.afterSign n j') = i.complete j t := by
  simp only [Instance.complete, Team.absent_afterSign]

theorem toCmd_afterSign (i : Instance) (t : Team) (n : Nat) (j : Join) (slot : Nat) (mask : BitVec 32) :
    i.toCmd (t.afterSign n j) slot mask = i.toCmd t slot mask := by
  simp only [Instance.toCmd, Team.afterSign, Team.setJoin]

theorem bindingsAdmit_afterSign (t : Team) (n : Nat) (j : Join) (e : EngineId) (c : Cmd) :
    bindingsAdmit (t.afterSign n j) e c = bindingsAdmit t e c := by
  simp only [bindingsAdmit, Team.queue, Team.afterSign, Team.setJoin]

theorem complete_iff {i : Instance} {j : Join} {t : Team} :
    i.complete j t = true ↔ j.mask &&& ~~~(i.signed ||| t.absent) = 0 := by
  unfold Instance.complete
  exact beq_iff_eq

theorem Team.setJoin_afterSign (t : Team) (n : Nat) (i j : Join) :
    (t.afterSign n i).setJoin n j = t.afterSign n j :=
  congrArg (fun u : Team => { u with nextOrd := t.nextOrd + 1 }) (Team.setJoin_setJoin t n i j)

theorem State.setTeam_setTeam (s : State) (k : TeamKey) (t u : Team) : (s.setTeam k t).setTeam k u = s.setTeam k u := by
  simp [State.setTeam, tableSet_tableSet]

theorem State.setTeam_setRod (s : State) (k : RodKey) (r : Rod) (tk : TeamKey) (t : Team) :
    (s.setRod k r).setTeam tk t = (s.setTeam tk t).setRod k r := rfl

theorem State.append_setRod (s : State) (k : RodKey) (r : Rod) (p : FrameId) (e : EngineId) (c : Cmd) :
    (s.setRod k r).append p e c = (s.append p e c).setRod k r := rfl

theorem nextSig_of_le {r : Rod} {n : Nat} {j : Join} (h : r.sigs.toList.getD n 0 ≤ j.base) : r.nextSig n j = j.base :=
  Nat.max_eq_right h

/-- A pending entry with the signature of rod `r` alone (R60). -/
def Instance.firstBy (i : Instance) (r ord : Nat) : Instance :=
  { i with captured := some r, signed := 1#32 <<< r, last := r, ord := ord }

/-- A pending entry with one more signature, of rod `r`: the lowest rod's operands are kept (R60). -/
def Instance.mergedBy (old sig : Instance) (r m : Nat) : Instance :=
  { (if r < m then { sig with captured := some r, signed := old.signed, partials := old.partials, ord := old.ord } else old) with
    signed := old.signed ||| 1#32 <<< r, partials := old.partials ++ sig.partials, last := r }

section
variable {s : State} {k : RodKey} {r : Rod} {t : Team} {n : Nat}
  (hr : s.rod? k = some r) (ht : s.team? (teamKeyOf k r) = some t) (hm : (t.join n).mask.getLsbD r.rod = true)
  (hs : r.sigs.toList.getD n 0 ≤ (t.join n).base)
include hr ht hm hs

theorem sign_first (hp : (t.join n).pending = []) (same : DWord → Bool) (sig : Instance) :
    s.sign k r n same sig = .signed (State.settleJoin (teamKeyOf k r) n 4
      ((s.setTeam (teamKeyOf k r) (t.afterSign n { t.join n with pending := [sig.firstBy r.rod t.nextOrd] })).setRod k
        (r.afterSign n ((t.join n).base + 1)))) := by
  have hr' (u : Team) : (s.setTeam (teamKeyOf k r) u).rod? k = some r := hr
  unfold State.sign
  simp only [ht, hm, nextSig_of_le hs, hp, Bool.not_true, Bool.false_eq_true, if_false, Nat.sub_self,
    show ¬ 4 ≤ 0 by omega, List.getElem?_nil, List.nil_append, State.modRod_of_some (hr' _)]
  rfl

theorem sign_next {old : Instance} {m : Nat} (hp : (t.join n).pending = [old]) (hc : old.captured = some m)
    {same : DWord → Bool} (hw : same old.word = true) (sig : Instance) :
    s.sign k r n same sig = .signed (State.settleJoin (teamKeyOf k r) n 4
      ((s.setTeam (teamKeyOf k r) (t.afterSign n { t.join n with pending := [old.mergedBy sig r.rod m] })).setRod k
        (r.afterSign n ((t.join n).base + 1)))) := by
  have hr' (u : Team) : (s.setTeam (teamKeyOf k r) u).rod? k = some r := hr
  unfold State.sign
  simp only [ht, hm, nextSig_of_le hs, hp, Bool.not_true, Bool.false_eq_true, if_false, Nat.sub_self,
    show ¬ 4 ≤ 0 by omega, List.getElem?_cons_zero, hw, hc, decide_eq_true_eq, List.set_cons_zero,
    State.modRod_of_some (hr' _)]
  rfl

end

/-! ## A complete command leaves its join register (R60, R63) -/

theorem releaseJoin_of_noneBlocked {r : Rod} (h : ∀ l : Fin 32, r.lanes[l].st ≠ .blocked) (n : Nat) (j : Join) :
    r.releaseJoin n j = r := by
  unfold Rod.releaseJoin Rod.mapLanes
  have : (Vector.ofFn (fun l : Fin 32 => r.lanes[l])) = r.lanes := by
    ext l
    simp
  simp only [Fin.getElem_fin] at h this ⊢
  simp [h, this]

theorem modRod_of_fixed {s : State} {p : FrameId} {slot : Nat} {f : Rod → Rod}
    (h : ∀ r, s.rod? (rodKey p slot) = some r → f r = r) : s.modRod (rodKey p slot) f = s := by
  cases hr : s.rod? (rodKey p slot) with
  | none =>
    unfold State.modRod
    rw [hr]
  | some r =>
    rw [State.modRod_of_some hr, h r hr]
    show { s with rods := tableSet (rodKey p slot) r s.rods } = s
    rw [tableSet_of_find (show tableFind (rodKey p slot) s.rods = some r from hr)]

/-- Where no lane is blocked, none waits on a join register. -/
theorem releaseJoins_of_noneBlocked {s : State} {tk : TeamKey} (h : s.noneBlocked tk.frame) (n : Nat) (j : Join)
    (l : List (Nat × Rod)) :
    l.foldl (fun s e => if e.2.teamSlot = tk.slot then s.modRod (rodKey tk.frame e.1) (fun r => r.releaseJoin n j) else s) s
      = s := by
  refine foldl_fixed (fun e _ => ?_)
  split
  · exact modRod_of_fixed (fun r hr => releaseJoin_of_noneBlocked (h _ (mem_of_tableFind hr) rfl) n j)
  · rfl

theorem settleJoin_of_nil {s : State} {tk : TeamKey} {t : Team} {n : Nat} (ht : s.team? tk = some t)
    (hj : (t.join n).pending = []) (fuel : Nat) : State.settleJoin tk n fuel s = s := by
  cases fuel with
  | zero => rfl
  | succ fuel =>
    unfold State.settleJoin
    simp only [ht, hj]

section
variable {s : State} {tk : TeamKey} {t : Team} {n : Nat} {i : Instance} (ht : s.team? tk = some t)
  (hj : (t.join n).pending = [i])
include ht hj

/-- A pending command that lacks a signature stays where it is. -/
theorem settleJoin_of_incomplete (h : i.complete (t.join n) t = false) (fuel : Nat) :
    State.settleJoin tk n fuel s = s := by
  cases fuel with
  | zero => rfl
  | succ fuel =>
    unfold State.settleJoin
    simp only [ht, hj, h, Bool.not_false, if_true]

/-- The only pending command of a join register, complete, enters its engine's queue. -/
theorem settleJoin_of_complete (hn : n < 16) (h : i.complete (t.join n) t = true) (hc : i.counted = true)
    (hq : s.queueClosed tk.frame (engineOf i.word) = false)
    (hb : bindingsAdmit t (engineOf i.word) (i.toCmd t tk.slot (t.join n).mask) = true) (hw : s.noneBlocked tk.frame)
    (fuel : Nat) :
    State.settleJoin tk n (fuel + 2) s =
      (s.setTeam tk (t.setJoin n { t.join n with base := (t.join n).base + 1, pending := [] })).append tk.frame
        (engineOf i.word) (i.toCmd t tk.slot (t.join n).mask) := by
  have hcount : s.drawCount tk t i = i.count := by simp [State.drawCount, hc]
  have hsup (u : State) : u.countSupplier tk t i = u := by simp [State.countSupplier, hc]
  set j' : Join := { t.join n with base := (t.join n).base + 1, pending := [] } with hj'
  set s2 := (s.setTeam tk (t.setJoin n j')).append tk.frame (engineOf i.word) (i.toCmd t tk.slot (t.join n).mask) with hs2
  have hstep : State.settleJoin tk n (fuel + 2) s = State.settleJoin tk n (fuel + 1) s2 := by
    rw [State.settleJoin]
    simp only [ht, hj, h, hq, hc, hcount, hsup, Bool.not_true, Bool.false_and, Bool.false_eq_true, if_false]
    rw [show ({ i.toCmd t tk.slot (t.join n).mask with count := i.count } : Cmd) = i.toCmd t tk.slot (t.join n).mask from rfl,
      hb, Bool.not_false, Bool.and_self, if_pos rfl, releaseJoins_of_noneBlocked (s := (s.setTeam tk _).append _ _ _) hw,
      hs2, hj']
  have hteam : s2.team? tk = some (t.setJoin n j') := State.team?_setTeam_same s tk _
  have hnil : ((t.setJoin n j').join n).pending = [] := by rw [Team.join_setJoin t n j' hn, if_pos rfl]
  rw [hstep, settleJoin_of_nil hteam hnil]

end

/-! ## What a signature leaves (R60) -/

section
variable {s : State} {k : RodKey} {tk : TeamKey} {q : Rod} {t : Team} {n : Nat} (hn : n < 16) {i : Instance} (j : Join)
include hn

theorem settle_signed_incomplete (h : j.mask &&& ~~~(i.signed ||| t.absent) ≠ 0) (fuel : Nat) :
    State.settleJoin tk n fuel ((s.setTeam tk (t.afterSign n { j with pending := [i] })).setRod k q)
      = (s.setTeam tk (t.afterSign n { j with pending := [i] })).setRod k q := by
  have ht : ((s.setTeam tk (t.afterSign n { j with pending := [i] })).setRod k q).team? tk = some _ :=
    State.team?_setTeam_same s tk _
  refine settleJoin_of_incomplete (i := i) ht (by rw [Team.join_afterSign t _ hn]) ?_ fuel
  rw [Team.join_afterSign t _ hn, complete_afterSign, ← Bool.not_eq_true, complete_iff]
  exact h

theorem settle_signed_complete (h : j.mask &&& ~~~(i.signed ||| t.absent) = 0) (hc : i.counted = true)
    (hq : s.queueClosed tk.frame (engineOf i.word) = false)
    (hb : bindingsAdmit t (engineOf i.word) (i.toCmd t tk.slot j.mask) = true) (hw : s.noneBlocked tk.frame)
    (hl : ∀ l : Fin 32, q.lanes[l].st ≠ .blocked) (fuel : Nat) :
    State.settleJoin tk n (fuel + 2) ((s.setTeam tk (t.afterSign n { j with pending := [i] })).setRod k q)
      = ((s.setTeam tk (t.afterSign n { j with base := j.base + 1, pending := [] })).append tk.frame (engineOf i.word)
          (i.toCmd t tk.slot j.mask)).setRod k q := by
  have ht : ((s.setTeam tk (t.afterSign n { j with pending := [i] })).setRod k q).team? tk = some _ :=
    State.team?_setTeam_same s tk _
  have hw' : ((s.setTeam tk (t.afterSign n { j with pending := [i] })).setRod k q).noneBlocked tk.frame := by
    intro e he hp
    rcases mem_tableSet he with rfl | he
    · exact hl
    · exact hw e he hp
  have hj := Team.join_afterSign t { j with pending := [i] } hn
  have hcomplete : i.complete ((t.afterSign n { j with pending := [i] }).join n) (t.afterSign n { j with pending := [i] })
      = true := by
    rw [hj, complete_afterSign, complete_iff]
    exact h
  have hadmit : bindingsAdmit (t.afterSign n { j with pending := [i] }) (engineOf i.word)
      (i.toCmd (t.afterSign n { j with pending := [i] }) tk.slot ((t.afterSign n { j with pending := [i] }).join n).mask)
      = true := by
    rw [hj, toCmd_afterSign, bindingsAdmit_afterSign]
    exact hb
  rw [settleJoin_of_complete ht (by rw [hj]) hn hcomplete hc hq hadmit hw', hj, Team.setJoin_afterSign, toCmd_afterSign,
    State.setTeam_setRod, State.setTeam_setTeam, State.append_setRod]

end

theorem noneBlocked_rod {s : State} {p : FrameId} {slot : Nat} {r : Rod} (h : s.noneBlocked p)
    (hr : s.rod? (rodKey p slot) = some r) (l : Fin 32) : r.lanes[l].st ≠ .blocked :=
  h _ (mem_of_tableFind hr) rfl l

section
variable {s : State} {p : FrameId} {slot : Nat} {r : Rod} {t : Team} {n : Nat} {same : DWord → Bool} {sig : Instance}
  (hr : s.rod? (rodKey p slot) = some r) (ht : s.team? (teamKeyOf (rodKey p slot) r) = some t)
  (hm : (t.join n).mask.getLsbD r.rod = true) (hs : r.sigs.toList.getD n 0 ≤ (t.join n).base)
include hr ht hm hs

/-- The first of several members to sign leaves a pending command. -/
theorem sign_pending (hp : (t.join n).pending = [])
    (h : (t.join n).mask &&& ~~~((1#32 <<< r.rod) ||| t.absent) ≠ 0) :
    s.sign (rodKey p slot) r n same sig = .signed
      ((s.setTeam (teamKeyOf (rodKey p slot) r)
        (t.afterSign n { t.join n with pending := [sig.firstBy r.rod t.nextOrd] })).setRod (rodKey p slot)
          (r.afterSign n ((t.join n).base + 1))) := by
  rw [sign_first hr ht hm hs hp]
  exact congrArg Signing.signed (settle_signed_incomplete (tk := teamKeyOf (rodKey p slot) r)
    (i := sig.firstBy r.rod t.nextOrd) (lt_of_join_mask hm) (t.join n) h 4)

/-- The sole member of a join register puts its command into the engine's queue as it signs. -/
theorem sign_sole (hp : (t.join n).pending = []) (h : (t.join n).mask = 1#32 <<< r.rod) (hc : sig.counted = true)
    {word : DWord} (hword : sig.word = word) {c : Cmd}
    (hcmd : (sig.firstBy r.rod t.nextOrd).toCmd t r.teamSlot (t.join n).mask = c)
    (hq : s.queueClosed p (engineOf word) = false) (hb : bindingsAdmit t (engineOf word) c = true) (hw : s.noneBlocked p) :
    s.sign (rodKey p slot) r n same sig = .signed
      (((s.setTeam (teamKeyOf (rodKey p slot) r)
        (t.afterSign n { t.join n with base := (t.join n).base + 1, pending := [] })).append p (engineOf word) c).setRod (rodKey p slot)
            (r.afterSign n ((t.join n).base + 1))) := by
  subst hword hcmd
  have hall : (t.join n).mask &&& ~~~((sig.firstBy r.rod t.nextOrd).signed ||| t.absent) = 0 := by
    rw [h]
    show 1#32 <<< r.rod &&& ~~~(1#32 <<< r.rod ||| t.absent) = 0
    ext a ha
    by_cases hb : (1#32 <<< r.rod)[a] = true <;> simp [hb]
  rw [sign_first hr ht hm hs hp]
  exact congrArg Signing.signed (settle_signed_complete (tk := teamKeyOf (rodKey p slot) r)
    (q := r.afterSign n ((t.join n).base + 1)) (i := sig.firstBy r.rod t.nextOrd) (lt_of_join_mask hm) (t.join n) hall hc hq hb hw
    (by rw [Rod.lanes_afterSign]; exact noneBlocked_rod hw hr) 2)

/-- The last member to sign puts the command into the engine's queue. -/
theorem sign_last {old : Instance} {m : Nat} (hp : (t.join n).pending = [old]) (hcap : old.captured = some m)
    (hsame : same old.word = true)
    (h : (t.join n).mask &&& ~~~(old.signed ||| (1#32 <<< r.rod) ||| t.absent) = 0)
    (hc : (old.mergedBy sig r.rod m).counted = true)
    {word : DWord} (hword : engineOf (old.mergedBy sig r.rod m).word = engineOf word) {c : Cmd}
    (hcmd : (old.mergedBy sig r.rod m).toCmd t r.teamSlot (t.join n).mask = c)
    (hq : s.queueClosed p (engineOf word) = false) (hb : bindingsAdmit t (engineOf word) c = true) (hw : s.noneBlocked p) :
    s.sign (rodKey p slot) r n same sig = .signed
      (((s.setTeam (teamKeyOf (rodKey p slot) r)
        (t.afterSign n { t.join n with base := (t.join n).base + 1, pending := [] })).append p (engineOf word) c).setRod (rodKey p slot)
            (r.afterSign n ((t.join n).base + 1))) := by
  rw [← hword] at hq hb ⊢
  subst hcmd
  rw [sign_next hr ht hm hs hp hcap hsame]
  exact congrArg Signing.signed (settle_signed_complete (tk := teamKeyOf (rodKey p slot) r)
    (q := r.afterSign n ((t.join n).base + 1)) (i := old.mergedBy sig r.rod m) (lt_of_join_mask hm) (t.join n) h hc hq hb hw
    (by rw [Rod.lanes_afterSign]; exact noneBlocked_rod hw hr) 2)

end

/-- The lanes of a sub-rod go on; where the word draws, the count of the lowest one rises (R154). -/
def Rod.goOn (q : Rod) (m : BitVec 32) (draws : Bool) : Rod :=
  q.mapLanes m (fun a x => if draws && a.val == lowest m then { x.advance with rsCount := x.rsCount + 1 } else x.advance)

theorem goOn_outcome {r q : Rod} {m : BitVec 32} (hq : q.lanes = r.lanes) (draws : Bool) (n : Fin 32)
    (hn : m.getLsbD n.val = true) : (q.goOn m draws).lanes[n].sameOutcome r.lanes[n].advance = true := by
  have : (q.goOn m draws).lanes[n] = if draws && n.val == lowest m then
      { r.lanes[n].advance with rsCount := r.lanes[n].rsCount + 1 } else r.lanes[n].advance := by
    simp [Rod.goOn, Rod.mapLanes, hn, hq]
  rw [this, sameOutcome_iff]
  split <;> exact ⟨rfl, rfl, rfl, rfl⟩

theorem goOn_of_draw {q : Rod} {m : BitVec 32} (h : lowest m < 32) (hm : m.getLsbD (lowest m) = true) :
    (q.goOn m false).setLane (lowest m) { (q.goOn m false).lane (lowest m) with
      rsCount := ((q.goOn m false).lane (lowest m)).rsCount + 1 } = q.goOn m true := by
  rw [Rod.lane_lt _ h]
  simp only [Rod.setLane, Rod.goOn, Rod.mapLanes, Rod.mk.injEq, true_and, and_true]
  ext a ha
  by_cases h1 : a = lowest m <;> simp [h1, h, hm]

/-- A rod that signs in its own place: its sub-rod goes on, and the capturing item counts its draw. -/
theorem signJoin_of_signed {is : Issue} {s y : State} {t : Team} {n : Nat} {same : DWord → Bool} {c : Cmd} {q : Rod}
    (hm : is.active.getLsbD (lowest is.active) = true)
    (h : s.sign is.key is.rod n same { c.toInstance with counted := capturing t n is.rod || !c.stochastic }
      = .signed (y.setRod is.key q)) :
    signJoin is t n same c s = y.setRod is.key (q.goOn is.active (c.stochastic && capturing t n is.rod)) := by
  have hlow : lowest is.active < 32 := by
    by_contra hl
    rw [BitVec.getLsbD_of_ge _ _ (by omega)] at hm
    cases hm
  have hpass : passOver is (y.setRod is.key q) = y.setRod is.key (q.goOn is.active false) := by
    unfold passOver
    rw [State.modRod_of_some (State.rod?_setRod_same _ _ _), State.setRod_setRod]
    rfl
  unfold signJoin
  simp only [h, hpass]
  unfold countDraw
  cases hs : c.stochastic with
  | false =>
    simp only [Bool.false_and, Bool.false_eq_true, if_false, ite_self]
  | true =>
    cases hc : capturing t n is.rod with
    | false => rfl
    | true =>
      simp only [if_true, Bool.and_self]
      rw [State.modRod_of_some (State.rod?_setRod_same _ _ _), State.setRod_setRod, show is.capLane = lowest is.active from rfl,
        goOn_of_draw hlow hm]

/-! ## Joined commands -/

/-- Words of one class and index name one engine. -/
theorem engineOf_congr {a b : DWord} (hc : fieldClass a = fieldClass b) (hi : fieldIndex a = fieldIndex b) :
    engineOf a = engineOf b := by
  unfold engineOf
  rw [hc, hi]

/-- The issuing lane is one of its sub-rod. -/
theorem IssuesFreely.mem_subRod {s : State} {k : RodKey} {l : Nat} {r : Rod} {i : Instr} (h : IssuesFreely s k l r i) :
    (r.subRod l).getLsbD l = true := by
  obtain ⟨⟨-, -, hl, hst, -⟩, -⟩ := h
  have := maskWhere_getLsbD r (fun x => x.live && x.group == (r.lane l).group) ⟨l, hl⟩
  rw [Rod.lane_lt r hl] at hst
  rw [show r.subRod l = r.maskWhere (fun x => x.live && x.group == (r.lane l).group) from rfl, this, Rod.lane_lt r hl]
  rw [Lane.live, hst]
  simp

/-- The capturing lane is one of its sub-rod. -/
theorem IssuesFreely.lowest_mem {s : State} {k : RodKey} {l : Nat} {r : Rod} {i : Instr} (h : IssuesFreely s k l r i) :
    lowest (r.subRod l) < 32 ∧ (r.subRod l).getLsbD (lowest (r.subRod l)) = true :=
  lowest_spec ⟨l, h.1.2.2.1⟩ h.mem_subRod

/-- A word whose guard is true in the capturing lane acts. -/
theorem IssuesFreely.capOn {s : State} {k : RodKey} {l : Nat} {r : Rod} {i : Instr} (h : IssuesFreely s k l r i)
    (hg : actsOn i (r.lane (lowest (r.subRod l))) = true) : (mkIssue k r i (r.subRod l)).capOn = true := by
  obtain ⟨hlt, hm⟩ := h.lowest_mem
  rw [Rod.lane_lt r hlt] at hg
  show (mkIssue k r i (r.subRod l)).enabled.getLsbD (lowest (r.subRod l)) = true
  rw [enabled_eq k r i _ ⟨_, hlt⟩, hm, Bool.true_and]
  exact hg

theorem commandOp_of_joinable {i : Instr} {w : EWord} (h : i ∈ [.cpin w, .cpout w, .cppl w, .mma w]) (s : State) :
    exec i s = commandOp i s ∧ guardOf i = some w.g := by
  simp only [List.mem_cons, List.not_mem_nil, or_false] at h
  rcases h with rfl | rfl | rfl | rfl <;> exact ⟨rfl, rfl⟩

/-- A word after which every lane of the sub-rod goes on, whatever else becomes of it. -/
theorem issueWord_together {i : Instr} {body : Issue → State → State} {s y : State} {k : RodKey} {l : Nat} {r q : Rod}
    (h : IssuesFreely s k l r i)
    (hq : ∀ n : Fin 32, (r.subRod l).getLsbD n.val = true → q.lanes[n].sameOutcome r.lanes[n].advance = true)
    (hb : body (mkIssue k r i (r.subRod l)) s = y.setRod k q) : issueWord i body s = .next (y.setRod k q) := by
  rw [issueWord_free h, hb, State.modRod_of_some (State.rod?_setRod_same _ _ _), State.setRod_setRod,
    regroup_advanced h.2.2 hq]

/-- A joined command whose operands are held and checked signs. -/
theorem commandBody_joined {w : EWord} {q : EShape} {is : Issue} {s : State} {t : Team} {ops : DWord × DWord × DWord}
    (hj : w.j = true) (hcap : is.capOn = true) (ht : s.team? (teamKeyOf is.key is.rod) = some t)
    (hf : s.queueClosed is.key.frame (engineOf is.word) = false) (ho : capture is w q = .ok ops)
    (hc : operandCause s is t (commandOf is ops) = none) :
    commandBody w q is s = signJoin is t w.e2.toNat
      (fun x => fieldClass x == fieldClass is.word && fieldIndex x == fieldIndex is.word) (commandOf is ops) s := by
  unfold commandBody
  simp only [hcap, ht, hf, ho, hc, hj, ite_self, Bool.not_true, Bool.false_eq_true, if_false, if_true]

section
variable {w : EWord} {q : EShape} {s y : State} {k : RodKey} {l : Nat} {r q0 : Rod} {t : Team} {i : Instr}
  {ops : DWord × DWord × DWord}

/-- A joined command whose operands are held and checked signs its join register. -/
theorem exec_of_signed (hi : i ∈ [.cpin w, .cpout w, .cppl w, .mma w]) (hq : eShape i = some (w, q)) (hj : w.j = true)
    (h : IssuesFreely s k l r i) (hg : (r.lane (lowest (r.subRod l))).guard w.g = true)
    (ht : s.team? (teamKeyOf k r) = some t) (ho : capture (mkIssue k r i (r.subRod l)) w q = .ok ops)
    (hc : operandCause s (mkIssue k r i (r.subRod l)) t (commandOf (mkIssue k r i (r.subRod l)) ops) = none)
    (hf : s.queueClosed k.frame (engineOf (wordOf i)) = false) (hl : q0.lanes = r.lanes)
    (hs : s.sign k r w.e2.toNat (fun x => fieldClass x == fieldClass (wordOf i) && fieldIndex x == fieldIndex (wordOf i))
      { (commandOf (mkIssue k r i (r.subRod l)) ops).toInstance with
        counted := capturing t w.e2.toNat r || !(commandOf (mkIssue k r i (r.subRod l)) ops).stochastic }
      = .signed (y.setRod k q0)) :
    exec i s = .next (y.setRod k (q0.goOn (r.subRod l)
      ((commandOf (mkIssue k r i (r.subRod l)) ops).stochastic && capturing t w.e2.toNat r))) := by
  obtain ⟨hexec, hguard⟩ := commandOp_of_joinable hi s
  have hcap : (mkIssue k r i (r.subRod l)).capOn = true :=
    h.capOn (by rw [actsOn, hguard]; exact hg)
  rw [hexec, commandOp, hq]
  refine issueWord_together h (goOn_outcome hl _) ?_
  rw [commandBody_joined (is := mkIssue k r i (r.subRod l)) hj hcap ht hf ho hc]
  exact signJoin_of_signed h.lowest_mem.2 hs

end

theorem goOn_afterSign {r : Rod} {n b : Nat} {m : BitVec 32} {d : Bool} {p : Prop} [Decidable p] (h : p ↔ d = true) :
    (r.afterSign n b).goOn m d = { (r.mapLanes m (fun a x =>
        if p ∧ a.val = lowest m then { x.advance with rsCount := x.rsCount + 1 } else x.advance)) with
      sigs := Vector.ofFn (fun j => if j.val = n then b else r.sigs[j]) } := by
  simp only [h]
  unfold Rod.goOn
  simp only [Bool.and_eq_true, beq_iff_eq]
  rfl

/-- The queues that a command names are those of its word. -/
theorem bindingsAdmit_congr {c d : Cmd} (h : c.word = d.word) (t : Team) (e : EngineId) :
    bindingsAdmit t e c = bindingsAdmit t e d := by
  unfold bindingsAdmit Cmd.consumes Cmd.produces Cmd.isReduce Cmd.eword
  rw [h]

/-- The sole member of a join register captures. -/
theorem capturing_of_sole {t : Team} {n : Nat} {r : Rod} (hp : (t.join n).pending = [])
    (hm : (t.join n).mask = 1#32 <<< r.rod) (hr : r.rod < 32) (ha : t.absent.getLsbD r.rod = false) :
    capturing t n r = true := by
  have hmask : (1#32 <<< r.rod) &&& (0 ||| ~~~t.absent) = 1#32 <<< r.rod := by
    ext i hi
    simp only [BitVec.getElem_and, BitVec.getElem_or, BitVec.getElem_not, BitVec.getElem_shiftLeft]
    by_cases h : i = r.rod
    · subst h
      simp [← BitVec.getLsbD_eq_getElem, ha]
    · simp
      omega
  have hbit : (1#32 <<< r.rod).getLsbD r.rod = true := by simp [hr]
  have hlow := (lowest_spec ⟨r.rod, hr⟩ hbit).2
  unfold capturing
  simp only [hp, List.getElem?_nil, Option.map_none, Option.getD_none, hm]
  rw [hmask, beq_iff_eq]
  simp at hlow
  omega

end Sys2Proof.Machine
end

section
namespace Sys2Proof.Machine

/-! ## Operands without carries (R70, R77) -/

theorem fieldOperand_carry {r : Rod} {x : Lane} {u : FieldUse} {v : BitVec 8} {ind : Bool} {xi n : Nat}
    (h : fieldOperand r x u v ind xi = .ok (.carry n)) : (u == .reg && !ind && isCarry v.toNat) = true := by
  unfold fieldOperand at h
  cases u with
  | pair | quad | block =>
    dsimp only at h
    split at h <;> cases h
  | reg =>
    dsimp only at h
    split at h
    · split at h
      · cases h
      · split at h
        · cases h
        · split at h <;> cases h
    · rename_i hind
      split at h
      · rename_i hc
        simp [hind, hc]
      · split at h <;> cases h
  | _ => cases h

/-- The four fields of a lane's operands. -/
theorem laneOperands_fields {r : Rod} {x : Lane} {p : Plan} {o : Operands} (h : laneOperands r x p = .ok o) :
    fieldOperand r x p.dst p.vdst p.indDst p.x = .ok o.dst ∧ fieldOperand r x p.a p.va p.indA p.x = .ok o.a
      ∧ fieldOperand r x p.b p.vb false 0 = .ok o.b ∧ fieldOperand r x p.c p.vc false 0 = .ok o.c := by
  unfold laneOperands at h
  split at h
  · cases h
  split at h
  · cases h
  split at h
  · cases h
  split at h
  · cases h
  cases h
  exact ⟨‹_›, ‹_›, ‹_›, ‹_›⟩

theorem mem_slots {o : Operands} {n : Nat} (h : n ∈ o.slots) : o.a = .carry n ∨ o.b = .carry n ∨ o.c = .carry n := by
  unfold Operands.slots at h
  obtain ⟨x, hx, hn⟩ := List.mem_filterMap.1 (List.mem_eraseDups.1 h)
  have hc : x = .carry n := by
    cases x with
    | carry m => exact congrArg Operand.carry (Option.some.inj hn)
    | _ => cases hn
  simpa only [hc, List.mem_cons, List.not_mem_nil, or_false, eq_comm] using hx

theorem dst_of_writeSlot {o : Operands} {n : Nat} (h : o.writeSlot = some n) : o.dst = .carry n := by
  unfold Operands.writeSlot at h
  split at h
  · cases h
    assumption
  · cases h

/-- A word that names no carry reads no slot and publishes none. -/
theorem operands_of_no_carry {r : Rod} {x : Lane} {p : Plan} {o : Operands} (hp : p.hasCarry = false)
    (h : laneOperands r x p = .ok o) : o.slots = [] ∧ o.writeSlot = none := by
  obtain ⟨hdst, ha, hb, hc⟩ := laneOperands_fields h
  simp only [Plan.hasCarry, Bool.or_eq_false_iff] at hp
  obtain ⟨⟨⟨nd, na⟩, nb⟩, nc⟩ := hp
  constructor
  · refine List.eq_nil_iff_forall_not_mem.2 (fun n hn => ?_)
    rcases mem_slots hn with e | e | e
    · exact Bool.false_ne_true (na.symm.trans (fieldOperand_carry (e ▸ ha)))
    · have := fieldOperand_carry (e ▸ hb)
      simp [nb] at this
    · have := fieldOperand_carry (e ▸ hc)
      simp [nc] at this
  · refine Option.eq_none_iff_forall_ne_some.2 (fun n hn => ?_)
    exact Bool.false_ne_true (nd.symm.trans (fieldOperand_carry (dst_of_writeSlot hn ▸ hdst)))

/-! ## A joined reduction gathers its lanes (R249, R250) -/

/-- What a lane that takes part in a reduction without carries brings. -/
def gathered (s : State) (r : Rod) (i : Instr) (a : Nat) : Gathered :=
  let o := (laneOperands r (r.lane a) (planOf i)).toOption.getD { dst := .none, a := .none, b := .none, c := .none }
  { ops := o, got := [], input := laneIn (keyOf s r) (r.lane a) a o (fun _ => 0) }

theorem gatherStep_plain {s : State} {is : Issue} {ripple : Bool} {l : Nat} {a : CrossPass}
    (hp : (planOf is.instr).hasCarry = false) (ho : (laneOperands is.rod (is.rod.lane l) (planOf is.instr)).isOk = true)
    (hc : a.pass.cut = false) :
    gatherStep s is (planOf is.instr) ripple l a = { a with took := a.took ++ [(l, gathered s is.rod is.instr l)] } := by
  cases h : laneOperands is.rod (is.rod.lane l) (planOf is.instr) with
  | error c =>
    rw [h] at ho
    cases ho
  | ok o =>
    obtain ⟨hslots, hwrite⟩ := operands_of_no_carry hp h
    have hg : gatherLane s is (planOf is.instr) a.pass.carry l = .ok (gathered s is.rod is.instr l) := by
      simp only [gatherLane, h, hslots, gathered]
      rfl
    have hh : writeHold s a.pass.carry is.rod.launch (a.pass.rod.lane l) (gathered s is.rod is.instr l).ops = .store := by
      simp only [writeHold, gathered, h, Except.toOption, Option.getD_some, hwrite]
    simp only [gatherStep, hc, hg, hh, Bool.false_eq_true, if_false]

theorem foldl_gatherStep_plain {s : State} {is : Issue} {ripple : Bool} (hp : (planOf is.instr).hasCarry = false) :
    ∀ {l : List Nat}, (∀ n ∈ l, (laneOperands is.rod (is.rod.lane n) (planOf is.instr)).isOk = true) →
    ∀ {a : CrossPass}, a.pass.cut = false →
      l.foldl (fun a n => gatherStep s is (planOf is.instr) ripple n a) a
        = { a with took := a.took ++ l.map (fun n => (n, gathered s is.rod is.instr n)) }
  | [], _, a, _ => by simp
  | n :: l, h, a, hc => by
    rw [List.foldl_cons, gatherStep_plain hp (h n List.mem_cons_self) hc,
      foldl_gatherStep_plain hp (fun x hx => h x (List.mem_cons_of_mem _ hx)) (by exact hc)]
    simp

theorem setLane_lane (r : Rod) {l : Nat} (h : l < 32) : r.setLane l (r.lane l) = r := by
  have : Vector.ofFn (fun k : Fin 32 => if k.val = l then r.lane l else r.lanes[k]) = r.lanes := by
    ext k hk
    rw [Vector.getElem_ofFn]
    split
    · rename_i e
      cases e
      exact Rod.lane_lt r h
    · rfl
  unfold Rod.setLane
  rw [this]

theorem takeGathered_plain {s : State} {r : Rod} {i : Instr} {a : Pass} :
    ∀ {l : List Nat}, (∀ n ∈ l, n < 32) →
      (l.map (fun n => (n, gathered s r i n))).foldl (takeGathered s) a = a
  | [], _ => rfl
  | n :: l, h => by
    have : takeGathered s a (n, gathered s r i n) = { a with rod := a.rod.setLane n (a.rod.lane n) } := rfl
    rw [setLane_lane a.rod (h n List.mem_cons_self)] at this
    rw [List.map_cons, List.foldl_cons, this, takeGathered_plain (fun x hx => h x (List.mem_cons_of_mem _ hx))]

theorem tableFind_map {α β : Type} [DecidableEq α] (f : α → β) {k : α} :
    ∀ {l : List α}, k ∈ l → tableFind k (l.map (fun a => (a, f a))) = some (f k)
  | a :: l, h => by
    unfold tableFind
    rw [List.map_cons]
    dsimp only
    split
    · rename_i e
      rw [e]
    · rename_i e
      exact tableFind_map f ((List.mem_cons.1 h).resolve_left (fun e' => e e'.symm))

theorem getLsbD_withBit_true (m : BitVec 32) (n : Nat) (a : Fin 32) :
    (withBit m n true).getLsbD a.val = (m.getLsbD a.val || decide (a.val = n)) := by
  unfold withBit
  simp only [if_true, BitVec.getLsbD_or, BitVec.getLsbD_shiftLeft, BitVec.getLsbD_one]
  congr 1
  have := a.isLt
  by_cases h : a.val = n
  · simp [h]
    omega
  · simp [h]
    omega

theorem foldl_withBit_getLsbD {α : Type} (g : α → Nat) (a : Fin 32) : ∀ (l : List α) (m : BitVec 32),
    (l.foldl (fun m e => withBit m (g e) true) m).getLsbD a.val = (m.getLsbD a.val || l.any (fun e => decide (a.val = g e)))
  | [], m => by simp
  | e :: l, m => by
    rw [List.foldl_cons, foldl_withBit_getLsbD g a l, getLsbD_withBit_true, List.any_cons, Bool.or_assoc]

/-- The lanes of a mask, set one by one, make the mask. -/
theorem foldl_withBit_maskLanes {α : Type} (m : BitVec 32) (f : Nat → α) :
    ((maskLanes m).map (fun n => (n, f n))).foldl (fun m e => withBit m e.1 true) (0 : BitVec 32) = m := by
  refine BitVec.eq_of_getLsbD_eq (fun a ha => ?_)
  have h := foldl_withBit_getLsbD Prod.fst ⟨a, ha⟩ ((maskLanes m).map (fun n => (n, f n))) 0
  rw [h]
  cases hm : m.getLsbD a with
  | true => simp [mem_maskLanes, ha, hm]
  | false =>
    simp only [BitVec.ofNat_eq_ofNat, BitVec.getLsbD_zero, Bool.false_or, List.any_map, List.any_eq_false]
    intro n hn
    obtain ⟨-, hb⟩ := mem_maskLanes.1 hn
    simp only [Function.comp_apply, decide_eq_true_eq]
    rintro rfl
    rw [hm] at hb
    cases hb

end Sys2Proof.Machine
end

section
namespace Sys2Proof.Machine

/-- Whether a word may sign the same command as the word `a` of a joined reduction. -/
def sameReduction (a x : DWord) : Bool :=
  fieldClass x == 0 && fieldIndex x == fieldIndex a && x.extractLsb' 12 3 == a.extractLsb' 12 3

/-- What the signature of a joined reduction brings (R250). -/
def reduction (is : Issue) (part : Partial) : Instance := { commandOf is (0, 0, 0) with partials := [part] : Cmd }.toInstance

/-- A lane that takes part in a joined reduction goes on, its destination interlocked (R250). -/
def Lane.interlocked (x : Lane) (q : Joined) : Lane := { x with joined := [q], pc := x.pc + 8 }

section
variable {w : RWord} {s y : State} {k : RodKey} {l : Nat} {r q0 : Rod} {t : Team}

/-- The destination that a lane's joined reduction will write. -/
def reductionDst (w : RWord) (s : State) (r : Rod) (sig a : Nat) : Joined :=
  { j := rredJoin w, sig := sig, dst := (gathered s r (.rredJoined w) a).ops.dst.place, wide := RMod.w w.mod }

/-- What the lanes `on` of a rod contribute to a joined reduction, as its signature of number `sig`. -/
def reductionPart (w : RWord) (s : State) (r : Rod) (on : BitVec 32) (sig : Nat) : Partial :=
  { rod := r.rod
    value := rredFn (RMod.bits w.mod 12 3) (RMod.w w.mod) (RMod.u w.mod) (RMod.sat w.mod)
      ((maskLanes on).map (fun a => (gathered s r (.rredJoined w) a).input.a))
    lanes := on
    sig := sig }

/-- A pass in which no lane waits or faults: the lanes where the word does not act go on. -/
theorem finishPass_clean {is : Issue} {p : Plan} {a : Pass} {u : State} (hr : a.readWait = []) (hw : a.writeWait = [])
    (hf : a.fails = []) (hc : a.carry = u.carry) :
    finishPass is p a u = u.setRod is.key
      (a.rod.mapLanes is.active (fun n x => if is.enabled.getLsbD n.val then x else x.advance)) := by
  unfold finishPass
  simp only [hr, hw, List.contains_nil, Bool.false_eq_true, if_false]
  rw [takeFaults_nil _ _ _ hf, hc]
  rfl

/-- Three changes to the lanes of a rod, as one. -/
theorem mapLanes_thrice {q : Rod} {e m : BitVec 32} {f g h c : Fin 32 → Lane → Lane}
    (hc : ∀ n : Fin 32,
      (if e.getLsbD n.val then h n (if m.getLsbD n.val then g n (if e.getLsbD n.val then f n q.lanes[n] else q.lanes[n])
          else if e.getLsbD n.val then f n q.lanes[n] else q.lanes[n])
        else if m.getLsbD n.val then g n (if e.getLsbD n.val then f n q.lanes[n] else q.lanes[n])
          else if e.getLsbD n.val then f n q.lanes[n] else q.lanes[n])
      = if m.getLsbD n.val then c n q.lanes[n] else q.lanes[n]) :
    ((q.mapLanes e f).mapLanes m g).mapLanes e h = q.mapLanes m c := by
  simp only [Rod.mapLanes, Rod.mk.injEq, true_and, and_true]
  ext n hn
  simp only [Vector.getElem_ofFn, Fin.getElem_fin]
  exact hc ⟨n, hn⟩

theorem rredJoinedBody_signed (h : IssuesFreely s k l r (.rredJoined w)) (hk : k.slot ≠ .firmware)
    (hc : (planOf (.rredJoined w)).hasCarry = false) (ho : OperandsHold r (r.subRod l) (.rredJoined w))
    (hg : (r.lane (lowest (r.subRod l))).guard w.g = true) (ht : s.team? (teamKeyOf k r) = some t)
    (hf : s.queueClosed k.frame .ve = false)
    (hs : s.sign k r (rredJoin w) (sameReduction (wordOf (.rredJoined w)))
        (reduction (mkIssue k r (.rredJoined w) (r.subRod l))
          (reductionPart w s r (mkIssue k r (.rredJoined w) (r.subRod l)).enabled t.nextOrd)) = .signed (y.setRod k q0))
    (hl : q0.lanes = r.lanes) (hy : y.carry = s.carry) :
    rredJoinedBody w (mkIssue k r (.rredJoined w) (r.subRod l)) s = y.setRod k (q0.mapLanes (r.subRod l) (fun a x =>
      if x.guard w.g then x.interlocked (reductionDst w s r t.nextOrd a.val) else x.advance)) := by
  set is := mkIssue k r (.rredJoined w) (r.subRod l) with his
  have hcap : is.capOn = true := h.capOn hg
  have hfw : is.isFirmware = false := beq_eq_false_iff_ne.2 hk
  have hgather : gatherAll s is (planOf (.rredJoined w)) (ripples s is (planOf (.rredJoined w)).slots)
      = { pass := is.pass s, took := (maskLanes is.enabled).map (fun n => (n, gathered s r (.rredJoined w) n)) } := by
    refine (foldl_gatherStep_plain (is := is) hc (fun n hn => ?_) rfl).trans rfl
    obtain ⟨h1, h2⟩ := mem_maskLanes.1 hn
    have he := enabled_eq k r (.rredJoined w) (r.subRod l) ⟨n, h1⟩
    rw [← his, h2] at he
    obtain ⟨hm, ha⟩ := Bool.and_eq_true_iff.1 he.symm
    rw [show is.rod.lane n = r.lane n from rfl, Rod.lane_lt r h1]
    exact ho ⟨n, h1⟩ hm ha
  have htook := takeGathered_plain (s := s) (r := r) (i := .rredJoined w) (a := is.pass s) (l := maskLanes is.enabled)
    (fun n hn => (mem_maskLanes.1 hn).1)
  have hlow : lowest (r.subRod l) ∈ maskLanes is.enabled := mem_maskLanes.2 ⟨h.lowest_mem.1, hcap⟩
  unfold rredJoinedBody
  simp only [hcap, hfw, Bool.not_true, Bool.false_eq_true, if_false]
  rw [show s.queueClosed is.key.frame .ve = false from hf]
  simp only [Bool.false_eq_true, if_false]
  rw [show planOf is.instr = planOf (.rredJoined w) from rfl, hgather]
  dsimp only
  rw [htook, show s.team? (teamKeyOf is.key is.rod) = some t from ht]
  cases hmap : (maskLanes is.enabled).map (fun n => (n, gathered s r (.rredJoined w) n)) with
  | nil =>
    rw [List.map_eq_nil_iff] at hmap
    rw [hmap] at hlow
    cases hlow
  | cons e tk =>
    dsimp only
    rw [← hmap]
    have hlanes := foldl_withBit_maskLanes is.enabled (fun n => gathered s r (.rredJoined w) n)
    have hin : CrossPass.inputs
        { pass := is.pass s, took := ((maskLanes is.enabled).map (fun n => (n, gathered s r (.rredJoined w) n))) }
        = (maskLanes is.enabled).map (fun n => (n, (gathered s r (.rredJoined w) n).input)) := List.map_map
    rw [hlanes, hin, List.map_map]
    split
    · rename_i hbad
      cases hs.symm.trans hbad
    · rename_i hbad
      cases hs.symm.trans hbad
    rename_i s1 hsigned
    obtain rfl : y.setRod k q0 = s1 := Signing.signed.inj (hs.symm.trans hsigned)
    rw [show (y.setRod k q0).rod? is.key = some q0 from State.rod?_setRod_same y k q0]
    dsimp only
    rw [finishPass_clean rfl rfl rfl hy.symm, State.modRod_of_some (State.rod?_setRod_same _ _ _), State.setRod_setRod,
      show is.key = k from rfl, State.setRod_setRod]
    dsimp only
    refine congrArg (y.setRod k) ?_
    rw [show is.active = r.subRod l from rfl]
    rw [mapLanes_thrice (q := q0) (e := is.enabled) (m := r.subRod l) (c := fun a x =>
      if x.guard w.g then x.interlocked (reductionDst w s r t.nextOrd a.val) else x.advance)]
    rintro ⟨n, hn⟩
    have he : is.enabled.getLsbD n = ((r.subRod l).getLsbD n && r.lanes[n].guard w.g) :=
      enabled_eq k r (.rredJoined w) (r.subRod l) ⟨n, hn⟩
    simp only [Fin.getElem_fin, hl, he]
    cases hm : (r.subRod l).getLsbD n with
    | false => simp
    | true =>
      cases hgn : r.lanes[n].guard w.g with
      | false => simp
      | true =>
        have hmem : n ∈ maskLanes is.enabled := mem_maskLanes.2 ⟨hn, by rw [he, hm, hgn, Bool.and_self]⟩
        have hj : r.lanes[n].joined = [] := (h.2.1 ⟨n, hn⟩ hm).2.2
        have hlane : (is.pass s).rod.lane n = r.lanes[n] := Rod.lane_lt r hn
        simp only [Bool.and_self, if_true, tableFind_map _ hmem, hj, hlane, List.nil_append]
        rfl

/-- A joined reduction that signs: its lanes go on, those that took part interlocked. -/
theorem exec_of_reduction (h : IssuesFreely s k l r (.rredJoined w)) (hk : k.slot ≠ .firmware)
    (hc : (planOf (.rredJoined w)).hasCarry = false) (ho : OperandsHold r (r.subRod l) (.rredJoined w))
    (hg : (r.lane (lowest (r.subRod l))).guard w.g = true) (ht : s.team? (teamKeyOf k r) = some t)
    (hf : s.queueClosed k.frame .ve = false)
    (hs : s.sign k r (rredJoin w) (sameReduction (wordOf (.rredJoined w)))
        (reduction (mkIssue k r (.rredJoined w) (r.subRod l))
          (reductionPart w s r (mkIssue k r (.rredJoined w) (r.subRod l)).enabled t.nextOrd)) = .signed (y.setRod k q0))
    (hl : q0.lanes = r.lanes) (hy : y.carry = s.carry) :
    exec (.rredJoined w) s = .next (y.setRod k (q0.mapLanes (r.subRod l) (fun a x =>
      if x.guard w.g then x.interlocked (reductionDst w s r t.nextOrd a.val) else x.advance))) := by
  refine issueWord_together (i := .rredJoined w) h (fun n hn => ?_) (rredJoinedBody_signed h hk hc ho hg ht hf hs hl hy)
  rw [sameOutcome_iff]
  simp only [Rod.mapLanes, Vector.getElem_ofFn, Fin.getElem_fin, hn, if_true, hl]
  split <;> exact ⟨rfl, rfl, rfl, rfl⟩

end

theorem mapLanes_afterSign (r : Rod) (n b : Nat) (m : BitVec 32) (f : Fin 32 → Lane → Lane) :
    (r.afterSign n b).mapLanes m f
      = { r.mapLanes m f with sigs := Vector.ofFn (fun j => if j.val = n then b else r.sigs[j]) } := by
  simp only [Rod.mapLanes, Rod.afterSign]

/-! ## The command of a joined reduction (R250) -/

theorem engineOf_class0 {x : DWord} (h : fieldClass x = 0) : engineOf x = .ve := if_pos h

/-- A reduction names no token queue. -/
theorem bindingsAdmit_reduction {c : Cmd} {word : DWord} (hw : c.word = word) (h : fieldClass word = 0) (t : Team)
    (e : EngineId) : bindingsAdmit t e c = true := by
  have hr : c.isReduce = true := by rw [Cmd.isReduce, hw, h]; rfl
  simp [bindingsAdmit, Cmd.consumes, Cmd.produces, hr]

theorem reduceResult_eq {c : Cmd} {word : DWord} {l : List Partial} (hw : c.word = word) (hl : c.partials = l) :
    reduceResult c = rredFn (RMod.bits (Sys2Proof.rword word).mod 12 3) (RMod.w (Sys2Proof.rword word).mod)
      (RMod.u (Sys2Proof.rword word).mod) (RMod.sat (Sys2Proof.rword word).mod)
      ((List.range 32).filterMap (fun n => (l.find? (fun p => p.rod == n)).map Partial.value)) := by
  subst hw hl
  rfl

/-- One rod's partial result stands alone. -/
theorem filterMap_sole (part : Partial) (h : part.rod < 32) :
    (List.range 32).filterMap (fun n => ([part].find? (fun p => p.rod == n)).map Partial.value) = [part.value] := by
  obtain ⟨n, v, l, g⟩ := part
  dsimp only at h
  interval_cases n <;> rfl

end Sys2Proof.Machine
end

section
open Sys2Proof Sys2Proof.Machine

/-- Settles O43: the rod's signature is counted on its join register, where the command stays pending until every member has
signed and then leaves for its engine's queue; the lanes of the sub-rod go on. -/
theorem joinedWordsSign : Obligations.JoinedWordsSign := by
  unfold Obligations.JoinedWordsSign
  constructor
  · intro w q s p slot l r t i ops k tk is cap n c inst draws r' hi hq hj h hg ht ho hc hf hm hs
    have hr : s.rod? k = some r := h.rod
    have hdraws : draws ↔ (c.stochastic && capturing t n r) = true := by rw [Bool.and_eq_true]
    have hrod : (r.afterSign n ((t.join n).base + 1)).goOn (r.subRod l) (c.stochastic && capturing t n r) = r' :=
      goOn_afterSign hdraws
    have hlt : r.rod < 32 := by
      by_contra hl
      rw [BitVec.getLsbD_of_ge _ _ (by omega)] at hm
      cases hm
    refine ⟨fun hp hinc => ?_, fun hp hsole ha hb hw => ?_, ?_⟩
    · rw [exec_of_signed hi hq hj h hg ht ho hc hf (Rod.lanes_afterSign _ _ _) (sign_pending hr ht hm hs hp hinc), hrod]
      rfl
    · have hcap : capturing t n r = true := capturing_of_sole hp hsole hlt ha
      have hcmd : (Instance.firstBy { c.toInstance with counted := capturing t n r || !c.stochastic } r.rod t.nextOrd).toCmd t
          r.teamSlot (t.join n).mask = { c with ord := t.nextOrd, team := t.number, launch := t.launch } := by
        rw [hsole]
        rfl
      rw [exec_of_signed hi hq hj h hg ht ho hc hf (Rod.lanes_afterSign _ _ _) (sign_sole hr ht hm hs hp hsole (by rw [hcap]; rfl) rfl hcmd hf
        ((bindingsAdmit_congr rfl t _).trans hb) hw.2), hrod, ← hp]
      rfl
    · intro old m kept hp hcl hix hold hcnt hst hall hb hw
      have hsame : (fieldClass old.word == fieldClass (wordOf i) && fieldIndex old.word == fieldIndex (wordOf i)) = true := by
        rw [hcl, hix, beq_self_eq_true, beq_self_eq_true, Bool.and_self]
      have hcounted : (old.mergedBy { c.toInstance with counted := capturing t n r || !c.stochastic } r.rod m).counted = true := by
        rw [hst, Bool.not_false, Bool.or_true, Instance.mergedBy]
        split
        · rfl
        · exact hcnt
      have hcmd : ((old.mergedBy { c.toInstance with counted := capturing t n r || !c.stochastic } r.rod m).toCmd t r.teamSlot
          (t.join n).mask) = { kept with ord := old.ord, team := t.number, launch := t.launch, members := (t.join n).mask } := by
        have hpart : old.partials ++ [] = old.partials := List.append_nil _
        by_cases hlow : r.rod < m
        · simp only [Instance.mergedBy, Instance.toCmd, Cmd.toInstance, kept, if_pos hlow, c, commandOf, hpart, is, mkIssue]
        · simp only [Instance.mergedBy, Instance.toCmd, Cmd.toInstance, kept, if_neg hlow, c, commandOf, hpart, is, mkIssue]
      have hword : engineOf (old.mergedBy { c.toInstance with counted := capturing t n r || !c.stochastic } r.rod m).word
          = engineOf (wordOf i) := by
        rw [Instance.mergedBy]
        split
        · rfl
        · exact engineOf_congr hcl hix
      rw [exec_of_signed hi hq hj h hg ht ho hc hf (Rod.lanes_afterSign _ _ _) (sign_last hr ht hm hs hp hold hsame hall hcounted
        hword hcmd hf ((bindingsAdmit_congr rfl t _).trans hb) hw), hrod]
      rfl
  · intro w s p slot l r t x k tk i n on cap opd h hc ho hg r' part hf ht hm hs hx
    have hr : s.rod? k = some r := h.rod
    have hlt : r.rod < 32 := by
      by_contra hl
      rw [BitVec.getLsbD_of_ge _ _ (by omega)] at hm
      cases hm
    have hpart : reductionPart w s r (mkIssue k r i (r.subRod l)).enabled t.nextOrd = part := by
      show reductionPart w s r on t.nextOrd = part
      rw [reductionPart, show part = { rod := r.rod, value := x, lanes := on, sig := t.nextOrd } from rfl, hx]
      rfl
    have hrod : (r.afterSign n ((t.join n).base + 1)).mapLanes (r.subRod l) (fun a y =>
        if y.guard w.g then y.interlocked (reductionDst w s r t.nextOrd a.val) else y.advance) = r' := by
      have hlanes (a : Fin 32) (y : Lane) : y.interlocked (reductionDst w s r t.nextOrd a.val)
          = { y with
              joined := [{ j := n, sig := t.nextOrd, dst := (opd a.val).dst.place, wide := RMod.w w.mod }]
              pc := y.pc + 8 } := rfl
      rw [mapLanes_afterSign]
      simp only [hlanes]
      rfl
    have hexec {y : State}
        (hsign : s.sign k r (rredJoin w) (sameReduction (wordOf i)) (reduction (mkIssue k r i (r.subRod l)) part)
          = .signed (y.setRod k (r.afterSign n ((t.join n).base + 1)))) (hy : y.carry = s.carry) :
        exec i s = .next (y.setRod k r') := by
      rw [← hpart] at hsign
      rw [exec_of_reduction h (by exact Slot.noConfusion) hc ho hg ht hf hsign (Rod.lanes_afterSign _ _ _) hy, hrod]
    have hclass : fieldClass (wordOf i) = 0 := class_encR 0 0x26 (by omega) w
    have hf' : s.queueClosed p (engineOf (wordOf i)) = false := by
      rw [engineOf_class0 hclass]
      exact hf
    refine ⟨fun hp hinc => ?_, fun hp hsole ha hw => ?_, ?_⟩
    · rw [hexec (sign_pending hr ht hm hs hp hinc) rfl]
      rfl
    · refine ⟨((reduction (mkIssue k r i (r.subRod l)) part).firstBy r.rod t.nextOrd).toCmd t r.teamSlot (t.join n).mask,
        rfl, rfl, rfl, rfl, rfl, rfl, rfl, rfl, rfl, ?_, ?_⟩
      · rw [reduceResult_eq (word := wordOf i) (l := [part]) rfl rfl, show rword (wordOf i) = w from rword_encR 0 0x26 w,
          filterMap_sole part hlt]
      · have hsign := sign_sole (same := sameReduction (wordOf i)) (sig := reduction (mkIssue k r i (r.subRod l)) part)
          (word := wordOf i) hr ht hm hs hp hsole rfl rfl rfl hf' (bindingsAdmit_reduction (word := wordOf i) rfl hclass t _) hw
        rw [engineOf_class0 hclass] at hsign
        rw [hexec hsign rfl, ← hp]
        rfl
    · intro old m word hp hcl hix hop hold hcnt hall hw
      set sig := reduction (mkIssue k r i (r.subRod l)) part with hsig
      have hsame : sameReduction (wordOf i) old.word = true := by
        rw [sameReduction, hcl, hix, hop]
        simp
      have hcounted : (old.mergedBy sig r.rod m).counted = true := by
        rw [Instance.mergedBy]
        split
        · rfl
        · exact hcnt
      have hword : (old.mergedBy sig r.rod m).word = word := by
        rw [Instance.mergedBy]
        dsimp only [word]
        split <;> rfl
      have hclass' : fieldClass word = 0 := by
        dsimp only [word]
        split
        · exact hclass
        · exact hcl
      have hord : (old.mergedBy sig r.rod m).ord = old.ord := by
        rw [Instance.mergedBy]
        dsimp only
        split <;> rfl
      have hengine : engineOf (old.mergedBy sig r.rod m).word = engineOf (wordOf i) := by
        rw [hword, engineOf_class0 hclass', engineOf_class0 hclass]
      refine ⟨(old.mergedBy sig r.rod m).toCmd t r.teamSlot (t.join n).mask, hword, rfl, rfl, rfl, hord, rfl, rfl, rfl, rfl,
        reduceResult_eq hword rfl, ?_⟩
      have hsign := sign_last (same := sameReduction (wordOf i)) (word := wordOf i) hr ht hm hs hp hold hsame hall hcounted
        hengine rfl hf' (bindingsAdmit_reduction hword hclass' t _) hw
      rw [engineOf_class0 hclass] at hsign
      rw [hexec hsign rfl]
      rfl

end

section
namespace Sys2Proof.Machine

/-! ## What accesses to memory leave alone (R169, R170, R184, R418, R427)

Loads, stores, walks and images change caches, directories, translations and the home's memory. The rest of the state is the
OUTLINE; each function on the way of an access keeps it. -/

/-- A frame but for its cache and its translations. -/
def Frame.outline (f : Frame) : Frame := { f with cache := [], tlb := [] }

/-- The hub but for its directory, its cores' caches, its walk cache and leases, and the notes of its queues. -/
def Hub.outline (h : Hub) : Hub :=
  { h with directory := [], core0 := [], core1 := [], walks := [], handed := [], given := [], queues := [] }

structure Outline where
  rods : List (RodKey × Rod)
  teams : List (TeamKey × Team)
  carry : List (CarryKey × CarryBuf)
  hub : Hub
  cur : Option Issuer
  agenda : List Turn
  mid : Option MidLoad
  frames : FrameId → Frame

/-- What no access to memory changes. -/
def State.outline (s : State) : Outline :=
  { rods := s.rods, teams := s.teams, carry := s.carry, hub := s.hub.outline, cur := s.cur, agenda := s.agenda, mid := s.mid
    frames := fun p => (s.frame p).outline }

theorem State.frame_modFrame (s : State) (p q : FrameId) (g : Frame → Frame) :
    (s.modFrame p g).frame q = if q = p then g (s.frame p) else s.frame q := by
  unfold State.modFrame
  split
  · rename_i h
    rw [h, State.frame_setFrame_same]
  · rename_i h
    rw [State.frame_setFrame_ne s _ h]

/-- A frame changes in what its outline leaves out. -/
theorem outline_modFrame {g : Frame → Frame} (h : ∀ f, (g f).outline = f.outline) (s : State) (p : FrameId) :
    (s.modFrame p g).outline = s.outline := by
  have hf : (fun q => ((s.modFrame p g).frame q).outline) = fun q => (s.frame q).outline := by
    funext q
    rw [State.frame_modFrame]
    split
    · rename_i e
      rw [h, e]
    · rfl
  unfold State.outline
  rw [hf]
  rfl

@[simp] theorem outline_setCache (s : State) (p : FrameId) (c : Frame → List Sector) :
    (s.modFrame p (fun f => { f with cache := c f })).outline = s.outline := by
  refine outline_modFrame (fun f => ?_) s p
  rfl

@[simp] theorem outline_setTlb (s : State) (p : FrameId) (c : Frame → List Xlat) :
    (s.modFrame p (fun f => { f with tlb := c f })).outline = s.outline := by
  refine outline_modFrame (fun f => ?_) s p
  rfl

/-- The hub changes in what its outline leaves out. -/
theorem outline_modHub {g : Hub → Hub} (h : ∀ x, (g x).outline = x.outline) (s : State) : (s.modHub g).outline = s.outline := by
  unfold State.outline
  rw [show (s.modHub g).hub = g s.hub from rfl, h]
  rfl

@[simp] theorem outline_modDie (s : State) (d : Nat) (g : Die → Die) : (s.modDie d g).outline = s.outline := rfl

@[simp] theorem outline_draw (s : State) : s.draw.2.outline = s.outline := rfl

theorem outline_foldl {α : Type} {f : State → α → State} (h : ∀ s a, (f s a).outline = s.outline) :
    ∀ (l : List α) (s : State), (l.foldl f s).outline = s.outline
  | [], _ => rfl
  | a :: l, s => by rw [List.foldl_cons, outline_foldl h l, h]

/-! ### The home and the caches of a die -/

@[simp] theorem outline_notify (s : State) (n : Nat) : (s.notify n).outline = s.outline := by
  unfold State.notify
  split
  · exact outline_modHub (fun _ => rfl) s
  · rfl

@[simp] theorem outline_homeMerge (s : State) (n : Nat) (m : BitVec 64) (d : BitVec 512) :
    (s.homeMerge n m d).outline = s.outline := by
  unfold State.homeMerge
  rw [outline_notify]
  rfl

@[simp] theorem outline_putDieSector (s : State) (d : Nat) (x : Sector) : (s.putDieSector d x).outline = s.outline := rfl

@[simp] theorem outline_dropDieSector (s : State) (d n : Nat) (u : Bool) : (s.dropDieSector d n u).outline = s.outline := rfl

@[simp] theorem outline_dropFrameSector (s : State) (p : FrameId) (n : Nat) (u : Bool) :
    (s.dropFrameSector p n u).outline = s.outline := by
  unfold State.dropFrameSector
  split
  · rfl
  · exact outline_setCache s p _

@[simp] theorem outline_setFrameSector (s : State) (p : FrameId) (x : Sector) : (s.setFrameSector p x).outline = s.outline := by
  unfold State.setFrameSector
  dsimp only
  rw [outline_setCache]
  refine outline_foldl (fun s f => ?_) _ s
  split
  · rfl
  · split
    · exact outline_setCache s f _
    · rfl

@[simp] theorem outline_flushFrame (s : State) (p : FrameId) (n : Nat) (u : Bool) : (s.flushFrame p n u).outline = s.outline := by
  unfold State.flushFrame
  split
  · rfl
  · split
    · rfl
    · simp

@[simp] theorem outline_flushDieFrames (s : State) (d n : Nat) (u : Bool) : (s.flushDieFrames d n u).outline = s.outline :=
  outline_foldl (fun s p => outline_flushFrame s p n u) _ s

@[simp] theorem outline_dropDieFrames (s : State) (d n : Nat) (u : Bool) : (s.dropDieFrames d n u).outline = s.outline :=
  outline_foldl (fun s p => outline_dropFrameSector s p n u) _ s

@[simp] theorem outline_evictFrame (s : State) (p : FrameId) (n : Nat) (u : Bool) : (s.evictFrame p n u).outline = s.outline := by
  simp [State.evictFrame]

@[simp] theorem outline_claimFrame (s : State) (p : FrameId) (n : Nat) (u : Bool) : (s.claimFrame p n u).outline = s.outline := by
  refine outline_foldl (fun s f => ?_) _ s
  split
  · rfl
  · exact outline_evictFrame s f n u

@[simp] theorem outline_makeRoom (s : State) (p : FrameId) (n : Nat) (u : Bool) : (s.makeRoom p n u).outline = s.outline := by
  unfold State.makeRoom
  split
  · rfl
  dsimp only
  split
  · rfl
  split
  · exact (outline_foldl (fun s k => outline_evictFrame s p _ _) _ _).trans (outline_draw s)
  · exact outline_draw s

@[simp] theorem outline_putFrameSector (s : State) (p : FrameId) (x : Sector) : (s.putFrameSector p x).outline = s.outline := by
  simp [State.putFrameSector]

/-! ### Agents and the package directory -/

@[simp] theorem outline_putAgentSector (s : State) (a : Nat) (x : Sector) : (s.putAgentSector a x).outline = s.outline := by
  unfold State.putAgentSector
  split
  · rfl
  · refine outline_modHub (fun h => ?_) s
    split <;> rfl

@[simp] theorem outline_dropAgentSector (s : State) (a n : Nat) : (s.dropAgentSector a n).outline = s.outline := by
  unfold State.dropAgentSector
  split
  · simp
  · refine outline_modHub (fun h => ?_) s
    split <;> rfl

@[simp] theorem outline_gather (s : State) (a n : Nat) : (s.gather a n).outline = s.outline := by
  unfold State.gather
  split <;> simp

@[simp] theorem outline_mergeDirty (s : State) (a n : Nat) : (s.mergeDirty a n).outline = s.outline := by
  unfold State.mergeDirty
  dsimp only
  split
  · split <;> simp
  · simp

@[simp] theorem outline_snoopInvalidate (s : State) (a n : Nat) : (s.snoopInvalidate a n).outline = s.outline := by
  simp [State.snoopInvalidate]

@[simp] theorem outline_snoopClean (s : State) (a n : Nat) : (s.snoopClean a n).outline = s.outline := by
  unfold State.snoopClean
  dsimp only
  split <;> simp

@[simp] theorem outline_snoopShare (s : State) (a n : Nat) : (s.snoopShare a n).outline = s.outline := by
  unfold State.snoopShare
  dsimp only
  split <;> simp

@[simp] theorem outline_putLine (s : State) (n : Nat) (l : DirLine) : (s.putLine n l).outline = s.outline := by
  refine outline_modHub (fun h => ?_) s
  rfl

@[simp] theorem outline_evictLine (s : State) (n : Nat) (l : DirLine) : (s.evictLine n l).outline = s.outline := by
  unfold State.evictLine
  rw [outline_putLine]
  exact outline_foldl (fun s a => outline_foldl (fun s k => outline_snoopInvalidate s a _) _ s) _ s

@[simp] theorem outline_evictWay (s : State) (n : Nat) : (s.evictWay n).outline = s.outline := by
  unfold State.evictWay
  dsimp only
  split
  · rw [outline_evictLine]
    exact outline_draw s
  · exact outline_draw s

@[simp] theorem outline_makeWay (s : State) (n : Nat) : (s.makeWay n).outline = s.outline := by
  unfold State.makeWay
  split
  · rfl
  · exact outline_foldl (fun s _ => outline_evictWay s n) _ s

@[simp] theorem outline_claimLine (s : State) (n a : Nat) : (s.claimLine n a).outline = s.outline := by
  refine outline_foldl (fun s k => ?_) _ s
  dsimp only
  split
  · simp
  · rfl

@[simp] theorem outline_setDir (s : State) (n : Nat) (g : DirSector) : (s.setDir n g).outline = s.outline := by
  unfold State.setDir
  dsimp only
  split <;> split <;> simp

@[simp] theorem outline_invalidateOthers (s : State) (n : Nat) (keep : Option Nat) :
    (s.invalidateOthers n keep).outline = s.outline := by
  refine outline_foldl (fun s a => ?_) _ s
  split
  · rfl
  · exact outline_snoopInvalidate s a n

@[simp] theorem outline_grant (s : State) (a n : Nat) (d : BitVec 512) (st : Moesi) (g : DirSector) :
    (s.grant a n d st g).outline = s.outline := by
  simp [State.grant]

@[simp] theorem outline_readShared (s : State) (a n : Nat) : (s.readShared a n).outline = s.outline := by
  unfold State.readShared
  dsimp only
  split
  · simp
  · simp
  · split
    · simp
    · split <;> simp
  · split <;> simp

@[simp] theorem outline_readUnique (s : State) (a n : Nat) : (s.readUnique a n).outline = s.outline := by
  simp [State.readUnique]

@[simp] theorem outline_upgrade (s : State) (a n : Nat) : (s.upgrade a n).outline = s.outline := by
  unfold State.upgrade
  split <;> dsimp only <;> split <;> simp

@[simp] theorem outline_writeBackKeep (s : State) (a n : Nat) : (s.writeBackKeep a n).outline = s.outline := by
  unfold State.writeBackKeep
  dsimp only
  split
  · simp
  · split <;> simp

@[simp] theorem outline_untrackedRead (s : State) (n : Nat) : (s.untrackedRead n).2.outline = s.outline := by
  unfold State.untrackedRead
  dsimp only
  split <;> simp

@[simp] theorem outline_untrackedWrite (s : State) (n : Nat) (m : BitVec 64) (d : BitVec 512) :
    (s.untrackedWrite n m d).outline = s.outline := by
  simp [State.untrackedWrite]

/-! ### The die cache and the places of access -/

@[simp] theorem outline_noteHome (s : State) (d n : Nat) : (s.noteHome d n).outline = s.outline := rfl

@[simp] theorem outline_dieFill (s : State) (d n : Nat) (u : Bool) : (s.dieFill d n u).2.outline = s.outline := by
  unfold State.dieFill
  dsimp only
  split
  · rfl
  split
  · rfl
  split
  · rfl
  split
  · rfl
  split
  · simp
  · simp

@[simp] theorem outline_dieOwn (s : State) (d n : Nat) : (s.dieOwn d n).2.outline = s.outline := by
  unfold State.dieOwn
  split
  · simp
  · split
    · split
      · rfl
      · dsimp only
        split <;> simp
    · dsimp only
      split
      · rfl
      · split <;> simp

@[simp] theorem outline_dieModify (s : State) (d n : Nat) (u : Bool) : (s.dieModify d n u).outline = s.outline := by
  unfold State.dieModify
  split <;> rfl

@[simp] theorem outline_dieToHome (s : State) (d n : Nat) (u : Bool) : (s.dieToHome d n u).outline = s.outline := by
  unfold State.dieToHome
  dsimp only
  split
  · simp
  · split
    · simp
    · split
      · simp
      · split <;> simp

theorem outline_of_dieFill {s t : State} {d n : Nat} {u : Bool} {c : Option Cause} (h : s.dieFill d n u = (c, t)) :
    t.outline = s.outline := by
  rw [← outline_dieFill s d n u, h]

theorem outline_of_dieOwn {s t : State} {d n : Nat} {c : Option Cause} (h : s.dieOwn d n = (c, t)) :
    t.outline = s.outline := by
  rw [← outline_dieOwn s d n, h]

@[simp] theorem outline_readTower (s : State) (p : FrameId) (pl : Place) (u : Bool) (n off len : Nat) :
    (s.readTower p pl u n off len).2.2.outline = s.outline := by
  have hheld (own : Bool) (c : Option Cause) (t : State)
      (h : (if own then (s.flushDieFrames p.die n u).dieOwn p.die n else (s.flushDieFrames p.die n u).dieFill p.die n u) = (c, t)) :
      t.outline = s.outline := by
    split at h
    · rw [outline_of_dieOwn h, outline_flushDieFrames]
    · rw [outline_of_dieFill h, outline_flushDieFrames]
  cases pl with
  | frame =>
    unfold State.readTower
    dsimp only
    split
    · rfl
    · split
      · rename_i h
        rw [outline_of_dieFill h, outline_flushDieFrames]
      · rename_i h
        split
        · rw [outline_of_dieFill h, outline_flushDieFrames]
        · rw [outline_putFrameSector, outline_of_dieFill h, outline_flushDieFrames]
  | die =>
    unfold State.readTower
    dsimp only
    split
    · rename_i h
      exact hheld false _ _ h
    · rename_i h
      split <;> exact hheld false _ _ h
  | own =>
    unfold State.readTower
    dsimp only
    split
    · rename_i h
      exact hheld true _ _ h
    · rename_i h
      split <;> exact hheld true _ _ h
  | home =>
    unfold State.readTower
    dsimp only
    split
    · rfl
    · split
      · simp
      · split <;> simp

@[simp] theorem outline_readSeg (s : State) (p : FrameId) (pl : Place) (u : Bool) (n off len : Nat) :
    (s.readSeg p pl u n off len).2.2.outline = s.outline := by
  unfold State.readSeg
  split
  · simp
  · split <;> rfl

theorem outline_of_readSeg {s t : State} {p : FrameId} {pl : Place} {u : Bool} {n off len : Nat} {c : Option Cause} {b : List Byte}
    (h : s.readSeg p pl u n off len = (c, b, t)) : t.outline = s.outline := by
  rw [← outline_readSeg s p pl u n off len, h]

/-- A write at the home. -/
@[simp] theorem outline_writeHome (s : State) (p : FrameId) (weak u : Bool) (n off : Nat) (b : List Byte) :
    (s.writeSeg p .home weak u n off b).2.outline = s.outline := by
  have hplace : s.storePlace p.die n .home weak = .home := by
    unfold State.storePlace
    split <;> rfl
  unfold State.writeSeg
  split
  · unfold State.writeTower
    simp only [hplace]
    split
    · rfl
    · split
      · simp
      · split <;> simp
  · split <;> simp

/-! ### Translation (R417 to R422) -/

@[simp] theorem outline_readEntry (s : State) (pa : Nat) : (s.readEntry pa).2.outline = s.outline := by
  unfold State.readEntry
  split
  · rfl
  · dsimp only
    split <;> simp

theorem outline_of_readEntry {s t : State} {pa : Nat} {r : Except Cause DWord} (h : s.readEntry pa = (r, t)) :
    t.outline = s.outline := by
  rw [← outline_readEntry s pa, h]

@[simp] theorem outline_walkEntry (s : State) (asid level table va : Nat) :
    (s.walkEntry asid level table va).2.outline = s.outline := by
  unfold State.walkEntry
  dsimp only
  split
  · rfl
  · split
    · rename_i h
      exact outline_of_readEntry h
    · rename_i h
      split
      · refine Eq.trans (outline_modHub (fun h => ?_) _) (outline_of_readEntry h)
        simp only [Hub.outline]
      · exact outline_of_readEntry h

theorem outline_of_walkEntry {s t : State} {asid level table va : Nat} {r : Except Cause DWord}
    (h : s.walkEntry asid level table va = (r, t)) : t.outline = s.outline := by
  rw [← outline_walkEntry s asid level table va, h]

@[simp] theorem outline_walkFrom (asid va : Nat) : ∀ (fuel table : Nat) (s : State),
    (State.walkFrom asid va fuel table s).2.outline = s.outline
  | 0, _, _ => rfl
  | fuel + 1, table, s => by
    unfold State.walkFrom
    dsimp only
    split
    · rfl
    split
    · rename_i h
      exact outline_of_walkEntry h
    · rename_i h
      split
      · exact outline_of_walkEntry h
      split
      · exact outline_of_walkEntry h
      · rw [outline_walkFrom, outline_of_walkEntry h]

theorem outline_of_walkFrom {s t : State} {asid va fuel table : Nat} {r : Except Cause (Nat × DWord × Nat)}
    (h : State.walkFrom asid va fuel table s = (r, t)) : t.outline = s.outline := by
  rw [← outline_walkFrom asid va fuel table s, h]

@[simp] theorem outline_readRun (s : State) (table va : Nat) : (s.readRun table va).2.outline = s.outline := by
  have h : ∀ (l : List Nat) (a : List DWord × State), ((l.foldl (fun a k =>
      match a.2.readEntry (table + 8 * (levelIndex 3 va / 16 * 16 + k)) with
      | (.ok e, s1) => (a.1 ++ [e], s1)
      | (.error _, s1) => (a.1 ++ [0], s1)) a)).2.outline = a.2.outline := by
    intro l
    induction l with
    | nil => intro a; rfl
    | cons k l ih =>
      intro a
      rw [List.foldl_cons, ih]
      split <;> (rename_i h; exact outline_of_readEntry h)
  exact h _ _

@[simp] theorem outline_runXlat (s : State) (asid part va table : Nat) :
    (s.runXlat asid part va table).2.outline = s.outline := by
  unfold State.runXlat
  dsimp only
  split
  · simp
  · split
    · simp
    · simp

@[simp] theorem outline_handOut (s : State) (glob : Bool) (key holder e : Nat) :
    (s.handOut glob key holder e).outline = s.outline := by
  refine outline_modHub (fun h => ?_) s
  rfl

@[simp] theorem outline_giveOut (s : State) (glob : Bool) (key : Nat) (x : Xlat) :
    (s.giveOut glob key x).outline = s.outline := by
  refine outline_modHub (fun h => ?_) s
  rfl

@[simp] theorem outline_walk (s : State) (holder asid va : Nat) : (s.walk holder asid va).2.outline = s.outline := by
  unfold State.walk
  dsimp only
  split
  · rfl
  split
  · rename_i h
    exact outline_of_walkFrom h
  · rename_i level e table t h
    have hx : (if pteCont e = true then t.runXlat asid (s.asidEntry asid).part va table
        else (some (t.leafXlat asid (s.asidEntry asid).part va (levelBytes level) e (pteAddr e)), t)).2.outline = s.outline := by
      split
      · rw [outline_runXlat, outline_of_walkFrom h]
      · exact outline_of_walkFrom h
    generalize (if pteCont e = true then t.runXlat asid (s.asidEntry asid).part va table
      else (some (t.leafXlat asid (s.asidEntry asid).part va (levelBytes level) e (pteAddr e)), t)) = z at hx ⊢
    split
    · exact hx
    · split
      · exact hx
      · rw [outline_giveOut, outline_handOut]
        exact hx

theorem outline_of_walk {s t : State} {holder asid va : Nat} {r : Except Cause Xlat} (h : s.walk holder asid va = (r, t)) :
    t.outline = s.outline := by
  rw [← outline_walk s holder asid va, h]

@[simp] theorem outline_forget (s : State) (q : Lookup) : (s.forget q).outline = s.outline := by
  simp [State.forget]

@[simp] theorem outline_refill (s : State) (q : Lookup) : (s.refill q).2.outline = s.outline := by
  unfold State.refill
  split
  · rename_i h
    exact outline_of_walk h
  · rename_i h
    rw [outline_setTlb, outline_modDie, outline_of_walk h]

theorem outline_of_refill {s t : State} {q : Lookup} {r : Except Cause Xlat} (h : s.refill q = (r, t)) :
    t.outline = s.outline := by
  rw [← outline_refill s q, h]

@[simp] theorem outline_lookup (s : State) (q : Lookup) : (s.lookup q).2.outline = s.outline := by
  unfold State.lookup
  split
  · rfl
  · exact outline_setTlb s q.p _
  · split
    · rename_i h
      rw [outline_of_refill h, outline_forget]
    · rename_i h
      rw [outline_of_refill h, outline_forget]

theorem outline_of_lookup {s t : State} {q : Lookup} {r : Except Cause (Xlat × Bool)} (h : s.lookup q = (r, t)) :
    t.outline = s.outline := by
  rw [← outline_lookup s q, h]

@[simp] theorem outline_page (s : State) (q : Lookup) (n : Need) : (s.page q n).2.outline = s.outline := by
  unfold State.page
  split
  · rfl
  split
  · rename_i h
    exact outline_of_lookup h
  · rename_i h
    split
    · exact outline_of_lookup h
    · split
      · exact outline_of_lookup h
      · split
        · rename_i h2
          rw [outline_of_refill h2, outline_forget, outline_of_lookup h]
        · rename_i h2
          split <;> rw [outline_of_refill h2, outline_forget, outline_of_lookup h]

theorem outline_of_page {s t : State} {q : Lookup} {n : Need} {r : Except Cause Xlat} (h : s.page q n = (r, t)) :
    t.outline = s.outline := by
  rw [← outline_page s q n, h]

/-! ### Images (R377, R449, R450) -/

theorem outline_putRun (p : FrameId) (u : Bool) : ∀ (l : List (Nat × Nat)) (b : List Byte) (s : State),
    (State.putRun p u l b s).2.outline = s.outline
  | [], _, _ => rfl
  | (pa, k) :: l, b, s => by
    have hw := outline_writeHome s p false u (pa / 64) (pa % 64) (b.take k)
    unfold State.putRun
    split
    · rename_i h
      rw [h] at hw
      exact hw
    · rename_i h
      rw [h] at hw
      rw [outline_putRun p u l, hw]

theorem outline_of_putRun {p : FrameId} {u : Bool} {l : List (Nat × Nat)} {b : List Byte} {s t : State} {c : Option Cause}
    (h : State.putRun p u l b s = (c, t)) : t.outline = s.outline := by
  rw [← outline_putRun p u l b s, h]

theorem outline_of_putImage {p : FrameId} {asid : Nat} : ∀ {fuel va : Nat} {b : List Byte} {s t : State},
    State.putImage p asid fuel va b s = .ok t → t.outline = s.outline
  | 0, _, _, _, _, h => by
    cases h
    rfl
  | fuel + 1, va, b, s, t, h => by
    unfold State.putImage at h
    split at h
    · cases h
      rfl
    dsimp only at h
    split at h
    · cases h
    · rename_i hp
      split at h
      · cases h
      · rename_i hr
        rw [outline_of_putImage h, outline_of_putRun hr, outline_of_page hp]

theorem outline_of_patchImage {s t : State} {p : FrameId} {place : ImagePlace} {e : Nat × List Byte}
    (h : s.patchImage p place e = .ok t) : t.outline = s.outline := by
  unfold State.patchImage at h
  split at h
  · split at h
    · cases h
    · rename_i hr
      cases h
      exact outline_of_putRun hr
  · exact outline_of_putImage h

theorem outline_of_patchAll {p : FrameId} {place : ImagePlace} : ∀ {l : List (Nat × List Byte)} {s t : State},
    State.patchAll p place l s = .ok t → t.outline = s.outline
  | [], _, _, h => by
    cases h
    rfl
  | e :: l, s, t, h => by
    unfold State.patchAll at h
    split at h
    · cases h
    · rename_i hp
      rw [outline_of_patchAll h, outline_of_patchImage hp]

end Sys2Proof.Machine
end

section
namespace Sys2Proof.Machine

/-! ## Fetch (R202, R234, R361) -/

theorem frame_of_outline {s t : State} (h : t.outline = s.outline) (p : FrameId) : (t.frame p).outline = (s.frame p).outline :=
  congrFun (congrArg Outline.frames h) p

theorem breakpointAt_of_outline {f g : Frame} (h : f.outline = g.outline) (k : RodKey) (pc : DWord) :
    breakpointAt f k pc = breakpointAt g k pc := by
  have hbk : f.outline.bk = g.outline.bk := congrArg Frame.bk h
  change f.bk = g.bk at hbk
  unfold breakpointAt
  rw [hbk]

section
variable {s s1 s2 : State} {k : RodKey} {r : Rod} {pc : DWord} {x : Xlat} {b : List Byte}
  (hp : s.page { p := k.frame, asid := s.asidOf k r, va := pc.toNat } .execute = (.ok x, s1))
  (hr : s1.readSeg k.frame (placeOf k.frame.die x.ord 0) (isUntracked x.ord) ((x.pa + (pc.toNat - x.va)) / 64)
    ((x.pa + (pc.toNat - x.va)) % 64) 8 = (none, b, s2))
include hp hr

/-- A page that may be executed, and eight bytes read there, give the word to the firmware context. -/
theorem fetchWord_firmware (hk : k.slot = .firmware) : s.fetchWord k r pc = (.ok (BitVec.ofNat 64 (ofLe b)), s2) := by
  have ht : s1.fetchThrough k.frame x pc = (.ok (BitVec.ofNat 64 (ofLe b)), s2) := by
    unfold State.fetchThrough
    simp only [hr]
  unfold State.fetchWord
  simp only [hp, ht, hk]

/-- A rod takes the word there, or one that was read ahead. -/
theorem fetchWord_rod (hk : k.slot ≠ .firmware) :
    s.fetchWord k r pc = (.ok (s2.eitherWord k.frame r.launch pc (BitVec.ofNat 64 (ofLe b))).1,
      (s2.eitherWord k.frame r.launch pc (BitVec.ofNat 64 (ofLe b))).2) := by
  have ht : s1.fetchThrough k.frame x pc = (.ok (BitVec.ofNat 64 (ofLe b)), s2) := by
    unfold State.fetchThrough
    simp only [hr]
  unfold State.fetchWord
  simp only [hp, ht]
  split
  · contradiction
  · rfl

/-- Without a breakpoint there, the word fetched is the instruction it decodes to. -/
theorem fetch_of_decode {s3 : State} {v : DWord} (hw : s.fetchWord k r pc = (.ok v, s3))
    (hb : breakpointAt (s2.frame k.frame) k pc = false) {i : Instr} (hi : decode v = .ok i) :
    s.fetch k r pc = (.instr i, s3) := by
  have hb' : breakpointAt (s.frame k.frame) k pc = false := by
    rw [← breakpointAt_of_outline (frame_of_outline ((outline_of_readSeg hr).trans (outline_of_page hp)) k.frame)]
    exact hb
  unfold State.fetch
  simp only [hw, hb', hi, Bool.false_eq_true, if_false]

end

/-- Where words of the code were read ahead, the fetch takes one of them or the word there, by one free value. -/
theorem eitherWord_of_older {s : State} {p : FrameId} {launch : Nat} {pc w : DWord}
    (h : (s.frame p).olderWords launch pc w ≠ []) :
    (s.eitherWord p launch pc w).1 ∈ w :: (s.frame p).olderWords launch pc w
      ∧ (s.eitherWord p launch pc w).2 = { s with free := s.free + 1 } := by
  unfold State.eitherWord
  split
  · contradiction
  · rename_i l _
    refine ⟨?_, rfl⟩
    dsimp only
    rw [List.getD_eq_getElem _ _ (by rw [List.length_cons]; exact Nat.mod_lt _ (Nat.succ_pos _))]
    exact List.getElem_mem _

theorem eitherWord_of_none {s : State} {p : FrameId} {launch : Nat} {pc w : DWord}
    (h : (s.frame p).olderWords launch pc w = []) : s.eitherWord p launch pc w = (w, s) := by
  unfold State.eitherWord
  rw [h]

end Sys2Proof.Machine
end

section
namespace Sys2Proof.Machine

/-! ## The oldest of a list (R48) -/

theorem older_iff {a b : Nat × Nat} : older a b = true ↔ a.1 < b.1 ∨ (a.1 = b.1 ∧ a.2 < b.2) := by
  simp [older]

theorem older_eq_false {a b : Nat × Nat} : older a b = false ↔ b.1 < a.1 ∨ (a.1 = b.1 ∧ b.2 ≤ a.2) := by
  rw [← Bool.not_eq_true, older_iff]
  omega

theorem oldestOf_eq_none {α : Type} {l : List ((Nat × Nat) × α)} : oldestOf l = none ↔ l = [] := by
  cases l with
  | nil => simp [oldestOf]
  | cons x l =>
    unfold oldestOf
    split
    · simp
    · split <;> simp

/-- The oldest is one of the list, and nothing in the list is older. -/
theorem oldestOf_spec {α : Type} : ∀ {l : List ((Nat × Nat) × α)} {y : (Nat × Nat) × α}, oldestOf l = some y →
    y ∈ l ∧ ∀ x ∈ l, older x.1 y.1 = false
  | x :: l, y, h => by
    unfold oldestOf at h
    split at h
    · rename_i hn
      cases h
      rw [oldestOf_eq_none.1 hn]
      simp [older_eq_false]
    · rename_i z hz
      obtain ⟨hm, hall⟩ := oldestOf_spec hz
      split at h
      · rename_i ho
        cases h
        refine ⟨List.mem_cons_of_mem _ hm, fun w hw => ?_⟩
        rcases List.mem_cons.1 hw with rfl | hw
        · rw [older_iff] at ho
          rw [older_eq_false]
          omega
        · exact hall w hw
      · rename_i ho
        cases h
        refine ⟨List.mem_cons_self, fun w hw => ?_⟩
        rw [Bool.not_eq_true, older_eq_false] at ho
        rcases List.mem_cons.1 hw with rfl | hw
        · rw [older_eq_false]
          omega
        · have := older_eq_false.1 (hall w hw)
          rw [older_eq_false]
          omega

/-! ## Selection (R50, R51) -/

theorem nextInRotation_isSome {last : Nat} {l : List Nat} (h : l ≠ []) : (nextInRotation last l).isSome = true := by
  unfold nextInRotation
  split
  · rfl
  · cases l with
    | nil => contradiction
    | cons a l => rfl

/-- The next in the rotation of an ascending list: the first after the last, else the lowest. -/
theorem nextInRotation_spec {last n : Nat} {l : List Nat} (hl : l.Pairwise (· < ·)) (h : nextInRotation last l = some n) :
    n ∈ l ∧ ((∃ k ∈ l, last < k) → last < n ∧ ∀ k ∈ l, last < k → n ≤ k) ∧ ((∀ k ∈ l, k ≤ last) → ∀ k ∈ l, n ≤ k) := by
  unfold nextInRotation at h
  split at h
  · rename_i m hf
    cases h
    have hlast : last < n := by simpa using List.find?_some hf
    have hm := List.mem_of_find?_eq_some hf
    refine ⟨hm, fun _ => ⟨hlast, fun k hk hkl => ?_⟩, fun hall => absurd (hall n hm) (by omega)⟩
    obtain ⟨-, as, bs, rfl, has⟩ := List.find?_eq_some_iff_append.1 hf
    rcases List.mem_append.1 hk with hk | hk
    · have := has k hk
      simp at this
      omega
    · rcases List.mem_cons.1 hk with rfl | hk
      · exact le_rfl
      · exact le_of_lt ((List.pairwise_cons.1 (List.pairwise_append.1 hl).2.1).1 k hk)
  · rename_i hf
    rw [List.find?_eq_none] at hf
    cases l with
    | nil => cases h
    | cons a l =>
      cases h
      refine ⟨List.mem_cons_self, fun ⟨k, hk, hlt⟩ => absurd (decide_eq_true hlt) (hf k hk), fun _ k hk => ?_⟩
      rcases List.mem_cons.1 hk with rfl | hk
      · exact le_rfl
      · exact le_of_lt ((List.pairwise_cons.1 hl).1 k hk)

/-- The ready sub-rods of a rod, ascending, and never none. -/
theorem readyRods_lanes {s : State} {p : FrameId} {e : Nat × Rod × List Nat} (h : e ∈ s.readyRods p) :
    e.2.2 ≠ [] ∧ e.2.2.Pairwise (· < ·) := by
  unfold State.readyRods at h
  obtain ⟨x, -, hx⟩ := List.mem_filterMap.1 h
  split at hx
  · split at hx
    · cases hx
    · rename_i hne
      cases hx
      refine ⟨hne, ?_⟩
      exact List.Pairwise.filter _ List.pairwise_lt_range
  · cases hx

/-- The ready rods that have not issued in this cycle, with their keys. -/
def State.keyedReady (s : State) (p : FrameId) : List ((Nat × Nat) × (Nat × Rod × List Nat)) :=
  ((s.readyRods p).filter (fun e => !e.2.1.taken)).map (fun e => (ageKey e.2.1, e))

theorem mem_keyedReady {s : State} {p : FrameId} {x : (Nat × Nat) × (Nat × Rod × List Nat)} :
    x ∈ s.keyedReady p ↔ x.2 ∈ (s.readyRods p).filter (fun e => !e.2.1.taken) ∧ x.1 = ageKey x.2.2.1 := by
  unfold State.keyedReady
  rw [List.mem_map]
  constructor
  · rintro ⟨e, he, rfl⟩
    exact ⟨he, rfl⟩
  · rintro ⟨h, hk⟩
    exact ⟨x.2, h, by rw [← hk]⟩

/-- The rods among which a port selects: the starved ones, where there are any. -/
def State.keyedFirst (s : State) (p : FrameId) : List ((Nat × Nat) × (Nat × Rod × List Nat)) :=
  if (s.keyedReady p).filter (fun e => 4096 ≤ e.2.2.1.unissued) = [] then s.keyedReady p
  else (s.keyedReady p).filter (fun e => 4096 ≤ e.2.2.1.unissued)

theorem keyedFirst_eq_nil {s : State} {p : FrameId} :
    s.keyedFirst p = [] ↔ (s.readyRods p).filter (fun e => !e.2.1.taken) = [] := by
  have h : s.keyedFirst p = [] ↔ s.keyedReady p = [] := by
    unfold State.keyedFirst
    split
    · rfl
    · rename_i hne
      exact ⟨fun h => absurd h hne, fun h => absurd (by rw [h]; rfl) hne⟩
  rw [h, State.keyedReady, List.map_eq_nil_iff]

theorem pick_eq (s : State) (p : FrameId) : s.pick p = match oldestOf (s.keyedFirst p) with
    | none => none
    | some (_, e) => (nextInRotation e.2.1.lastLane e.2.2).map (fun l => { key := rodKey p e.1, lane := l }) := by
  unfold State.pick State.keyedFirst State.keyedReady
  rfl

/-- Of the ready rods a starved one comes first, else the oldest. -/
theorem keyedFirst_oldest {s : State} {p : FrameId} {x : (Nat × Nat) × (Nat × Rod × List Nat)}
    (h : oldestOf (s.keyedFirst p) = some x) :
    x.2 ∈ (s.readyRods p).filter (fun e => !e.2.1.taken)
      ∧ ∀ d ∈ (s.readyRods p).filter (fun e => !e.2.1.taken), (4096 ≤ d.2.1.unissued → 4096 ≤ x.2.2.1.unissued)
        ∧ ((4096 ≤ d.2.1.unissued ↔ 4096 ≤ x.2.2.1.unissued) → older (ageKey d.2.1) (ageKey x.2.2.1) = false) := by
  obtain ⟨hx, hall⟩ := oldestOf_spec h
  have key (d : Nat × Rod × List Nat) (hd : d ∈ (s.readyRods p).filter (fun e => !e.2.1.taken)) :
      (ageKey d.2.1, d) ∈ s.keyedReady p := mem_keyedReady.2 ⟨hd, rfl⟩
  unfold State.keyedFirst at hx hall
  split at hx
  · rename_i hnone
    obtain ⟨hm, hk⟩ := mem_keyedReady.1 hx
    refine ⟨hm, fun d hd => ⟨fun hs => ?_, fun _ => ?_⟩⟩
    · exact absurd (decide_eq_true hs) (List.filter_eq_nil_iff.1 hnone _ (key d hd))
    · rw [if_pos hnone] at hall
      exact hk ▸ hall _ (key d hd)
  · rename_i hsome
    obtain ⟨hx, hstarved⟩ := List.mem_filter.1 hx
    obtain ⟨hm, hk⟩ := mem_keyedReady.1 hx
    have hstarved := of_decide_eq_true hstarved
    refine ⟨hm, fun d hd => ⟨fun _ => hstarved, fun hiff => ?_⟩⟩
    rw [if_neg hsome] at hall
    exact hk ▸ hall _ (List.mem_filter.2 ⟨key d hd, decide_eq_true (hiff.2 hstarved)⟩)

theorem pick_eq_none {s : State} {p : FrameId} : s.pick p = none ↔ (s.readyRods p).filter (fun e => !e.2.1.taken) = [] := by
  rw [pick_eq, ← keyedFirst_eq_nil, ← oldestOf_eq_none]
  cases h : oldestOf (s.keyedFirst p) with
  | none => simp
  | some x =>
    obtain ⟨hm, -⟩ := keyedFirst_oldest h
    have := nextInRotation_isSome (last := x.2.2.1.lastLane) (readyRods_lanes (List.mem_of_mem_filter hm)).1
    simp only [Option.map_eq_none_iff, reduceCtorEq, iff_false]
    intro hn
    rw [hn] at this
    cases this

theorem portOpen_markIssued {s : State} {p : FrameId} {port : Nat} {who : Issuer} (hp : who.key.frame = p)
    (h : port < 8) : (s.markIssued port who).portOpen p port = false := by
  have hport : ((s.markIssued port who).frame p).ports.getLsbD port = true := by
    unfold State.markIssued
    rw [State.frame_modFrame, hp, if_pos rfl]
    simp [withBit, h]
  unfold State.portOpen
  simp only [hport, Bool.not_true, Bool.and_false, Bool.false_and]

theorem portsOf_le (d : Nat) : Config.portsOf d ≤ 8 := by
  unfold Config.portsOf
  split <;> omega

/-- What an open port selects (R50, R51). -/
theorem select_some {s : State} {p : FrameId} {port : Nat} {who : Issuer} (h : s.select p port = some who) :
    s.portOpen p port = true ∧ ∃ x, oldestOf (s.keyedFirst p) = some x ∧ who.key = rodKey p x.2.1
      ∧ nextInRotation x.2.2.1.lastLane x.2.2.2 = some who.lane := by
  unfold State.select at h
  split at h
  · rename_i ho
    refine ⟨ho, ?_⟩
    rw [pick_eq] at h
    cases hx : oldestOf (s.keyedFirst p) with
    | none =>
      rw [hx] at h
      cases h
    | some x =>
      rw [hx] at h
      obtain ⟨l, hl, hw⟩ := Option.map_eq_some_iff.1 h
      cases hw
      exact ⟨x, rfl, rfl, hl⟩
  · cases h

/-- A cycle does not end while an open port has a rod to select. -/
theorem endCycle_of_select {s : State} {p : FrameId} {port : Nat} {late : List (Nat × BitVec 32)}
    (hp : port < Config.portsOf p.die) (h : s.select p port ≠ none) : s.endCycle p late = s := by
  have : s.selectionOpen p = true := by
    unfold State.selectionOpen
    rw [List.any_eq_true]
    exact ⟨port, List.mem_range.2 hp, Option.isSome_iff_ne_none.2 h⟩
  unfold State.endCycle
  rw [if_pos this]

end Sys2Proof.Machine
end

section
namespace Sys2Proof.Machine

/-! ## The end of a step: stalled heads (R66) -/

/-- `t` is `s` with intervals of stalled heads forgotten. -/
def State.HeadsNoted (s t : State) : Prop :=
  { t with frames := s.frames } = s
    ∧ ∀ p, { t.frame p with ve := (s.frame p).ve, ce := (s.frame p).ce, me := (s.frame p).me } = s.frame p
      ∧ ∀ e, ((t.frame p).engine e).entries = ((s.frame p).engine e).entries

theorem headsNoted_refl (s : State) : s.HeadsNoted s := ⟨rfl, fun _ => ⟨rfl, fun _ => rfl⟩⟩

theorem headsNoted_trans {s t u : State} (h : s.HeadsNoted t) (g : t.HeadsNoted u) : s.HeadsNoted u := by
  obtain ⟨h1, h2⟩ := h
  obtain ⟨g1, g2⟩ := g
  refine ⟨?_, fun p => ⟨?_, fun e => ((g2 p).2 e).trans ((h2 p).2 e)⟩⟩
  · rw [← g1] at h1
    exact h1
  · have e := (h2 p).1
    rw [← (g2 p).1] at e
    exact e

/-- Steps that each keep a relation keep it one after the other. -/
theorem foldl_keeps {α : Type} {R : State → State → Prop} (hr : ∀ s, R s s) (ht : ∀ s t u, R s t → R t u → R s u)
    {f : State → α → State} (h : ∀ s a, R s (f s a)) : ∀ (l : List α) (s : State), R s (l.foldl f s)
  | [], s => hr s
  | a :: l, s => ht _ _ _ (h s a) (foldl_keeps hr ht h l (f s a))

theorem headsNoted_noteHead (s : State) (p : FrameId) (e : EngineId) : s.HeadsNoted (s.noteHead p e) := by
  unfold State.noteHead
  split
  · exact headsNoted_refl s
  · split
    · exact headsNoted_refl s
    · refine ⟨rfl, fun q => ?_⟩
      unfold State.modEngine
      rw [State.frame_modFrame]
      split
      · rename_i h
        subst h
        refine ⟨?_, fun d => ?_⟩
        · cases e <;> rfl
        · cases e <;> cases d <;> rfl
      · exact ⟨rfl, fun _ => rfl⟩

theorem headsNoted_noteHeads (s : State) : s.HeadsNoted s.noteHeads := by
  unfold State.noteHeads
  refine foldl_keeps headsNoted_refl (fun _ _ _ => headsNoted_trans) (fun s f => ?_) s.frames s
  exact foldl_keeps headsNoted_refl (fun _ _ _ => headsNoted_trans) (fun s e => headsNoted_noteHead s f.1 e) engines s

theorem noteHeads_of_no_stall {s : State} (h : ∀ p e, ((s.frame p).engine e).stalledSince = none) : s.noteHeads = s := by
  refine foldl_fixed (fun f _ => foldl_fixed (fun e _ => ?_))
  unfold State.noteHead
  rw [h f.1 e]

/-! ## The end of a step: stuck frames and images (R56, log entry 84) -/

/-- What the end of a step changes neither of the rods and teams nor of the requests of the frames. -/
structure State.Closes (s t : State) : Prop where
  rods : t.rods = s.rods
  teams : t.teams = s.teams
  agenda : t.agenda = s.agenda
  carry : t.carry = s.carry
  active : ∀ p, (t.frame p).active = (s.frame p).active
  requests : ∀ p, (t.frame p).requests = (s.frame p).requests

theorem closes_refl (s : State) : s.Closes s := ⟨rfl, rfl, rfl, rfl, fun _ => rfl, fun _ => rfl⟩

theorem closes_trans {s t u : State} (h : s.Closes t) (g : t.Closes u) : s.Closes u :=
  ⟨g.rods.trans h.rods, g.teams.trans h.teams, g.agenda.trans h.agenda, g.carry.trans h.carry,
    fun p => (g.active p).trans (h.active p), fun p => (g.requests p).trans (h.requests p)⟩

theorem closes_of_outline {s t : State} (h : t.outline = s.outline) : s.Closes t := by
  have hf (p : FrameId) := frame_of_outline h p
  exact ⟨(congrArg Outline.rods h :), (congrArg Outline.teams h :), (congrArg Outline.agenda h :), (congrArg Outline.carry h :),
    fun p => (congrArg Frame.active (hf p) :), fun p => (congrArg Frame.requests (hf p) :)⟩

theorem closes_of_headsNoted {s t : State} (h : s.HeadsNoted t) : s.Closes t := by
  obtain ⟨h1, h2⟩ := h
  exact ⟨(congrArg State.rods h1 :), (congrArg State.teams h1 :), (congrArg State.agenda h1 :), (congrArg State.carry h1 :),
    fun p => (congrArg Frame.active (h2 p).1 :), fun p => (congrArg Frame.requests (h2 p).1 :)⟩

theorem closes_modFrame {s : State} {p : FrameId} {g : Frame → Frame} (ha : ∀ f, (g f).active = f.active)
    (hr : ∀ f, (g f).requests = f.requests) : s.Closes (s.modFrame p g) := by
  refine ⟨rfl, rfl, rfl, rfl, fun q => ?_, fun q => ?_⟩ <;> rw [State.frame_modFrame] <;> split <;> simp_all

/-- Whether a frame is held rests on its rods, its teams and its requests alone (R56). -/
theorem frameHeld_of_closes {s t : State} (h : s.Closes t) (p : FrameId) : t.frameHeld p = s.frameHeld p := by
  have hrods (q : FrameId) : t.rodsOn q = s.rodsOn q := by
    unfold State.rodsOn
    rw [h.rods]
  have hteam (tk : TeamKey) : t.team? tk = s.team? tk := by
    unfold State.team?
    rw [h.teams]
  have hmember (tk : TeamKey) (n : Nat) : t.memberSlot tk n = s.memberSlot tk n := by
    unfold State.memberSlot
    rw [hrods]
  have habsent (tk : TeamKey) (u : Team) : t.absentRods tk u = s.absentRods tk u := by
    unfold State.absentRods
    simp only [hmember]
  have hwait (tk : TeamKey) (x : Lane) : t.waitsForEviction tk x = s.waitsForEviction tk x := by
    unfold State.waitsForEviction
    simp only [hteam, habsent]
  have holdest : t.oldestRequest p = s.oldestRequest p := by
    unfold State.oldestRequest
    rw [h.active, h.requests]
  unfold State.frameHeld State.evictee State.frameStuck State.keyedRods
  simp only [hrods, hwait, holdest]

/-- Images that come up to date leave alone what the end of a step closes, and the intervals of stuck frames. -/
def State.BringsUp (s t : State) : Prop := s.Closes t ∧ ∀ p, (t.frame p).stuckSince = (s.frame p).stuckSince

theorem bringsUp_refl (s : State) : s.BringsUp s := ⟨closes_refl s, fun _ => rfl⟩

theorem bringsUp_trans {s t u : State} (h : s.BringsUp t) (g : t.BringsUp u) : s.BringsUp u :=
  ⟨closes_trans h.1 g.1, fun p => (g.2 p).trans (h.2 p)⟩

theorem bringsUp_of_outline {s t : State} (h : t.outline = s.outline) : s.BringsUp t :=
  ⟨closes_of_outline h, fun p => (congrArg Frame.stuckSince (frame_of_outline h p) :)⟩

theorem bringsUp_modFrame {s : State} {p : FrameId} {g : Frame → Frame} (ha : ∀ f, (g f).active = f.active)
    (hr : ∀ f, (g f).requests = f.requests) (hs : ∀ f, (g f).stuckSince = f.stuckSince) : s.BringsUp (s.modFrame p g) := by
  refine ⟨closes_modFrame ha hr, fun q => ?_⟩
  rw [State.frame_modFrame]
  split
  · rename_i h
    rw [hs, h]
  · rfl

theorem bringsUp_bringRodUp (p : FrameId) (s : State) (v : SavedRod) : s.BringsUp (State.bringRodUp p s v) := by
  unfold State.bringRodUp
  split
  · split
    · exact bringsUp_refl s
    · rename_i h
      exact bringsUp_trans (bringsUp_of_outline (outline_of_patchAll h))
        (bringsUp_modFrame (fun _ => rfl) (fun _ => rfl) (fun _ => rfl))
  · exact bringsUp_refl s

theorem bringsUp_bringTeamUp (p : FrameId) (s : State) (v : SavedTeam) : s.BringsUp (State.bringTeamUp p s v) := by
  unfold State.bringTeamUp
  split
  · split
    · exact bringsUp_refl s
    · rename_i h
      exact bringsUp_trans (bringsUp_of_outline (outline_of_patchAll h))
        (bringsUp_modFrame (fun _ => rfl) (fun _ => rfl) (fun _ => rfl))
  · exact bringsUp_refl s

theorem bringsUp_bringImagesUp (s : State) (p : FrameId) : s.BringsUp (s.bringImagesUp p) := by
  unfold State.bringImagesUp
  refine bringsUp_trans (foldl_keeps bringsUp_refl (fun _ _ _ => bringsUp_trans) (bringsUp_bringRodUp p)
    (s.frame p).savedRods s) ?_
  exact foldl_keeps bringsUp_refl (fun _ _ _ => bringsUp_trans) (bringsUp_bringTeamUp p) _ _

theorem closes_noteStuck (s : State) (p : FrameId) : s.Closes (s.noteStuck p) := by
  unfold State.noteStuck
  split
  · exact closes_modFrame (fun _ => rfl) (fun _ => rfl)
  · exact closes_refl s

theorem stuckSince_noteStuck (s : State) (p q : FrameId) : ((s.noteStuck p).frame q).stuckSince
    = if q = p ∧ s.frameHeld p = false then none else (s.frame q).stuckSince := by
  have hnone : ∀ o : Option Nat, o.isSome = false → o = none := fun o h => by simpa using h
  unfold State.noteStuck
  by_cases hh : s.frameHeld p = true
  · simp [hh]
  · rw [Bool.not_eq_true] at hh
    by_cases hq : q = p
    · subst hq
      cases hs : (s.frame q).stuckSince with
      | none => simp [hh, hs]
      | some n => simp [hh, State.frame_modFrame]
    · simp only [hh, hq, false_and, if_false]
      split
      · rw [State.frame_modFrame, if_neg hq]
      · rfl

/-- The frames of a list, closed one after the other. -/
theorem closeFrames (l : List FrameId) : ∀ (s : State),
    s.Closes (l.foldl (fun s p => (s.noteStuck p).bringImagesUp p) s)
      ∧ ∀ q, ((l.foldl (fun s p => (s.noteStuck p).bringImagesUp p) s).frame q).stuckSince
        = if q ∈ l ∧ s.frameHeld q = false then none else (s.frame q).stuckSince := by
  induction l with
  | nil => exact fun s => ⟨closes_refl s, fun q => by simp⟩
  | cons p l ih =>
    intro s
    have hb := bringsUp_bringImagesUp (s.noteStuck p) p
    have hc : s.Closes ((s.noteStuck p).bringImagesUp p) := closes_trans (closes_noteStuck s p) hb.1
    obtain ⟨h1, h2⟩ := ih ((s.noteStuck p).bringImagesUp p)
    rw [List.foldl_cons]
    refine ⟨closes_trans hc h1, fun q => ?_⟩
    rw [h2 q, frameHeld_of_closes hc, hb.2 q, stuckSince_noteStuck]
    by_cases hq : q = p
    · subst hq
      cases hh : s.frameHeld q <;> simp
    · simp [hq]

theorem frame_of_not_mem {s : State} {p : FrameId} (h : p ∉ s.frames.map Prod.fst) : s.frame p = Frame.reset := by
  have hnone : ∀ {l : List (FrameId × Frame)}, p ∉ l.map Prod.fst → tableFind p l = none := by
    intro l
    induction l with
    | nil => exact fun _ => rfl
    | cons e l ih =>
      intro h
      rw [List.map_cons, List.mem_cons, not_or] at h
      unfold tableFind
      rw [if_neg (fun e => h.1 e.symm)]
      exact ih h.2
  unfold State.frame tableGet
  rw [hnone h]
  rfl

theorem closes_closeStep (t : State) : t.Closes t.closeStep :=
  closes_trans (closes_of_headsNoted (headsNoted_noteHeads t)) (closeFrames _ t.noteHeads).1

theorem stuckSince_closeStep (t : State) (p : FrameId) :
    (t.closeStep.frame p).stuckSince = if t.frameHeld p then (t.frame p).stuckSince else none := by
  have hn := headsNoted_noteHeads t
  have hs : (t.noteHeads.frame p).stuckSince = (t.frame p).stuckSince := (congrArg Frame.stuckSince (hn.2 p).1 :)
  have h := (closeFrames (t.noteHeads.frames.map Prod.fst) t.noteHeads).2 p
  rw [frameHeld_of_closes (closes_of_headsNoted hn), hs] at h
  refine h.trans ?_
  by_cases hm : p ∈ t.noteHeads.frames.map Prod.fst
  · cases t.frameHeld p <;> simp [hm]
  · rw [frame_of_not_mem hm] at hs
    rw [← hs]
    cases t.frameHeld p <;> simp [hm, Frame.reset]

/-- A step's end with no interval over and no change of what lies saved changes nothing. -/
theorem closeStep_of_nothing {t : State} (hstall : ∀ p e, ((t.frame p).engine e).stalledSince = none)
    (hstuck : ∀ p, (t.frame p).stuckSince = none ∨ t.frameHeld p = true)
    (hsaved : ∀ p, (∀ v ∈ (t.frame p).savedRods, v.landed = [] ∧ v.drawn = [])
      ∧ ∀ v ∈ (t.frame p).savedTeams, v.slots = []) : t.closeStep = t := by
  have hrod (p : FrameId) (v : SavedRod) (hv : v ∈ (t.frame p).savedRods) : State.bringRodUp p t v = t := by
    obtain ⟨h1, h2⟩ := (hsaved p).1 v hv
    have : v.changes t = [] := by
      unfold SavedRod.changes
      rw [h1, h2]
      rfl
    unfold State.bringRodUp
    rw [this]
    cases v.place <;> rfl
  have hteam (p : FrameId) (v : SavedTeam) (hv : v ∈ (t.frame p).savedTeams) : State.bringTeamUp p t v = t := by
    have : v.changes = [] := by
      unfold SavedTeam.changes
      rw [(hsaved p).2 v hv]
      rfl
    unfold State.bringTeamUp
    rw [this]
    cases v.place <;> rfl
  unfold State.closeStep
  rw [noteHeads_of_no_stall hstall]
  refine foldl_fixed (fun p _ => ?_)
  have hnote : t.noteStuck p = t := by
    unfold State.noteStuck
    rcases hstuck p with h | h <;> simp [h]
  rw [hnote, State.bringImagesUp, foldl_fixed (hrod p), foldl_fixed (hteam p)]

end Sys2Proof.Machine
end

section
namespace Sys2Proof.Machine

/-! ## A step of a machine that has power and is out of recovery -/

section
variable {s : State} {x : Turn} {rest : List Turn} (ha : s.agenda = x :: rest) (hp : s.hub.powered = true)
  (hr : s.hub.recovery = false)
include ha hp hr

/-- The turn that stands first in the agenda acts. -/
theorem step_of_turn : step s = endStep (takeTurn x { s with agenda := rest }) := by
  unfold step State.nextTurn
  simp only [ha, hp, hr, Bool.not_false, Bool.true_or, if_true]

end

theorem issueOne_of_fetch {s s2 : State} {who : Issuer} {r : Rod} {f : Fetched} (hr : s.rod? who.key = some r)
    (hf : s.fetch who.key r (r.lane who.lane).pc = (f, s2)) : issueOne who s = runFetched who f s2 := by
  unfold issueOne
  simp only [hr, hf]

end Sys2Proof.Machine

open Sys2Proof Sys2Proof.Machine

/-- Settles O39: each turn of the agenda unfolds to its operation; an access leaves the comparators alone, so the breakpoint
that the fetch asks for is the one it leaves; and the end of a step reads no more than rods, teams and requests. -/
theorem stepRunsDecodedWord : Obligations.StepRunsDecodedWord := by
  unfold Obligations.StepRunsDecodedWord
  refine ⟨?port, ?firmware, ?turns, ?close, ?fetch, ?select⟩
  case port =>
    intro s s2 p port rest who r f ha hp hr hsel hrod hf
    have h : step s = endStep (runFetched who f s2) := by
      rw [step_of_turn ha hp hr, takeTurn, portTurn]
      simp only [hsel]
      rw [issueOne_of_fetch hrod hf]
    refine ⟨fun i hi => ?_, fun c word addr hi => ?_⟩ <;> rw [h, hi] <;> rfl
  case firmware =>
    intro s s1 s2 p rest r f ha hp hr hs1 hmay hdue hrod hf
    have h : step s = endStep (runFetched { key := fwKey p, lane := 0 } f s2) := by
      rw [step_of_turn ha hp hr, takeTurn, firmwareTurn]
      simp only [← hs1, hmay, hdue, Bool.not_true, Bool.false_eq_true, if_false]
      rw [issueOne_of_fetch (who := { key := fwKey p, lane := 0 }) hrod hf]
    refine ⟨fun i hi => ?_, fun c word addr hi => ?_⟩ <;> rw [h, hi] <;> rfl
  case turns =>
    intro s s1 x rest ha hp hr hs1
    have h : step s = endStep (takeTurn x s1) := by rw [step_of_turn ha hp hr, hs1]
    refine ⟨fun i hx he => ?_, fun p pc hx => ?_, fun p e n k hx => ?_, fun p late hx => ?_, fun p n u hx => ?_,
      fun d n u hx => ?_, fun ns hx => ?_, fun a hx => ?_⟩
    · rw [h, hx, takeTurn, he]
      rfl
    all_goals rw [h, hx, takeTurn]
  case close =>
    intro t
    have hc := closes_closeStep t
    exact ⟨rfl, (headsNoted_noteHeads t).1, (headsNoted_noteHeads t).2, hc.rods, hc.teams, hc.agenda, hc.carry,
      stuckSince_closeStep t, closeStep_of_nothing⟩
  case fetch =>
    intro s s1 s2 k r pc x b hp hr hb w older
    refine ⟨fun hk i hi => ?_, fun hk ho => ?_⟩
    · by_cases hfw : k.slot = .firmware
      · exact fetch_of_decode hp hr (fetchWord_firmware hp hr hfw) hb hi
      · have ho := hk.resolve_left hfw
        refine fetch_of_decode hp hr ?_ hb hi
        rw [fetchWord_rod hp hr hfw, eitherWord_of_none ho]
    · obtain ⟨hm, hs⟩ := eitherWord_of_older ho
      refine ⟨_, _, hm, ?_, fun i hi => fetch_of_decode hp hr (fetchWord_rod hp hr hk) hb hi⟩
      rw [hs]
  case select =>
    intro s p port ready
    refine ⟨?_, ?_, fun who hw => ?_, fun late hp hs => endCycle_of_select hp hs⟩
    · unfold State.select
      cases ho : s.portOpen p port with
      | false => simp
      | true =>
        simp only [if_true, Bool.true_eq_false, false_or]
        exact pick_eq_none
    · unfold State.portOpen
      rintro (h | ⟨rfl, h⟩ | h)
      · simp [h]
      · simp [h]
      · simp [Nat.not_lt.2 h]
    · obtain ⟨hopen, x, hx, hkey, hlane⟩ := select_some hw
      have hport : port < 8 := by
        unfold State.portOpen at hopen
        simp only [Bool.and_eq_true, decide_eq_true_eq] at hopen
        exact lt_of_lt_of_le hopen.1.1.2 (portsOf_le _)
      obtain ⟨hm, hall⟩ := keyedFirst_oldest hx
      obtain ⟨hin, hnext, hlow⟩ := nextInRotation_spec (readyRods_lanes (List.mem_of_mem_filter hm)).2 hlane
      exact ⟨portOpen_markIssued (by rw [hkey]; rfl) hport, x.2, hm, hkey, hin, hall, hnext, hlow⟩

end

section
namespace Sys2Proof.Machine

/-! ## A rod saved in a TKGET whose destination is marked (R57, R274, R293, R298)

An item whose TKGET waits for a token may hold a mark on the destination: the mark of a load that failed, which the token's write
will end. Evicted and reloaded where a token lies in the queue, the item takes it in the reload itself, so it comes back
without the mark it was saved with. -/

/-- The frame. -/
def markedFrame : FrameId := { die := 8, frame := 0 }

/-- The item as saved: blocked in a TKGET on queue 0 into g5, which a failed load has marked. -/
def markedGetter : Lane :=
  { Lane.reset with
    st := .blocked, wait := .tkget 0 5, marked := [{ reg := 5, cause := .poison, addr := 0x1000 }] }

/-- The rod as saved, with that item in its first lane. -/
def markedSaved : SavedRod :=
  { rod := { Rod.reset with launch := 1, fast := 1, lanes := Rod.reset.lanes.set 0 markedGetter }
    contents := [], epoch := 0, parked := [], wrapped := false, place := none, landed := [], drawn := [] }

/-- The rod's team, on the frame, with a token in queue 0. -/
def tokenTeam : Team :=
  { Team.reset with
    launch := 1, rods := 1, started := 1
    queues := (Vector.replicate 16 TokenQueue.reset).set 0 { TokenQueue.reset with tokens := [7] } }

/-- The rod lies saved and asks for its return; nothing else asks for anything. -/
def markedReload : State :=
  { State.reset with
    teams := [({ frame := markedFrame, slot := 0 }, tokenTeam)]
    frames := [(markedFrame, { Frame.reset with
      active := some placedLaunch.bank, savedRods := [markedSaved]
      requests := [{ launch := 1, item0 := 0, kind := .reload 0 0 }] })]
    hub := { Hub.reset with launches := [placedLaunch] } }

/-- The request for the rod's return. -/
def markedRequest : Request := { launch := 1, item0 := 0, kind := .reload 0 0 }

/-- Whether the rod in slot 0 of the frame has no mark in its first lane. -/
def unmarkedAfter (o : Host.Outcome State Fault Refusal) : Bool :=
  match o with
  | .next t => (t.rod? (rodKey markedFrame 0)).any fun q => q.lanes[(0 : Fin 32)].marked.isEmpty
  | _ => false

/-- What the reload clause of REQUEST_SERVE asks of the state, for this rod, holds. -/
theorem markedReload_asks :
    markedReload.oldestRequest markedFrame = some markedRequest
    ∧ (∀ z ∈ (markedReload.frame markedFrame).requests, markedReload.requestLives markedFrame z = true)
    ∧ markedReload.launch? 1 = some placedLaunch := by
  refine ⟨?_, ?_, ?_⟩
  · decide +kernel
  · decide +kernel
  · decide +kernel

theorem markedReload_fits :
    placedLaunch.dead (markedReload.frameTime markedFrame).toNat = false
    ∧ markedReload.placeReads markedFrame markedSaved.place = true
    ∧ (markedReload.frame markedFrame).preempting = none
    ∧ (markedReload.frame markedFrame).savedRod 1 0 0 = some markedSaved
    ∧ (markedReload.freeRodSlot markedFrame) = some 0
    ∧ markedReload.residentTeam markedFrame 1 0 = some ({ frame := markedFrame, slot := 0 }, tokenTeam)
    ∧ markedReload.team? { frame := markedFrame, slot := 0 } = some tokenTeam
    ∧ markedReload.blocksFree markedFrame 0 0 markedSaved.rod.fast markedSaved.rod.slow = true
    ∧ (∀ n ∈ markedSaved.rod.rows, markedReload.rowFree { frame := markedFrame, slot := 0 } n = true) := by
  refine ⟨?_, ?_, ?_, ?_, ?_, ?_, ?_, ?_, ?_⟩
  · decide +kernel
  · decide +kernel
  · decide +kernel
  · rfl
  · decide +kernel
  · rfl
  · rfl
  · decide +kernel
  · decide +kernel

/-- The reload gives the saved TKGET its token, whose write ends the mark. -/
theorem markedReload_unmarked : unmarkedAfter (exec (.requestServe markedFrame) markedReload) = true := by
  decide +kernel

/-- Refutes O54: a reloaded rod need not hold the register marks it was saved with. In `markedReload` the saved item waits in a
TKGET for a token into g5, which a failed load has marked; the team's queue holds a token, so the reload finishes the TKGET,
and the write of g5 ends the mark. -/
theorem not_launchesAndTeams : ¬ Obligations.LaunchesAndTeams := by
  unfold Obligations.LaunchesAndTeams
  rintro ⟨-, serve, -⟩
  obtain ⟨hold, hlive, hl⟩ := markedReload_asks
  obtain ⟨hdead, hplace, hpre, hsaved, hfree, hres, hteam, hblocks, hrows⟩ := markedReload_fits
  obtain ⟨-, -, -, reload, -⟩ := serve markedReload markedFrame markedRequest hold hlive
  obtain ⟨t, q, z, ht, hq, -, -, -, -, -, -, -, -, -, -, lanes, -⟩ :=
    reload 0 0 0 placedLaunch markedSaved _ tokenTeam rfl hl hdead hplace hpre hsaved hfree hres hteam hblocks hrows
  obtain ⟨-, -, -, -, hmarked, -⟩ := lanes 0
  have hnone : q.lanes[(0 : Fin 32)].marked = [] := by
    simpa [unmarkedAfter, ht, hq] using markedReload_unmarked
  exact absurd (hmarked.symm.trans hnone) (by decide)

end Sys2Proof.Machine
end

section
namespace Sys2Proof.Machine

/-! ## Words that change their rod and the generation buffers alone -/

/-- A word that issues freely and makes `q` of its rod and `c` of the buffers: the lanes of `q` part by outcome. -/
theorem issueWord_setRod_carry {i : Instr} {body : Issue → State → State} {s : State} {k : RodKey} {l : Nat} {r q : Rod}
    {c : List (CarryKey × CarryBuf)} (h : IssuesFreely s k l r i)
    (hb : body (mkIssue k r i (r.subRod l)) s = { s.setRod k q with carry := c }) :
    issueWord i body s = .next { s.setRod k (q.regroup (r.subRod l)) with carry := c } := by
  have hq : ({ s.setRod k q with carry := c } : State).rod? k = some q := State.rod?_setRod_same s k q
  rw [issueWord_free h, hb, State.modRod_of_some hq]
  exact congrArg (fun t : State => Host.Outcome.next { t with carry := c }) (State.setRod_setRod s k q _)

theorem State.modRod_withCarry (s : State) (k : RodKey) (g : Rod → Rod) (c : List (CarryKey × CarryBuf)) :
    ({ s with carry := c } : State).modRod k g = { s.modRod k g with carry := c } := by
  unfold State.modRod
  rw [show ({ s with carry := c } : State).rod? k = s.rod? k from rfl]
  split <;> rfl

/-! ## CDONE and VALID (R81, R98) -/

/-- What CDONE leaves of a lane: an enabled one has its slot marked done (R81). -/
def Lane.cdoneStep (x : Lane) (w : RWord) : Lane :=
  if x.guard w.g then { x with cdone := withBit x.cdone (RMod.bits w.mod 8 3) true, pc := x.pc + 8 } else x.advance

/-- What VALID leaves of a lane: an enabled one in phase 1 has its validity decided (R98). -/
def Lane.validStep (x : Lane) (w : RWord) : Lane :=
  if x.guard w.g ∧ x.phase = true then { x with valid := x.pred w.a.toNat, pc := x.pc + 8 } else x.advance

theorem cdoneStep_sameOutcome (x : Lane) (w : RWord) : (x.cdoneStep w).sameOutcome x.advance = true := by
  unfold Lane.cdoneStep
  split <;> exact sameOutcome_refl _

theorem validStep_sameOutcome (x : Lane) (w : RWord) : (x.validStep w).sameOutcome x.advance = true := by
  unfold Lane.validStep
  split <;> exact sameOutcome_refl _

theorem cdoneBody_eq {w : RWord} {s : State} {k : RodKey} {r : Rod} {m : BitVec 32} (hr : s.rod? k = some r) :
    cdoneBody (RMod.bits w.mod 8 3) (mkIssue k r (.cdone w) m) s
      = { s.setRod k (r.mapLanes m (fun _ x => x.cdoneStep w)) with
          carry := (maskLanes (m &&& r.maskWhere (fun x => x.guard w.g))).foldl (fun c n =>
            closeSlots r.launch (r.lane n).item.toNat (1#8 <<< RMod.bits w.mod 8 3) c) s.carry } := by
  unfold cdoneBody
  dsimp only
  rw [List.foldl_map, show (mkIssue k r (.cdone w) m).key = k from rfl, State.modRod_withCarry, State.modRod_of_some hr]
  refine congrArg (fun q => ({ s.setRod k q with carry := List.foldl _ s.carry _ } : State))
    (mapLanes_congr (m := m) (fun n hn => ?_))
  rw [enabled_eq, hn, Bool.true_and, show actsOn (.cdone w) r.lanes[n] = r.lanes[n].guard w.g from rfl, Lane.cdoneStep]
  split <;> rfl

theorem validBody_eq {w : RWord} {s : State} {k : RodKey} {r : Rod} {m : BitVec 32} (hr : s.rod? k = some r) :
    validBody w.a.toNat (mkIssue k r (.valid w) m) s = s.setRod k (r.mapLanes m (fun _ x => x.validStep w)) := by
  unfold validBody
  rw [show (mkIssue k r (.valid w) m).key = k from rfl, State.modRod_of_some hr]
  refine congrArg (s.setRod k) (mapLanes_congr (m := m) (fun n hn => ?_))
  rw [enabled_eq, hn, Bool.true_and, show actsOn (.valid w) r.lanes[n] = r.lanes[n].guard w.g from rfl, Lane.validStep]
  simp only [Bool.and_eq_true]
  split <;> rfl

/-! ## The end of a carry wait (R75, R79) -/

/-- A lane in carry-wait can go on exactly where its sources all have a generation, or its slot takes one. -/
theorem carryAble_iff (s : State) (r : Rod) (x : Lane) : carryAble s r x = true ↔
    (∃ slots, x.wait = .carryRead slots ∧ ∀ n ∈ slots, (carryRead s s.carry r.launch x n).isSome = true)
      ∨ ∃ n, x.wait = .carryWrite n ∧ publishKind s s.carry r.launch x n ≠ .wait := by
  unfold carryAble
  cases x.wait <;> simp

end Sys2Proof.Machine

open Sys2Proof Sys2Proof.Machine

/-- Settles O20: CDONE and VALID leave their sub-rod together, and a carry wait ends exactly where `carryAble` says. -/
theorem carryAndDeadlineWords : Obligations.CarryAndDeadlineWords := by
  refine ⟨fun w s k l r h => ?_, fun w s k l r h => ?_, fun s k r lane hr hst hable => ?_⟩
  · refine (issueWord_setRod_carry h (cdoneBody_eq h.rod)).trans ?_
    rw [regroup_advanced h.2.2 (fun n hn => ?_)]
    · rfl
    · rw [mapLanes_lane, hn, if_pos rfl]
      exact cdoneStep_sameOutcome _ w
  · refine (issueWord_setRod h (validBody_eq h.rod)).trans ?_
    rw [regroup_advanced h.2.2 (fun n hn => ?_)]
    · rfl
    · rw [mapLanes_lane, hn, if_pos rfl]
      exact validStep_sameOutcome _ w
  · show execCarryWaitRelease k lane s = _
    unfold execCarryWaitRelease
    rw [State.modRod_of_some hr, hst, (carryAble_iff s r _).2 hable]
    rfl
end

section
namespace Sys2Proof.Machine

/-! ## What a lane of a word that names carries comes to (R70, R75, R83, R84) -/

/-- What a lane of a word that names carries comes to. -/
inductive LaneEnd where
  | fault (c : Cause)
  /-- Source slots that hold nothing yet. -/
  | lacks (slots : List Nat)
  /-- The destination slot takes no generation now. -/
  | full
  | done (x : Lane) (t : List (CarryKey × CarryBuf))

/-- What lane `x`, number `n`, of a rod comes to with the buffers `t`. -/
def laneEnd (s : State) (r : Rod) (i : Instr) (f : LaneIn → LaneOut) (t : List (CarryKey × CarryBuf)) (n : Nat) (x : Lane) :
    LaneEnd :=
  match laneOperands r x (planOf i) with
  | .error c => .fault c
  | .ok o =>
    if writeHold s t r.launch x o = .fault then .fault .carryMisuse
    else
      match gatherCarries s t r.launch x o.slots with
      | none => .lacks (lacking s t r.launch x o.slots)
      | some got =>
        let out := f (laneIn (keyOf s r) x n o (carryValue got))
        if drawsFault x out.draws then .fault .illegalOperand
        else if writeHold s t r.launch x o = .wait then .full
        else .done (commitLane s r.launch x o got out t).1 (commitLane s r.launch x o got out t).2

section
variable {s : State} {r : Rod} {i : Instr} {f : LaneIn → LaneOut} {t : List (CarryKey × CarryBuf)} {n : Nat} {x : Lane}
  {c : Cause} {o : Operands} {got : List (Nat × CarryRead)}

theorem laneEnd_of_error (h : laneOperands r x (planOf i) = .error c) : laneEnd s r i f t n x = .fault c := by
  rw [laneEnd, h]

theorem laneEnd_of_misuse (ho : laneOperands r x (planOf i) = .ok o) (hw : writeHold s t r.launch x o = .fault) :
    laneEnd s r i f t n x = .fault .carryMisuse := by
  rw [laneEnd, ho]
  exact if_pos hw

theorem laneEnd_of_lacking (ho : laneOperands r x (planOf i) = .ok o) (hw : writeHold s t r.launch x o ≠ .fault)
    (hg : gatherCarries s t r.launch x o.slots = none) :
    laneEnd s r i f t n x = .lacks (lacking s t r.launch x o.slots) := by
  rw [laneEnd, ho]
  dsimp only
  rw [if_neg hw, hg]

section
variable (ho : laneOperands r x (planOf i) = .ok o) (hw : writeHold s t r.launch x o ≠ .fault)
  (hg : gatherCarries s t r.launch x o.slots = some got)
include ho hw hg

theorem laneEnd_of_draws (hd : drawsFault x (f (laneIn (keyOf s r) x n o (carryValue got))).draws = true) :
    laneEnd s r i f t n x = .fault .illegalOperand := by
  rw [laneEnd, ho]
  dsimp only
  rw [if_neg hw, hg]
  exact if_pos hd

theorem laneEnd_of_wait (hd : drawsFault x (f (laneIn (keyOf s r) x n o (carryValue got))).draws = false)
    (hf : writeHold s t r.launch x o = .wait) : laneEnd s r i f t n x = .full := by
  rw [laneEnd, ho]
  dsimp only
  rw [if_neg hw, hg]
  dsimp only
  rw [if_neg (by rw [hd]; exact Bool.false_ne_true), if_pos hf]

theorem laneEnd_of_free (hd : drawsFault x (f (laneIn (keyOf s r) x n o (carryValue got))).draws = false)
    (hf : writeHold s t r.launch x o ≠ .wait) : laneEnd s r i f t n x =
      .done (commitLane s r.launch x o got (f (laneIn (keyOf s r) x n o (carryValue got))) t).1
        (commitLane s r.launch x o got (f (laneIn (keyOf s r) x n o (carryValue got))) t).2 := by
  rw [laneEnd, ho]
  dsimp only
  rw [if_neg hw, hg]
  dsimp only
  rw [if_neg (by rw [hd]; exact Bool.false_ne_true), if_neg hf]

end

/-- Only what the function makes of lane `n`'s own operands matters. -/
theorem laneEnd_congr {g : LaneIn → LaneOut} (h : ∀ y : LaneIn, y.num = n → f y = g y) :
    laneEnd s r i f t n x = laneEnd s r i g t n x := by
  unfold laneEnd
  cases laneOperands r x (planOf i) with
  | error c => rfl
  | ok o =>
    dsimp only
    cases gatherCarries s t r.launch x o.slots with
    | none => rfl
    | some got =>
      dsimp only
      rw [h (laneIn (keyOf s r) x n o (carryValue got)) rfl]

end

/-! ### A pass over the lanes -/

/-- A pass once lane `l` has come to its end. -/
def Pass.after (a : Pass) (s : State) (ripple : Bool) (l : Nat) : LaneEnd → Pass
  | .fault c => a.fault l c
  | .lacks slots => a.wait s ripple l slots
  | .full => { a with writeWait := a.writeWait ++ [l] }
  | .done x t => { a with rod := a.rod.setLane l x, carry := t }

/-- The operands of a lane depend on the registers its rod holds, not on the other lanes. -/
theorem laneOperands_congr {q r : Rod} (hf : q.fast = r.fast) (hs : q.slow = r.slow) (x : Lane) (p : Plan) :
    laneOperands q x p = laneOperands r x p := by
  have h : q.holds = r.holds := by
    funext n
    rw [Rod.holds, Rod.holds, hf, hs]
  unfold laneOperands fieldOperand
  rw [h]

/-- One lane of a pass that is not cut. -/
theorem passLane_eq {s : State} {is : Issue} {f : LaneIn → LaneOut} {ripple : Bool} {l : Nat} {a : Pass} (hc : a.cut = false)
    (hl : a.rod.launch = is.rod.launch) (hf : a.rod.fast = is.rod.fast) (hs : a.rod.slow = is.rod.slow) :
    passLane s is (planOf is.instr) f ripple l a
      = a.after s ripple l (laneEnd s is.rod is.instr f a.carry l (a.rod.lane l)) := by
  unfold passLane laneEnd
  dsimp only
  rw [if_neg (by rw [hc]; exact Bool.false_ne_true), laneOperands_congr hf hs, hl]
  cases laneOperands is.rod (a.rod.lane l) (planOf is.instr) with
  | error c => rfl
  | ok o =>
    dsimp only
    split
    · rfl
    cases gatherCarries s a.carry is.rod.launch (a.rod.lane l) o.slots with
    | none => rfl
    | some got =>
      dsimp only
      split
      · rfl
      split <;> rfl

/-- The carry that a plan's destination names. -/
def Plan.writeSlot (p : Plan) : Nat := if p.dst == .reg then p.vdst.toNat - 248 else 0

/-- What the waiting lanes of a pass hold. -/
def Pass.settled (a : Pass) (p : Plan) (n : Nat) (x : Lane) : Lane :=
  if a.readWait.contains n then { x with st := .carryWait, wait := .carryRead p.slots }
  else if a.writeWait.contains n then { x with st := .carryWait, wait := .carryWrite p.writeSlot }
  else x

/-- The end of a pass that covers every lane of the sub-rod. -/
theorem finishPass_all {is : Issue} {p : Plan} {a : Pass} {s : State} (h : is.enabled = is.active) :
    finishPass is p a s = ({ s.setRod is.key (a.rod.mapLanes is.active (fun n x => a.settled p n.val x)) with
      carry := a.carry }).takeFaults is.key is.word a.fails := by
  unfold finishPass
  refine congrArg (fun q => ({ s.setRod is.key q with carry := a.carry } : State).takeFaults is.key is.word a.fails)
    (mapLanes_congr (fun n hn => ?_))
  rw [h, hn, if_pos rfl]
  rfl

/-- A change that leaves every lane as it is. -/
theorem mapLanes_fixed {r : Rod} {m : BitVec 32} {f : Fin 32 → Lane → Lane}
    (h : ∀ n : Fin 32, m.getLsbD n.val = true → f n r.lanes[n] = r.lanes[n]) : r.mapLanes m f = r := by
  have : Vector.ofFn (fun l : Fin 32 => if m.getLsbD l.val then f l r.lanes[l] else r.lanes[l]) = r.lanes := by
    ext n hn
    rw [Vector.getElem_ofFn]
    split
    · exact h ⟨n, hn⟩ ‹_›
    · rfl
  unfold Rod.mapLanes
  rw [this]

end Sys2Proof.Machine
end

section
namespace Sys2Proof.Machine

/-! ## A word that names carries, on one item -/

theorem getLsbD_one_shiftLeft (l : Nat) (n : Fin 32) : (1#32 <<< l).getLsbD n.val = decide (n.val = l) := by
  have := n.isLt
  rw [Bool.eq_iff_iff]
  simp only [BitVec.getLsbD_shiftLeft, BitVec.getLsbD_one, Bool.and_eq_true, decide_eq_true_eq, Bool.not_eq_true',
    decide_eq_false_iff_not]
  omega

theorem maskLanes_one {l : Nat} (h : l < 32) : maskLanes (1#32 <<< l) = [l] := by
  have : ∀ a : Fin 32, maskLanes (1#32 <<< a.val) = [a.val] := by decide
  exact this ⟨l, h⟩

theorem lowest_one {l : Nat} (h : l < 32) : lowest (1#32 <<< l) = l := by
  have : ∀ a : Fin 32, lowest (1#32 <<< a.val) = a.val := by decide
  exact this ⟨l, h⟩

/-- A sub-rod of one lane cannot part. -/
theorem regroup_single (r : Rod) (l : Nat) : r.regroup (1#32 <<< l) = r := by
  refine regroup_together (fun a b ha hb => ?_)
  rw [getLsbD_one_shiftLeft, decide_eq_true_eq] at ha hb
  rw [Fin.ext (ha.trans hb.symm)]
  exact sameOutcome_refl _

section
variable {s : State} {k : RodKey} {l : Nat} {r : Rod} {i : Instr}

theorem IssuesAlone.lane_lt (h : IssuesAlone s k l r i) : l < 32 := h.1.1.2.2.1

/-- The one lane of the sub-rod is enabled. -/
theorem IssuesAlone.enabled (h : IssuesAlone s k l r i) : (mkIssue k r i (1#32 <<< l)).enabled = 1#32 <<< l := by
  refine BitVec.eq_of_getLsbD_eq (fun n hn => ?_)
  rw [enabled_eq k r i _ ⟨n, hn⟩]
  by_cases hl : n = l
  · subst hl
    have ha := h.2.2.2
    rw [Rod.lane_lt r hn] at ha
    rw [ha, Bool.and_true]
  · rw [getLsbD_one_shiftLeft l ⟨n, hn⟩, decide_eq_false hl, Bool.false_and]

/-- A word that acts for one item of an item's rod. -/
theorem issueWord_alone {p : FrameId} {slot : Nat} {body : Issue → State → State} {t : State}
    (h : IssuesAlone s (rodKey p slot) l r i) (hb : body (mkIssue (rodKey p slot) r i (1#32 <<< l)) s = t) :
    issueWord i body s = .next t := by
  rw [issueWord_free h.1, h.2.2.1, hb]
  exact congrArg Host.Outcome.next (modRod_of_fixed (fun q _ => regroup_single q l))

end

/-- The machine once a word of one item has come to its end. -/
def State.endAlone (s : State) (k : RodKey) (r : Rod) (i : Instr) (l : Nat) : LaneEnd → State
  | .fault c => s.takeFault k (1#32 <<< l) (laneFault c (wordOf i) 0)
  | .lacks _ => s.setRod k (r.mapLanes (1#32 <<< l) (fun _ x =>
      { x with st := .carryWait, wait := .carryRead (planOf i).slots }))
  | .full => s.setRod k (r.mapLanes (1#32 <<< l) (fun _ x =>
      { x with st := .carryWait, wait := .carryWrite (planOf i).writeSlot }))
  | .done x t => { s.setRod k (r.setLane l x) with carry := t }

theorem finishPass_alone {s : State} {k : RodKey} {l : Nat} {r : Rod} {i : Instr} (h : IssuesAlone s k l r i) (ripple : Bool)
    (e : LaneEnd) :
    finishPass (mkIssue k r i (1#32 <<< l)) (planOf i)
      (((mkIssue k r i (1#32 <<< l)).pass s).after s ripple l e) s = s.endAlone k r i l e := by
  have hself : s.setRod k r = s := by
    show { s with rods := tableSet k r s.rods } = s
    rw [tableSet_of_find h.2.1]
  have hlane : ∀ n : Fin 32, (1#32 <<< l).getLsbD n.val = true → n.val = l := fun n hn => by
    rwa [getLsbD_one_shiftLeft, decide_eq_true_eq] at hn
  rw [finishPass_all h.enabled]
  cases e with
  | fault c =>
    rw [mapLanes_fixed (fun n _ => rfl)]
    show (s.setRod k r).takeFaults k (wordOf i) [(l, c, 0)] = _
    rw [hself]
    rfl
  | lacks slots =>
    refine congrArg (s.setRod k) (mapLanes_congr (r := r) (fun n hn => ?_))
    obtain rfl := hlane n hn
    exact if_pos (by simp [Pass.after, Pass.wait, Issue.pass])
  | full =>
    refine congrArg (s.setRod k) (mapLanes_congr (r := r) (fun n hn => ?_))
    obtain rfl := hlane n hn
    rw [Pass.settled, if_neg (by simp [Pass.after, Issue.pass]), if_pos (by simp [Pass.after, Issue.pass])]
  | done x t =>
    rw [mapLanes_fixed (fun n _ => rfl)]
    rfl

/-- What a lane word that names carries does for one item. -/
theorem exec_of_computes_alone {i : Instr} {f : LaneResult} (h : Computes i f) {s : State} {p : FrameId} {slot l : Nat} {r : Rod}
    (hi : IssuesAlone s (rodKey p slot) l r i) (hc : (planOf i).hasCarry = true) :
    exec i s = .next (s.endAlone (rodKey p slot) r i l
      (laneEnd s r i (f s (rodKey p slot) r) s.carry l (r.lane l))) := by
  obtain ⟨F, he, hf⟩ := h
  rw [he]
  refine issueWord_alone hi ?_
  have hF : F s (mkIssue (rodKey p slot) r i (1#32 <<< l)) = f s (rodKey p slot) r :=
    funext (fun x => hf hi.1.check5 s _ r _ x)
  rw [laneBody, show (mkIssue (rodKey p slot) r i (1#32 <<< l)).instr = i from rfl, hc, if_pos rfl, hF, carryPass,
    hi.enabled, maskLanes_one hi.lane_lt, List.foldl_cons, List.foldl_nil, passLane_eq rfl rfl rfl rfl]
  exact finishPass_alone hi _ _

/-- An item that parks, and what it leaves alone. -/
theorem parks_of_takeFault {s : State} {p : FrameId} {slot l : Nat} {r : Rod} {i : Instr} {c : Cause}
    (hr : s.rod? (rodKey p slot) = some r) (hl : l < 32)
    (h : exec i s = .next (s.takeFault (rodKey p slot) (1#32 <<< l) (laneFault c (wordOf i) 0))) :
    ParksLanes s p slot l r i (1#32 <<< l) c (fun _ y => y) := by
  rw [takeFault_rod hr] at h
  refine ⟨_, _, recordOf s (rodKey p slot) r (1#32 <<< l) (laneFault c (wordOf i) 0), h, State.rod?_setRod_same _ _ _, ?_, rfl,
    rfl, ?_, rfl, rfl, rfl, rfl, rfl, rfl, fun n => ?_⟩
  · rw [State.frame_setRod, State.frame_modFrame_same]
  · have h0 : (1#32 <<< l == 0) = false := by
      rw [beq_eq_false_iff_ne]
      intro h0
      have := getLsbD_one_shiftLeft l ⟨l, hl⟩
      simp [h0] at this
    simp only [recordOf, h0, Bool.false_eq_true, if_false, lowest_one hl]
  · rw [park_lane]
    split <;> rfl

theorem writeSlot_of_hold {s : State} {t : List (CarryKey × CarryBuf)} {r : Rod} {x : Lane} {i : Instr} {o : Operands}
    (ho : laneOperands r x (planOf i) = .ok o) (hw : writeHold s t r.launch x o = .wait) :
    (planOf i).writeSlot = (planOf i).vdst.toNat - 248 := by
  unfold writeHold at hw
  split at hw
  · have hd := fieldOperand_carry (dst_of_writeSlot ‹_› ▸ (laneOperands_fields ho).1)
    simp only [Bool.and_eq_true] at hd
    exact if_pos hd.1.1
  · cases hw

/-- A lane that may not write its carry holds its sources: the check of the carry and the wait for the sources do not compete
(R70, R75). -/
def CarriesSettled (s : State) (r : Rod) (i : Instr) (x : Lane) : Prop :=
  ∀ o, laneOperands r x (planOf i) = .ok o → writeHold s s.carry r.launch x o = .fault →
    gatherCarries s s.carry r.launch x o.slots ≠ none

/-- A word whose every issue for one item comes to what its lane comes to acts on carries as on registers. -/
theorem carryWord_of_laneEnd {i : Instr} {f : LaneResult}
    (h : ∀ (s : State) (p : FrameId) (slot l : Nat) (r : Rod), IssuesAlone s (rodKey p slot) l r i →
      (planOf i).hasCarry = true → CarriesSettled s r i (r.lane l) → exec i s = .next (s.endAlone (rodKey p slot) r i l
        (laneEnd s r i (f s (rodKey p slot) r) s.carry l (r.lane l)))) : CarryWord i f := by
  intro s p slot l r k x parks waits hi hc
  have hex := h s p slot l r hi hc
  have hpark : ∀ c, CarriesSettled s r i x → laneEnd s r i (f s k r) s.carry l x = .fault c → parks c := fun c hs he =>
    parks_of_takeFault hi.1.rod hi.lane_lt (by rw [hex hs, he]; rfl)
  refine ⟨fun c ho => hpark c (fun o ho' => ?_) (laneEnd_of_error ho), fun o ho => ?_⟩
  · rw [ho] at ho'
    cases ho'
  have hheld : ∀ {hold}, writeHold s s.carry r.launch x o = hold → hold ≠ .fault → CarriesSettled s r i x :=
    fun hw hne o' ho' hf => absurd (by rwa [Except.ok.inj (ho'.symm.trans ho)] at hf) (hw ▸ hne)
  refine ⟨fun hw hg => ?_, fun got hg => ?_⟩
  · show exec i s = _
    rw [hex (hheld rfl hw), laneEnd_of_lacking ho hw hg]
    rfl
  have hset : CarriesSettled s r i x := fun o' ho' _ => by
    rw [Except.ok.inj (ho'.symm.trans ho), hg]
    exact Option.some_ne_none got
  refine ⟨fun hw => ?_, fun hw hd => ?_, fun hw hd => ?_, fun hw hd => ?_⟩
  · exact hpark _ hset (laneEnd_of_misuse ho hw)
  · exact hpark _ hset (laneEnd_of_draws ho hw hg hd)
  · show exec i s = _
    rw [hex hset, laneEnd_of_wait ho (by rw [hw]; exact nofun) hg hd hw, State.endAlone, writeSlot_of_hold ho hw]
  · have hne : ∀ q, q ≠ .store → q ≠ .discard → writeHold s s.carry r.launch x o ≠ q := fun q h1 h2 e =>
      hw.elim (fun e' => h1 (e.symm.trans e')) (fun e' => h2 (e.symm.trans e'))
    rw [hex hset, laneEnd_of_free ho (hne _ nofun nofun) hg hd (hne _ nofun nofun)]
    rfl

theorem carryWord_of_computes {i : Instr} {f : LaneResult} (h : Computes i f) : CarryWord i f :=
  carryWord_of_laneEnd (fun _ _ _ _ _ hi hc _ => exec_of_computes_alone h hi hc)

end Sys2Proof.Machine
end


section
namespace Sys2Proof.Machine

/-! ## What a lane's commit leaves alone (R71, R73, R76) -/

section
variable {s : State} {launch : Nat} {x : Lane} {t : List (CarryKey × CarryBuf)}

/-- The sources taken change the lane's counts and sticky bits alone. -/
theorem takeCarries_lane (got : List (Nat × CarryRead)) : ∀ (x : Lane) (t : List (CarryKey × CarryBuf)), ∃ rc cb,
    (got.foldl (fun st g => takeCarry s launch g.1 g.2 st) (x, t)).1 = { x with readCount := rc, carryBits := cb } := by
  induction got with
  | nil => exact fun x _ => ⟨x.readCount, x.carryBits, rfl⟩
  | cons g l ih =>
    intro x t
    obtain ⟨rc, cb, h⟩ := ih (takeCarry s launch g.1 g.2 (x, t)).1 (takeCarry s launch g.1 g.2 (x, t)).2
    have hx : (takeCarry s launch g.1 g.2 (x, t)).1
        = { x with readCount := (takeCarry s launch g.1 g.2 (x, t)).1.readCount
                   carryBits := (takeCarry s launch g.1 g.2 (x, t)).1.carryBits } := by
      unfold takeCarry
      dsimp only
      split <;> rfl
    refine ⟨rc, cb, h.trans ?_⟩
    rw [hx]

theorem publish_lane {n : Nat} {v : Word} {kind : Publish} : ∃ wc,
    (publish launch n v kind (x, t)).1 = { x with writeCount := wc } := by
  unfold publish
  dsimp only
  split
  · exact ⟨x.writeCount, rfl⟩
  · exact ⟨_, rfl⟩

/-- A lane that commits completes, its carry counts and sticky bits brought up. -/
theorem commitLane_lane {o : Operands} {got : List (Nat × CarryRead)} {out : LaneOut} : ∃ rc cb wc,
    (commitLane s launch x o got out t).1
      = ({ x with readCount := rc, carryBits := cb, writeCount := wc } : Lane).complete o.dst out := by
  obtain ⟨rc, cb, h⟩ := takeCarries_lane (s := s) (launch := launch) got x t
  unfold commitLane
  dsimp only
  cases o.writeSlot with
  | none => exact ⟨rc, cb, x.writeCount, by rw [h]⟩
  | some n =>
    dsimp only
    obtain ⟨wc, hw⟩ := publish_lane (launch := launch) (n := n) (v := out.write.word)
      (kind := publishKind s (got.foldl (fun st g => takeCarry s launch g.1 g.2 st) (x, t)).2 launch
        (got.foldl (fun st g => takeCarry s launch g.1 g.2 st) (x, t)).1 n)
      (x := (got.foldl (fun st g => takeCarry s launch g.1 g.2 st) (x, t)).1)
      (t := (got.foldl (fun st g => takeCarry s launch g.1 g.2 st) (x, t)).2)
    exact ⟨rc, cb, wc, by rw [hw, h]⟩

theorem complete_sameOutcome (x : Lane) (d : Operand) (out : LaneOut) : (x.complete d out).sameOutcome x.advance = true := by
  obtain ⟨h1, h2, h3, h4⟩ := apply_outcome out.write d x
  exact (sameOutcome_iff _ _).2 ⟨h1, congrArg (· + 8) h2, h3, h4⟩

/-- A lane that commits goes on from where it stood. -/
theorem commitLane_sameOutcome {o : Operands} {got : List (Nat × CarryRead)} {out : LaneOut} :
    (commitLane s launch x o got out t).1.sameOutcome x.advance = true := by
  obtain ⟨rc, cb, wc, h⟩ := commitLane_lane (s := s) (launch := launch) (x := x) (t := t) (o := o) (got := got) (out := out)
  rw [h]
  exact complete_sameOutcome _ _ _

end

end Sys2Proof.Machine
end

section
namespace Sys2Proof.Machine

/-! ## A word that names carries, on two items (R84) -/

/-- The lanes of a pair. -/
abbrev pairMask (a b : Fin 32) : BitVec 32 := (1#32 <<< a.val) ||| (1#32 <<< b.val)

theorem pairMask_getLsbD (a b n : Fin 32) : (pairMask a b).getLsbD n.val = (decide (n = a) || decide (n = b)) := by
  rw [BitVec.getLsbD_or, getLsbD_one_shiftLeft, getLsbD_one_shiftLeft]
  simp only [Fin.ext_iff]

theorem maskLanes_pair {a b : Fin 32} (h : a.val < b.val) : maskLanes (pairMask a b) = [a.val, b.val] := by
  have hs : (maskLanes (pairMask a b)).Pairwise (· < ·) := List.pairwise_lt_range.filter _
  refine hs.eq_of_mem_iff (List.pairwise_pair.2 h) (fun n => ?_)
  rw [mem_maskLanes]
  constructor
  · rintro ⟨hn, hb⟩
    simpa [pairMask_getLsbD a b ⟨n, hn⟩, Fin.ext_iff] using hb
  · intro hn
    have hlt : n < 32 := by
      rcases List.mem_pair.1 hn with e | e <;> rw [e] <;> exact Fin.isLt _
    exact ⟨hlt, by simpa [pairMask_getLsbD a b ⟨n, hlt⟩, Fin.ext_iff] using hn⟩

theorem setLane_getElem (r : Rod) (l : Nat) (x : Lane) (n : Fin 32) :
    (r.setLane l x).lanes[n] = if n.val = l then x else r.lanes[n] := by
  simp [Rod.setLane_lanes]

/-- A change of the lanes of a mask that changes one of them alone. -/
theorem mapLanes_eq_setLane {q : Rod} {m : BitVec 32} {g : Fin 32 → Lane → Lane} {b : Fin 32} {z : Lane}
    (hb : m.getLsbD b.val = true)
    (h : ∀ n : Fin 32, m.getLsbD n.val = true → g n q.lanes[n] = if n.val = b.val then z else q.lanes[n]) :
    q.mapLanes m g = q.setLane b.val z := by
  unfold Rod.mapLanes Rod.setLane
  congr 2
  funext n
  by_cases hn : m.getLsbD n.val = true
  · rw [if_pos hn, h n hn]
  · have hne : n.val ≠ b.val := fun e => hn (by rw [Fin.ext e]; exact hb)
    rw [if_neg hn, if_neg hne]

section
variable {s : State} {k : RodKey} {a b : Fin 32} {r : Rod} {i : Instr}

/-- Both lanes of the pair are enabled. -/
theorem IssuesPair.enabled (h : IssuesPair s k a b r i) : (mkIssue k r i (pairMask a b)).enabled = pairMask a b := by
  obtain ⟨-, -, -, -, ha, hb⟩ := h
  refine BitVec.eq_of_getLsbD_eq (fun n hn => ?_)
  rw [enabled_eq k r i _ ⟨n, hn⟩, pairMask_getLsbD a b ⟨n, hn⟩]
  by_cases h1 : (⟨n, hn⟩ : Fin 32) = a
  · rw [h1, ha, Bool.and_true]
  by_cases h2 : (⟨n, hn⟩ : Fin 32) = b
  · rw [h2, hb, Bool.and_true]
  rw [decide_eq_false h1, decide_eq_false h2]
  rfl

theorem IssuesPair.together (h : IssuesPair s k a b r i) : r.together (pairMask a b) a.val := by
  obtain ⟨hfree, -, -, hm, -⟩ := h
  have ht := hfree.2.2
  rwa [hm] at ht

variable {f : LaneResult} {y : Lane} {t : List (CarryKey × CarryBuf)}

/-- The pass once its first lane is done. -/
def Issue.passed (is : Issue) (s : State) (l : Nat) (y : Lane) (t : List (CarryKey × CarryBuf)) : Pass :=
  { is.pass s with rod := is.rod.setLane l y, carry := t }

theorem pass_done (is : Issue) (s : State) (ripple : Bool) (l : Nat) (y : Lane) (t : List (CarryKey × CarryBuf)) :
    (is.pass s).after s ripple l (.done y t) = is.passed s l y t := rfl

/-- A lane of a pass whose first lane is done. -/
theorem passLane_passed (is : Issue) (s : State) (f : LaneIn → LaneOut) (ripple : Bool) (l n : Nat) (y : Lane)
    (t : List (CarryKey × CarryBuf)) :
    passLane s is (planOf is.instr) f ripple n (is.passed s l y t)
      = (is.passed s l y t).after s ripple n (laneEnd s is.rod is.instr f t n ((is.rod.setLane l y).lane n)) := by
  have hrod : (is.passed s l y t).rod = is.rod.setLane l y := rfl
  rw [passLane_eq rfl (by rw [hrod, Rod.setLane_launch]) (by rw [hrod, Rod.setLane_fast]) (by rw [hrod, Rod.setLane_slow]), hrod]
  rfl

/-- What a lane word that names carries does for two items, the first of which completes: the second comes to its end with what
the first has left. -/
theorem exec_of_computes_pair (h : Computes i f) (hi : IssuesPair s k a b r i) (hc : (planOf i).hasCarry = true)
    (hy : laneEnd s r i (f s k r) s.carry a.val r.lanes[a] = .done y t) : ∃ ripple,
    exec i s = .next ((finishPass (mkIssue k r i (pairMask a b)) (planOf i)
      (((mkIssue k r i (pairMask a b)).passed s a.val y t).after s ripple b.val
        (laneEnd s r i (f s k r) t b.val r.lanes[b])) s).modRod k (fun q => q.regroup (pairMask a b))) := by
  obtain ⟨F, he, hf⟩ := h
  set is := mkIssue k r i (pairMask a b) with his
  have hF : F s is = f s k r := funext (fun x => hf hi.1.check5 s k r _ x)
  have ha : (is.pass s).rod.lane a.val = r.lanes[a] := r.lane_eq a
  have hb : (is.rod.setLane a.val y).lane b.val = r.lanes[b] := by
    rw [Rod.lane_eq, setLane_getElem, if_neg (Nat.ne_of_gt hi.2.2.1)]
    rfl
  refine ⟨ripples s is (planOf i).slots, ?_⟩
  rw [he, issueWord_free hi.1, hi.2.2.2.1]
  refine congrArg (fun u : State => Host.Outcome.next (u.modRod k (fun q => q.regroup (pairMask a b)))) ?_
  rw [← his, laneBody, show is.instr = i from rfl, hc, if_pos rfl, hF, carryPass, hi.enabled, maskLanes_pair hi.2.2.1]
  show finishPass is (planOf i) (passLane s is (planOf is.instr) (f s k r) (ripples s is (planOf i).slots) b.val
    (passLane s is (planOf is.instr) (f s k r) (ripples s is (planOf i).slots) a.val (is.pass s))) s = _
  rw [passLane_eq (l := a.val) rfl rfl rfl rfl, ha]
  rw [show laneEnd s is.rod is.instr (f s k r) (is.pass s).carry a.val r.lanes[a] = .done y t from hy, pass_done,
    passLane_passed, hb]
  rfl

theorem finishPass_pair_done (hi : IssuesPair s k a b r i) (ripple : Bool) (z : Lane) (u : List (CarryKey × CarryBuf)) :
    finishPass (mkIssue k r i (pairMask a b)) (planOf i)
      (((mkIssue k r i (pairMask a b)).passed s a.val y t).after s ripple b.val (.done z u)) s
      = { s.setRod k ((r.setLane a.val y).setLane b.val z) with carry := u } := by
  rw [finishPass_all hi.enabled, mapLanes_fixed (fun n _ => rfl)]
  rfl

theorem finishPass_pair_lacks (hi : IssuesPair s k a b r i) (ripple : Bool) (slots : List Nat) :
    finishPass (mkIssue k r i (pairMask a b)) (planOf i)
      (((mkIssue k r i (pairMask a b)).passed s a.val y t).after s ripple b.val (.lacks slots)) s
      = { s.setRod k ((r.setLane a.val y).setLane b.val
            { r.lanes[b] with st := .carryWait, wait := .carryRead (planOf i).slots }) with carry := t } := by
  rw [finishPass_all hi.enabled]
  refine congrArg (fun q => ({ s.setRod k q with carry := t } : State))
    (mapLanes_eq_setLane (q := r.setLane a.val y) (by simp [mkIssue]) (fun n _ => ?_))
  have hread : (([b.val] : List Nat).contains n.val) = decide (n.val = b.val) := by simp
  rw [Pass.settled, show Pass.readWait _ = [b.val] from rfl, hread, show Pass.writeWait _ = [] from rfl]
  by_cases hn : n.val = b.val
  · rw [decide_eq_true hn, if_pos rfl, if_pos hn, Fin.ext hn, setLane_getElem, if_neg (Nat.ne_of_gt hi.2.2.1)]
  · rw [decide_eq_false hn, if_neg Bool.false_ne_true, if_neg hn]
    rfl

end

/-- On two items a word that computes lane by lane acts in ascending lane order. -/
theorem carryOrder_of_computes {i : Instr} {f : LaneResult} (h : Computes i f) : CarryOrder i f := by
  intro s p slot a b r o o' got k out free first hi hc ho ho' hg hfree
  have hend : ∀ {t : List (CarryKey × CarryBuf)} {n : Fin 32} {o : Operands} {got : List (Nat × CarryRead)},
      laneOperands r r.lanes[n] (planOf i) = .ok o → gatherCarries s t r.launch r.lanes[n] o.slots = some got → free t n o got →
      laneEnd s r i (f s k r) t n.val r.lanes[n] = .done (commitLane s r.launch r.lanes[n] o got (out n o got) t).1
        (commitLane s r.launch r.lanes[n] o got (out n o got) t).2 := by
    intro t n o got ho hg hf
    have hne : ∀ q, q ≠ .store → q ≠ .discard → writeHold s t r.launch r.lanes[n] o ≠ q := fun q h1 h2 e =>
      hf.1.elim (fun e' => h1 (e.symm.trans e')) (fun e' => h2 (e.symm.trans e'))
    exact laneEnd_of_free ho (hne _ nofun nofun) hg hf.2 (hne _ nofun nofun)
  obtain ⟨ripple, hex⟩ := exec_of_computes_pair h hi hc (hend ho hg hfree)
  have hab : a ≠ b := Fin.ne_of_val_ne (Nat.ne_of_lt hi.2.2.1)
  refine ⟨fun got' hg' hfree' => ?_, fun hlack hw => ?_⟩
  · intro second
    rw [hend ho' hg' hfree', finishPass_pair_done hi, State.modRod_withCarry,
      State.modRod_of_some (State.rod?_setRod_same _ _ _), State.setRod_setRod, regroup_advanced hi.together (fun n hn => ?_)]
      at hex
    · exact hex
    rw [pairMask_getLsbD, Bool.or_eq_true, decide_eq_true_eq, decide_eq_true_eq] at hn
    rw [setLane_getElem, setLane_getElem]
    rcases hn with rfl | rfl
    · rw [if_neg (fun e => hab (Fin.ext e)), if_pos rfl]
      exact commitLane_sameOutcome
    · rw [if_pos rfl]
      exact commitLane_sameOutcome
  · rw [laneEnd_of_lacking ho' hw hlack, finishPass_pair_lacks hi, State.modRod_withCarry,
      State.modRod_of_some (State.rod?_setRod_same _ _ _), State.setRod_setRod] at hex
    refine ⟨_, _, hex, State.rod?_setRod_same s k _, rfl, rfl, rfl, ?_, ?_⟩
    · rw [regroup_lane, setLane_getElem, setLane_getElem, if_neg (fun e => hab (Fin.ext e)), if_pos rfl]
    · rw [regroup_lane, setLane_getElem, if_pos rfl]

end Sys2Proof.Machine
end


section
namespace Sys2Proof.Machine

/-! ## Cross-lane words on one item (R84, R248, R249) -/

section
variable {s : State} {k : RodKey} {l : Nat} {r : Rod} {i : Instr}

/-- An item alone is no producer of its own sources. -/
theorem ripples_alone (h : IssuesAlone s k l r i) (slots : List Nat) :
    ripples s (mkIssue k r i (1#32 <<< l)) slots = false := by
  have hlt := h.lane_lt
  unfold ripples
  rw [h.enabled, maskLanes_one hlt, List.any_cons, List.any_nil, Bool.or_false, List.any_eq_false]
  intro n _
  dsimp only
  rw [show (mkIssue k r i (1#32 <<< l)).lost = 0#32 from rfl, BitVec.or_zero]
  generalize ((s.recordOfLaunch (mkIssue k r i (1#32 <<< l)).rod.launch).slot n).1 = d
  by_cases hd : d ≠ 0 ∧ d ≤ l
  · have hne : ¬(l - d = l) := by omega
    rw [getLsbD_one_shiftLeft l ⟨l - d, by omega⟩, decide_eq_false hne, Bool.and_false]
    exact Bool.false_ne_true
  · simp only [Bool.and_eq_true, bne_iff_ne, decide_eq_true_eq]
    exact fun h' => hd h'.1

theorem gatherLane_of_error {is : Issue} {p : Plan} {t : List (CarryKey × CarryBuf)} {c : Cause}
    (h : laneOperands is.rod (is.rod.lane l) p = .error c) : gatherLane s is p t l = .fault c := by
  unfold gatherLane
  dsimp only
  rw [h]

theorem gatherLane_of_ok {is : Issue} {p : Plan} {t : List (CarryKey × CarryBuf)} {o : Operands}
    (h : laneOperands is.rod (is.rod.lane l) p = .ok o) : gatherLane s is p t l =
      match gatherCarries s t is.rod.launch (is.rod.lane l) o.slots with
      | none => .lacks (lacking s t is.rod.launch (is.rod.lane l) o.slots)
      | some got => .ok { ops := o, got := got, input := laneIn (keyOf s is.rod) (is.rod.lane l) l o (carryValue got) } := by
  unfold gatherLane
  dsimp only
  rw [h] <;> rfl

/-- What the first lane to read its operands does to the pass. -/
def Issue.gatherFirst (is : Issue) (s : State) (ripple : Bool) (l : Nat) : Gather → CrossPass
  | .fault c => { pass := (is.pass s).fault l c, took := [] }
  | .lacks n => { pass := (is.pass s).wait s ripple l n, took := [] }
  | .ok g =>
    match writeHold s s.carry is.rod.launch (is.rod.lane l) g.ops with
    | .fault => { pass := (is.pass s).fault l .carryMisuse, took := [] }
    | .wait => { pass := (is.pass s).after s ripple l .full, took := [] }
    | .discard | .store => { pass := is.pass s, took := [(l, g)] }

theorem gatherAll_alone (h : IssuesAlone s k l r i) (ripple : Bool) :
    gatherAll s (mkIssue k r i (1#32 <<< l)) (planOf i) ripple
      = (mkIssue k r i (1#32 <<< l)).gatherFirst s ripple l
          (gatherLane s (mkIssue k r i (1#32 <<< l)) (planOf i) s.carry l) := by
  rw [gatherAll, h.enabled, maskLanes_one h.lane_lt, List.foldl_cons, List.foldl_nil, gatherStep,
    if_neg (show ¬((mkIssue k r i (1#32 <<< l)).pass s).cut = true from Bool.false_ne_true)]
  rfl

/-- The one item that takes part in a cross-lane word comes to the same end as in a word of its own lane. -/
theorem crossPass_alone {F : List (Nat × LaneIn) → LaneIn → LaneOut} (hd : ∀ ps x, (F ps x).draws = 0)
    (h : IssuesAlone s k l r i) (hs : CarriesSettled s r i (r.lane l)) (ripple : Bool) :
    let a := gatherAll s (mkIssue k r i (1#32 <<< l)) (planOf i) ripple
    a.took.foldl (commitCross s F a.inputs) a.pass
      = ((mkIssue k r i (1#32 <<< l)).pass s).after s ripple l
          (laneEnd s r i (fun x => F [(l, x)] x) s.carry l (r.lane l)) := by
  set is := mkIssue k r i (1#32 <<< l) with his
  have hdraw : ∀ x, drawsFault (r.lane l) ((fun x => F [(l, x)] x) x).draws = false := fun x => by
    show drawsFault (r.lane l) (F [(l, x)] x).draws = false
    rw [hd]
    rfl
  rw [gatherAll_alone h, ← his]
  cases ho : laneOperands r (r.lane l) (planOf i) with
  | error c =>
    rw [laneEnd_of_error ho, gatherLane_of_error (is := is) ho]
    rfl
  | ok o =>
    rw [gatherLane_of_ok (is := is) ho]
    have hgot : gatherCarries s s.carry is.rod.launch (is.rod.lane l) o.slots
        = gatherCarries s s.carry r.launch (r.lane l) o.slots := rfl
    rw [hgot]
    cases hc : gatherCarries s s.carry r.launch (r.lane l) o.slots with
    | none =>
      rw [laneEnd_of_lacking ho (fun hw => hs o ho hw hc) hc]
      rfl
    | some got =>
      have hhold : writeHold s s.carry is.rod.launch (is.rod.lane l) o = writeHold s s.carry r.launch (r.lane l) o := rfl
      simp only [Issue.gatherFirst, hhold]
      cases hw : writeHold s s.carry r.launch (r.lane l) o with
      | fault =>
        rw [laneEnd_of_misuse ho hw]
        rfl
      | wait =>
        rw [laneEnd_of_wait (f := fun x => F [(l, x)] x) ho (by rw [hw]; exact nofun) hc (hdraw _) hw]
        rfl
      | discard | store =>
        rw [laneEnd_of_free (f := fun x => F [(l, x)] x) ho (by rw [hw]; exact nofun) hc (hdraw _) (by rw [hw]; exact nofun)]
        rfl

end

/-- A cross-lane word acts on carries, for one item, as the function that its own operand alone makes. -/
theorem carryWord_of_crossOp {i : Instr} {F : List (Nat × LaneIn) → LaneIn → LaneOut} {g : LaneIn → LaneWrite}
    (he : ∀ s, exec i s = crossOp i F s) (hd : ∀ ps x, (F ps x).draws = 0)
    (hw : ∀ x : LaneIn, x.num < 32 → (F [(x.num, x)] x).write = g x) : CarryWord i (gives g) := by
  refine carryWord_of_laneEnd (fun s p slot l r hi hc hs => ?_)
  rw [he, crossOp]
  refine issueWord_alone hi ?_
  have hp : planOf (mkIssue (rodKey p slot) r i (1#32 <<< l)).instr = planOf i := rfl
  have hcirc : circular s (mkIssue (rodKey p slot) r i (1#32 <<< l)) (planOf i) = false := by
    rw [circular, ripples_alone hi, Bool.and_false]
  rw [crossBody, hp]
  dsimp only
  rw [hcirc, if_neg Bool.false_ne_true, crossPass_alone hd hi hs, finishPass_alone hi]
  refine congrArg (s.endAlone (rodKey p slot) r i l) (laneEnd_congr (fun y hy => ?_))
  subst hy
  have h1 := hw y hi.lane_lt
  have h2 := hd [(y.num, y)] y
  generalize F [(y.num, y)] y = out at h1 h2 ⊢
  cases out
  cases h1
  cases h2
  rfl

theorem paggMask_one (x : LaneIn) : paggMask [(x.num, x)] = if x.a != 0 then 1#32 <<< x.num else 0 := by
  refine BitVec.eq_of_getLsbD_eq (fun n hn => ?_)
  have hbit : (paggMask [(x.num, x)]).getLsbD n = (x.num == n && x.a != 0) := by
    simp [paggMask, maskOf, hn]
  rw [hbit]
  cases x.a != 0 with
  | false => simp
  | true =>
    rw [Bool.and_true, if_pos rfl, getLsbD_one_shiftLeft x.num ⟨n, hn⟩]
    rw [Bool.eq_iff_iff, beq_iff_eq, decide_eq_true_eq, eq_comm]

/-- LXCH, PAGG and RRED on one item (R248, R249). -/
theorem aloneResults_carryWord (w : RWord) : ∀ e ∈ aloneResults w, CarryWord e.1 e.2 := by
  simp only [aloneResults, List.forall_mem_cons, List.not_mem_nil, false_imp_iff, implies_true, and_true]
  refine ⟨?_, ?_, ?_⟩
  · refine carryWord_of_crossOp (fun _ => rfl) (fun _ _ => rfl) (fun x _ => congrArg (LaneWrite.value _) ?_)
    unfold lxchFn
    cases lxchSource (RMod.bits w.mod 8 2) x.num (x.b.setWidth 32) with
    | none => rfl
    | some t =>
      unfold tableFind
      dsimp only
      split <;> rfl
  · refine carryWord_of_crossOp (fun _ => rfl) (fun _ _ => rfl) (fun x _ => ?_)
    show paggFn (RMod.bits w.mod 8 3) [(x.num, x)] = _
    generalize RMod.bits w.mod 8 3 = n
    match n with
    | 0 => exact congrArg LaneWrite.reg (paggMask_one x)
    | 1 =>
      refine congrArg LaneWrite.reg ?_
      rw [List.filter_cons, List.filter_nil]
      split <;> rfl
    | 2 => exact congrArg LaneWrite.pred (by rw [List.all_cons, List.all_nil, Bool.and_true])
    | 3 => exact congrArg LaneWrite.pred (by rw [List.any_cons, List.any_nil, Bool.or_false])
    | _ + 4 =>
      refine congrArg LaneWrite.pred ?_
      rw [List.all_cons, List.any_cons, List.all_nil, List.any_nil, Bool.and_true, Bool.or_false, Bool.or_not_self]
  · exact carryWord_of_crossOp (fun _ => rfl) (fun _ _ => rfl) (fun x _ => rfl)

end Sys2Proof.Machine
end

section
namespace Sys2Proof.Machine

/-! ## MOV between a register and a carry (R70, R71, R75) -/

theorem carryRead_eq (s : State) (r : Rod) (x : Lane) (n : Nat) : carryRead s s.carry r.launch x n =
    let l := s.recordOfLaunch r.launch
    let d := (l.slot n).1
    let b := carryBuf s.carry r.launch (x.item.toNat - d) n
    if x.item.toNat < l.base.toNat + d then some { value := (l.slot n).2, sticky := false, consumes := false }
    else if b.gens ≠ [] then some { value := b.gens.headD 0, sticky := false, consumes := true }
    else if b.closed = true ∨ s.wrapped r.launch = true then
      some { value := b.last.getD (l.slot n).2, sticky := true, consumes := false }
    else none := by
  unfold carryRead
  dsimp only
  split
  · rfl
  cases (carryBuf s.carry r.launch (x.item.toNat - ((s.recordOfLaunch r.launch).slot n).1) n).gens with
  | nil => simp
  | cons v l => simp

theorem publishKind_eq (s : State) (r : Rod) (x : Lane) (n : Nat) : publishKind s s.carry r.launch x n =
    if x.phase = true then .discard
    else if x.cdone.getLsbD n = true ∨ (x.writeCount.toList.getD n 0).toNat = 2 ^ 32 - 1 then .fault
    else if itemGone s r.launch (x.item.toNat + ((s.recordOfLaunch r.launch).slot n).1) = true then .discard
    else if 4 ≤ (carryBuf s.carry r.launch x.item.toNat n).gens.length then .wait
    else .store := by
  have hfull : x.writeCount.toList.getD n 0 = 0xFFFFFFFF#32 ↔ (x.writeCount.toList.getD n 0).toNat = 2 ^ 32 - 1 := by
    rw [← BitVec.toNat_inj]
    rfl
  unfold publishKind
  by_cases hd : x.cdone.getLsbD n = true
  · simp only [hd, if_true, true_or]
  · simp only [hd, hfull, false_or, if_false, Bool.false_eq_true]

/-- MOV of single registers, as `planOf` gives it. -/
theorem planOf_mov {w : RWord} (hw : RMod.w w.mod = false) (hd : RMod.indDst w.mod = false) (ha : RMod.indA w.mod = false) :
    planOf (.mov w)
      = { dst := .reg, a := .reg, b := .zero, c := .zero, vdst := w.dst, va := w.a, vb := w.b, vc := w.c, indDst := false
          indA := false, x := RMod.indX w.mod } := by
  have hwide : wide w.mod = .reg := by rw [wide, hw, if_neg Bool.false_ne_true]
  have hs : rShape (.mov w) = some (w, laneShape .reg .reg .zero .zero maskW) := by
    show some (w, laneShape (wide w.mod) (wide w.mod) .zero .zero maskW) = _
    rw [hwide]
  unfold planOf
  rw [hs]
  simp only [laneShape, hd, ha, Bool.and_false]

theorem fieldOperand_held {r : Rod} {x : Lane} {v : BitVec 8} {xi : Nat} (h : v.toNat < 240) (hh : r.holds v.toNat = true) :
    fieldOperand r x .reg v false xi = .ok (.reg v.toNat) := by
  have hc : isCarry v.toNat = false := by
    simp only [isCarry, Bool.and_eq_false_iff, decide_eq_false_iff_not]
    omega
  simp [fieldOperand, hc, hh]

theorem isCarry_slot {n : Nat} (hn : n < 8) : isCarry (248 + n) = true := by
  simp only [isCarry, Bool.and_eq_true, decide_eq_true_eq]
  omega

theorem fieldOperand_slot {r : Rod} {x : Lane} {v : BitVec 8} {xi n : Nat} (hn : n < 8) (h : v.toNat = 248 + n) :
    fieldOperand r x .reg v false xi = .ok (.carry n) := by
  unfold fieldOperand
  dsimp only
  rw [if_neg Bool.false_ne_true, h, if_pos (isCarry_slot hn), Nat.add_sub_cancel_left]

theorem mov_carryWord (w : RWord) : CarryWord (.mov w) (gives (fun x => .value (RMod.w w.mod) x.a)) :=
  carryWord_of_computes (computes_laneOp (fun _ => rfl) (fun _ => rfl))

/-- MOV issues for one item of an item's rod. -/
theorem issuesAlone_mov {w : RWord} {s : State} {p : FrameId} {slot l : Nat} {r : Rod}
    (h : IssuesFreely s (rodKey p slot) l r (.mov w)) (hm : r.subRod l = 1#32 <<< l) (hg : (r.lane l).guard w.g = true) :
    IssuesAlone s (rodKey p slot) l r (.mov w) := ⟨h, h.rod, hm, hg⟩

/-- A single slot's source. -/
theorem gatherCarries_one (s : State) (t : List (CarryKey × CarryBuf)) (launch : Nat) (x : Lane) (n : Nat) :
    gatherCarries s t launch x [n] = (carryRead s t launch x n).map (fun c => [(n, c)]) := by
  unfold gatherCarries
  cases h : carryRead s t launch x n <;> simp [h]

/-- What taking a source leaves of a lane: the read is counted, and its sticky bit set (R71, R79, R80). -/
def Lane.took (x : Lane) (n : Nat) (c : CarryRead) : Lane :=
  { x with
    readCount := Vector.ofFn (fun a => if a.val = n then x.readCount[a] + 1 else x.readCount[a])
    carryBits := if c.sticky then withBit x.carryBits n true else x.carryBits }

/-- What taking a source leaves of the buffers (R71, R73). -/
def carryTaken (s : State) (t : List (CarryKey × CarryBuf)) (launch : Nat) (x : Lane) (n : Nat) (c : CarryRead) :
    List (CarryKey × CarryBuf) :=
  if c.consumes then
    tableSet { launch := launch, item := x.item.toNat - ((s.recordOfLaunch launch).slot n).1, slot := n }
      { carryBuf t launch (x.item.toNat - ((s.recordOfLaunch launch).slot n).1) n with
        gens := (carryBuf t launch (x.item.toNat - ((s.recordOfLaunch launch).slot n).1) n).gens.drop 1 } t
  else t

theorem takeCarry_eq (s : State) (t : List (CarryKey × CarryBuf)) (launch : Nat) (x : Lane) (n : Nat) (c : CarryRead) :
    takeCarry s launch n c (x, t) = (x.took n c, carryTaken s t launch x n c) := by
  unfold takeCarry carryTaken
  dsimp only
  split <;> rfl

theorem took_readCount (x : Lane) (c : CarryRead) {n : Nat} (hn : n < 8) :
    (x.took n c).readCount.toList.getD n 0 = x.readCount.toList.getD n 0 + 1 := by
  have h1 := vector_getD (x.took n c).readCount 0 ⟨n, hn⟩
  have h2 := vector_getD x.readCount 0 ⟨n, hn⟩
  dsimp only at h1 h2
  rw [h1, h2]
  simp [Lane.took]

theorem took_carryBits (x : Lane) (c : CarryRead) {n : Nat} (hn : n < 8) :
    (x.took n c).carryBits.getLsbD n = (x.carryBits.getLsbD n || c.sticky) := by
  unfold Lane.took
  cases c.sticky with
  | false => simp
  | true => simp [withBit, hn]

theorem lane_setLane (r : Rod) {l : Nat} (h : l < 32) (x : Lane) : (r.setLane l x).lane l = x := by
  rw [Rod.lane_lt _ h, setLane_getElem, if_pos rfl]

theorem carryValue_one (n : Nat) (c : CarryRead) : carryValue [(n, c)] n = c.value := by
  simp [carryValue, tableFind]

theorem commitLane_read (s : State) (launch : Nat) (x : Lane) (d n : Nat) (c : CarryRead) (out : LaneOut)
    (t : List (CarryKey × CarryBuf)) :
    commitLane s launch x { dst := .reg d, a := .carry n, b := .none, c := .none } [(n, c)] out t
      = ((x.took n c).complete (.reg d) out, carryTaken s t launch x n c) := by
  unfold commitLane
  rw [List.foldl_cons, List.foldl_nil, takeCarry_eq]
  rfl

theorem commitLane_write (s : State) (launch : Nat) (x : Lane) (m n : Nat) (out : LaneOut) (t : List (CarryKey × CarryBuf)) :
    commitLane s launch x { dst := .carry n, a := .reg m, b := .none, c := .none } [] out t
      = ((publish launch n out.write.word (publishKind s t launch x n) (x, t)).1.complete (.carry n) out,
        (publish launch n out.write.word (publishKind s t launch x n) (x, t)).2) := rfl

theorem extractLsb'_setWidth (v : Word) : (v.setWidth 64).extractLsb' 0 32 = v := by
  apply BitVec.eq_of_toNat_eq
  have h := v.isLt
  simp only [BitVec.extractLsb'_toNat, BitVec.toNat_setWidth, Nat.shiftRight_zero]
  omega

section
variable {w : RWord} {s : State} {p : FrameId} {slot l n : Nat} {r : Rod}
  (hi : IssuesAlone s (rodKey p slot) l r (.mov w)) (hw : RMod.w w.mod = false) (hd : RMod.indDst w.mod = false)
  (ha : RMod.indA w.mod = false) (hn : n < 8)
include hi hw hd ha hn

section
variable (hsrc : w.a.toNat = 248 + n) (hdst : w.dst.toNat < 240) (hheld : r.holds w.dst.toNat = true)
include hsrc hdst hheld

omit hi in
theorem plan_mov_read : (planOf (.mov w)).hasCarry = true ∧ (planOf (.mov w)).slots = [n]
    ∧ laneOperands r (r.lane l) (planOf (.mov w))
      = .ok { dst := .reg w.dst.toNat, a := .carry n, b := .none, c := .none } := by
  rw [planOf_mov hw hd ha]
  refine ⟨by simp [Plan.hasCarry, hsrc, isCarry_slot hn], ?_, ?_⟩
  · simp [Plan.slots, isCarry_slot hn, hsrc, show (FieldUse.zero == FieldUse.reg) = false from rfl]
    rfl
  · unfold laneOperands
    dsimp only
    rw [fieldOperand_held hdst hheld]
    dsimp only
    rw [fieldOperand_slot hn hsrc]
    rfl

/-- MOV of a carry to a register completes with what it reads. -/
theorem exec_mov_read {c : CarryRead} (hc : carryRead s s.carry r.launch (r.lane l) n = some c) :
    exec (.mov w) s = .next { s.setRod (rodKey p slot) (r.setLane l
        (((r.lane l).took n c).complete (.reg w.dst.toNat) (.of (.value false (c.value.setWidth 64))))) with
      carry := carryTaken s s.carry r.launch (r.lane l) n c } := by
  obtain ⟨hcarry, -, ho⟩ := plan_mov_read hw hd ha hn hsrc hdst hheld
  have hg : gatherCarries s s.carry r.launch (r.lane l) [n] = some [(n, c)] := by rw [gatherCarries_one, hc]; rfl
  obtain ⟨-, hok⟩ := mov_carryWord w s p slot l r hi hcarry
  obtain ⟨-, -, -, hfree⟩ := (hok _ ho).2 _ hg
  have hex := hfree (.inl rfl) rfl
  rw [commitLane_read] at hex
  refine hex.trans ?_
  have hv : (laneIn (keyOf s r) (r.lane l) l { dst := .reg w.dst.toNat, a := .carry n, b := .none, c := .none }
      (carryValue [(n, c)])).a = c.value.setWidth 64 := by
    show (carryValue [(n, c)] n).setWidth 64 = _
    rw [carryValue_one]
  simp only [gives, hv, hw]
  rfl

/-- MOV of a carry that holds nothing yet waits at the word. -/
theorem exec_mov_lacks (hc : carryRead s s.carry r.launch (r.lane l) n = none) :
    exec (.mov w) s = .next (s.setRod (rodKey p slot) (r.mapLanes (1#32 <<< l) (fun _ y =>
      { y with st := .carryWait, wait := .carryRead [n] }))) := by
  obtain ⟨hcarry, hslots, ho⟩ := plan_mov_read hw hd ha hn hsrc hdst hheld
  have hg : gatherCarries s s.carry r.launch (r.lane l) [n] = none := by rw [gatherCarries_one, hc]; rfl
  obtain ⟨-, hok⟩ := mov_carryWord w s p slot l r hi hcarry
  have hex := (hok _ ho).1 nofun hg
  rwa [hslots] at hex

end

section
variable (hsrc : w.a.toNat < 240) (hdst : w.dst.toNat = 248 + n) (hheld : r.holds w.a.toNat = true)
include hsrc hdst hheld

omit hi in
theorem plan_mov_write : (planOf (.mov w)).hasCarry = true ∧ (planOf (.mov w)).vdst = w.dst
    ∧ laneOperands r (r.lane l) (planOf (.mov w))
      = .ok { dst := .carry n, a := .reg w.a.toNat, b := .none, c := .none } := by
  rw [planOf_mov hw hd ha]
  refine ⟨by simp [Plan.hasCarry, hdst, isCarry_slot hn], rfl, ?_⟩
  unfold laneOperands
  dsimp only
  rw [fieldOperand_slot hn hdst]
  dsimp only
  rw [fieldOperand_held hsrc hheld]
  rfl

/-- MOV of a register to a carry completes where the slot takes its generation, or drops it. -/
theorem exec_mov_write (hk : publishKind s s.carry r.launch (r.lane l) n = .store
      ∨ publishKind s s.carry r.launch (r.lane l) n = .discard) :
    exec (.mov w) s = .next { s.setRod (rodKey p slot) (r.setLane l
        ((publish r.launch n ((r.lane l).reg w.a.toNat) (publishKind s s.carry r.launch (r.lane l) n) (r.lane l, s.carry)).1.complete
          (.carry n) (.of (.value false (((r.lane l).reg w.a.toNat).setWidth 64))))) with
      carry := (publish r.launch n ((r.lane l).reg w.a.toNat) (publishKind s s.carry r.launch (r.lane l) n)
        (r.lane l, s.carry)).2 } := by
  obtain ⟨hcarry, -, ho⟩ := plan_mov_write hw hd ha hn hsrc hdst hheld
  obtain ⟨-, hok⟩ := mov_carryWord w s p slot l r hi hcarry
  obtain ⟨-, -, -, hfree⟩ := (hok _ ho).2 [] rfl
  have hex := hfree hk rfl
  rw [commitLane_write] at hex
  refine hex.trans ?_
  have hv : (laneIn (keyOf s r) (r.lane l) l { dst := .carry n, a := .reg w.a.toNat, b := .none, c := .none }
      (carryValue [])).a = ((r.lane l).reg w.a.toNat).setWidth 64 := rfl
  have hword : (LaneWrite.value false (((r.lane l).reg w.a.toNat).setWidth 64)).word = (r.lane l).reg w.a.toNat :=
    extractLsb'_setWidth _
  simp only [gives, hv, hw, hword]
  rfl

/-- MOV of a register to a carry with four unread generations waits at the word. -/
theorem exec_mov_full (hk : publishKind s s.carry r.launch (r.lane l) n = .wait) :
    exec (.mov w) s = .next (s.setRod (rodKey p slot) (r.mapLanes (1#32 <<< l) (fun _ y =>
      { y with st := .carryWait, wait := .carryWrite n }))) := by
  obtain ⟨hcarry, hv, ho⟩ := plan_mov_write hw hd ha hn hsrc hdst hheld
  obtain ⟨-, hok⟩ := mov_carryWord w s p slot l r hi hcarry
  obtain ⟨-, -, hfull, -⟩ := (hok _ ho).2 [] rfl
  have hex := hfull hk rfl
  rwa [hv, hdst, Nat.add_sub_cancel_left] at hex

end
end

/-- What MOV of a carry to register `d` leaves of its lane. -/
def Lane.movedRead (x : Lane) (d n : Nat) (c : CarryRead) : Lane :=
  { (((x.took n c).setReg d c.value).unmark [d]).advance with rsCount := x.rsCount + 0 }

theorem complete_took (x : Lane) (d n : Nat) (c : CarryRead) :
    (x.took n c).complete (.reg d) (.of (.value false (c.value.setWidth 64))) = x.movedRead d n c := by
  have h : ∀ (y : Lane) (v : DWord), y.complete (.reg d) (.of (.value false v))
      = { ((y.setReg d (v.extractLsb' 0 32)).unmark [d]).advance with rsCount := y.rsCount + 0 } := fun _ _ => rfl
  rw [h, extractLsb'_setWidth]
  rfl

@[simp] theorem movedRead_pc (x : Lane) (d n : Nat) (c : CarryRead) : (x.movedRead d n c).pc = x.pc + 8 := rfl

@[simp] theorem movedRead_st (x : Lane) (d n : Nat) (c : CarryRead) : (x.movedRead d n c).st = x.st := rfl

@[simp] theorem movedRead_preds (x : Lane) (d n : Nat) (c : CarryRead) : (x.movedRead d n c).preds = x.preds := rfl

@[simp] theorem movedRead_xregs (x : Lane) (d n : Nat) (c : CarryRead) : (x.movedRead d n c).xregs = x.xregs := rfl

@[simp] theorem movedRead_writeCount (x : Lane) (d n : Nat) (c : CarryRead) : (x.movedRead d n c).writeCount = x.writeCount := rfl

theorem movedRead_readCount (x : Lane) (d : Nat) (c : CarryRead) {n : Nat} (hn : n < 8) :
    (x.movedRead d n c).readCount.toList.getD n 0 = x.readCount.toList.getD n 0 + 1 := took_readCount x c hn

theorem movedRead_carryBits (x : Lane) (d : Nat) (c : CarryRead) {n : Nat} (hn : n < 8) :
    (x.movedRead d n c).carryBits.getLsbD n = (x.carryBits.getLsbD n || c.sticky) := took_carryBits x c hn

theorem movedRead_reg_same (x : Lane) (d n : Nat) (c : CarryRead) : (x.movedRead d n c).reg d = c.value :=
  cellGet_cellSet_same ..

theorem movedRead_reg_ne (x : Lane) (n : Nat) (c : CarryRead) {d g : Nat} (h : g ≠ d) :
    (x.movedRead d n c).reg g = x.reg g := cellGet_cellSet_ne _ h _

/-- A lane whose write of slot `n` is counted (R70). -/
def Lane.published (x : Lane) (n : Nat) : Lane :=
  { x with writeCount := Vector.ofFn (fun a => if a.val = n then x.writeCount[a] + 1 else x.writeCount[a]) }

theorem publish_started {x : Lane} (hp : x.phase = false) (launch n : Nat) (v : Word) (kind : Publish)
    (t : List (CarryKey × CarryBuf)) : publish launch n v kind (x, t) =
      (x.published n, tableSet { launch := launch, item := x.item.toNat, slot := n }
        { carryBuf t launch x.item.toNat n with
          last := some v
          gens := if kind = .store then (carryBuf t launch x.item.toNat n).gens ++ [v]
            else (carryBuf t launch x.item.toNat n).gens } t) := by
  unfold publish
  dsimp only
  rw [if_neg (show ¬ x.phase = true by rw [hp]; exact Bool.false_ne_true)]
  rfl

/-- MOV to a carry writes nothing but the carry. -/
theorem complete_published {x : Lane} (hm : x.marked = []) (n : Nat) (o : DWord) :
    (x.published n).complete (.carry n) (.of (.value false o)) = { x.published n with pc := x.pc + 8 } := by
  rw [complete_quiet (x := x.published n) hm]
  exact congrArg (fun a => { x.published n with pc := x.pc + 8, rsCount := a }) (BitVec.add_zero x.rsCount)

theorem IssuesFreely.lane_marked {s : State} {k : RodKey} {l : Nat} {r : Rod} {i : Instr} (h : IssuesFreely s k l r i) :
    (r.lane l).marked = [] := by
  obtain ⟨⟨-, -, hl, -⟩, hq, -⟩ := id h
  rw [Rod.lane_lt r hl]
  exact (hq ⟨l, hl⟩ h.mem_subRod).2.1

end Sys2Proof.Machine

open Sys2Proof Sys2Proof.Machine

/-- Settles O21: what a read gives is `carryRead` written out; MOV is the lane word `carryWord_of_computes` speaks of, taken at
one slot; the lane words are those the tables of Safety compute lane by lane, and the cross-lane ones are their own. -/
theorem carryReads : Obligations.CarryReads := by
  refine ⟨carryRead_eq, fun w s p slot l n r c hf hm hg hw hd ha hn hsrc hdst hheld => ?_,
    fun w e he => ⟨carryWord_of_computes (laneResults_computes w e he), carryOrder_of_computes (laneResults_computes w e he)⟩,
    fun w e he => ⟨carryWord_of_computes (immediateResults_computes w e he),
      carryOrder_of_computes (immediateResults_computes w e he)⟩, aloneResults_carryWord⟩
  have hi := issuesAlone_mov hf hm hg
  obtain ⟨⟨-, -, hl, hst, -⟩, -⟩ := hf
  refine ⟨fun hc => ?_, fun hc => exec_mov_lacks hi hw hd ha hn hsrc hdst hheld hc⟩
  have hex := exec_mov_read hi hw hd ha hn hsrc hdst hheld hc
  rw [complete_took] at hex
  refine ⟨_, r.setLane l ((r.lane l).movedRead w.dst.toNat n c), hex, rfl,
    fun a ha => by rw [setLane_getElem, if_neg ha], ?_⟩
  rw [lane_setLane r hl]
  exact ⟨movedRead_pc .., (movedRead_st ..).trans hst, movedRead_reg_same .., fun g hg => movedRead_reg_ne _ n c hg,
    movedRead_preds .., movedRead_xregs .., movedRead_writeCount .., movedRead_readCount _ _ c hn,
    movedRead_carryBits _ _ c hn, by rw [carryTaken]⟩

/-- Settles O22: what a write does is `publishKind` written out, and MOV follows it. -/
theorem carryWrites : Obligations.CarryWrites := by
  refine ⟨publishKind_eq, fun w s p slot l n r hf hm hg hw hd ha hn hdst hsrc hheld hp => ?_⟩
  have hi := issuesAlone_mov hf hm hg
  refine ⟨fun hk => ?_, fun hk => exec_mov_full hi hw hd ha hn hsrc hdst hheld hk⟩
  have hex := exec_mov_write hi hw hd ha hn hsrc hdst hheld hk
  rw [publish_started hp, complete_published hf.lane_marked] at hex
  exact hex

end
section
namespace Sys2Proof.Machine

/-! ## What fades when a launch ends (R93, R94, R99, R456)

Wrap-up and kill take things away frame by frame, and let joins, barriers, rows and tokens settle as they go. One relation says
what none of these steps undoes: requests, saved rods and rods only leave, records stay withdrawn, a rod keeps its items, an
entry that comes to a queue was pending in a join of its team. With `kill`, items may retire too, recorded as killed. -/

/-- The item is among those the launch records as killed, if the launch is there. -/
def Hub.recordsKilled (h : Hub) (launch : Nat) (item : DWord) : Prop :=
  ∀ l, h.launches.find? (fun l => l.seq == launch) = some l → (item.toNat, .killed) ∈ l.outcomes

/-- A launch keeps what it has taken, and every outcome it has recorded. -/
structure Launch.Keeps (l m : Launch) : Prop where
  seq : m.seq = l.seq
  wrapped : m.wrapped = l.wrapped
  killed : m.killed = l.killed
  killAll : m.killAll = l.killAll
  outcomes : ∀ o ∈ l.outcomes, o ∈ m.outcomes

/-- A lane keeps its item, its phase, and its life. -/
structure Lane.Keeps (x y : Lane) : Prop where
  item : y.item = x.item
  phase : y.phase = x.phase
  live : y.live = x.live

/-- A rod keeps its place in its team and its items; it may come to owe its divert. -/
structure Rod.Keeps (r q : Rod) : Prop where
  launch : q.launch = r.launch
  team : q.team = r.team
  rod : q.rod = r.rod
  divert : q.divert = r.divert ∨ q.divert = q.owesDivert
  lane : ∀ n : Fin 32, r.lanes[n].Keeps q.lanes[n]

/-- As `Rod.Keeps`, or items retire that their launch records as killed. -/
structure Rod.Fades (kill : Prop) (h : Hub) (r q : Rod) : Prop where
  launch : q.launch = r.launch
  divert : kill ∨ q.divert = r.divert ∨ q.divert = q.owesDivert
  lane : ∀ n : Fin 32, r.lanes[n].Keeps q.lanes[n]
    ∨ kill ∧ q.lanes[n].item = r.lanes[n].item ∧ q.lanes[n].live = false ∧ h.recordsKilled r.launch r.lanes[n].item

/-- A team keeps its launch, and no join of it comes to have something pending. -/
structure Team.Keeps (t u : Team) : Prop where
  launch : u.launch = t.launch
  pending : ∀ j : Fin 16, t.joins[j].pending = [] → u.joins[j].pending = []

/-- A record that asks for nothing more. -/
def Record.ended (x : Record) : Prop := x.withdrawn = true ∨ x.resolved = true

/-- Requests, records and saved rods only leave, and records only end. -/
structure Frame.Fades (f g : Frame) : Prop where
  requests : ∀ y ∈ g.requests, y ∈ f.requests
  records : ∀ x ∈ g.records, ∃ y ∈ f.records, y.launch = x.launch ∧ (y.ended → x.ended)
  saved : ∀ v ∈ g.savedRods, ∃ u ∈ f.savedRods, u.rod.launch = v.rod.launch ∧ u.rod.team = v.rod.team ∧ u.rod.rod = v.rod.rod

/-- A join of the launch on the frame has something pending: what may still put an entry into a queue there (R60). -/
def State.stillJoins (s : State) (p : FrameId) (launch : Nat) : Prop :=
  ∃ n y, s.team? { frame := p, slot := n } = some y ∧ y.launch = launch ∧ ∃ j : Fin 16, y.joins[j].pending ≠ []

/-- What the steps of a launch's end do not undo. -/
structure State.Fades (kill : Prop) (s t : State) : Prop where
  mem : t.mem = s.mem
  launch : ∀ n l, s.launch? n = some l → ∃ m, t.launch? n = some m ∧ l.Keeps m
  noLaunch : ∀ n, s.launch? n = none → t.launch? n = none
  rod : ∀ p n r, s.rod? (rodKey p n) = some r → (∃ q, t.rod? (rodKey p n) = some q ∧ r.Fades kill t.hub q)
    ∨ kill ∧ t.rod? (rodKey p n) = none ∧ ∀ k : Fin 32, r.lanes[k].live = true → t.hub.recordsKilled r.launch r.lanes[k].item
  noRod : ∀ p n, s.rod? (rodKey p n) = none → t.rod? (rodKey p n) = none
  team : ∀ tk u, t.team? tk = some u → ∃ y, s.team? tk = some y ∧ y.Keeps u
  frame : ∀ p, (s.frame p).Fades (t.frame p)
  entry : ∀ p e, ∀ x ∈ ((t.frame p).engine e).entries, x ∈ ((s.frame p).engine e).entries ∨ s.stillJoins p x.launch

theorem Launch.keeps_refl (l : Launch) : l.Keeps l := ⟨rfl, rfl, rfl, rfl, fun _ h => h⟩

theorem Launch.keeps_trans {l m n : Launch} (h : l.Keeps m) (g : m.Keeps n) : l.Keeps n :=
  ⟨g.seq.trans h.seq, g.wrapped.trans h.wrapped, g.killed.trans h.killed, g.killAll.trans h.killAll,
    fun o ho => g.outcomes o (h.outcomes o ho)⟩

theorem Lane.keeps_refl (x : Lane) : x.Keeps x := ⟨rfl, rfl, rfl⟩

theorem Lane.keeps_trans {x y z : Lane} (h : x.Keeps y) (g : y.Keeps z) : x.Keeps z :=
  ⟨g.item.trans h.item, g.phase.trans h.phase, g.live.trans h.live⟩

theorem Rod.owesDivert_congr {r q : Rod} (h : ∀ n : Fin 32, r.lanes[n].Keeps q.lanes[n]) : q.owesDivert = r.owesDivert := by
  unfold Rod.owesDivert
  congr 1
  funext n
  rw [(h n).live, (h n).phase]

theorem Rod.keeps_refl (r : Rod) : r.Keeps r := ⟨rfl, rfl, rfl, .inl rfl, fun _ => Lane.keeps_refl _⟩

/-- Where the lanes stay as they are, a divert that was owed by the lanes still is. -/
theorem divert_trans {r q p : Rod} (hl : ∀ n : Fin 32, q.lanes[n].Keeps p.lanes[n])
    (h : q.divert = r.divert ∨ q.divert = q.owesDivert) (g : p.divert = q.divert ∨ p.divert = p.owesDivert) :
    p.divert = r.divert ∨ p.divert = p.owesDivert := by
  rcases g with g | g
  · rw [g, Rod.owesDivert_congr hl]
    exact h
  · exact .inr g

theorem Rod.keeps_trans {r q p : Rod} (h : r.Keeps q) (g : q.Keeps p) : r.Keeps p :=
  ⟨g.launch.trans h.launch, g.team.trans h.team, g.rod.trans h.rod, divert_trans g.lane h.divert g.divert,
    fun n => Lane.keeps_trans (h.lane n) (g.lane n)⟩

theorem Rod.Keeps.fades {r q : Rod} (hk : r.Keeps q) (kill : Prop) (h : Hub) : r.Fades kill h q :=
  ⟨hk.launch, .inr hk.divert, fun n => .inl (hk.lane n)⟩

theorem Team.keeps_refl (t : Team) : t.Keeps t := ⟨rfl, fun _ h => h⟩

theorem Team.keeps_trans {t u v : Team} (h : t.Keeps u) (g : u.Keeps v) : t.Keeps v :=
  ⟨g.launch.trans h.launch, fun j hj => g.pending j (h.pending j hj)⟩

theorem Frame.fades_refl (f : Frame) : f.Fades f :=
  ⟨fun _ h => h, fun x h => ⟨x, h, rfl, id⟩, fun v h => ⟨v, h, rfl, rfl, rfl⟩⟩

theorem Frame.fades_trans {f g h : Frame} (a : f.Fades g) (b : g.Fades h) : f.Fades h := by
  refine ⟨fun y hy => a.requests y (b.requests y hy), fun x hx => ?_, fun v hv => ?_⟩
  · obtain ⟨y, hy, hl, he⟩ := b.records x hx
    obtain ⟨z, hz, hl', he'⟩ := a.records y hy
    exact ⟨z, hz, hl'.trans hl, fun h => he (he' h)⟩
  · obtain ⟨u, hu, h1, h2, h3⟩ := b.saved v hv
    obtain ⟨w, hw, g1, g2, g3⟩ := a.saved u hu
    exact ⟨w, hw, g1.trans h1, g2.trans h2, g3.trans h3⟩

theorem State.fades_refl (kill : Prop) (s : State) : s.Fades kill s :=
  ⟨rfl, fun _ l h => ⟨l, h, l.keeps_refl⟩, fun _ h => h, fun _ _ r h => .inl ⟨r, h, r.keeps_refl.fades kill _⟩, fun _ _ h => h,
    fun _ u h => ⟨u, h, u.keeps_refl⟩, fun p => (s.frame p).fades_refl, fun _ _ _ h => .inl h⟩

section
variable {kill : Prop} {s t u : State}

/-- What is recorded stays recorded. -/
theorem State.Fades.recordsKilled (h : s.Fades kill t) {launch : Nat} {item : DWord} (hs : s.hub.recordsKilled launch item) :
    t.hub.recordsKilled launch item := by
  intro m (hm : t.launch? launch = some m)
  cases hl : s.launch? launch with
  | none => rw [h.noLaunch launch hl] at hm; cases hm
  | some l =>
    obtain ⟨m', hm', hk⟩ := h.launch launch l hl
    obtain rfl : m' = m := Option.some.inj (hm'.symm.trans hm)
    exact hk.outcomes _ (hs l hl)

theorem Rod.fades_trans {r q p : Rod} (hg : t.Fades kill u) (h : r.Fades kill t.hub q) (g : q.Fades kill u.hub p) :
    r.Fades kill u.hub p := by
  refine ⟨g.launch.trans h.launch, ?_, fun n => ?_⟩
  · by_cases hk : kill
    · exact .inl hk
    · exact .inr (divert_trans (fun n => (g.lane n).resolve_right (fun x => hk x.1)) (h.divert.resolve_left hk)
        (g.divert.resolve_left hk))
  · rcases h.lane n with h1 | ⟨hk, hi, hl, hr⟩
    · rcases g.lane n with g1 | ⟨hk, gi, gl, gr⟩
      · exact .inl (Lane.keeps_trans h1 g1)
      · rw [h.launch, h1.item] at gr
        exact .inr ⟨hk, gi.trans h1.item, gl, gr⟩
    · rcases g.lane n with g1 | ⟨-, gi, gl, -⟩
      · exact .inr ⟨hk, g1.item.trans hi, g1.live.trans hl, hg.recordsKilled hr⟩
      · exact .inr ⟨hk, gi.trans hi, gl, hg.recordsKilled hr⟩

/-- An item that was live is so still, or is recorded. -/
theorem Rod.Fades.live {r q : Rod} {x : Hub} (h : r.Fades kill x q) {n : Fin 32} (hl : r.lanes[n].live = true) :
    q.lanes[n].live = true ∧ q.lanes[n].item = r.lanes[n].item ∨ kill ∧ x.recordsKilled r.launch r.lanes[n].item := by
  rcases h.lane n with h1 | ⟨hk, -, -, hr⟩
  · exact .inl ⟨h1.live.trans hl, h1.item⟩
  · exact .inr ⟨hk, hr⟩

theorem State.stillJoins_back (h : s.Fades kill t) {p : FrameId} {n : Nat} (hj : t.stillJoins p n) : s.stillJoins p n := by
  obtain ⟨slot, y, hy, hl, j, hp⟩ := hj
  obtain ⟨z, hz, hk⟩ := h.team _ y hy
  exact ⟨slot, z, hz, hk.launch.symm.trans hl, j, fun h0 => hp (hk.pending j h0)⟩

theorem State.fades_trans (h : s.Fades kill t) (g : t.Fades kill u) : s.Fades kill u := by
  refine ⟨g.mem.trans h.mem, fun n l hl => ?_, fun n hn => g.noLaunch n (h.noLaunch n hn), fun p n r hr => ?_,
    fun p n hn => g.noRod p n (h.noRod p n hn), fun tk v hv => ?_, fun p => Frame.fades_trans (h.frame p) (g.frame p),
    fun p e x hx => ?_⟩
  · obtain ⟨m, hm, h1⟩ := h.launch n l hl
    obtain ⟨m', hm', h2⟩ := g.launch n m hm
    exact ⟨m', hm', Launch.keeps_trans h1 h2⟩
  · rcases h.rod p n r hr with ⟨q, hq, h1⟩ | ⟨hk, hnone, hrec⟩
    · rcases g.rod p n q hq with ⟨q', hq', h2⟩ | ⟨hk, hnone, hrec⟩
      · exact .inl ⟨q', hq', Rod.fades_trans g h1 h2⟩
      · refine .inr ⟨hk, hnone, fun k hl => ?_⟩
        rcases h1.live hl with ⟨hl', hi⟩ | ⟨-, hr'⟩
        · have := hrec k hl'
          rwa [h1.launch, hi] at this
        · exact g.recordsKilled hr'
    · exact .inr ⟨hk, g.noRod p n hnone, fun k hl => g.recordsKilled (hrec k hl)⟩
  · obtain ⟨y, hy, h2⟩ := g.team tk v hv
    obtain ⟨z, hz, h1⟩ := h.team tk y hy
    exact ⟨z, hz, Team.keeps_trans h1 h2⟩
  · rcases g.entry p e x hx with hx | hj
    · exact h.entry p e x hx
    · exact .inr (State.stillJoins_back h hj)

theorem State.fades_foldl {α : Type} {f : State → α → State} (h : ∀ (s : State) a, s.Fades kill (f s a)) (l : List α)
    (s : State) : s.Fades kill (l.foldl f s) :=
  foldl_keeps (State.fades_refl kill) (fun _ _ _ => State.fades_trans) h l s

end

theorem Frame.fades_of_eq {f g : Frame} (hr : g.requests = f.requests) (hc : g.records = f.records)
    (hs : g.savedRods = f.savedRods) : f.Fades g :=
  ⟨fun _ hy => hr ▸ hy, fun x hx => ⟨x, hc ▸ hx, rfl, id⟩, fun v hv => ⟨v, hs ▸ hv, rfl, rfl, rfl⟩⟩

theorem Frame.engine_setEngine (f : Frame) (e d : EngineId) (x : Engine) :
    (f.setEngine e x).engine d = if d = e then x else f.engine d := by
  cases e <;> cases d <;> rfl

theorem Frame.setEngine_fades (f : Frame) (e : EngineId) (x : Engine) : f.Fades (f.setEngine e x) := by
  cases e <;> exact Frame.fades_of_eq rfl rfl rfl

/-! ### Changes of one place that fade -/

section
variable {kill : Prop} (s : State)

theorem State.launch?_modLaunch {g : Launch → Launch} (hg : ∀ l, (g l).seq = l.seq) (seq n : Nat) :
    (s.modLaunch seq g).launch? n = (s.launch? n).map (fun l => if l.seq = seq then g l else l) := by
  have h : ∀ l : List Launch, (l.map (fun l => if l.seq == seq then g l else l)).find? (fun l => l.seq == n)
      = (l.find? (fun l => l.seq == n)).map (fun l => if l.seq = seq then g l else l) := by
    intro l
    induction l with
    | nil => rfl
    | cons a l ih =>
      have ha : (if a.seq == seq then g a else a).seq = a.seq := by split <;> simp [hg]
      rw [List.map_cons, List.find?_cons, List.find?_cons, ha, ih]
      cases a.seq == n with
      | true => simp
      | false => rfl
  exact h _

theorem State.fades_modLaunch {g : Launch → Launch} (hg : ∀ l : Launch, l.Keeps (g l)) (seq : Nat) :
    s.Fades kill (s.modLaunch seq g) := by
  have hl := State.launch?_modLaunch s (fun l => (hg l).seq) seq
  refine { State.fades_refl kill s with
    launch := fun n l h => ?_, noLaunch := fun n h => by rw [hl, h]; rfl
    rod := fun _ _ r h => .inl ⟨r, h, r.keeps_refl.fades kill _⟩ }
  refine ⟨_, by rw [hl, h]; rfl, ?_⟩
  dsimp only
  split
  · exact hg l
  · exact l.keeps_refl

theorem State.fades_carry (c : List (CarryKey × CarryBuf)) : s.Fades kill { s with carry := c } :=
  { State.fades_refl kill s with mem := rfl }

variable {s}

theorem State.fades_setTeam {tk : TeamKey} {t u : Team} (ht : s.team? tk = some t) (h : t.Keeps u) :
    s.Fades kill (s.setTeam tk u) := by
  refine { State.fades_refl kill s with team := fun k v hv => ?_ }
  by_cases hk : k = tk
  · subst hk
    rw [State.team?_setTeam_same] at hv
    cases hv
    exact ⟨t, ht, h⟩
  · rw [State.team?_setTeam_ne s u hk] at hv
    exact ⟨v, hv, v.keeps_refl⟩

theorem State.fades_modTeam {g : Team → Team} (h : ∀ t : Team, t.Keeps (g t)) (tk : TeamKey) : s.Fades kill (s.modTeam tk g) := by
  unfold State.modTeam
  split
  · rename_i t ht
    exact State.fades_setTeam ht (h t)
  · exact State.fades_refl kill s

theorem State.fades_setRod {p : FrameId} {n : Nat} {r q : Rod} (hr : s.rod? (rodKey p n) = some r)
    (h : r.Fades kill s.hub q) : s.Fades kill (s.setRod (rodKey p n) q) := by
  refine { State.fades_refl kill s with rod := fun a b x hx => .inl ?_, noRod := fun a b hn => ?_ }
  · by_cases hk : rodKey a b = rodKey p n
    · rw [hk] at hx ⊢
      obtain rfl : r = x := Option.some.inj (hr.symm.trans hx)
      exact ⟨q, State.rod?_setRod_same s _ q, h⟩
    · exact ⟨x, by rwa [State.rod?_setRod_ne s q hk], x.keeps_refl.fades kill _⟩
  · by_cases hk : rodKey a b = rodKey p n
    · rw [hk, hr] at hn
      cases hn
    · rwa [State.rod?_setRod_ne s q hk]

theorem State.fades_modRod {p : FrameId} {n : Nat} {g : Rod → Rod} (h : ∀ r, s.rod? (rodKey p n) = some r → r.Keeps (g r)) :
    s.Fades kill (s.modRod (rodKey p n) g) := by
  unfold State.modRod
  split
  · rename_i r hr
    exact State.fades_setRod hr ((h r hr).fades kill _)
  · exact State.fades_refl kill s

theorem State.fades_modFrame {p : FrameId} {g : Frame → Frame} (h : (s.frame p).Fades (g (s.frame p)))
    (he : ∀ e, ∀ x ∈ ((g (s.frame p)).engine e).entries, x ∈ ((s.frame p).engine e).entries ∨ s.stillJoins p x.launch) :
    s.Fades kill (s.modFrame p g) := by
  refine { State.fades_refl kill s with frame := fun q => ?_, entry := fun q e x hx => ?_ }
  · rw [State.frame_modFrame]
    split
    · rename_i hq
      rw [hq]
      exact h
    · exact Frame.fades_refl _
  · rw [State.frame_modFrame] at hx
    split at hx
    · rename_i hq
      rw [hq]
      exact he e x hx
    · exact .inl hx

/-- The queues stay as they are. -/
theorem State.fades_modFrame_queues {p : FrameId} {g : Frame → Frame} (h : ∀ f : Frame, f.Fades (g f))
    (he : ∀ f e, (g f).engine e = f.engine e) : s.Fades kill (s.modFrame p g) :=
  State.fades_modFrame (h _) (fun e x hx => .inl (by rwa [he] at hx))

/-- What is kept of saved rods changes, but not whose they are. -/
theorem State.fades_mapSaved {p : FrameId} {g : SavedRod → SavedRod}
    (h : ∀ v, (g v).rod.launch = v.rod.launch ∧ (g v).rod.team = v.rod.team ∧ (g v).rod.rod = v.rod.rod) :
    s.Fades kill (s.modFrame p (fun f => { f with savedRods := f.savedRods.map g })) := by
  refine State.fades_modFrame_queues (fun f => ⟨fun _ h => h, fun x hx => ⟨x, hx, rfl, id⟩, fun v hv => ?_⟩)
    (fun f e => by cases e <;> rfl)
  obtain ⟨u, hu, rfl⟩ := List.mem_map.1 hv
  obtain ⟨h1, h2, h3⟩ := h u
  exact ⟨u, hu, h1.symm, h2.symm, h3.symm⟩

/-- An entry comes to a queue from a join of its team. -/
theorem State.fades_append {t : State} {tk : TeamKey} {u : Team} {e : EngineId} {c : Cmd} {j : Fin 16} (h : s.Fades kill t)
    (hu : s.team? tk = some u) (hj : u.joins[j].pending ≠ []) (hc : c.launch = u.launch) :
    s.Fades kill (t.append tk.frame e c) := by
  have hm : ∀ p, (t.frame p).Fades ((t.append tk.frame e c).frame p) := fun p => by
    unfold State.append
    rw [State.frame_modFrame]
    split
    · rename_i hq
      rw [hq]
      exact Frame.setEngine_fades _ e _
    · exact Frame.fades_refl _
  refine ⟨h.mem, h.launch, h.noLaunch, h.rod, h.noRod, h.team, fun p => Frame.fades_trans (h.frame p) (hm p), fun p d x hx => ?_⟩
  have hx' : x ∈ ((t.frame p).engine d).entries ∨ p = tk.frame ∧ x = c := by
    unfold State.append at hx
    rw [State.frame_modFrame] at hx
    split at hx
    · rename_i hq
      rw [hq]
      rw [Frame.engine_setEngine] at hx
      split at hx
      · rename_i hd
        rw [hd]
        rcases List.mem_append.1 hx with hx | hx
        · exact .inl hx
        · exact .inr ⟨rfl, List.mem_singleton.1 hx⟩
      · exact .inl hx
    · exact .inl hx
  rcases hx' with hx' | ⟨rfl, rfl⟩
  · exact h.entry p d x hx'
  · exact .inr ⟨tk.slot, u, hu, hc.symm, j, hj⟩

end

end Sys2Proof.Machine
end

section
namespace Sys2Proof.Machine

/-! ## What settles on a frame fades (R60, R250, R293, R297, R323) -/

/-- A rod whose lanes are as they were. -/
theorem Rod.keeps_of_lanes {r q : Rod} (h1 : q.launch = r.launch) (h2 : q.team = r.team) (h3 : q.rod = r.rod)
    (h4 : q.divert = r.divert) (h5 : q.lanes = r.lanes) : r.Keeps q :=
  ⟨h1, h2, h3, .inl h4, fun n => by rw [h5]; exact Lane.keeps_refl _⟩

theorem Rod.setArrived_keeps (r : Rod) (b : BitVec 8) : r.Keeps { r with arrived := b } := Rod.keeps_of_lanes rfl rfl rfl rfl rfl

theorem Rod.setSigs_keeps (r : Rod) (g : Vector Nat 16) (b : BitVec 8) : r.Keeps { r with sigs := g, arrived := b } :=
  Rod.keeps_of_lanes rfl rfl rfl rfl rfl

theorem mapLanes_keeps {r : Rod} {m : BitVec 32} {f : Fin 32 → Lane → Lane}
    (h : ∀ n : Fin 32, m.getLsbD n.val = true → r.lanes[n].Keeps (f n r.lanes[n])) : r.Keeps (r.mapLanes m f) := by
  refine ⟨r.mapLanes_launch m f, r.mapLanes_team m f, r.mapLanes_rod m f, .inl (r.mapLanes_divert m f), fun n => ?_⟩
  rw [mapLanes_lane]
  split
  · rename_i hn
    exact h n hn
  · exact Lane.keeps_refl _

/-- A waiting lane that runs again is as live as before. -/
theorem Lane.wakes_keeps {x : Lane} (h : x.live = true) : x.Keeps { x with st := .runnable, wait := .none } :=
  ⟨rfl, rfl, h.symm⟩

theorem Lane.advance_keeps (x : Lane) : x.Keeps x.advance := ⟨rfl, rfl, rfl⟩

theorem Lane.wakes_advance_keeps {x : Lane} (h : x.live = true) :
    x.Keeps ({ x with st := .runnable, wait := .none } : Lane).advance :=
  Lane.keeps_trans (Lane.wakes_keeps h) (Lane.advance_keeps _)

theorem Lane.setReg_keeps (x : Lane) (n : Nat) (v : Word) : x.Keeps (x.setReg n v) := ⟨rfl, rfl, rfl⟩

theorem Lane.unmark_keeps (x : Lane) (l : List Nat) : x.Keeps (x.unmark l) := ⟨rfl, rfl, rfl⟩

theorem Lane.live_of_blocked {x : Lane} (h : (x.st == .blocked) = true) : x.live = true := by
  rw [beq_iff_eq] at h
  rw [Lane.live, h]
  rfl

theorem releaseJoin_keeps (r : Rod) (n : Nat) (j : Join) : r.Keeps (r.releaseJoin n j) := by
  refine mapLanes_keeps (fun l _ => ?_)
  generalize r.lanes[l] = x
  split
  · rename_i hb
    have hlive := Lane.live_of_blocked (Bool.and_eq_true_iff.1 hb).1
    split
    · split
      · exact Lane.wakes_advance_keeps hlive
      · exact Lane.keeps_refl x
    · split
      · exact Lane.wakes_keeps hlive
      · exact Lane.keeps_refl x
    · split
      · exact Lane.wakes_keeps hlive
      · exact Lane.keeps_refl x
    · exact Lane.keeps_refl x
  · exact Lane.keeps_refl x

theorem releaseBarrier_keeps (r : Rod) (n : Nat) (gen : Bool) : r.Keeps (r.releaseBarrier n gen) := by
  have h : r.Keeps (r.mapLanes (r.maskWhere (fun x => !r.divert && x.st == .blocked && (match x.wait with
      | .barMeet b g => b == n && g == gen
      | _ => false))) (fun _ x => ({ x with st := .runnable, wait := .none }).advance)) := by
    refine mapLanes_keeps (fun l hl => ?_)
    rw [maskWhere_getLsbD, Bool.and_eq_true, Bool.and_eq_true] at hl
    exact Lane.wakes_advance_keeps (Lane.live_of_blocked hl.1.2)
  exact Rod.keeps_trans h (Rod.setArrived_keeps _ _)

theorem finishGet_keeps (r : Rod) (l : Nat) (v : Word) : r.Keeps (r.finishGet l v) := by
  refine mapLanes_keeps (fun n hn => ?_)
  have hlive : r.lanes[n].live = true := by
    have h := maskWhere_getLsbD r (fun x => x.live && x.group == (r.lane l).group) n
    rw [show r.maskWhere (fun x => x.live && x.group == (r.lane l).group) = r.subRod l from rfl, hn] at h
    exact (Bool.and_eq_true_iff.1 h.symm).1
  generalize r.lanes[n] = x at hlive
  split
  · have hy : ∀ d, x.Keeps (if r.holds d then (x.setReg d v).unmark [d] else x) := fun d => by
      split
      · exact Lane.keeps_trans (x.setReg_keeps d v) (Lane.unmark_keeps _ _)
      · exact Lane.keeps_refl x
    exact Lane.keeps_trans (hy _) (Lane.wakes_advance_keeps ((hy _).live.trans hlive))
  · exact Lane.keeps_refl x

/-- A joined reduction that lets go of its interlock leaves the items as they are. -/
theorem endReduce_keeps (r : Rod) (j : Nat) (p : Partial) : r.Keeps (r.endReduce j p none) := by
  refine mapLanes_keeps (fun n _ => ?_)
  generalize r.lanes[n] = x
  split
  · exact Lane.keeps_refl x
  · exact ⟨rfl, rfl, rfl⟩

theorem foldl_rod_keeps {α : Type} {f : Rod → α → Rod} (h : ∀ (r : Rod) a, r.Keeps (f r a)) :
    ∀ (l : List α) (r : Rod), r.Keeps (l.foldl f r)
  | [], r => r.keeps_refl
  | a :: l, r => Rod.keeps_trans (h r a) (foldl_rod_keeps h l (f r a))

theorem stripped_keeps (r : Rod) (lost : List (Nat × Partial)) : r.Keeps (r.stripped lost) :=
  Rod.keeps_trans (foldl_rod_keeps (fun (r : Rod) (q : Nat × Partial) => endReduce_keeps r q.1 q.2) _ r)
    (Rod.setSigs_keeps _ _ _)

/-- A team whose joins are as they were. -/
theorem Team.keeps_of_joins {t u : Team} (hl : u.launch = t.launch) (hj : u.joins = t.joins) : t.Keeps u :=
  ⟨hl, fun j h => by rw [hj]; exact h⟩

theorem setQueue_keeps (t : Team) (n : Nat) (q : TokenQueue) : t.Keeps (t.setQueue n q) := Team.keeps_of_joins rfl rfl

theorem Team.stripped_pending (t : Team) (j : Fin 16) : t.stripped.joins[j].pending = [] := by
  simp [Team.stripped, Join.cancelled]

theorem Team.stripped_keeps (t : Team) : t.Keeps t.stripped := ⟨rfl, fun j _ => t.stripped_pending j⟩

theorem mapUncounted_keeps (t : Team) (item : DWord) (g : Instance → Instance) : t.Keeps (t.mapUncounted item g) := by
  refine ⟨rfl, fun j h => ?_⟩
  simp only [Team.mapUncounted, Fin.getElem_fin, Vector.getElem_ofFn, List.map_eq_nil_iff] at h ⊢
  exact h

theorem freezeDraws_keeps (l : List (DWord × BitVec 20)) : ∀ t : Team, t.Keeps (t.freezeDraws l) := by
  induction l with
  | nil => exact fun t => t.keeps_refl
  | cons e l ih => exact fun t => Team.keeps_trans (mapUncounted_keeps t e.1 _) (ih _)

/-- A join that has something pending may change. -/
theorem setJoin_keeps {t : Team} {n : Nat} {j : Join} (h : (t.join n).pending ≠ []) : t.Keeps (t.setJoin n j) := by
  refine ⟨rfl, fun k hk => ?_⟩
  have hne : k.val ≠ n := by
    rintro rfl
    rw [Team.join_fin] at h
    exact h hk
  simp only [Team.setJoin, Fin.getElem_fin, Vector.getElem_ofFn, if_neg hne] at hk ⊢
  exact hk

theorem Launch.countFault_keeps (l : Launch) (n : Nat) : l.Keeps (l.countFault n) := by
  unfold Launch.countFault
  split <;> exact ⟨rfl, rfl, rfl, rfl, fun _ h => h⟩

section
variable {kill : Prop} (s : State)

theorem fades_countFault (launch n : Nat) : s.Fades kill (s.countFault launch n) :=
  State.fades_modLaunch s (fun l => l.countFault_keeps n) launch

theorem fades_modMember {g : Rod → Rod} (h : ∀ r : Rod, r.Keeps (g r)) (tk : TeamKey) (launch team rod : Nat) :
    s.Fades kill (s.modMember tk launch team rod g) := by
  unfold State.modMember
  split
  · exact State.fades_modRod (fun r _ => h r)
  · refine State.fades_mapSaved (fun v => ?_)
    split
    · exact ⟨(h v.rod).launch, (h v.rod).team, (h v.rod).rod⟩
    · exact ⟨rfl, rfl, rfl⟩

theorem fades_modSavedRod {g : SavedRod → SavedRod} (h : ∀ v, (g v).rod = v.rod) (tk : TeamKey) (launch team rod : Nat) :
    s.Fades kill (s.modSavedRod tk launch team rod g) := by
  unfold State.modSavedRod
  split
  · exact State.fades_refl kill s
  · refine State.fades_mapSaved (fun v => ?_)
    split
    · rw [h v]
      exact ⟨rfl, rfl, rfl⟩
    · exact ⟨rfl, rfl, rfl⟩

/-- A step on each rod of a team that is on the frame. -/
theorem fades_teamRods {g : Rod → Rod} (h : ∀ r : Rod, r.Keeps (g r)) (p : FrameId) (slot : Nat) (l : List (Nat × Rod)) :
    s.Fades kill (l.foldl (fun s e => if e.2.teamSlot = slot then s.modRod (rodKey p e.1) g else s) s) := by
  refine State.fades_foldl (fun s e => ?_) l s
  split
  · exact State.fades_modRod (fun r _ => h r)
  · exact State.fades_refl kill s

theorem fades_settleRows (tk : TeamKey) : s.Fades kill (s.settleRows tk) := by
  unfold State.settleRows
  split
  · exact State.fades_refl kill s
  · rename_i t ht
    dsimp only
    refine State.fades_trans ?_ (State.fades_foldl (fun s e => fades_modMember s (fun r => ?_) tk _ _ _) _ _)
    · exact State.fades_setTeam ht (Team.keeps_of_joins rfl rfl)
    · exact Rod.keeps_of_lanes rfl rfl rfl rfl rfl

theorem fades_releaseRows (tk : TeamKey) (rod : Nat) (rows : List Nat) : s.Fades kill (s.releaseRows tk rod rows) := by
  unfold State.releaseRows
  split
  · exact State.fades_refl kill s
  · refine State.fades_trans ?_ (fades_settleRows _ tk)
    refine State.fades_modTeam (fun t => ?_) tk
    exact Team.keeps_of_joins rfl rfl

theorem fades_engineFaultTo (tk : TeamKey) (launch rod : Nat) (ef : EngineFault) :
    s.Fades kill (s.engineFaultTo tk launch rod ef) := by
  unfold State.engineFaultTo
  split
  · exact fades_countFault s launch 1
  split
  · exact fades_countFault s launch 1
  split
  · refine fades_modMember s (fun r => ?_) tk _ _ _
    exact Rod.keeps_of_lanes rfl rfl rfl rfl rfl
  · refine State.fades_modTeam (fun t => ?_) tk
    exact Team.keeps_of_joins rfl rfl

theorem fades_settleBarrier (tk : TeamKey) (n : Nat) : s.Fades kill (s.settleBarrier tk n) := by
  unfold State.settleBarrier
  split
  · exact State.fades_refl kill s
  · rename_i t ht
    dsimp only
    split
    · exact State.fades_refl kill s
    · refine State.fades_trans (State.fades_trans (t := s.setTeam tk (t.setBarrier n _)) ?_
        (fades_teamRods _ (fun r => releaseBarrier_keeps r n _) tk.frame tk.slot _)) (State.fades_mapSaved (fun v => ?_))
      · exact State.fades_setTeam ht (Team.keeps_of_joins rfl rfl)
      · split <;> exact ⟨rfl, rfl, rfl⟩

theorem fades_countSupplier (tk : TeamKey) (t : Team) (i : Instance) : s.Fades kill (s.countSupplier tk t i) := by
  unfold State.countSupplier
  split
  · exact State.fades_refl kill s
  · refine State.fades_trans (State.fades_trans (State.fades_modTeam (fun t => mapUncounted_keeps t _ _) tk)
      (fades_modMember _ (fun r => mapLanes_keeps (fun n _ => ?_)) tk _ _ _)) (fades_modSavedRod _ (fun v => ?_) tk _ _ _)
    · exact ⟨rfl, rfl, rfl⟩
    · rfl

theorem fades_settleJoin (tk : TeamKey) (n : Nat) : ∀ (fuel : Nat) (s : State), s.Fades kill (State.settleJoin tk n fuel s)
  | 0, s => State.fades_refl kill s
  | fuel + 1, s => by
    unfold State.settleJoin
    split
    · exact State.fades_refl kill s
    rename_i t ht
    dsimp only
    split
    · exact State.fades_refl kill s
    rename_i i rest hp
    split
    · exact State.fades_refl kill s
    split
    · exact State.fades_refl kill s
    have hne : (t.join n).pending ≠ [] := by rw [hp]; exact List.cons_ne_nil _ _
    have hn : n < 16 := by
      by_contra hn
      apply hne
      unfold Team.join
      rw [List.getD_eq_default _ _ (by simpa using hn)]
      rfl
    refine State.fades_trans (State.fades_trans ?_ (fades_teamRods _ (fun r => releaseJoin_keeps r n _) tk.frame tk.slot _))
      (fades_settleJoin tk n fuel _)
    have hsup (b : Bool) (j : Join) : s.Fades kill (if b then s.setTeam tk (t.setJoin n j)
        else (s.setTeam tk (t.setJoin n j)).countSupplier tk t i) := by
      have hset := State.fades_setTeam (kill := kill) ht (setJoin_keeps (j := j) hne)
      split
      · exact hset
      · exact State.fades_trans hset (fades_countSupplier _ tk t i)
    split
    · refine State.fades_append (j := ⟨n, hn⟩) (hsup _ _) ht ?_ rfl
      rwa [← Team.join_fin]
    · exact State.fades_trans (hsup _ _) (fades_engineFaultTo _ tk _ _ _)

theorem fades_settleJoins (tk : TeamKey) : s.Fades kill (s.settleJoins tk) :=
  State.fades_foldl (fun s n => fades_settleJoin tk n 4 s) _ s

theorem fades_popToken (tk : TeamKey) (q : Nat) : s.Fades kill (s.popToken tk q).2 := by
  unfold State.popToken
  split
  · exact State.fades_refl kill s
  · rename_i t ht
    exact State.fades_setTeam ht (setQueue_keeps t q _)

theorem fades_serveGets (tk : TeamKey) (q : Nat) : ∀ (fuel : Nat) (s : State), s.Fades kill (State.serveGets tk q fuel s)
  | 0, s => State.fades_refl kill s
  | fuel + 1, s => by
    unfold State.serveGets
    split
    · exact State.fades_refl kill s
    split
    · exact State.fades_refl kill s
    · exact State.fades_trans (State.fades_trans (fades_popToken s tk q)
        (State.fades_modRod (fun r _ => finishGet_keeps r _ _))) (fades_serveGets tk q fuel _)

theorem fades_serveTeam (tk : TeamKey) : s.Fades kill (s.serveTeam tk) :=
  State.fades_foldl (fun s q => fades_serveGets tk q 16 s) _ s

theorem fades_settleFrame (p : FrameId) : s.Fades kill (s.settleFrame p) := by
  refine State.fades_foldl (fun s e => ?_) _ s
  exact State.fades_trans (State.fades_trans (fades_settleRows s _) (fades_settleJoins _ _)) (fades_serveTeam _ _)

theorem fades_modPeerQueue (launch number q : Nat) (g : TokenQueue → TokenQueue) :
    s.Fades kill (s.modPeerQueue launch number q g) := by
  unfold State.modPeerQueue
  split
  · exact State.fades_modTeam (fun t => setQueue_keeps t q _) _
  · refine State.fades_foldl (fun s p => State.fades_modFrame_queues (fun f => ?_) (fun f e => ?_)) _ s
    · exact Frame.fades_of_eq rfl rfl rfl
    · cases e <;> rfl

theorem fades_releaseSlots (p : FrameId) (c : Cmd) : s.Fades kill (s.releaseSlots p c) := by
  unfold State.releaseSlots
  split
  · exact State.fades_refl kill s
  have hown : s.Fades kill (match c.produces with
      | some q => s.modTeam (cmdTeam p c) (fun t => t.setQueue q { t.queue q with reserved := (t.queue q).reserved - 1 })
      | none => s) := by
    split
    · exact State.fades_modTeam (fun t => setQueue_keeps t _ _) _
    · exact State.fades_refl kill s
  dsimp only
  split
  · exact State.fades_trans hown (fades_modPeerQueue _ _ _ _ _)
  · exact hown

/-- A member that changes as `endReduce` says. -/
theorem fades_cancelReduce (tk : TeamKey) (launch team : Nat) (j : Nat) (q : Partial) {r : Rod}
    (hr : s.member? tk launch team q.rod = some r) :
    s.Fades kill (s.modMember tk launch team q.rod (fun _ => r.endReduce j q none)) := by
  have hk := endReduce_keeps r j q
  unfold State.member? at hr
  unfold State.modMember
  cases hs : s.memberSlot tk q.rod with
  | some n =>
    rw [hs] at hr
    refine State.fades_modRod (fun x hx => ?_)
    obtain rfl : x = r := Option.some.inj (hx.symm.trans hr)
    exact hk
  | none =>
    rw [hs] at hr
    obtain ⟨v, hv, rfl⟩ := Option.map_eq_some_iff.1 hr
    have hv := List.find?_some hv
    simp only [Bool.and_eq_true, beq_iff_eq] at hv
    obtain ⟨⟨h1, h2⟩, h3⟩ := hv
    refine State.fades_mapSaved (fun u => ?_)
    split
    · rename_i hu
      exact ⟨hk.launch.trans (h1.trans hu.1.symm), hk.team.trans (h2.trans hu.2.1.symm), hk.rod.trans (h3.trans hu.2.2.symm)⟩
    · exact ⟨rfl, rfl, rfl⟩

theorem fades_finishReduce (p : FrameId) (c : Cmd) : s.Fades kill (s.finishReduce p c none) := by
  unfold State.finishReduce
  split
  · exact State.fades_refl kill s
  refine State.fades_foldl (fun s q => ?_) _ s
  split
  · exact State.fades_refl kill s
  · rename_i r hr
    exact State.fades_trans (fades_cancelReduce s (cmdTeam p c) c.launch c.team _ q hr) (State.fades_carry _ _)

theorem fades_dropEntries (p : FrameId) (e : EngineId) (keep : Cmd → Bool) :
    s.Fades kill (s.modEngine p e (fun q => { q with entries := q.entries.filter keep })) := by
  refine State.fades_modFrame (Frame.setEngine_fades _ e _) (fun d x hx => .inl ?_)
  rw [Frame.engine_setEngine] at hx
  split at hx
  · rename_i hd
    rw [hd]
    exact List.mem_of_mem_filter hx
  · exact hx

/-- What is cancelled besides the entries themselves. -/
theorem fades_cancelled (p : FrameId) (gone : List Cmd) :
    s.Fades kill ((gone.foldl (fun s c => (s.releaseSlots p c).finishReduce p c none) s).settleFrame p) :=
  State.fades_trans
    (State.fades_foldl (fun s c => State.fades_trans (fades_releaseSlots s p c) (fades_finishReduce _ p c)) gone s)
    (fades_settleFrame _ p)

theorem fades_cancelWhere (p : FrameId) (e : EngineId) (pr : Cmd → Bool) : s.Fades kill (s.cancelWhere p e pr) :=
  State.fades_trans (fades_dropEntries s p e _) (fades_cancelled _ p _)

end

end Sys2Proof.Machine
end

section
namespace Sys2Proof.Machine

/-! ## Wrap-up, frame by frame (R93, R94, R298, R330) -/

/-- A step of a fold brings about what the later steps keep; `I` is what the steps rest on, and keep. -/
theorem foldl_reaches {α : Type} {R : State → State → Prop} {I : State → Prop} {P : α → State → Prop} {f : State → α → State}
    (step : ∀ s a, R s (f s a)) (keepI : ∀ s t, R s t → I s → I t) (est : ∀ s a, I s → P a (f s a))
    (keep : ∀ s t a, R s t → P a s → P a t) {a : α} :
    ∀ (l : List α) (s : State), I s → a ∈ l ∨ P a s → P a (l.foldl f s)
  | [], s, _, h => h.resolve_left List.not_mem_nil
  | b :: l, s, hI, h => by
    refine foldl_reaches step keepI est keep l (f s b) (keepI _ _ (step s b) hI) ?_
    rcases h with h | h
    · rcases List.mem_cons.1 h with rfl | h
      · exact .inr (est s a hI)
      · exact .inl h
    · exact .inr (keep _ _ a (step s b) h)

/-- The same with nothing to rest on. -/
theorem foldl_reaches_free {α : Type} {R : State → State → Prop} {P : α → State → Prop} {f : State → α → State}
    (step : ∀ s a, R s (f s a)) (est : ∀ s a, P a (f s a)) (keep : ∀ s t a, R s t → P a s → P a t) {a : α} (l : List α)
    (s : State) (h : a ∈ l ∨ P a s) : P a (l.foldl f s) :=
  foldl_reaches (I := fun _ => True) step (fun _ _ _ _ => trivial) (fun s a _ => est s a) keep l s trivial h

theorem mem_engines (e : EngineId) : e ∈ engines := by cases e <;> simp [engines]

section
variable {kill : Prop} (s : State)

theorem Frame.dropWaits_fades (f : Frame) (seq : Nat) : f.Fades (f.dropWaits seq) :=
  ⟨fun _ hy => List.mem_of_mem_filter hy, fun x hx => ⟨x, hx, rfl, id⟩, fun v hv => ⟨v, hv, rfl, rfl, rfl⟩⟩

theorem fades_stripTeam (tk : TeamKey) (t : Team) : s.Fades kill (s.stripTeam tk t) :=
  State.fades_trans (fades_teamRods s (fun r => stripped_keeps r t.abandonedPartials) tk.frame tk.slot _)
    (State.fades_modTeam Team.stripped_keeps tk)

theorem fades_stripTeams (p : FrameId) (seq : Nat) : s.Fades kill (s.stripTeams p seq) := by
  unfold State.stripTeams
  exact State.fades_foldl (fun s (e : Nat × Team) => fades_stripTeam s { frame := p, slot := e.1 } e.2) _ s

theorem fades_cancelLaunch (p : FrameId) (seq : Nat) (pr : Cmd → Bool) : s.Fades kill (s.cancelLaunch p seq pr) := by
  unfold State.cancelLaunch
  exact State.fades_foldl (fun s e => fades_cancelWhere s p e _) engines s

theorem team?_modTeam_same (tk : TeamKey) (g : Team → Team) : (s.modTeam tk g).team? tk = (s.team? tk).map g := by
  cases h : s.team? tk with
  | none =>
    unfold State.modTeam
    simp only [h]
    rfl
  | some t =>
    rw [State.modTeam_of_some h]
    exact State.team?_setTeam_same s tk _

/-- A stripped team has nothing pending. -/
theorem stripTeam_pending {tk : TeamKey} {t u : Team} (h : (s.stripTeam tk t).team? tk = some u) (j : Fin 16) :
    u.joins[j].pending = [] := by
  unfold State.stripTeam at h
  dsimp only at h
  rw [team?_modTeam_same] at h
  obtain ⟨v, -, rfl⟩ := Option.map_eq_some_iff.1 h
  exact v.stripped_pending j

/-- Once its teams are stripped, no join of the launch is left on the frame. -/
theorem stripTeams_joins (p : FrameId) (seq : Nat) : ¬ (s.stripTeams p seq).stillJoins p seq := by
  rintro ⟨n, u, hu, hseq, j, hj⟩
  obtain ⟨y, hy, hk⟩ := (fades_stripTeams (kill := True) s p seq).team _ u hu
  have hmem : (n, y) ∈ (s.teamsOn p).filter (fun e => e.2.launch == seq) := by
    rw [List.mem_filter, mem_teamsOn]
    exact ⟨mem_of_tableFind hy, by simpa using hk.launch.symm.trans hseq⟩
  refine hj (foldl_reaches_free (R := State.Fades True)
    (f := fun s (e : Nat × Team) => s.stripTeam { frame := p, slot := e.1 } e.2)
    (P := fun (e : Nat × Team) t => ∀ u, t.team? { frame := p, slot := e.1 } = some u → u.joins[j].pending = [])
    (fun s e => fades_stripTeam s { frame := p, slot := e.1 } e.2) (fun s e u hu => stripTeam_pending s hu j)
    (fun s t e h hp u hu => ?_) _ s (.inl hmem) u hu)
  obtain ⟨z, hz, hk⟩ := h.team _ u hu
  exact hk.pending j (hp z hz)

/-- The entries of the launch that a cancellation leaves, where no join of the launch is left. -/
theorem cancelLaunch_entries {p : FrameId} {seq : Nat} {pr : Cmd → Bool} (h : ¬ s.stillJoins p seq) (e : EngineId) :
    ∀ x ∈ (((s.cancelLaunch p seq pr).frame p).engine e).entries, x.launch = seq → pr x = false := by
  refine (foldl_reaches (R := State.Fades True) (I := fun s => ¬ s.stillJoins p seq)
    (f := fun s e => s.cancelWhere p e (fun c => c.launch == seq && pr c))
    (P := fun e t => ¬ t.stillJoins p seq ∧ ∀ x ∈ ((t.frame p).engine e).entries, x.launch = seq → pr x = false)
    (fun s e => fades_cancelWhere s p e _) (fun s t hf hn hj => hn (State.stillJoins_back hf hj)) ?_ ?_ engines s h
    (.inl (mem_engines e))).2
  · intro s e hn
    refine ⟨fun hj => hn (State.stillJoins_back (fades_cancelWhere (kill := True) s p e _) hj), fun x hx hseq => ?_⟩
    have hd := fades_dropEntries (kill := True) s p e (fun c => !(c.launch == seq && pr c))
    rcases (fades_cancelled (kill := True) _ p _).entry p e x hx with hx | hj
    · unfold State.modEngine at hx
      rw [State.frame_modFrame, if_pos rfl, Frame.engine_setEngine, if_pos rfl] at hx
      simpa [hseq] using (List.mem_filter.1 hx).2
    · rw [hseq] at hj
      exact absurd (State.stillJoins_back hd hj) hn
  · rintro s t e hf ⟨hn, hp⟩
    refine ⟨fun hj => hn (State.stillJoins_back hf hj), fun x hx hseq => ?_⟩
    rcases hf.entry p e x hx with hx | hj
    · exact hp x hx hseq
    · rw [hseq] at hj
      exact absurd hj hn

/-! ### The threshold on a frame -/

/-- A rod of the launch comes to owe its divert. -/
def Rod.oweDivert (r : Rod) : Rod := { r with divert := r.owesDivert }

/-- The step of `State.oweDiverts`. -/
def State.oweDivert (s : State) (seq : Nat) (p : FrameId) (e : Nat × Rod) : State :=
  if e.2.launch = seq then s.modRod (rodKey p e.1) Rod.oweDivert else s

theorem Rod.oweDivert_keeps (r : Rod) : r.Keeps r.oweDivert := ⟨rfl, rfl, rfl, .inr rfl, fun _ => Lane.keeps_refl _⟩

theorem oweDiverts_eq (seq : Nat) (p : FrameId) :
    s.oweDiverts seq p = (s.rodsOn p).foldl (fun s e => s.oweDivert seq p e) s := rfl

theorem fades_oweDivert (seq : Nat) (p : FrameId) (e : Nat × Rod) : s.Fades kill (s.oweDivert seq p e) := by
  unfold State.oweDivert
  split
  · exact State.fades_modRod (fun r _ => r.oweDivert_keeps)
  · exact State.fades_refl kill s

theorem fades_oweDiverts (seq : Nat) (p : FrameId) : s.Fades kill (s.oweDiverts seq p) := by
  rw [oweDiverts_eq]
  exact State.fades_foldl (fun s e => fades_oweDivert s seq p e) _ s

theorem fades_wrapFrame (seq : Nat) (p : FrameId) : s.Fades kill (s.wrapFrame seq p) := by
  unfold State.wrapFrame
  refine State.fades_trans (State.fades_trans (State.fades_trans ?_ (fades_oweDiverts _ seq p)) (fades_stripTeams _ p seq))
    (fades_cancelLaunch _ p seq _)
  exact State.fades_modFrame_queues (fun f => f.dropWaits_fades seq) (fun f e => by cases e <;> rfl)

/-- What the threshold leaves of the launch on a frame: rods that owe their diverts, no join, no command that has not started, no
request of a rod that has not. -/
structure State.Wrapped (t : State) (seq : Nat) (p : FrameId) : Prop where
  divert : ∀ n q, t.rod? (rodKey p n) = some q → q.launch = seq → q.divert = q.owesDivert
  joins : ¬ t.stillJoins p seq
  entries : ∀ e, ∀ x ∈ ((t.frame p).engine e).entries, x.launch = seq → x.started = true
  requests : ∀ y ∈ (t.frame p).requests, y.launch = seq → ∀ a b, y.kind ≠ .rodStart a b

/-- Rods that owe their diverts by their lanes do so still. -/
theorem divert_kept {s t : State} (h : s.Fades False t) {seq : Nat} {p : FrameId} {n : Nat}
    (hs : ∀ q, s.rod? (rodKey p n) = some q → q.launch = seq → q.divert = q.owesDivert) :
    ∀ q, t.rod? (rodKey p n) = some q → q.launch = seq → q.divert = q.owesDivert := by
  intro q hq hseq
  cases hr : s.rod? (rodKey p n) with
  | none => rw [h.noRod p n hr] at hq; cases hq
  | some r =>
    rcases h.rod p n r hr with ⟨q', hq', hk⟩ | ⟨hf, -⟩
    · obtain rfl : q' = q := Option.some.inj (hq'.symm.trans hq)
      have hl := fun n => (hk.lane n).resolve_right (fun x => x.1)
      rcases hk.divert with hf | hd | hd
      · exact hf.elim
      · rw [hd, hs r hr (hk.launch.symm.trans hseq), Rod.owesDivert_congr hl]
      · exact hd
    · exact hf.elim

theorem wrapped_kept {s t : State} {seq : Nat} {p : FrameId} (h : s.Fades False t) (hw : s.Wrapped seq p) : t.Wrapped seq p := by
  refine ⟨fun n => divert_kept h (hw.divert n), fun hj => hw.joins (State.stillJoins_back h hj), fun e x hx hseq => ?_,
    fun y hy => hw.requests y ((h.frame p).requests y hy)⟩
  rcases h.entry p e x hx with hx | hj
  · exact hw.entries e x hx hseq
  · rw [hseq] at hj
    exact absurd hj hw.joins

theorem oweDivert_divert {seq : Nat} {p : FrameId} {e : Nat × Rod} (he : e.2.launch = seq) {q : Rod}
    (hq : (s.oweDivert seq p e).rod? (rodKey p e.1) = some q) : q.divert = q.owesDivert := by
  unfold State.oweDivert at hq
  rw [if_pos he] at hq
  cases hr : s.rod? (rodKey p e.1) with
  | none =>
    unfold State.modRod at hq
    rw [hr] at hq
    exact absurd (hr.symm.trans hq) (by simp)
  | some r =>
    rw [State.modRod_of_some hr, State.rod?_setRod_same] at hq
    cases hq
    rfl

theorem oweDiverts_divert (seq : Nat) (p : FrameId) (n : Nat) :
    ∀ q, (s.oweDiverts seq p).rod? (rodKey p n) = some q → q.launch = seq → q.divert = q.owesDivert := by
  intro q hq hseq
  cases hr : s.rod? (rodKey p n) with
  | none => rw [(fades_oweDiverts (kill := False) s seq p).noRod p n hr] at hq; cases hq
  | some r =>
    have hlaunch : r.launch = seq := by
      rcases (fades_oweDiverts (kill := False) s seq p).rod p n r hr with ⟨q', hq', hk⟩ | ⟨hf, -⟩
      · obtain rfl : q' = q := Option.some.inj (hq'.symm.trans hq)
        exact hk.launch.symm.trans hseq
      · exact hf.elim
    refine foldl_reaches_free (R := State.Fades False) (f := fun s e => s.oweDivert seq p e)
      (P := fun (e : Nat × Rod) t => e.2.launch = seq →
        ∀ q, t.rod? (rodKey p e.1) = some q → q.launch = seq → q.divert = q.owesDivert)
      (fun s e => fades_oweDivert s seq p e) (fun s e he q hq _ => oweDivert_divert s he hq)
      (fun s t e h hp he => divert_kept h (hp he)) (s.rodsOn p) s (a := (n, r))
      (.inl (mem_rodsOn.2 (mem_of_tableFind hr))) hlaunch q hq hseq

theorem wrapFrame_wrapped (seq : Nat) (p : FrameId) : (s.wrapFrame seq p).Wrapped seq p := by
  have hd := oweDiverts_divert (s.modFrame p (fun f => f.dropWaits seq)) seq p
  have hdrop : ∀ y ∈ ((s.modFrame p (fun f => f.dropWaits seq)).frame p).requests, y.launch = seq →
      ∀ a b, y.kind ≠ .rodStart a b := by
    intro y hy hseq a b hk
    rw [State.frame_modFrame, if_pos rfl] at hy
    have := (List.mem_filter.1 hy).2
    simp [hk, hseq] at this
  unfold State.wrapFrame
  dsimp only
  generalize s.modFrame p (fun f => f.dropWaits seq) = s0 at hd hdrop
  have h1 := fades_oweDiverts (kill := False) s0 seq p
  have h2 := fades_stripTeams (kill := False) (s0.oweDiverts seq p) p seq
  have h3 := fades_cancelLaunch (kill := False) ((s0.oweDiverts seq p).stripTeams p seq) p seq (fun c => !c.started)
  have hj := stripTeams_joins (s0.oweDiverts seq p) p seq
  refine ⟨fun n => divert_kept (State.fades_trans h2 h3) (hd n), fun h => hj (State.stillJoins_back h3 h), fun e x hx hseq => ?_,
    fun y hy => hdrop y (((State.fades_trans (State.fades_trans h1 h2) h3).frame p).requests y hy)⟩
  simpa using cancelLaunch_entries _ hj e x hx hseq

end

/-! ### All frames -/

section
variable (s : State)

/-- A frame on which nothing stands. -/
structure State.Empty (p : FrameId) : Prop where
  frame : s.frame p = Frame.reset
  rods : ∀ n, s.rod? (rodKey p n) = none
  teams : ∀ n, s.team? { frame := p, slot := n } = none

theorem empty_of_not_inUse {p : FrameId} (h : p ∉ s.framesInUse) : s.Empty p := by
  unfold State.framesInUse at h
  rw [List.mem_eraseDups, List.mem_append, List.mem_append, not_or, not_or] at h
  obtain ⟨⟨hf, ht⟩, hr⟩ := h
  refine ⟨frame_of_not_mem hf, fun n => ?_, fun n => ?_⟩
  · rw [Option.eq_none_iff_forall_ne_some]
    exact fun r h => hr (List.mem_map.2 ⟨_, mem_of_tableFind h, rfl⟩)
  · rw [Option.eq_none_iff_forall_ne_some]
    exact fun r h => ht (List.mem_map.2 ⟨_, mem_of_tableFind h, rfl⟩)

theorem not_stillJoins_of_empty {p : FrameId} (h : s.Empty p) (seq : Nat) : ¬ s.stillJoins p seq := by
  rintro ⟨n, y, hy, -⟩
  rw [h.teams n] at hy
  cases hy

theorem wrapped_of_empty {p : FrameId} (h : s.Empty p) (seq : Nat) : s.Wrapped seq p := by
  refine ⟨fun n q hq => ?_, not_stillJoins_of_empty s h seq, fun e x hx => ?_, fun y hy => ?_⟩
  · rw [h.rods n] at hq
    cases hq
  · rw [h.frame] at hx
    cases e <;> cases hx
  · rw [h.frame] at hy
    cases hy

/-- Every frame is done with after the fold over those that hold something. -/
theorem wrapped_all (seq : Nat) (p : FrameId) : (s.framesInUse.foldl (fun s p => s.wrapFrame seq p) s).Wrapped seq p := by
  refine foldl_reaches_free (R := State.Fades False) (P := fun p t => t.Wrapped seq p) (fun s p => fades_wrapFrame s seq p)
    (fun s p => wrapFrame_wrapped s seq p) (fun s t p h hw => wrapped_kept h hw) _ s ?_
  by_cases h : p ∈ s.framesInUse
  · exact .inl h
  · exact .inr (wrapped_of_empty s (empty_of_not_inUse s h) seq)

end

end Sys2Proof.Machine
end

section
namespace Sys2Proof.Machine

/-! ## The kill, frame by frame (R99, R330, R456) -/

theorem State.modTeam_modLaunch (s : State) (tk : TeamKey) (g : Team → Team) (n : Nat) (h : Launch → Launch) :
    (s.modTeam tk g).modLaunch n h = (s.modLaunch n h).modTeam tk g := by
  unfold State.modTeam
  rw [show (s.modLaunch n h).team? tk = s.team? tk from rfl]
  split <;> rfl

/-- A launch with more outcomes, at the time of the last. -/
def Launch.withOutcomes (l : Launch) (done : List (Nat × ItemOutcome)) (now : DWord) : Launch :=
  { l with outcomes := l.outcomes ++ done, lastRetire := now }

/-- A launch that takes up items records them. -/
theorem recordsKilled_withOutcomes {s : State} {launch : Nat} {done : List (Nat × ItemOutcome)} {now : DWord} {item : DWord}
    (h : (item.toNat, ItemOutcome.killed) ∈ done) :
    (s.modLaunch launch (fun l => l.withOutcomes done now)).hub.recordsKilled launch item := by
  intro m hm
  have hm' := State.launch?_modLaunch s (g := fun l => l.withOutcomes done now) (fun _ => rfl) launch launch
  rw [show (s.modLaunch launch _).launch? launch = some m from hm] at hm'
  obtain ⟨l, hl, rfl⟩ := Option.map_eq_some_iff.1 hm'.symm
  have hseq : l.seq = launch := by simpa using List.find?_some hl
  rw [if_pos hseq]
  exact List.mem_append_right _ h

theorem Launch.withOutcomes_keeps (l : Launch) (done : List (Nat × ItemOutcome)) (now : DWord) :
    l.Keeps (l.withOutcomes done now) :=
  ⟨rfl, rfl, rfl, rfl, fun _ h => List.mem_append_left _ h⟩

theorem ordered_keeps (t : Team) (items : List DWord) : t.Keeps (t.ordered items) := Team.keeps_of_joins rfl rfl

/-- What retirement leaves of a lane. -/
def Lane.retire (x : Lane) : Lane :=
  { x with st := .retired, wait := .none, marks := [], loads := [], joined := [], fence := none, record := none }

/-- A rod of which every live item retires. -/
def Rod.retireLive (r : Rod) : Rod := r.mapLanes r.liveMask (fun _ => Lane.retire)

theorem retireLive_lane (r : Rod) (n : Fin 32) :
    r.retireLive.lanes[n] = if r.lanes[n].live = true then r.lanes[n].retire else r.lanes[n] := by
  unfold Rod.retireLive
  rw [mapLanes_lane, show r.liveMask.getLsbD n.val = r.lanes[n].live from maskWhere_getLsbD r Lane.live n]

/-- The items of a rod, killed. -/
def Rod.killedOutcomes (r : Rod) : List (Nat × ItemOutcome) :=
  (maskLanes r.liveMask).map (fun l => ((r.lane l).item.toNat, ItemOutcome.killed))

theorem killedOutcomes_mem {r : Rod} {n : Fin 32} (h : r.lanes[n].live = true) :
    (r.lanes[n].item.toNat, ItemOutcome.killed) ∈ r.killedOutcomes := by
  refine List.mem_map.2 ⟨n.val, mem_maskLanes.2 ⟨n.isLt, ?_⟩, ?_⟩
  · exact (maskWhere_getLsbD r Lane.live n).trans h
  · rw [Rod.lane_lt r n.isLt]

theorem killed_rod_fades (s : State) (p : FrameId) (r : Rod) : r.Fades True
    (s.modLaunch r.launch (fun l => l.withOutcomes r.killedOutcomes (s.frameTime p))).hub
    r.retireLive := by
  refine ⟨r.mapLanes_launch _ _, .inl trivial, fun k => ?_⟩
  rw [retireLive_lane]
  split
  · rename_i hlive
    exact .inr ⟨trivial, rfl, rfl, recordsKilled_withOutcomes (killedOutcomes_mem hlive)⟩
  · exact .inl (Lane.keeps_refl _)

section
variable (s : State) {p : FrameId} {n : Nat} {r : Rod} (hr : s.rod? (rodKey p n) = some r)
include hr

/-- The live items of a rod retire, killed. -/
theorem retireLanes_killed : ∃ c : List (CarryKey × CarryBuf),
    s.retireLanes (rodKey p n) r.liveMask (fun _ => .killed) =
      { ((s.modLaunch r.launch (fun l => l.withOutcomes r.killedOutcomes (s.frameTime p))).setRod
          (rodKey p n) r.retireLive).modTeam (teamKeyOf (rodKey p n) r)
            (fun t => (t.freezeDraws ((maskLanes r.liveMask).map (fun l => ((r.lane l).item, (r.lane l).rsCount)))).ordered
              ((maskLanes r.liveMask).map (fun l => (r.lane l).item))) with
        carry := c } := by
  refine ⟨r.killedOutcomes.foldl (fun t e => closeSlots r.launch e.1 0xFF t) s.carry, ?_⟩
  unfold State.retireLanes
  simp only [hr]
  rw [State.modTeam_modLaunch]
  rfl

theorem fades_retireLanes : s.Fades True (s.retireLanes (rodKey p n) r.liveMask (fun _ => .killed)) := by
  obtain ⟨c, hc⟩ := retireLanes_killed s hr
  rw [hc]
  refine State.fades_trans (State.fades_trans (State.fades_trans ?_ (State.fades_setRod ?_ (killed_rod_fades s p r)))
    (State.fades_modTeam (fun t => Team.keeps_trans (freezeDraws_keeps _ t) (ordered_keeps _ _)) _)) (State.fades_carry _ c)
  · exact State.fades_modLaunch s (fun l => l.withOutcomes_keeps _ _) _
  · exact hr

theorem rod?_retireLanes :
    (s.retireLanes (rodKey p n) r.liveMask (fun _ => .killed)).rod? (rodKey p n) = some r.retireLive := by
  obtain ⟨c, hc⟩ := retireLanes_killed s hr
  rw [hc]
  show tableFind (rodKey p n) (State.modTeam _ _ _).rods = _
  rw [State.modTeam_rods]
  exact tableFind_tableSet_same _ _ _

end

theorem killed_liveMask (r : Rod) : r.retireLive.liveMask = 0 := by
  refine BitVec.eq_of_getLsbD_eq (fun n hn => ?_)
  rw [show r.retireLive.liveMask.getLsbD n = _ from maskWhere_getLsbD _ Lane.live ⟨n, hn⟩, retireLive_lane]
  split
  · simp [Lane.live, Lane.retire]
  · rename_i h
    simpa using h

theorem live_of_liveMask {r : Rod} (h : r.liveMask = 0) (n : Fin 32) : r.lanes[n].live = false := by
  have := maskWhere_getLsbD r Lane.live n
  rw [show r.maskWhere Lane.live = r.liveMask from rfl, h] at this
  simpa using this.symm

theorem tableFind_tableErase_same {α β : Type} [DecidableEq α] (k : α) (t : List (α × β)) :
    tableFind k (tableErase k t) = none := by
  rw [Option.eq_none_iff_forall_ne_some]
  intro v hv
  simpa using (List.mem_filter.1 (mem_of_tableFind hv)).2

/-- A rod without a live item leaves the frame. -/
theorem fades_eraseRod (s : State) {p : FrameId} {n : Nat} {r : Rod} (hr : s.rod? (rodKey p n) = some r) (h : r.liveMask = 0) :
    s.Fades True (s.eraseRod (rodKey p n)) := by
  have hgone : (s.eraseRod (rodKey p n)).rod? (rodKey p n) = none := tableFind_tableErase_same _ _
  have hkept {a b} (hk : rodKey a b ≠ rodKey p n) : (s.eraseRod (rodKey p n)).rod? (rodKey a b) = s.rod? (rodKey a b) :=
    tableFind_tableErase_ne hk _
  refine { State.fades_refl True s with rod := fun a b x hx => ?_, noRod := fun a b hn => ?_ }
  · by_cases hk : rodKey a b = rodKey p n
    · rw [hk] at hx ⊢
      obtain rfl : r = x := Option.some.inj (hr.symm.trans hx)
      refine .inr ⟨trivial, hgone, fun k hl => ?_⟩
      rw [live_of_liveMask h k] at hl
      cases hl
    · exact .inl ⟨x, (hkept hk).trans hx, x.keeps_refl.fades True _⟩
  · by_cases hk : rodKey a b = rodKey p n
    · rw [hk]
      exact hgone
    · rw [hkept hk]
      exact hn

section
variable (s : State)

/-- What a retirement settles after the rod has gone. -/
theorem fades_afterRod {kill : Prop} (tk : TeamKey) (r : Rod) {g : Team → Team} (hg : ∀ t : Team, t.Keeps (g t)) :
    s.Fades kill (((List.range 8).foldl (fun s n => s.settleBarrier tk n) (r.engineFaults.foldl (fun s ef =>
      s.engineFaultTo tk r.launch r.rod ef) ((s.modTeam tk g).releaseRows tk r.rod r.rows))).settleJoins tk) := by
  have h1 : s.Fades kill ((s.modTeam tk g).releaseRows tk r.rod r.rows) :=
    State.fades_trans (State.fades_modTeam hg tk) (fades_releaseRows _ tk r.rod r.rows)
  generalize (s.modTeam tk g).releaseRows tk r.rod r.rows = s1 at h1 ⊢
  have h2 : s1.Fades kill (r.engineFaults.foldl (fun s ef => s.engineFaultTo tk r.launch r.rod ef) s1) :=
    State.fades_foldl (fun s ef => fades_engineFaultTo s tk r.launch r.rod ef) _ s1
  generalize r.engineFaults.foldl (fun s ef => s.engineFaultTo tk r.launch r.rod ef) s1 = s2 at h2 ⊢
  have h3 : s2.Fades kill ((List.range 8).foldl (fun s n => s.settleBarrier tk n) s2) :=
    State.fades_foldl (fun s n => fades_settleBarrier s tk n) _ s2
  exact State.fades_trans h1 (State.fades_trans h2 (State.fades_trans h3 (fades_settleJoins _ tk)))

theorem retireRod_gone {p : FrameId} {n : Nat} {r : Rod} (hr : s.rod? (rodKey p n) = some r) (h : r.liveMask = 0) :
    s.Fades True (s.retireRod (rodKey p n)) ∧ (s.retireRod (rodKey p n)).rod? (rodKey p n) = none := by
  have hgone : (s.eraseRod (rodKey p n)).rod? (rodKey p n) = none := tableFind_tableErase_same _ _
  have herase := fades_eraseRod s hr h
  unfold State.retireRod
  simp only [hr, h, ne_eq, not_true_eq_false, if_false]
  have hafter := fades_afterRod (kill := True) (s.eraseRod (rodKey p n)) (teamKeyOf (rodKey p n) r) r (g := fun t =>
    { t with
      retired := t.retired ||| (1#32 <<< r.rod)
      bars := Vector.ofFn (fun b =>
        if r.arrived.getLsbD b.val then { t.bars[b] with gone := t.bars[b].gone + 1 } else t.bars[b]) })
    (fun t => Team.keeps_of_joins rfl rfl)
  exact ⟨State.fades_trans herase hafter, hafter.noRod p n hgone⟩

theorem Frame.withdrawRequests_fades (f : Frame) (slot : Nat) (m : BitVec 32) : f.Fades (f.withdrawRequests slot m) :=
  ⟨fun _ hy => List.mem_of_mem_filter hy, fun x hx => ⟨x, hx, rfl, id⟩, fun v hv => ⟨v, hv, rfl, rfl, rfl⟩⟩

theorem killRod_gone (p : FrameId) (n : Nat) :
    s.Fades True (s.killRod (rodKey p n)) ∧ (s.killRod (rodKey p n)).rod? (rodKey p n) = none := by
  unfold State.killRod
  cases hr : s.rod? (rodKey p n) with
  | none => exact ⟨State.fades_refl True s, hr⟩
  | some r =>
    dsimp only
    have h0 : s.Fades True (s.modFrame (rodKey p n).frame (fun f => f.withdrawRequests (slotNumber (rodKey p n)) 0xFFFFFFFF)) :=
      State.fades_modFrame_queues (fun f => f.withdrawRequests_fades _ _) (fun f e => by cases e <;> rfl)
    generalize hs0 : s.modFrame (rodKey p n).frame (fun f => f.withdrawRequests (slotNumber (rodKey p n)) 0xFFFFFFFF) = s0 at h0 ⊢
    have hr0 : s0.rod? (rodKey p n) = some r := by rw [← hs0]; exact hr
    have h1 := fades_retireLanes s0 hr0
    have h2 := fades_countFault (kill := True) (s0.retireLanes (rodKey p n) r.liveMask (fun _ => .killed)) r.launch 1
    obtain ⟨h3, hgone⟩ := retireRod_gone ((s0.retireLanes (rodKey p n) r.liveMask (fun _ => .killed)).countFault r.launch 1)
      (rod?_retireLanes s0 hr0) (killed_liveMask r)
    exact ⟨State.fades_trans h0 (State.fades_trans h1 (State.fades_trans h2 h3)), hgone⟩

/-- A saved rod is one of three numbers. -/
def SavedRod.isOf (v : SavedRod) (r : Rod) : Prop := v.rod.launch = r.launch ∧ v.rod.team = r.team ∧ v.rod.rod = r.rod

theorem Frame.dropSavedRod_fades (f : Frame) (launch team rod : Nat) : f.Fades (f.dropSavedRod launch team rod) :=
  ⟨fun _ h => h, fun x hx => ⟨x, hx, rfl, id⟩, fun v hv => ⟨v, List.mem_of_mem_filter hv, rfl, rfl, rfl⟩⟩

theorem killSavedRod_gone (p : FrameId) (r : Rod) :
    s.Fades True (s.killSavedRod p r) ∧ ∀ v ∈ ((s.killSavedRod p r).frame p).savedRods, ¬ v.isOf r := by
  have h1 : s.Fades True (s.modFrame p (fun f => f.dropSavedRod r.launch r.team r.rod)) :=
    State.fades_modFrame_queues (fun f => f.dropSavedRod_fades _ _ _) (fun f e => by cases e <;> rfl)
  have hdrop : ∀ v ∈ ((s.modFrame p (fun f => f.dropSavedRod r.launch r.team r.rod)).frame p).savedRods, ¬ v.isOf r := by
    rintro v hv ⟨ha, hb, hc⟩
    rw [State.frame_modFrame, if_pos rfl] at hv
    simpa [ha, hb, hc] using (List.mem_filter.1 hv).2
  have hafter : (s.modFrame p (fun f => f.dropSavedRod r.launch r.team r.rod)).Fades True (s.killSavedRod p r) := by
    unfold State.killSavedRod
    dsimp only
    generalize s.modFrame p (fun f => f.dropSavedRod r.launch r.team r.rod) = s1
    refine State.fades_trans (State.fades_trans (State.fades_trans
      (State.fades_carry s1 (r.killedItems.foldl (fun t i => closeSlots r.launch i 0xFF t) s1.carry))
      (State.fades_modLaunch _ (fun l => l.withOutcomes_keeps (r.killedItems.map (fun i => (i, .killed))) (s.frameTime p))
        r.launch))
      (fades_countFault _ r.launch (1 + r.engineFaults.length))) ?_
    split
    · refine State.fades_modTeam (fun t => ?_) _
      exact Team.keeps_of_joins rfl rfl
    · refine State.fades_modFrame_queues (fun f => ?_) (fun f e => by cases e <;> rfl)
      exact Frame.fades_of_eq rfl rfl rfl
  refine ⟨State.fades_trans h1 hafter, fun v hv => ?_⟩
  obtain ⟨u, hu, ha, hb, hc⟩ := (hafter.frame p).saved v hv
  exact fun hv => hdrop u hu ⟨ha.trans hv.1, hb.trans hv.2.1, hc.trans hv.2.2⟩

theorem fades_dropSavedTeams {kill : Prop} (p : FrameId) (seq : Nat) : s.Fades kill (s.dropSavedTeams p seq) := by
  unfold State.dropSavedTeams
  split
  · exact State.fades_refl kill s
  · refine State.fades_trans (State.fades_trans ?_ (State.fades_modLaunch _ (fun l => ?_) seq)) (fades_countFault _ seq _)
    · refine State.fades_modFrame_queues (fun f => ?_) (fun f e => by cases e <;> rfl)
      exact Frame.fades_of_eq rfl rfl rfl
    · exact ⟨rfl, rfl, rfl, rfl, fun _ h => h⟩

theorem Frame.withdrawWhere_fades (f : Frame) (c : Cause) (pr : Record → Bool) : f.Fades (f.withdrawWhere c pr) := by
  refine ⟨fun _ h => h, fun x hx => ?_, fun v hv => ⟨v, hv, rfl, rfl, rfl⟩⟩
  obtain ⟨y, hy, rfl⟩ := List.mem_map.1 (List.mem_of_mem_filter hx)
  refine ⟨y, hy, ?_, ?_⟩
  · split
    · unfold Record.withdraw
      split <;> rfl
    · rfl
  · intro h
    split
    · unfold Record.withdraw
      split
      · exact h
      · exact .inl rfl
    · exact h

/-- A condition that a record meets by its launch is met by what its withdrawal leaves of it. -/
theorem withdrawWhere_ended (f : Frame) (c : Cause) (seq : Nat) :
    ∀ x ∈ (f.withdrawWhere c (fun x => x.launch == seq)).records, x.launch = seq → x.ended := by
  intro x hx hseq
  obtain ⟨y, hy, rfl⟩ := List.mem_map.1 (List.mem_of_mem_filter hx)
  split at hseq
  · rename_i h
    rw [if_pos h]
    unfold Record.withdraw
    split
    · rename_i he
      exact (Bool.or_eq_true_iff.1 he)
    · exact .inl rfl
  · rename_i h
    exact absurd (by simpa using hseq) h

/-! ### The kill on a frame -/

/-- What the kill leaves of the launch on a frame: nothing, and of its records those that have ended. -/
structure State.Killed (t : State) (seq : Nat) (p : FrameId) : Prop where
  rods : ∀ n q, t.rod? (rodKey p n) = some q → q.launch ≠ seq
  saved : ∀ v ∈ (t.frame p).savedRods, v.rod.launch ≠ seq
  requests : ∀ y ∈ (t.frame p).requests, y.launch ≠ seq
  records : ∀ x ∈ (t.frame p).records, x.launch = seq → x.ended

theorem rods_kept {kill : Prop} {s t : State} (h : s.Fades kill t) {seq : Nat} {p : FrameId} {n : Nat}
    (hs : ∀ q, s.rod? (rodKey p n) = some q → q.launch ≠ seq) : ∀ q, t.rod? (rodKey p n) = some q → q.launch ≠ seq := by
  intro q hq
  cases hr : s.rod? (rodKey p n) with
  | none => rw [h.noRod p n hr] at hq; cases hq
  | some r =>
    rcases h.rod p n r hr with ⟨q', hq', hk⟩ | ⟨-, hnone, -⟩
    · obtain rfl : q' = q := Option.some.inj (hq'.symm.trans hq)
      rw [hk.launch]
      exact hs r hr
    · rw [hnone] at hq
      cases hq

theorem saved_kept {kill : Prop} {s t : State} (h : s.Fades kill t) {seq : Nat} {p : FrameId}
    (hs : ∀ v ∈ (s.frame p).savedRods, v.rod.launch ≠ seq) : ∀ v ∈ (t.frame p).savedRods, v.rod.launch ≠ seq := by
  intro v hv
  obtain ⟨u, hu, ha, -⟩ := (h.frame p).saved v hv
  rw [← ha]
  exact hs u hu

theorem records_kept {kill : Prop} {s t : State} (h : s.Fades kill t) {seq : Nat} {p : FrameId}
    (hs : ∀ x ∈ (s.frame p).records, x.launch = seq → x.ended) : ∀ x ∈ (t.frame p).records, x.launch = seq → x.ended := by
  intro x hx hseq
  obtain ⟨y, hy, hl, he⟩ := (h.frame p).records x hx
  exact he (hs y hy (hl.trans hseq))

theorem killed_kept {s t : State} {seq : Nat} {p : FrameId} (h : s.Fades True t) (hk : s.Killed seq p) : t.Killed seq p :=
  ⟨fun n => rods_kept h (hk.rods n), saved_kept h hk.saved, fun y hy => hk.requests y ((h.frame p).requests y hy),
    records_kept h hk.records⟩

/-- Every rod of the launch that is resident on the frame is killed. -/
def State.killRods (s : State) (seq : Nat) (p : FrameId) : State :=
  (s.rodsOn p).foldl (fun s e => if e.2.launch = seq then s.killRod (rodKey p e.1) else s) s

/-- Every rod of the launch that lies saved there is killed. -/
def State.killSaved (s : State) (seq : Nat) (p : FrameId) : State :=
  ((s.frame p).savedRods.filter (fun v => v.rod.launch == seq)).foldl (fun s v => s.killSavedRod p v.rod) s

/-- The rods that a frame's kill begins with are those after the cancellations. -/
theorem killFrame_eq (seq : Nat) (p : FrameId) : s.killFrame seq p =
    (((((s.modFrame p (fun f => (f.dropWaits seq).withdrawWhere .deadlineKill (fun x => x.launch == seq))).stripTeams p
      seq).cancelLaunch p seq (fun c => c.st != .running)).killRods seq p).killSaved seq p |>.dropSavedTeams p seq).modFrame p
        (fun f => { f with requests := f.requests.filter (fun q => q.launch != seq) }) := rfl

theorem fades_killRodOf (seq : Nat) (p : FrameId) (e : Nat × Rod) :
    s.Fades True (if e.2.launch = seq then s.killRod (rodKey p e.1) else s) := by
  split
  · exact (killRod_gone s p e.1).1
  · exact State.fades_refl True s

theorem fades_killRods (seq : Nat) (p : FrameId) : s.Fades True (s.killRods seq p) := by
  unfold State.killRods
  exact State.fades_foldl (fun s e => fades_killRodOf s seq p e) _ s

theorem killRods_rods (seq : Nat) (p : FrameId) (n : Nat) :
    ∀ q, (s.killRods seq p).rod? (rodKey p n) = some q → q.launch ≠ seq := by
  intro q hq hseq
  cases hr : s.rod? (rodKey p n) with
  | none => rw [(fades_killRods s seq p).noRod p n hr] at hq; cases hq
  | some r =>
    have hlaunch : r.launch = seq := by
      rcases (fades_killRods s seq p).rod p n r hr with ⟨q', hq', hk⟩ | ⟨-, hnone, -⟩
      · obtain rfl : q' = q := Option.some.inj (hq'.symm.trans hq)
        exact hk.launch.symm.trans hseq
      · rw [hnone] at hq
        cases hq
    have hgone := foldl_reaches_free (R := State.Fades True)
      (f := fun s (e : Nat × Rod) => if e.2.launch = seq then s.killRod (rodKey p e.1) else s)
      (P := fun (e : Nat × Rod) t => e.2.launch = seq → t.rod? (rodKey p e.1) = none)
      (fun s e => fades_killRodOf s seq p e) (fun s e he => by rw [if_pos he]; exact (killRod_gone s p e.1).2)
      (fun s t e h hp he => h.noRod p e.1 (hp he)) (s.rodsOn p) s (a := (n, r))
      (.inl (mem_rodsOn.2 (mem_of_tableFind hr))) hlaunch
    rw [show (s.killRods seq p).rod? (rodKey p n) = none from hgone] at hq
    cases hq

theorem fades_killSaved (seq : Nat) (p : FrameId) : s.Fades True (s.killSaved seq p) := by
  unfold State.killSaved
  exact State.fades_foldl (fun s (v : SavedRod) => (killSavedRod_gone s p v.rod).1) _ s

theorem killSaved_saved (seq : Nat) (p : FrameId) : ∀ v ∈ ((s.killSaved seq p).frame p).savedRods, v.rod.launch ≠ seq := by
  intro v hv hseq
  obtain ⟨u, hu, ha, hb, hc⟩ := ((fades_killSaved s seq p).frame p).saved v hv
  refine foldl_reaches_free (R := State.Fades True) (f := fun s (v : SavedRod) => s.killSavedRod p v.rod)
    (P := fun (u : SavedRod) t => ∀ v ∈ (t.frame p).savedRods, ¬ v.isOf u.rod) (fun s v => (killSavedRod_gone s p v.rod).1)
    (fun s v => (killSavedRod_gone s p v.rod).2) (fun s t u h hp v hv hof => ?_)
    ((s.frame p).savedRods.filter (fun v => v.rod.launch == seq)) s (a := u) (.inl ?_) v hv ⟨ha.symm, hb.symm, hc.symm⟩
  · obtain ⟨w, hw, ha, hb, hc⟩ := (h.frame p).saved v hv
    exact hp w hw ⟨ha.trans hof.1, hb.trans hof.2.1, hc.trans hof.2.2⟩
  · exact List.mem_filter.2 ⟨hu, by simpa using ha.trans hseq⟩

theorem fades_filterRequests {kill : Prop} (p : FrameId) (keep : Request → Bool) :
    s.Fades kill (s.modFrame p (fun f => { f with requests := f.requests.filter keep })) :=
  State.fades_modFrame_queues (fun _ => ⟨fun _ h => List.mem_of_mem_filter h, fun x hx => ⟨x, hx, rfl, id⟩,
    fun v hv => ⟨v, hv, rfl, rfl, rfl⟩⟩) (fun f e => by cases e <;> rfl)

theorem killFrame_killed (seq : Nat) (p : FrameId) : s.Fades True (s.killFrame seq p) ∧ (s.killFrame seq p).Killed seq p := by
  have h0 : s.Fades True (s.modFrame p (fun f => (f.dropWaits seq).withdrawWhere .deadlineKill (fun x => x.launch == seq))) :=
    State.fades_modFrame_queues (fun f => Frame.fades_trans (f.dropWaits_fades seq) (Frame.withdrawWhere_fades _ _ _))
      (fun f e => by cases e <;> rfl)
  have hrec : ∀ x ∈ ((s.modFrame p (fun f =>
      (f.dropWaits seq).withdrawWhere .deadlineKill (fun x => x.launch == seq))).frame p).records, x.launch = seq → x.ended := by
    rw [State.frame_modFrame, if_pos rfl]
    exact withdrawWhere_ended _ _ seq
  rw [killFrame_eq]
  generalize s.modFrame p (fun f => (f.dropWaits seq).withdrawWhere .deadlineKill (fun x => x.launch == seq)) = s0 at h0 hrec ⊢
  have h2 : s0.Fades True ((s0.stripTeams p seq).cancelLaunch p seq (fun c => c.st != .running)) :=
    State.fades_trans (fades_stripTeams s0 p seq) (fades_cancelLaunch _ p seq _)
  generalize (s0.stripTeams p seq).cancelLaunch p seq (fun c => c.st != .running) = s2 at h2 ⊢
  have h3 := fades_killRods s2 seq p
  have hrods := killRods_rods s2 seq p
  generalize s2.killRods seq p = s3 at h3 hrods ⊢
  have h4 := fades_killSaved s3 seq p
  have hsaved := killSaved_saved s3 seq p
  generalize s3.killSaved seq p = s4 at h4 hsaved ⊢
  have h5 := fades_dropSavedTeams (kill := True) s4 p seq
  have h6 := fades_filterRequests (kill := True) (s4.dropSavedTeams p seq) p (fun q => q.launch != seq)
  have h56 := State.fades_trans h5 h6
  have h46 := State.fades_trans h4 h56
  have h26 := State.fades_trans h2 (State.fades_trans h3 h46)
  refine ⟨State.fades_trans h0 h26, fun n => rods_kept h46 (hrods n), saved_kept h56 hsaved, fun y hy => ?_,
    records_kept h26 hrec⟩
  rw [State.frame_modFrame, if_pos rfl] at hy
  simpa using (List.mem_filter.1 hy).2

theorem killed_of_empty {p : FrameId} (h : s.Empty p) (seq : Nat) : s.Killed seq p := by
  refine ⟨fun n q hq => ?_, fun v hv => ?_, fun y hy => ?_, fun x hx => ?_⟩
  · rw [h.rods n] at hq
    cases hq
  · rw [h.frame] at hv
    cases hv
  · rw [h.frame] at hy
    cases hy
  · rw [h.frame] at hx
    cases hx

/-- The kill on every frame that holds something. -/
theorem killFrames (seq : Nat) : s.Fades True (s.framesInUse.foldl (fun s p => s.killFrame seq p) s)
    ∧ ∀ p, (s.framesInUse.foldl (fun s p => s.killFrame seq p) s).Killed seq p := by
  refine ⟨State.fades_foldl (fun s p => (killFrame_killed s seq p).1) _ s, fun p => ?_⟩
  refine foldl_reaches_free (R := State.Fades True) (P := fun p t => t.Killed seq p) (fun s p => (killFrame_killed s seq p).1)
    (fun s p => (killFrame_killed s seq p).2) (fun s t p h hw => killed_kept h hw) _ s ?_
  by_cases h : p ∈ s.framesInUse
  · exact .inl h
  · exact .inr (killed_of_empty s (empty_of_not_inUse s h) seq)

/-- Every frame is done with after wrap-up. -/
theorem wrapFrames (seq : Nat) : s.Fades False (s.framesInUse.foldl (fun s p => s.wrapFrame seq p) s) :=
  State.fades_foldl (fun s p => fades_wrapFrame s seq p) _ s

end

end Sys2Proof.Machine
end

section
namespace Sys2Proof.Machine

/-! ## The threshold, the deadline and the kill of a launch (R93, R99, R442) -/

theorem wrapDue_iff {l : Launch} {now : Nat} : l.wrapDue now = true ↔ l.record.deadline ≠ 0 ∧ l.wrapped = false
    ∧ l.killed = false ∧ l.completed = false ∧ l.record.deadline.toNat - l.record.budget.toNat ≤ now := by
  simp only [Launch.wrapDue, Bool.and_eq_true, bne_iff_ne, Bool.not_eq_true', decide_eq_true_eq, and_assoc]
  exact Iff.rfl

theorem killDue_iff {l : Launch} {now : Nat} : l.killDue now = true ↔ l.record.deadline ≠ 0 ∧ l.killed = false
    ∧ l.completed = false ∧ l.record.deadline.toNat ≤ now := by
  simp only [Launch.killDue, Bool.and_eq_true, bne_iff_ne, Bool.not_eq_true', decide_eq_true_eq, and_assoc]
  exact Iff.rfl

theorem owesDivert_iff {q : Rod} : q.owesDivert = true ↔ ∃ k : Fin 32, q.lanes[k].live = true ∧ q.lanes[k].phase = false := by
  simp [Rod.owesDivert]

theorem Launch.seq_of_launch? {s : State} {seq : Nat} {l : Launch} (h : s.launch? seq = some l) : l.seq = seq := by
  simpa using List.find?_some h

theorem launch?_modLaunch_same {s : State} {seq : Nat} {l : Launch} (h : s.launch? seq = some l) {g : Launch → Launch}
    (hg : ∀ l, (g l).seq = l.seq) : (s.modLaunch seq g).launch? seq = some (g l) := by
  rw [State.launch?_modLaunch s hg, h, Option.map_some, if_pos (Launch.seq_of_launch? h)]

section
variable {s : State} {seq : Nat} {l : Launch} (hl : s.launch? seq = some l)
include hl

/-- Before T_w nothing happens. -/
theorem wrapUpThreshold_of_not_due (h : l.wrapDue s.hub.now.toNat = false) : s.wrapUpThreshold seq = s := by
  unfold State.wrapUpThreshold
  simp only [hl, h, Bool.not_false, if_true]

theorem wrapUpThreshold_of_due (h : l.wrapDue s.hub.now.toNat = true) :
    s.wrapUpThreshold seq = if l.record.budget = 0 then s.deadlineKill seq else s.enterWrapUp seq := by
  unfold State.wrapUpThreshold
  simp only [hl, h, Bool.not_true, Bool.false_eq_true, if_false]
  rfl

theorem deadlineKill_of_not_due (h : l.killDue s.hub.now.toNat = false) : s.deadlineKill seq = s := by
  unfold State.deadlineKill
  simp only [hl, h, Bool.not_false, if_true]

theorem deadlineKill_of_due (h : l.killDue s.hub.now.toNat = true) :
    s.deadlineKill seq = (s.modLaunch seq (fun l => { l with wrapped := true })).killLaunch seq false := by
  unfold State.deadlineKill
  simp only [hl, h, Bool.not_true, Bool.false_eq_true, if_false]

theorem launchKill_of_over (h : l.killed = true ∨ l.completed = true) : s.launchKill seq = s := by
  unfold State.launchKill
  simp only [hl]
  rw [if_pos (by rw [Bool.or_eq_true]; exact h.symm)]

theorem launchKill_of_live (hk : l.killed = false) (hc : l.completed = false) : s.launchKill seq = s.killLaunch seq true := by
  unfold State.launchKill
  simp only [hl, hk, hc, Bool.or_self, Bool.false_eq_true, if_false]

/-- The launch is in wrap-up, on every frame. -/
theorem enterWrapUp_spec : ∃ m, (s.enterWrapUp seq).launch? seq = some m ∧ m.wrapped = true
    ∧ (∀ p, (s.enterWrapUp seq).Wrapped seq p) ∧ (s.enterWrapUp seq).mem = s.mem := by
  have h0 := launch?_modLaunch_same hl (g := fun l => { l with wrapped := true }) (fun _ => rfl)
  have hw := wrapFrames (s.modLaunch seq (fun l => { l with wrapped := true })) seq
  obtain ⟨m, hm, hk⟩ := hw.launch seq _ h0
  exact ⟨m, hm, hk.wrapped, wrapped_all (s.modLaunch seq (fun l => { l with wrapped := true })) seq, hw.mem⟩

/-- Nothing of the launch is left, and its items are recorded. -/
theorem killLaunch_spec (all : Bool) : ∃ m, (s.killLaunch seq all).launch? seq = some m ∧ m.killed = true
    ∧ (all = true → m.killAll = true) ∧ (∀ p, (s.killLaunch seq all).Killed seq p)
    ∧ (∀ p n q, s.rod? (rodKey p n) = some q → q.launch = seq → ∀ k : Fin 32, q.lanes[k].live = true →
        (q.lanes[k].item.toNat, .killed) ∈ m.outcomes)
    ∧ (s.killLaunch seq all).mem = s.mem := by
  have h0 := launch?_modLaunch_same hl (g := fun l => { l with killed := true, killAll := l.killAll || all }) (fun _ => rfl)
  obtain ⟨hf, hk⟩ := killFrames (s.modLaunch seq (fun l => { l with killed := true, killAll := l.killAll || all })) seq
  obtain ⟨m, hm, hkeep⟩ := hf.launch seq _ h0
  refine ⟨m, hm, hkeep.killed, fun ha => by rw [hkeep.killAll, ha, Bool.or_true], hk, fun p n q hq hseq k hlive => ?_, hf.mem⟩
  rcases hf.rod p n q hq with ⟨q', hq', hfade⟩ | ⟨-, -, hrec⟩
  · exact absurd (hfade.launch.trans hseq) ((hk p).rods n q' hq')
  · have := hrec k hlive
    rw [hseq] at this
    exact this m hm

end

/-- DEADLINE_KILL and LAUNCH_KILL of a launch that is there. -/
theorem kills_spec {s : State} {seq : Nat} {l : Launch} (hl : s.launch? seq = some l) {i : Instr}
    (hi : (i = .deadlineKill seq ∧ l.record.deadline ≠ 0 ∧ l.record.deadline.toNat ≤ s.hub.now.toNat) ∨ i = .launchKill seq)
    (hk : l.killed = false) (hc : l.completed = false) :
    ∃ (s0 : State) (all : Bool) (m : Launch), exec i s = .next (s0.killLaunch seq all) ∧ s0.launch? seq = some m
      ∧ (i = .launchKill seq → all = true)
      ∧ s0.rods = s.rods ∧ s0.mem = s.mem := by
  rcases hi with ⟨rfl, hd, hnow⟩ | rfl
  · refine ⟨s.modLaunch seq (fun l => { l with wrapped := true }), false, _, ?_,
      launch?_modLaunch_same hl (g := fun l => { l with wrapped := true }) (fun _ => rfl), nofun, rfl, rfl⟩
    rw [← deadlineKill_of_due hl (killDue_iff.2 ⟨hd, hk, hc, hnow⟩)]
    rfl
  · refine ⟨s, true, l, ?_, hl, fun _ => rfl, rfl, rfl⟩
    rw [← launchKill_of_live hl hk hc]
    rfl

/-! ### The clauses on a launch -/

section
variable (s : State) (seq : Nat) (l : Launch) (hl : s.launch? seq = some l)
include hl

theorem wrapUp_early (h : l.record.deadline = 0 ∨ l.wrapped = true ∨ l.killed = true ∨ l.completed = true
    ∨ s.hub.now.toNat < l.record.deadline.toNat - l.record.budget.toNat) : exec (.wrapUpThreshold seq) s = .next s := by
  refine congrArg Host.Outcome.next (wrapUpThreshold_of_not_due hl ?_)
  rw [← Bool.not_eq_true, wrapDue_iff]
  rintro ⟨hd, hw, hk, hc, hn⟩
  rcases h with h | h | h | h | h
  · exact hd h
  · rw [h] at hw; cases hw
  · rw [h] at hk; cases hk
  · rw [h] at hc; cases hc
  · omega

theorem deadlineKill_early (h : l.record.deadline = 0 ∨ l.killed = true ∨ l.completed = true
    ∨ s.hub.now.toNat < l.record.deadline.toNat) : exec (.deadlineKill seq) s = .next s := by
  refine congrArg Host.Outcome.next (deadlineKill_of_not_due hl ?_)
  rw [← Bool.not_eq_true, killDue_iff]
  rintro ⟨hd, hk, hc, hn⟩
  rcases h with h | h | h | h
  · exact hd h
  · rw [h] at hk; cases hk
  · rw [h] at hc; cases hc
  · omega

end

end Sys2Proof.Machine
end

section
namespace Sys2Proof.Machine

/-! ## The divert of a rod (R94, R104, R436) -/

theorem divertDue_iff {r : Rod} : r.divertDue = true ↔
    r.divert = true ∧ r.stop = .none ∧ ∀ m : Fin 32, r.lanes[m].fence = none := by
  simp [Rod.divertDue, Rod.atBoundary, and_assoc]

theorem divertIfDue_of_due {s : State} {k : RodKey} {r : Rod} (hr : s.rod? k = some r) (h : r.divertDue = true) :
    s.divertIfDue k = (s.modFrame k.frame (fun f =>
      (f.withdrawWhere .deadlineDivert (fun x => r.parkedRecords.contains x.seq && x.ofRod r)).withdrawRequests (slotNumber k)
        0xFFFFFFFF)).setRod k (r.divertTo ((s.recordOfLaunch r.launch).wrapEntry k.frame.die)) := by
  unfold State.divertIfDue State.divertRod
  simp only [hr, h, if_true]

theorem divertIfDue_of_not_due {s : State} {k : RodKey} {r : Rod} (hr : s.rod? k = some r) (h : r.divertDue = false) :
    s.divertIfDue k = s := by
  unfold State.divertIfDue
  simp only [hr, h, Bool.false_eq_true, if_false]

theorem divertTo_frame (r : Rod) (e : DWord) :
    { r.divertTo e with lanes := r.lanes, nextGroup := r.nextGroup } = { r with divert := false } := by
  simp [Rod.divertTo]

theorem divertTo_lane (r : Rod) (e : DWord) (n : Fin 32) : (r.divertTo e).lanes[n] =
    if r.lanes[n].live = true then
      { r.lanes[n] with
        pc := e, st := .runnable, wait := .none, marks := [], phase := true, record := none, group := r.nextGroup }
    else r.lanes[n] := by
  unfold Rod.divertTo
  dsimp only
  rw [mapLanes_lane, show r.liveMask.getLsbD n.val = r.lanes[n].live from maskWhere_getLsbD r Lane.live n]

theorem mem_parkedRecords {r : Rod} {q : BitVec 16} :
    q ∈ r.parkedRecords ↔ ∃ n : Fin 32, r.lanes[n].st = .parked ∧ r.lanes[n].record = some q := by
  simp [Rod.parkedRecords, List.mem_filterMap]

/-- A record that is withdrawn while still in the park queue stays there, under the cause of the withdrawal (R436). -/
theorem withdrawWhere_mem {f : Frame} {c : Cause} {pr : Record → Bool} {x : Record} (hx : x ∈ f.records) (hp : pr x = true)
    (hq : x.queued = true) (hw : x.withdrawn = false) (hr : x.resolved = false) :
    ∃ y ∈ (f.withdrawWhere c pr).records, y.seq = x.seq ∧ y.withdrawn = true ∧ y.cause = c.code ∧ y.orig = x.cause := by
  refine ⟨{ x with withdrawn := true, orig := x.cause, origKept := true, cause := c.code }, ?_, rfl, rfl, rfl, rfl⟩
  have hwd : x.withdraw c = { x with withdrawn := true, orig := x.cause, origKept := true, cause := c.code } := by
    unfold Record.withdraw
    rw [hw, hr]
    rfl
  refine List.mem_filter.2 ⟨List.mem_map.2 ⟨x, hx, ?_⟩, ?_⟩
  · rw [if_pos hp, hwd]
  · simp [hq]

/-- ITEM_DIVERT of a rod that owes its divert and stands at a boundary. -/
theorem itemDivert_due {s : State} {p : FrameId} {n : Nat} {r : Rod} (hr : s.rod? (rodKey p n) = some r) (hd : r.divert = true)
    (hs : r.stop = .none) (hf : ∀ m : Fin 32, r.lanes[m].fence = none) :
    ∃ t q, exec (.itemDivert (rodKey p n)) s = .next t ∧ t.rod? (rodKey p n) = some q
      ∧ { q with lanes := r.lanes, nextGroup := r.nextGroup } = { r with divert := false }
      ∧ (∀ m : Fin 32, r.lanes[m].live = true → { q.lanes[m] with group := r.lanes[m].group } =
          { r.lanes[m] with
            pc := (s.recordOfLaunch r.launch).entryOn p.die + (s.recordOfLaunch r.launch).wrapOff.setWidth 64, st := .runnable
            wait := .none, marks := [], phase := true, record := none })
      ∧ (∀ m j : Fin 32, r.lanes[m].live = true → r.lanes[j].live = true → q.lanes[m].group = q.lanes[j].group)
      ∧ (∀ m : Fin 32, r.lanes[m].live = false → q.lanes[m] = r.lanes[m])
      ∧ (∀ x ∈ (s.frame p).records, (∃ m : Fin 32, r.lanes[m].st = .parked ∧ r.lanes[m].record = some x.seq) →
          x.ofRod r = true → x.queued = true → x.withdrawn = false → x.resolved = false →
          ∃ y ∈ (t.frame p).records, y.seq = x.seq ∧ y.withdrawn = true ∧ y.cause = 0x15 ∧ y.orig = x.cause)
      ∧ t.mem = s.mem ∧ t.teams = s.teams ∧ t.hub = s.hub ∧ t.carry = s.carry := by
  refine ⟨_, _, congrArg Host.Outcome.next (divertIfDue_of_due hr (divertDue_iff.2 ⟨hd, hs, hf⟩)), State.rod?_setRod_same _ _ _,
    divertTo_frame _ _, fun m hl => ?_, fun m j hm hj => ?_, fun m hl => ?_, fun x hx hp ho hq hw hres => ?_, rfl, rfl, rfl, rfl⟩
  · rw [divertTo_lane, if_pos hl]
    rfl
  · rw [divertTo_lane, divertTo_lane, if_pos hm, if_pos hj]
  · rw [divertTo_lane, if_neg (by rw [hl]; exact Bool.false_ne_true)]
  · rw [State.frame_setRod, State.frame_modFrame, if_pos (show p = (rodKey p n).frame from rfl)]
    have hc : r.parkedRecords.contains x.seq = true := List.contains_iff_mem.2 (mem_parkedRecords.2 hp)
    exact withdrawWhere_mem (c := .deadlineDivert) hx (by rw [hc, ho]; rfl) hq hw hres

theorem itemDivert_early {s : State} {k : RodKey} {r : Rod} (hr : s.rod? k = some r) (h : r.divert = false ∨ r.stop ≠ .none) :
    exec (.itemDivert k) s = .next s := by
  refine congrArg Host.Outcome.next (divertIfDue_of_not_due hr ?_)
  rw [← Bool.not_eq_true, divertDue_iff]
  rintro ⟨hd, hs, -⟩
  rcases h with h | h
  · rw [h] at hd
    cases hd
  · exact h hs

/-! ## STUCK_FRAME_WATCHDOG (R56, R442) -/

theorem frameHeld_iff {s : State} {p : FrameId} : s.frameHeld p = true ↔ s.frameStuck p = true ∧ s.evictee p = none := by
  simp [State.frameHeld]

theorem stuckWatchdog_of_not_held {s : State} {p : FrameId} (h : s.frameHeld p = false) :
    s.stuckWatchdog p = s.modFrame p (fun f => { f with stuckSince := none }) := by
  unfold State.stuckWatchdog
  simp only [h, Bool.not_false, if_true]

section
variable {s : State} {p : FrameId} (h : s.frameHeld p = true)
include h

theorem stuckWatchdog_first (hn : (s.frame p).stuckSince = none) :
    s.stuckWatchdog p = s.modFrame p (fun f => { f with stuckSince := some s.hub.now.toNat }) := by
  unfold State.stuckWatchdog
  simp only [h, hn, Bool.not_true, Bool.false_eq_true, if_false]

theorem stuckWatchdog_later {since : Nat} (hn : (s.frame p).stuckSince = some since) : s.stuckWatchdog p =
    if since + 1000 * ((s.frame p).wdog.extractLsb' 16 16).toNat ≤ s.hub.now.toNat then s.stuckReport p else s := by
  unfold State.stuckWatchdog
  simp only [h, hn, Bool.not_true, Bool.false_eq_true, if_false]

end

theorem oldestOf_isSome {α : Type} : ∀ {l : List ((Nat × Nat) × α)}, l ≠ [] → ∃ y, oldestOf l = some y
  | [], h => absurd rfl h
  | x :: l, _ => by
    unfold oldestOf
    split
    · exact ⟨x, rfl⟩
    · split <;> exact ⟨_, rfl⟩

/-- A stuck frame has an oldest rod. -/
theorem oldest_of_stuck {s : State} {p : FrameId} (h : s.frameStuck p = true) : ∃ slot r, (slot, r) ∈ s.rodsOn p
    ∧ oldestOf (s.keyedRods p) = some (ageKey r, (slot, r)) ∧ ∀ e ∈ s.rodsOn p, older (ageKey e.2) (ageKey r) = false := by
  have hne : s.keyedRods p ≠ [] := by
    unfold State.frameStuck at h
    unfold State.keyedRods
    simp only [Bool.and_eq_true, bne_iff_ne, ne_eq] at h
    simpa using h.1
  obtain ⟨y, hy⟩ := oldestOf_isSome hne
  obtain ⟨hm, hall⟩ := oldestOf_spec hy
  obtain ⟨⟨slot, r⟩, he, rfl⟩ := List.mem_map.1 hm
  exact ⟨slot, r, he, hy, fun e he => hall (ageKey e.2, e) (List.mem_map.2 ⟨e, he, rfl⟩)⟩

theorem tableFind_isSome_of_mem {α β : Type} [DecidableEq α] {k : α} {v : β} : ∀ {t : List (α × β)}, (k, v) ∈ t →
    ∃ u, tableFind k t = some u
  | (a, u) :: t, h => by
    unfold tableFind
    split
    · exact ⟨u, rfl⟩
    · rename_i hne
      refine tableFind_isSome_of_mem ((List.mem_cons.1 h).resolve_left (fun e => hne ?_))
      rw [Prod.mk.injEq] at e
      exact e.1.symm

/-- The lanes that the watchdog parks: those that live and are not parked. -/
def Rod.unparked (r : Rod) : BitVec 32 := r.maskWhere (fun y => y.live && y.st != .parked)

theorem park_unparked (r : Rod) (seq : BitVec 16) (m : Fin 32) (hl : r.lanes[m].live = true) :
    (r.park r.unparked seq).lanes[m].st = .parked ∧ (r.park r.unparked seq).lanes[m].pc = r.lanes[m].pc := by
  have hb : r.unparked.getLsbD m.val = (r.lanes[m].live && r.lanes[m].st != .parked) := maskWhere_getLsbD r _ m
  rw [park_lane, hb, hl, Bool.true_and]
  split
  · exact ⟨rfl, rfl⟩
  · rename_i hs
    exact ⟨by simpa using hs, rfl⟩

/-- A frame as the watchdog leaves it before its oldest rod parks. -/
def Frame.stuckOver (f : Frame) (slot : Nat) (m : BitVec 32) : Frame :=
  { (f.withdrawRequests slot m).raise 4 with stuckSince := none }

theorem stuckOver_records (f : Frame) (slot : Nat) (m : BitVec 32) : (f.stuckOver slot m).records = f.records := rfl

theorem stuckOver_event (f : Frame) (slot : Nat) (m : BitVec 32) : (f.stuckOver slot m).event = f.event ||| 16 := rfl

/-- The report of a stuck frame: its oldest rod parks under one record. -/
theorem stuckReport_spec {s : State} {p : FrameId} (h : s.frameStuck p = true) :
    ∃ slot r x, (slot, r) ∈ s.rodsOn p ∧ (∀ e ∈ s.rodsOn p, older (ageKey e.2) (ageKey r) = false)
      ∧ ((s.stuckReport p).frame p).records = (s.frame p).records ++ [x] ∧ x.cause = 0x17 ∧ x.slot = slot
      ∧ x.lanes = r.maskWhere (fun y => y.live && y.st != .parked) ∧ ((s.stuckReport p).frame p).event = (s.frame p).event ||| 16
      ∧ ((s.stuckReport p).frame p).stuckSince = none
      ∧ (s.rod? (rodKey p slot) = some r → ∃ q, (s.stuckReport p).rod? (rodKey p slot) = some q
        ∧ ∀ m : Fin 32, r.lanes[m].live = true → q.lanes[m].st = .parked ∧ q.lanes[m].pc = r.lanes[m].pc)
      ∧ (s.stuckReport p).mem = s.mem ∧ (s.stuckReport p).teams = s.teams := by
  obtain ⟨slot, r, hmem, hold, hall⟩ := oldest_of_stuck h
  obtain ⟨r', hr'⟩ : ∃ r', s.rod? (rodKey p slot) = some r' := tableFind_isSome_of_mem (mem_rodsOn.1 hmem)
  obtain ⟨word, hrep⟩ : ∃ word, s.stuckReport p = (s.modFrame p (fun f => f.stuckOver slot r.unparked)).takeFault
      (rodKey p slot) r.unparked (laneFault .watchdog word 0) := by
    unfold State.stuckReport
    simp only [hold]
    exact ⟨_, rfl⟩
  have hr1 : (s.modFrame p (fun f => f.stuckOver slot r.unparked)).rod? (rodKey p slot) = some r' := hr'
  rw [hrep, takeFault_rod hr1]
  refine ⟨slot, r, recordOf (s.modFrame p (fun f => f.stuckOver slot r.unparked)) (rodKey p slot) r' r.unparked
    (laneFault .watchdog word 0), hmem, hall, ?_, rfl, rfl, rfl, ?_, ?_,
    fun hr => ⟨_, State.rod?_setRod_same _ _ _, fun m hl => ?_⟩, rfl, rfl⟩
  · rw [State.frame_setRod, State.frame_modFrame_same, State.frame_modFrame_same, stuckOver_records]
  · rw [State.frame_setRod, State.frame_modFrame_same, State.frame_modFrame_same, stuckOver_event]
  · rw [State.frame_setRod, State.frame_modFrame_same, State.frame_modFrame_same]
    rfl
  · obtain rfl : r' = r := Option.some.inj (hr'.symm.trans hr)
    exact park_unparked r' _ m hl

/-! ## PARTITION_WATCHDOG (R441, R442) -/

theorem recordWaits_iff {s : State} {p : FrameId} {x : Record} : s.recordWaits p x = true ↔
    ¬ (x.resolved = true ∨ (x.queued = false ∧ (x.withdrawn = true
      ∨ ∀ e ∈ s.rodsOn p, ∀ n : Fin 32, ¬ (e.2.lanes[n].st = .parked ∧ e.2.lanes[n].record = some x.seq)))) := by
  have hany : (s.rodsOn p).any (fun e => e.2.parkedRecords.contains x.seq) = true ↔
      ¬ ∀ e ∈ s.rodsOn p, ∀ n : Fin 32, ¬ (e.2.lanes[n].st = .parked ∧ e.2.lanes[n].record = some x.seq) := by
    rw [List.any_eq_true]
    push Not
    exact exists_congr (fun e => and_congr_right (fun _ => by rw [List.contains_iff_mem, mem_parkedRecords]))
  unfold State.recordWaits
  rw [Bool.and_eq_true, Bool.or_eq_true, Bool.and_eq_true, hany]
  cases x.resolved <;> cases x.queued <;> cases x.withdrawn <;> simp

/-- The first record of the number that still waits. -/
theorem find_waiting {s : State} {p : FrameId} {seq : BitVec 16} {pre post : List Record} {x : Record}
    (hrec : (s.frame p).records = pre ++ x :: post) (hx : x.seq = seq) (hw : s.recordWaits p x = true)
    (hpre : ∀ y ∈ pre, y.seq = seq → s.recordWaits p y = false) :
    (s.frame p).records.find? (fun x => x.seq == seq && s.recordWaits p x) = some x := by
  rw [hrec, List.find?_append, List.find?_eq_none.2 (fun y hy => ?_), Option.none_or, List.find?_cons]
  · simp [hx, hw]
  · by_cases hs : y.seq = seq
    · simp [hpre y hy hs]
    · simp [hs]

theorem partitionWatchdog_of_none {s : State} {p : FrameId} {seq : BitVec 16}
    (h : ∀ x ∈ (s.frame p).records, x.seq = seq → s.recordWaits p x = false) : s.partitionWatchdog p seq = s := by
  have hnone : (s.frame p).records.find? (fun x => x.seq == seq && s.recordWaits p x) = none := by
    rw [List.find?_eq_none]
    intro y hy
    by_cases hs : y.seq = seq
    · simp [h y hy hs]
    · simp [hs]
  unfold State.partitionWatchdog
  simp only [hnone]

theorem partitionWatchdog_of_find {s : State} {p : FrameId} {seq : BitVec 16} {x : Record}
    (h : (s.frame p).records.find? (fun x => x.seq == seq && s.recordWaits p x) = some x) : s.partitionWatchdog p seq =
    if x.since + 1000000 * (s.partOf x.asid.toNat).queueWdogMs ≤ s.hub.now.toNat then
      (s.modFrame p (fun f => { f with records := f.records.map (fun y =>
        if y.seq = seq then { y with since := s.hub.now.toNat } else y) })).report (.partitionWatchdog p seq)
    else s := by
  unfold State.partitionWatchdog
  simp only [h]

/-- A report notes the time at its record, and nothing else of it. -/
theorem records_noted (l : List Record) (seq : BitVec 16) (now : Nat) :
    (l.map (fun y => if y.seq = seq then { y with since := now } else y)).map (fun y => { y with since := 0 })
      = l.map (fun y => { y with since := 0 }) := by
  rw [List.map_map]
  refine List.map_congr_left (fun y _ => ?_)
  dsimp only [Function.comp_apply]
  split <;> rfl

theorem frame_report (s : State) (x : Report) (p : FrameId) : (s.report x).frame p = s.frame p := rfl

/-! ## The moments of package time (R12, R95) -/

/-- A stop of the clock: the least of the moments that lie ahead, if it comes first. -/
theorem foldl_stop_le (now : Nat) : ∀ (l : List Nat) (a : Nat),
    l.foldl (fun a m => if now < m then min a m else a) a ≤ a
      ∧ ∀ m ∈ l, now < m → l.foldl (fun a m => if now < m then min a m else a) a ≤ m
  | [], a => ⟨le_refl a, fun m hm => absurd hm List.not_mem_nil⟩
  | x :: l, a => by
    obtain ⟨h1, h2⟩ := foldl_stop_le now l (if now < x then min a x else a)
    rw [List.foldl_cons]
    refine ⟨h1.trans ?_, fun m hm hn => ?_⟩
    · split <;> omega
    · rcases List.mem_cons.1 hm with rfl | hm
      · refine h1.trans ?_
        rw [if_pos hn]
        omega
      · exact h2 m hm hn

theorem foldl_stop_ge (now : Nat) : ∀ (l : List Nat) (a : Nat), now ≤ a →
    now ≤ l.foldl (fun a m => if now < m then min a m else a) a
  | [], _, h => h
  | x :: l, a, h => by
    rw [List.foldl_cons]
    refine foldl_stop_ge now l _ ?_
    split <;> omega

theorem nextMoment_of_none {s : State} (t : Nat) (h : ∀ m ∈ s.moments, m ≤ s.hub.now.toNat) : s.nextMoment t = t :=
  foldl_fixed (fun m hm => if_neg (Nat.not_lt.2 (h m hm)))

theorem mayDivert_of {r : Rod} (hd : r.divert = true) (hs : r.stop = .none) : r.mayDivert = true := by
  unfold Rod.mayDivert
  rw [hd, hs]
  rfl

theorem divertTo_traps (r : Rod) (e : DWord) : (r.divertTo e).traps = r.traps := by
  simp only [Rod.divertTo, Rod.mapLanes_traps]

theorem takeTrap_of_no_traps {s : State} {k : RodKey} {r : Rod} (f : TrapForm) (hr : s.rod? k = some r) (h : r.traps = []) :
    s.takeTrap k f = s := by
  unfold State.takeTrap
  simp only [hr, h, List.contains_nil, Bool.not_false, Bool.true_or, if_true]

/-- A boundary of a rod for which nothing but its divert waits. -/
theorem boundary_of_divert {s : State} {k : RodKey} {r : Rod} (hd : r.divert = true) (hr : s.rod? k = some r)
    (he : r.engineFaults = []) (ht : r.traps = []) :
    s.boundary k = s.divertIfDue k := by
  have hafter : ∃ q, (s.divertIfDue k).rod? k = some q ∧ q.traps = [] := by
    cases hdue : r.divertDue with
    | false => exact ⟨r, by rwa [divertIfDue_of_not_due hr hdue], ht⟩
    | true =>
      refine ⟨r.divertTo ((s.recordOfLaunch r.launch).wrapEntry k.frame.die), ?_, (divertTo_traps r _).trans ht⟩
      rw [divertIfDue_of_due hr hdue]
      exact State.rod?_setRod_same _ _ _
  obtain ⟨q, hq, hqt⟩ := hafter
  unfold State.boundary
  rw [hr]
  dsimp only
  rw [if_neg (by simp [hd]), he]
  show (((s.takeTrap k .halt).divertIfDue k).takeTrap k .wdog).takeTrap k .slice = _
  rw [takeTrap_of_no_traps .halt hr ht, takeTrap_of_no_traps .wdog hq hqt, takeTrap_of_no_traps .slice hq hqt]

theorem finishFences_of_none {s : State} {k : RodKey} {r : Rod} (hr : s.rod? k = some r)
    (hf : ∀ m : Fin 32, r.lanes[m].fence = none) : s.finishFences k = s := by
  refine foldl_fixed (fun n hn => ?_)
  have := hf ⟨n, List.mem_range.1 hn⟩
  rw [← Rod.lane_lt r (List.mem_range.1 hn)] at this
  simp only [hr, this]

theorem rod?_of_only {s : State} {k : RodKey} {r : Rod} (hr : s.rods = [(k, r)]) : s.rod? k = some r := by
  unfold State.rod?
  rw [hr]
  split
  · simp [tableFind]
  · simp [tableGet, tableFind]

section
variable {s : State} {l : Launch} {k : RodKey} {r : Rod} (hd : r.divert = true) (hs : r.stop = .none) (hseq : r.launch = l.seq)
include hd hs hseq

/-- The last moment of a divert is one at which time stops. -/
theorem divertBy_mem_moments (hl : l ∈ s.hub.launches) (hdl : l.record.deadline ≠ 0) (hc : l.completed = false)
    (hr : (k, r) ∈ s.rods) : l.divertBy k.frame ∈ s.moments := by
  have h : l.divertBy k.frame ∈ s.launchMoments l := by
    unfold State.launchMoments
    rw [hc, Bool.or_false, if_neg (by simpa using hdl)]
    refine List.mem_append_right _ (List.mem_map.2 ⟨(k, r), List.mem_filter.2 ⟨hr, ?_⟩, rfl⟩)
    simp [hseq, mayDivert_of hd hs]
  unfold State.moments
  simp only [List.mem_append]
  exact .inl (.inl (.inl (.inl (.inl (List.mem_flatMap.2 ⟨l, hl, h⟩)))))

/-- Where one rod owes its divert and nothing else waits for it, the divert that time takes is ITEM_DIVERT. -/
theorem forceDiverts_of_only (hr : s.rods = [(k, r)]) (hdue : l.divertBy k.frame ≤ s.hub.now.toNat) (he : r.engineFaults = [])
    (ht : r.traps = []) (hf : ∀ m : Fin 32, r.lanes[m].fence = none) : s.forceDiverts l = s.divertIfDue k := by
  have hrod := rod?_of_only hr
  have hone : s.rods.filter (fun e => e.2.launch == l.seq && e.2.mayDivert && decide (l.divertBy e.1.frame ≤ s.hub.now.toNat))
      = [(k, r)] := by
    rw [hr]
    simp [hseq, mayDivert_of hd hs, hdue]
  unfold State.forceDiverts
  rw [hone, List.foldl_cons, List.foldl_nil, finishFences_of_none hrod hf, boundary_of_divert hd hrod he ht]

end

theorem frameTime_of_due {q : State} {p : FrameId} {t : Nat} (h : q.hub.now.toNat = whenCopyReads p (t + 2000)) :
    q.frameTime p = BitVec.ofNat 64 (t + 2000) := by
  unfold State.frameTime
  rw [h]
  unfold whenCopyReads
  congr 1
  have := Nat.mod_lt (Config.clockSkew p) (show 41 > 0 by decide)
  omega

end Sys2Proof.Machine
end

section
namespace Sys2Proof.Machine

/-! ## ENGINE_WATCHDOG (R66, R303, R442) -/

theorem Engine.stalledFor_iff {q : Engine} {c : Cmd} {since : Nat} :
    q.stalledFor c = some since ↔ q.stalledSince = some ((c.launch, c.team, c.ord), since) := by
  unfold Engine.stalledFor Cmd.stallKey
  cases q.stalledSince with
  | none => simp
  | some m =>
    obtain ⟨key, t⟩ := m
    simp only [Option.bind_some]
    split
    · rename_i hk
      simp [hk]
    · rename_i hk
      simp [hk]

/-- What the end of a reduction that writes nothing leaves of a rod: its place in its team, the faults that wait for it, and the
states of its lanes. -/
structure Rod.LetsGo (r q : Rod) : Prop where
  teamSlot : q.teamSlot = r.teamSlot
  rod : q.rod = r.rod
  faults : q.engineFaults = r.engineFaults
  st : ∀ n : Fin 32, q.lanes[n].st = r.lanes[n].st

theorem endReduce_letsGo (r : Rod) (j : Nat) (p : Partial) : r.LetsGo (r.endReduce j p none) := by
  refine ⟨r.mapLanes_teamSlot _ _, r.mapLanes_rod _ _, r.mapLanes_engineFaults _ _, fun n => ?_⟩
  unfold Rod.endReduce
  rw [mapLanes_lane]
  split
  · split <;> rfl
  · rfl

/-- What the cancellation of commands that have not started leaves alone besides their queue. -/
structure State.LetsGo (s t : State) : Prop where
  mem : t.mem = s.mem
  teams : t.teams = s.teams
  engine : ∀ p e, (t.frame p).engine e = (s.frame p).engine e
  event : ∀ p, (t.frame p).event = (s.frame p).event
  member : ∀ tk n, t.memberSlot tk n = s.memberSlot tk n
  faults : ∀ p n q, s.rod? (rodKey p n) = some q → ∃ q', t.rod? (rodKey p n) = some q' ∧ q'.engineFaults = q.engineFaults
  waits : ∀ p, s.nothingWaits p → t.nothingWaits p

theorem letsGo_refl (s : State) : s.LetsGo s :=
  ⟨rfl, rfl, fun _ _ => rfl, fun _ => rfl, fun _ _ => rfl, fun _ _ q h => ⟨q, h, rfl⟩, fun _ h => h⟩

theorem letsGo_trans {s t u : State} (h : s.LetsGo t) (g : t.LetsGo u) : s.LetsGo u := by
  refine ⟨g.mem.trans h.mem, g.teams.trans h.teams, fun p e => (g.engine p e).trans (h.engine p e),
    fun p => (g.event p).trans (h.event p), fun tk n => (g.member tk n).trans (h.member tk n), fun p n q hq => ?_,
    fun p hp => g.waits p (h.waits p hp)⟩
  obtain ⟨q1, h1, f1⟩ := h.faults p n q hq
  obtain ⟨q2, h2, f2⟩ := g.faults p n q1 h1
  exact ⟨q2, h2, f2.trans f1⟩

theorem filterMap_tableSet {α β γ : Type} [DecidableEq α] (F : α × β → Option γ) {k : α} {u v : β} (h : F (k, v) = F (k, u)) :
    ∀ {t : List (α × β)}, tableFind k t = some u → (tableSet k v t).filterMap F = t.filterMap F
  | (a, w) :: t, hf => by
    unfold tableFind at hf
    unfold tableSet
    split at hf
    · rename_i ha
      cases hf
      subst ha
      rw [if_pos rfl, List.filterMap_cons, List.filterMap_cons, h]
    · rename_i ha
      rw [if_neg ha, List.filterMap_cons, List.filterMap_cons, filterMap_tableSet F h hf]

/-- A rod's place in its team. -/
def memberOf (e : Nat × Rod) : Nat × Nat × Nat := (e.1, e.2.teamSlot, e.2.rod)

/-- Where a team's rod stands rests on the places of the rods alone. -/
theorem memberSlot_eq (s : State) (tk : TeamKey) (n : Nat) : s.memberSlot tk n =
    (((s.rodsOn tk.frame).map memberOf).find? (fun x => x.2.1 == tk.slot && x.2.2 == n)).map Prod.fst := by
  rw [List.find?_map, Option.map_map]
  rfl

theorem memberSlot_setRod {s : State} {p : FrameId} {n : Nat} {r q : Rod} (hr : s.rod? (rodKey p n) = some r)
    (h1 : q.teamSlot = r.teamSlot) (h2 : q.rod = r.rod) (tk : TeamKey) (m : Nat) :
    (s.setRod (rodKey p n) q).memberSlot tk m = s.memberSlot tk m := by
  have h : ((s.setRod (rodKey p n) q).rodsOn tk.frame).map memberOf = (s.rodsOn tk.frame).map memberOf := by
    unfold State.rodsOn
    rw [List.map_filterMap, List.map_filterMap]
    refine filterMap_tableSet _ ?_ hr
    dsimp only [rodKey]
    split
    · simp [memberOf, h1, h2]
    · rfl
  rw [memberSlot_eq, memberSlot_eq, h]

theorem letsGo_setRod {s : State} {p : FrameId} {n : Nat} {r q : Rod} (hr : s.rod? (rodKey p n) = some r) (h : r.LetsGo q) :
    s.LetsGo (s.setRod (rodKey p n) q) := by
  refine ⟨rfl, rfl, fun _ _ => rfl, fun _ => rfl, memberSlot_setRod hr h.teamSlot h.rod, fun a b x hx => ?_, fun a ha => ?_⟩
  · by_cases hk : rodKey a b = rodKey p n
    · rw [hk] at hx ⊢
      obtain rfl : r = x := Option.some.inj (hr.symm.trans hx)
      exact ⟨q, State.rod?_setRod_same _ _ _, h.faults⟩
    · exact ⟨x, by rwa [State.rod?_setRod_ne s q hk], rfl⟩
  · refine nothingWaits_setRod ha (fun hp l => ?_)
    rw [h.st l]
    exact ha.2 _ (mem_of_tableFind hr) hp l

/-- Saved rods change. -/
theorem letsGo_mapSaved (s : State) (p : FrameId) (g : SavedRod → SavedRod) :
    s.LetsGo (s.modFrame p (fun f => { f with savedRods := f.savedRods.map g })) := by
  have hf : ∀ q, ∃ v, (s.modFrame p (fun f => { f with savedRods := f.savedRods.map g })).frame q
      = { s.frame q with savedRods := v } := fun q => by
    rw [State.frame_modFrame]
    split
    · rename_i hq
      exact ⟨_, by rw [hq]⟩
    · exact ⟨(s.frame q).savedRods, rfl⟩
  refine ⟨rfl, rfl, fun q e => ?_, fun q => ?_, fun _ _ => rfl, fun _ _ x h => ⟨x, h, rfl⟩, fun _ h => h⟩
  · obtain ⟨v, hv⟩ := hf q
    rw [hv]
    cases e <;> rfl
  · obtain ⟨v, hv⟩ := hf q
    rw [hv]

theorem letsGo_carry (s : State) (c : List (CarryKey × CarryBuf)) : s.LetsGo { s with carry := c } :=
  ⟨rfl, rfl, fun _ _ => rfl, fun _ => rfl, fun _ _ => rfl, fun _ _ q h => ⟨q, h, rfl⟩, fun _ h => h⟩

theorem letsGo_cancelReduce (s : State) (tk : TeamKey) (launch team j : Nat) (q : Partial) {r : Rod}
    (hr : s.member? tk launch team q.rod = some r) :
    s.LetsGo (s.modMember tk launch team q.rod (fun _ => r.endReduce j q none)) := by
  unfold State.member? at hr
  unfold State.modMember
  cases hs : s.memberSlot tk q.rod with
  | some n =>
    rw [hs] at hr
    dsimp only at hr ⊢
    rw [State.modRod_of_some hr]
    exact letsGo_setRod hr (endReduce_letsGo r j q)
  | none => exact letsGo_mapSaved s tk.frame _

theorem letsGo_finishReduce (s : State) (p : FrameId) (c : Cmd) : s.LetsGo (s.finishReduce p c none) := by
  unfold State.finishReduce
  split
  · exact letsGo_refl s
  refine foldl_keeps letsGo_refl (fun _ _ _ => letsGo_trans) (fun s q => ?_) _ s
  split
  · exact letsGo_refl s
  · rename_i r hr
    exact letsGo_trans (letsGo_cancelReduce s (cmdTeam p c) c.launch c.team _ q hr) (letsGo_carry _ _)

/-- Commands that have not started hold no token and no slot: their cancellation lets their reductions go (R304, R330). -/
theorem cancelWhere_unstarted {s : State} {p : FrameId} {e : EngineId} {pr : Cmd → Bool} (hw : s.nothingWaits p)
    (hpr : ∀ c, pr c = true → c.started = false) :
    (s.modEngine p e (fun q => { q with entries := q.entries.filter (fun c => !pr c) })).LetsGo (s.cancelWhere p e pr) := by
  unfold State.cancelWhere
  dsimp only
  have hfold : ∀ s1 : State, (((s.frame p).engine e).entries.filter pr).foldl
      (fun s c => (s.releaseSlots p c).finishReduce p c none) s1
        = (((s.frame p).engine e).entries.filter pr).foldl (fun s c => s.finishReduce p c none) s1 := by
    intro s1
    refine List.foldl_ext _ _ s1 (fun t c hc => ?_)
    have hns : c.started = false := hpr c (List.mem_filter.1 hc).2
    have : t.releaseSlots p c = t := by
      unfold State.releaseSlots
      rw [hns, if_pos (by rfl)]
    rw [this]
  rw [hfold]
  have hgo := foldl_keeps letsGo_refl (fun _ _ _ => letsGo_trans) (fun s (c : Cmd) => letsGo_finishReduce s p c)
    (((s.frame p).engine e).entries.filter pr)
    (s.modEngine p e (fun q => { q with entries := q.entries.filter (fun c => !pr c) }))
  rw [settleFrame_of_nothingWaits (hgo.waits p hw)]
  exact hgo

/-- A fault for a rod that has started and has not retired waits for it (R303). -/
theorem engineFaultTo_started {s : State} {tk : TeamKey} {x : Team} {launch rod : Nat} {ef : EngineFault}
    (hx : s.team? tk = some x) (hu : rod ∈ x.unretired) (hs : rod < x.started) : s.engineFaultTo tk launch rod ef =
      s.modMember tk x.launch x.number rod (fun r => { r with engineFaults := r.engineFaults ++ [ef] }) := by
  unfold State.engineFaultTo
  simp only [hx, List.contains_iff_mem.2 hu, if_true, hs]

theorem modMember_of_slot {s : State} {tk : TeamKey} {launch team rod n : Nat} {r : Rod} {g : Rod → Rod}
    (hn : s.memberSlot tk rod = some n) (hr : s.rod? (rodKey tk.frame n) = some r) :
    s.modMember tk launch team rod g = s.setRod (rodKey tk.frame n) (g r) := by
  unfold State.modMember
  simp only [hn]
  exact State.modRod_of_some hr g

theorem Frame.raise_engine (f : Frame) (bit : Nat) (e : EngineId) : (f.raise bit).engine e = f.engine e := by cases e <;> rfl

/-- The report of a stalled head: the team's commands that have not started go, and the fault waits for the rod. -/
theorem engineReport_spec {s : State} {p : FrameId} {e : EngineId} {c : Cmd} {n : Nat} {q : Rod} {x : Team}
    (hw : s.nothingWaits p) (hx : s.team? (cmdTeam p c) = some x) (hu : c.rod ∈ x.unretired) (hs : c.rod < x.started)
    (hn : s.memberSlot (cmdTeam p c) c.rod = some n) (hq : s.rod? (rodKey p n) = some q) :
    ∃ q', (((s.engineReport p e c).frame p).engine e).entries =
        ((s.frame p).engine e).entries.filter (fun x => !(x.teamSlot == c.teamSlot && !x.started))
      ∧ ((s.engineReport p e c).frame p).event = (s.frame p).event ||| 16
      ∧ (s.engineReport p e c).rod? (rodKey p n) = some q'
      ∧ q'.engineFaults = q.engineFaults ++
          [{ cause := .watchdog, orig := none, word := c.word, addr := 0, progress := 0, engine := e }]
      ∧ (s.engineReport p e c).mem = s.mem := by
  have hgo := cancelWhere_unstarted (e := e) (pr := fun x => x.teamSlot == c.teamSlot && !x.started) hw (fun d hd => by
    simpa using (Bool.and_eq_true_iff.1 hd).2)
  unfold State.engineReport
  generalize s.cancelWhere p e (fun x => x.teamSlot == c.teamSlot && !x.started) = u at hgo
  obtain ⟨q1, hq1, hf1⟩ := hgo.faults p n q hq
  have hxu : u.team? (cmdTeam p c) = some x := (congrArg (tableFind (cmdTeam p c)) hgo.teams).trans hx
  have hnu : u.memberSlot (cmdTeam p c) c.rod = some n := (hgo.member _ _).trans hn
  rw [engineFaultTo_started hxu hu hs, modMember_of_slot (tk := cmdTeam p c) hnu hq1]
  refine ⟨_, ?_, ?_, State.rod?_setRod_same u (rodKey p n) _, ?_, hgo.mem⟩
  · rw [State.frame_modFrame_same, Frame.raise_engine, State.frame_setRod, hgo.engine]
    unfold State.modEngine
    rw [State.frame_modFrame_same, Frame.engine_setEngine, if_pos rfl]
  · rw [State.frame_modFrame_same, State.frame_setRod]
    show (u.frame p).event ||| 16 = _
    rw [hgo.event]
    unfold State.modEngine
    rw [State.frame_modFrame_same]
    cases e <;> rfl
  · rw [← hf1]

section
variable {s : State} {p : FrameId} {e : EngineId}

theorem engineWatchdog_of_none (h : s.stalledHead p e = none) :
    s.engineWatchdog p e = s.modEngine p e (fun q => { q with stalledSince := none }) := by
  unfold State.engineWatchdog
  simp only [h]

theorem engineWatchdog_first {c : Cmd} (h : s.stalledHead p e = some c) (hs : ((s.frame p).engine e).stalledFor c = none) :
    s.engineWatchdog p e = s.modEngine p e (fun q => { q with stalledSince := some (c.stallKey, s.hub.now.toNat) }) := by
  unfold State.engineWatchdog
  simp only [h, hs]

theorem engineWatchdog_later {c : Cmd} {since : Nat} (h : s.stalledHead p e = some c)
    (hs : ((s.frame p).engine e).stalledFor c = some since) : s.engineWatchdog p e =
      if since + 1000 * ((s.frame p).wdog.extractLsb' 0 16).toNat ≤ s.hub.now.toNat then s.engineReport p e c else s := by
  unfold State.engineWatchdog
  simp only [h, hs]

end

end Sys2Proof.Machine

open Sys2Proof Sys2Proof.Machine

/-- Settles O55: what wrap-up and kill take away fades frame by frame and nothing that settles on the way brings it back; the
divert, the watchdogs and the moments of package time are their definitions, taken case by case. -/
theorem deadlinesAndWatchdogs : Obligations.DeadlinesAndWatchdogs := by
  refine ⟨fun s seq l => ?launch, fun s p n r => ?divert, fun s p => ?stuck, fun s p e => ?engine, fun s p seq => ?partition,
    fun s l k r => ?moment, fun s t ns => ?tick⟩
  case launch =>
    intro c now hl
    refine ⟨wrapUp_early s seq l hl, fun hd hw hk hc hn => ?_, deadlineKill_early s seq l hl,
      fun h => congrArg Host.Outcome.next (launchKill_of_over hl h), fun i hi hk hc => ?_⟩
    · have hdue := wrapUpThreshold_of_due hl (wrapDue_iff.2 ⟨hd, hw, hk, hc, hn⟩)
      refine ⟨fun hb => congrArg Host.Outcome.next (hdue.trans (if_pos hb)), fun hb => ?_⟩
      obtain ⟨m, hm, hwrap, hall, hmem⟩ := enterWrapUp_spec hl
      refine ⟨_, m, congrArg Host.Outcome.next (hdue.trans (if_neg hb)), hm, hwrap, fun p n q hq hseq => ?_,
        fun p => (hall p).entries, fun tk x hx hseq j => ?_, fun p => (hall p).requests, hmem⟩
      · rw [(hall p).divert n q hq hseq, owesDivert_iff]
      · by_contra hj
        exact (hall tk.frame).joins ⟨tk.slot, x, hx, hseq, j, hj⟩
    · obtain ⟨s0, all, l0, hex, hl0, hall, hrods, hmem0⟩ := kills_spec hl hi hk hc
      obtain ⟨m, hm, hkilled, hkillAll, hgone, hitems, hmem⟩ := killLaunch_spec hl0 all
      refine ⟨_, m, hex, hm, hkilled, fun h => hkillAll (hall h), fun p => (hgone p).rods, fun p => (hgone p).saved,
        fun p => (hgone p).requests, fun p => (hgone p).records, fun p n q hq => hitems p n q ?_, hmem.trans hmem0⟩
      exact (congrArg (tableFind (rodKey p n)) hrods).trans hq
  case divert =>
    intro k c hr
    exact ⟨fun hd hs hf => itemDivert_due hr hd hs hf, itemDivert_early hr⟩
  case stuck =>
    intro f now limit
    refine ⟨fun h => congrArg Host.Outcome.next (stuckWatchdog_of_not_held ?_),
      fun hs he hn => congrArg Host.Outcome.next (stuckWatchdog_first (frameHeld_iff.2 ⟨hs, he⟩) hn), fun since hs he hn => ?_⟩
    · rw [← Bool.not_eq_true, frameHeld_iff]
      rintro ⟨hs, he⟩
      rcases h with h | h
      · rw [h] at hs
        cases hs
      · rw [he] at h
        cases h
    · have hlater := stuckWatchdog_later (frameHeld_iff.2 ⟨hs, he⟩) hn
      refine ⟨fun hb => congrArg Host.Outcome.next (hlater.trans (if_neg (Nat.not_le.2 hb))), fun hb => ?_⟩
      obtain ⟨slot, r, x, hspec⟩ := stuckReport_spec hs
      exact ⟨_, slot, r, x, congrArg Host.Outcome.next (hlater.trans (if_pos hb)), hspec⟩
  case engine =>
    intro f now limit
    refine ⟨fun h => congrArg Host.Outcome.next (engineWatchdog_of_none h), fun c hc => ⟨fun hs => ?_, fun since hs hb => ?_,
      fun since n q x hs hb hw hx hu hst hn hq => ?_⟩⟩
    · refine congrArg Host.Outcome.next (engineWatchdog_first hc ?_)
      exact Option.eq_none_iff_forall_ne_some.2 (fun since h => hs since (Engine.stalledFor_iff.1 h))
    · exact congrArg Host.Outcome.next ((engineWatchdog_later hc (Engine.stalledFor_iff.2 hs)).trans (if_neg (Nat.not_le.2 hb)))
    · obtain ⟨q', hspec⟩ := engineReport_spec (e := e) hw hx hu hst hn hq
      exact ⟨_, q', congrArg Host.Outcome.next ((engineWatchdog_later hc (Engine.stalledFor_iff.2 hs)).trans (if_pos hb)), hspec⟩
  case partition =>
    intro ended
    have hended : ∀ x, ended x → s.recordWaits p x = false := fun x hx => by
      rw [← Bool.not_eq_true, recordWaits_iff]
      exact not_not_intro hx
    refine ⟨fun h => congrArg Host.Outcome.next (partitionWatchdog_of_none (fun x hx hs => hended x (h x hx hs))),
      fun pre post x hrec hx hw hpre => ?_⟩
    have hfind := partitionWatchdog_of_find (find_waiting hrec hx (recordWaits_iff.2 hw) (fun y hy hs => hended y (hpre y hy hs)))
    refine ⟨fun hb => congrArg Host.Outcome.next (hfind.trans (if_neg (Nat.not_le.2 hb))), fun hb => ?_⟩
    refine ⟨_, congrArg Host.Outcome.next (hfind.trans (if_pos hb)), rfl, ?_, rfl, rfl, rfl⟩
    rw [frame_report, State.frame_modFrame_same]
    exact records_noted _ seq _
  case moment =>
    intro due hl hd hc hr hseq hdiv hs
    refine ⟨fun t hn => (foldl_stop_le _ s.moments t).2 due (divertBy_mem_moments hdiv hs hseq hl hd hc hr) hn,
      fun q hq => frameTime_of_due hq, fun hone hdue he ht hf => ?_⟩
    exact congrArg Host.Outcome.next (forceDiverts_of_only hdiv hs hseq hone hdue he ht hf).symm
  case tick =>
    exact ⟨foldl_stop_ge _ s.moments t, (foldl_stop_le _ s.moments t).1, nextMoment_of_none t, rfl⟩

end

section
namespace Sys2Proof.Machine

/-! ## The parts of a float encoding (R135, R136) -/

/-- What the facts below ask of a format: a fraction bit beside the hidden bit, and two exponent bits. -/
def FloatFmt.Proper (f : FloatFmt) : Prop := 2 ≤ f.m ∧ 2 ≤ f.expBits

theorem proper_of_floatFmt {code : Nat} {f : FloatFmt} (h : floatFmt code = some f) : f.Proper := by
  have hall : ∀ g ∈ [fp64Fmt, fp32Fmt, f19Fmt, fp16Fmt, bf16Fmt, e5m2Fmt, e4m3Fmt, e3m4Fmt, e3m2Fmt, e2m3Fmt, e2m1Fmt],
      2 ≤ g.m ∧ 2 ≤ g.expBits := by decide
  exact hall f (List.mem_of_getElem? h)

theorem fp32Fmt_proper : fp32Fmt.Proper := proper_of_floatFmt (code := 1) rfl

theorem two_pow_m {f : FloatFmt} (hf : f.Proper) : 2 ^ f.m = 2 * 2 ^ (f.m - 1) := by
  rw [← Nat.pow_succ', Nat.succ_eq_add_one, Nat.sub_add_cancel (Nat.le_of_succ_le hf.1)]

theorem two_le_two_pow_fraction {f : FloatFmt} (hf : f.Proper) : 2 ≤ 2 ^ (f.m - 1) :=
  le_self_pow₀ (by omega) (by have := hf.1; omega)

theorem four_le_two_pow_expBits {f : FloatFmt} (hf : f.Proper) : 4 ≤ 2 ^ f.expBits :=
  Nat.pow_le_pow_right (n := 2) (i := 2) (by omega) hf.2

theorem maxSig_lt {f : FloatFmt} (hf : f.Proper) : f.maxSig < 2 ^ f.m := by
  have := two_pow_m hf
  have := two_le_two_pow_fraction hf
  unfold FloatFmt.maxSig
  cases f.special <;> dsimp only <;> omega

theorem le_maxSig {f : FloatFmt} (hf : f.Proper) : 2 ^ (f.m - 1) ≤ f.maxSig := by
  have := two_pow_m hf
  have := two_le_two_pow_fraction hf
  unfold FloatFmt.maxSig
  cases f.special <;> dsimp only <;> omega

theorem maxField_pos {f : FloatFmt} (hf : f.Proper) : 0 < f.maxField := by
  have := four_le_two_pow_expBits hf
  unfold FloatFmt.maxField
  cases f.special <;> dsimp only <;> omega

theorem maxField_lt {f : FloatFmt} (hf : f.Proper) : f.maxField < 2 ^ f.expBits := by
  have := four_le_two_pow_expBits hf
  unfold FloatFmt.maxField
  cases f.special <;> dsimp only <;> omega

theorem qmin_le_maxQ {f : FloatFmt} (hf : f.Proper) : f.qmin ≤ f.maxQ := by
  have := maxField_pos hf
  unfold FloatFmt.qmin FloatFmt.maxQ
  omega

/-! ### Packing and taking apart -/

section
variable (f : FloatFmt) (s : Bool) {e fr : Nat}

theorem pack_shiftRight_pad (hm : 1 ≤ f.m) :
    f.pack s e fr >>> f.pad = 2 ^ (f.m - 1) * (2 ^ f.expBits * s.toNat + e) + fr := by
  rw [FloatFmt.pack, Nat.shiftLeft_shiftRight, Nat.add_sub_assoc hm, pow_add]
  cases s <;> simp <;> ring

variable {f} (hm : 1 ≤ f.m) (hfr : fr < 2 ^ (f.m - 1))
include hm hfr

theorem frac_pack : f.frac (f.pack s e fr) = fr := by
  rw [FloatFmt.frac, pack_shiftRight_pad f s hm, Nat.mul_add_mod, Nat.mod_eq_of_lt hfr]

theorem pack_shiftRight_fraction : f.pack s e fr >>> (f.pad + (f.m - 1)) = 2 ^ f.expBits * s.toNat + e := by
  rw [Nat.shiftRight_add, pack_shiftRight_pad f s hm, Nat.shiftRight_eq_div_pow,
    Nat.mul_add_div (Nat.two_pow_pos _), Nat.div_eq_of_lt hfr, Nat.add_zero]

variable (he : e < 2 ^ f.expBits)
include he

theorem exp_pack : f.exp (f.pack s e fr) = e := by
  rw [FloatFmt.exp, pack_shiftRight_fraction s hm hfr, Nat.mul_add_mod, Nat.mod_eq_of_lt he]

theorem sign_pack : f.sign (f.pack s e fr) = s := by
  have hbit : f.sign (f.pack s e fr) = (f.pack s e fr >>> (f.pad + (f.m - 1))).testBit f.expBits := by
    rw [FloatFmt.sign, Nat.testBit_shiftRight, Nat.testBit_shiftRight, Nat.add_sub_assoc hm, Nat.add_comm f.expBits,
      Nat.add_assoc]
  rw [hbit, pack_shiftRight_fraction s hm hfr, Nat.testBit_two_pow_mul_add _ he, if_neg (lt_irrefl _), Nat.sub_self]
  cases s <;> rfl

theorem decode_pack (ftz : Bool) : f.decode ftz (f.pack s e fr) =
    if f.isNanEnc e fr then .nan
    else if f.isInfEnc e fr then .inf s
    else if e = 0 then (if ftz then .zero s else .mk' s fr f.qmin)
    else .mk' s (2 ^ (f.m - 1) + fr) ((e : Int) - f.bias - ((f.m : Int) - 1)) := by
  unfold FloatFmt.decode
  rw [sign_pack s hm hfr he, exp_pack s hm hfr he, frac_pack s hm hfr]

end

/-- An encoding without low padding is packed from its own parts. -/
theorem pack_parts {f : FloatFmt} (hm : 1 ≤ f.m) (hpad : f.pad = 0) {x : Nat} (hx : x < 2 ^ f.width) :
    f.pack (f.sign x) (f.exp x) (f.frac x) = x := by
  have hsign : x / 2 ^ (f.m - 1) / 2 ^ f.expBits < 2 := by
    rw [Nat.div_div_eq_div_mul, ← pow_add]
    refine Nat.div_lt_of_lt_mul (lt_of_lt_of_eq hx ?_)
    rw [← pow_succ, FloatFmt.width]
    congr 1
    omega
  have hpack := pack_shiftRight_pad f (f.sign x) (e := f.exp x) (fr := f.frac x) hm
  rw [hpad, Nat.shiftRight_zero] at hpack
  rw [hpack, FloatFmt.sign, FloatFmt.exp, FloatFmt.frac, hpad, Nat.shiftRight_zero, Nat.zero_add, Nat.shiftRight_eq_div_pow,
    Nat.toNat_testBit, Nat.add_sub_assoc hm, Nat.add_comm f.expBits, pow_add, ← Nat.div_div_eq_div_mul, Nat.mod_eq_of_lt hsign,
    Nat.div_add_mod, Nat.div_add_mod]

/-! ### Finite encodings -/

/-- The exponent field and the fraction of a finite value (R136). -/
def FloatFmt.FinEnc (f : FloatFmt) (e fr : Nat) : Prop :=
  fr < 2 ^ (f.m - 1) ∧ e ≤ f.maxField ∧ (e = f.maxField → 2 ^ (f.m - 1) + fr ≤ f.maxSig)

section
variable {f : FloatFmt} (hf : f.Proper) {e fr : Nat} (h : f.FinEnc e fr)
include hf h

theorem FloatFmt.FinEnc.not_special : f.isNanEnc e fr = false ∧ f.isInfEnc e fr = false := by
  obtain ⟨hfr, he, htop⟩ := h
  have := two_pow_m hf
  have := two_le_two_pow_fraction hf
  have := four_le_two_pow_expBits hf
  unfold FloatFmt.isNanEnc FloatFmt.isInfEnc FloatFmt.hasInf
  unfold FloatFmt.maxField at he htop
  unfold FloatFmt.maxSig at htop
  cases hs : f.special <;> simp [hs] at he htop ⊢ <;> omega

theorem FloatFmt.FinEnc.lt_field : e < 2 ^ f.expBits := lt_of_le_of_lt h.2.1 (maxField_lt hf)

theorem decode_pack_finite (s : Bool) : f.decode false (f.pack s e fr) =
    if e = 0 then .mk' s fr f.qmin else .mk' s (2 ^ (f.m - 1) + fr) ((e : Int) - f.bias - ((f.m : Int) - 1)) := by
  obtain ⟨hnan, hinf⟩ := h.not_special hf
  rw [decode_pack s (Nat.le_of_succ_le hf.1) h.1 (h.lt_field hf), hnan, hinf]
  rfl

end

end Sys2Proof.Machine
end

section
namespace Sys2Proof.Machine

/-! ## Dyadic magnitudes in rational numbers -/

theorem bitLen_eq_of_pos {m : Nat} (hm : 0 < m) : bitLen m = Nat.log2 m + 1 := if_neg hm.ne'

theorem lt_two_pow_bitLen (m : Nat) : m < 2 ^ bitLen m := by
  rcases Nat.eq_zero_or_pos m with rfl | hm
  · exact Nat.two_pow_pos _
  · rw [bitLen_eq_of_pos hm]
    exact Nat.lt_log2_self

theorem bitLen_le_of_lt {m n : Nat} (h : m < 2 ^ n) : bitLen m ≤ n := by
  rcases Nat.eq_zero_or_pos m with rfl | hm
  · exact Nat.zero_le n
  · rw [bitLen_eq_of_pos hm]
    exact (Nat.log2_lt hm.ne').2 h

theorem bitLen_pos {m : Nat} (hm : 0 < m) : 0 < bitLen m := bitLen_eq_of_pos hm ▸ Nat.succ_pos _

theorem zpow_two_pos (q : Int) : (0 : ℚ) < 2 ^ q := zpow_pos two_pos q

/-- The significand beyond the last is the hidden bit of the next quantum. -/
theorem two_pow_m_mul_zpow {f : FloatFmt} (hf : f.Proper) (q : Int) :
    ((2 ^ f.m : Nat) : ℚ) * 2 ^ q = ((2 ^ (f.m - 1) : Nat) : ℚ) * 2 ^ (q + 1) := by
  rw [two_pow_m hf, zpow_add_one₀ two_ne_zero, Nat.cast_mul]
  push_cast
  ring

theorem mul_zpow_lt_zpow_bitLen (m : Nat) (e : Int) : (m : ℚ) * 2 ^ e < 2 ^ (e + bitLen m) := by
  rw [zpow_add₀ two_ne_zero, mul_comm, mul_lt_mul_iff_right₀ (zpow_two_pos e), zpow_natCast]
  exact_mod_cast lt_two_pow_bitLen m

theorem zpow_bitLen_le_mul_zpow {m : Nat} (hm : 0 < m) (e : Int) : (2 : ℚ) ^ (e + bitLen m - 1) ≤ m * 2 ^ e := by
  rw [bitLen_eq_of_pos hm, Nat.cast_add_one, ← add_assoc, add_sub_cancel_right, zpow_add₀ two_ne_zero, mul_comm,
    mul_le_mul_iff_left₀ (zpow_two_pos e), zpow_natCast]
  exact_mod_cast Nat.log2_self_le hm.ne'

/-- A power of two over a lesser one is a natural number. -/
theorem zpow_two_split {p q : Int} (h : p ≤ q) : (2 : ℚ) ^ q = ((2 ^ (q - p).toNat : Nat) : ℚ) * 2 ^ p := by
  rw [Nat.cast_pow, Nat.cast_ofNat, ← zpow_natCast, ← zpow_add₀ two_ne_zero, Int.toNat_of_nonneg (sub_nonneg.2 h),
    sub_add_cancel]

/-- Magnitudes of two quanta are compared in the lesser one. -/
theorem mul_zpow_lt_iff_left (a b : Nat) {p q : Int} (h : p ≤ q) :
    (a : ℚ) * 2 ^ q < b * 2 ^ p ↔ a * 2 ^ (q - p).toNat < b := by
  rw [zpow_two_split h, ← mul_assoc, mul_lt_mul_iff_left₀ (zpow_two_pos p)]
  exact_mod_cast Iff.rfl

theorem mul_zpow_lt_iff_right (a b : Nat) {p q : Int} (h : p ≤ q) :
    (a : ℚ) * 2 ^ p < b * 2 ^ q ↔ a < b * 2 ^ (q - p).toNat := by
  rw [zpow_two_split h, ← mul_assoc, mul_lt_mul_iff_left₀ (zpow_two_pos p)]
  exact_mod_cast Iff.rfl

/-- The largest finite value (R136). -/
def FloatFmt.largest (f : FloatFmt) : ℚ := (f.maxSig : ℚ) * 2 ^ f.maxQ

/-- `above` compares with the largest finite value. -/
theorem above_iff {f : FloatFmt} (hf : f.Proper) (sig : Nat) (q : Int) :
    f.above sig q = true ↔ f.largest < (sig : ℚ) * 2 ^ q := by
  have hlow := le_maxSig hf
  have htop := maxSig_lt hf
  have hpos := Nat.two_pow_pos (f.m - 1)
  unfold FloatFmt.above FloatFmt.largest
  split
  · rename_i hq
    rw [mul_zpow_lt_iff_left _ _ hq.le]
    split
    · rw [decide_eq_true_iff, Nat.shiftLeft_eq]
    · rename_i hlen
      have hsig : sig < 2 ^ (f.maxQ - q).toNat :=
        lt_of_lt_of_le (lt_two_pow_bitLen sig) (Nat.pow_le_pow_right two_pos (by omega))
      have hmul : 2 ^ (f.maxQ - q).toNat ≤ f.maxSig * 2 ^ (f.maxQ - q).toNat := Nat.le_mul_of_pos_left _ (by omega)
      simp only [Bool.false_eq_true, false_iff]
      omega
  · rename_i hq
    rw [mul_zpow_lt_iff_right _ _ (not_lt.1 hq)]
    split
    · rename_i hfar
      have hpow : 2 ^ f.m ≤ 2 ^ (q - f.maxQ).toNat := Nat.pow_le_pow_right two_pos (by omega)
      rw [bne_iff_ne]
      refine ⟨fun h => ?_, fun h h0 => by simp [h0] at h⟩
      have := Nat.le_mul_of_pos_left (2 ^ (q - f.maxQ).toNat) (Nat.pos_of_ne_zero h)
      omega
    · rw [decide_eq_true_iff, Nat.shiftLeft_eq]

theorem above_mono {f : FloatFmt} (hf : f.Proper) {a b : Nat} (hab : a ≤ b) {q : Int} (h : f.above a q = true) :
    f.above b q = true := by
  rw [above_iff hf] at h ⊢
  exact h.trans_le (mul_le_mul_of_nonneg_right (Nat.cast_le.2 hab) (zpow_two_pos q).le)

/-- With a significand of the format's width, a value within the largest has at most the largest quantum, and there at most the
largest significand. -/
theorem le_largest_iff {f : FloatFmt} (hf : f.Proper) {sig : Nat} {q : Int} (h : 2 ^ (f.m - 1) ≤ sig) (hlt : sig < 2 ^ f.m) :
    (sig : ℚ) * 2 ^ q ≤ f.largest ↔ q ≤ f.maxQ ∧ (q = f.maxQ → sig ≤ f.maxSig) := by
  have hlow := le_maxSig hf
  have htop := maxSig_lt hf
  have hm := two_pow_m hf
  have hdouble {p q : Int} (hpq : p < q) : 2 ≤ 2 ^ (q - p).toNat := le_self_pow₀ (by omega) (by omega)
  rcases lt_trichotomy q f.maxQ with hq | rfl | hq
  · have := Nat.mul_le_mul hlow (hdouble hq)
    rw [← not_lt, FloatFmt.largest, mul_zpow_lt_iff_left _ _ hq.le]
    omega
  · rw [FloatFmt.largest, mul_le_mul_iff_left₀ (zpow_two_pos _), Nat.cast_le]
    omega
  · have := Nat.mul_le_mul h (hdouble hq)
    rw [← not_lt, FloatFmt.largest, mul_zpow_lt_iff_right _ _ hq.le]
    omega

end Sys2Proof.Machine
end

section
namespace Sys2Proof.Machine

/-! ## Encodings and their values (R135, R136) -/

/-- The encoding decodes to a finite value of this sign and magnitude. -/
def FloatFmt.Has (f : FloatFmt) (neg : Bool) (n : Nat) (v : ℚ) : Prop :=
  ∃ (a : Nat) (b : Int), f.decode false n = .fin neg a b false ∧ (a : ℚ) * 2 ^ b = v

section
variable {f : FloatFmt} (hf : f.Proper) (neg : Bool)
include hf

theorem decode_zeroEnc : f.decode false (f.zeroEnc neg) = .zero neg :=
  decode_pack_finite hf (s := neg) ⟨Nat.two_pow_pos _, Nat.zero_le _, fun h => absurd h (maxField_pos hf).ne⟩

theorem decode_infEnc (hinf : f.hasInf = true) : f.decode false (f.infEnc neg) = .inf neg := by
  have := four_le_two_pow_expBits hf
  rw [FloatFmt.infEnc, decode_pack neg (Nat.le_of_succ_le hf.1) (Nat.two_pow_pos _) (by omega)]
  have hs : f.special = .ieee := by simpa [FloatFmt.hasInf] using hinf
  simp [FloatFmt.isNanEnc, FloatFmt.isInfEnc, hs, hinf]

/-- A significand below the hidden bit, packed. -/
theorem decode_pack_subnormal {sig : Nat} (h0 : sig ≠ 0) (h : sig < 2 ^ (f.m - 1)) :
    f.decode false (f.pack neg 0 sig) = .fin neg sig f.qmin false := by
  rw [decode_pack_finite hf (s := neg) ⟨h, Nat.zero_le _, fun h => absurd h (maxField_pos hf).ne⟩, if_pos rfl]
  exact if_neg h0

/-- A significand with the hidden bit, packed. -/
theorem decode_pack_normal {sig : Nat} {q : Int} (h : 2 ^ (f.m - 1) ≤ sig) (hlt : sig < 2 ^ f.m) (hq : f.qmin ≤ q)
    (hle : (sig : ℚ) * 2 ^ q ≤ f.largest) :
    f.decode false (f.pack neg (q + f.bias + ((f.m : Int) - 1)).toNat (sig - 2 ^ (f.m - 1))) = .fin neg sig q false := by
  obtain ⟨hmax, htop⟩ := (le_largest_iff hf h hlt).1 hle
  have hm := two_pow_m hf
  have hpos := Nat.two_pow_pos (f.m - 1)
  unfold FloatFmt.qmin at hq
  unfold FloatFmt.maxQ at hmax htop
  rw [decode_pack_finite hf (s := neg) ⟨by omega, by omega, by omega⟩, if_neg (by omega), Nat.add_sub_cancel' h,
    show (((q + f.bias + ((f.m : Int) - 1)).toNat : Nat) : Int) - f.bias - ((f.m : Int) - 1) = q by omega]
  exact if_neg (by omega)

theorem has_maxEnc : f.Has neg (f.maxEnc neg) f.largest := by
  have hfield : (f.maxQ + f.bias + ((f.m : Int) - 1)).toNat = f.maxField := by
    unfold FloatFmt.maxQ
    omega
  refine ⟨f.maxSig, f.maxQ, ?_, rfl⟩
  rw [FloatFmt.maxEnc, ← hfield]
  exact decode_pack_normal hf neg (le_maxSig hf) (maxSig_lt hf) (qmin_le_maxQ hf) le_rfl

/-- The encoding put for a significand and a quantum of the format has their value. -/
theorem has_encode {sig : Nat} {q : Int} (h0 : sig ≠ 0) (hsig : sig ≤ 2 ^ f.m) (hq : f.qmin ≤ q)
    (hnorm : q = f.qmin ∨ 2 ^ (f.m - 1) ≤ sig) (hle : (sig : ℚ) * 2 ^ q ≤ f.largest) :
    f.Has neg (f.encode neg sig q false) (sig * 2 ^ q) := by
  have hm := two_pow_m hf
  have hpos := Nat.two_pow_pos (f.m - 1)
  unfold FloatFmt.encode
  rw [if_neg h0]
  split
  · rename_i hlt
    obtain rfl : q = f.qmin := hnorm.resolve_right (not_le.2 hlt)
    exact ⟨sig, f.qmin, decode_pack_subnormal hf neg h0 hlt, rfl⟩
  · rename_i hge
    split
    · rename_i hlt
      exact ⟨sig, q, decode_pack_normal hf neg (not_lt.1 hge) hlt hq hle, rfl⟩
    · rename_i htop
      obtain rfl : sig = 2 ^ f.m := by omega
      rw [two_pow_m_mul_zpow hf] at hle ⊢
      rw [show 2 ^ f.m / 2 = 2 ^ (f.m - 1) by omega]
      exact ⟨_, _, decode_pack_normal hf neg le_rfl (by omega) (by omega) hle, rfl⟩

end

end Sys2Proof.Machine
end

section
namespace Sys2Proof.Machine

/-! ## A magnitude cut at a quantum (R150, R152) -/

/-- The cut of `y`, a magnitude in units of the quantum: its whole part, and all that the modes read of its fraction. -/
structure Cut.Reads (c : Cut) (y : ℚ) : Prop where
  whole : c.k = 0 → c.frac = 0
  sig : (c.sig : Int) = ⌊y⌋
  exact : c.exact = true ↔ Int.fract y = 0
  aboveHalf : 2 ^ c.k < 2 * c.frac ↔ 1 / 2 < Int.fract y
  half : 2 ^ c.k = 2 * c.frac ↔ Int.fract y = 1 / 2
  /-- What follows the bits held decides no tie. -/
  tie : 2 ^ c.k = 2 * c.frac → c.more = false
  draw : ((c.frac * 2 ^ 16 / 2 ^ c.k : Nat) : Int) = ⌊Int.fract y * 2 ^ 16⌋

/-- The bits of a natural number below `2^k` cut off. -/
theorem reads_of_bits (m k : Nat) : Cut.Reads ⟨m / 2 ^ k, m % 2 ^ k, k, false⟩ ((m : ℚ) / 2 ^ k) := by
  have hcast : (2 : ℚ) ^ k = ((2 ^ k : Nat) : ℚ) := by push_cast; rfl
  have hpos : (0 : ℚ) < ((2 ^ k : Nat) : ℚ) := Nat.cast_pos.2 (Nat.two_pow_pos k)
  have hfract : Int.fract ((m : ℚ) / 2 ^ k) = ((m % 2 ^ k : Nat) : ℚ) / (2 ^ k : Nat) := by
    rw [hcast, Int.fract_div_natCast_eq_div_natCast_mod]
  refine ⟨fun h => ?_, ?_, ?_, ?_, ?_, fun _ => rfl, ?_⟩
  · exact (congrArg (m % 2 ^ ·) h).trans (Nat.mod_one m)
  · rw [hcast, Rat.floor_natCast_div_natCast]
    rfl
  · rw [hfract, div_eq_zero_iff, or_iff_left hpos.ne', Nat.cast_eq_zero]
    simp [Cut.exact]
  · rw [hfract, div_lt_div_iff₀ two_pos hpos]
    norm_cast
    rw [one_mul, Nat.mul_comm]
  · rw [hfract, div_eq_div_iff hpos.ne' two_ne_zero]
    norm_cast
    rw [one_mul, Nat.mul_comm]
    exact eq_comm
  · have hshift : ((m % 2 ^ k : Nat) : ℚ) * 2 ^ 16 = ((m % 2 ^ k * 2 ^ 16 : Nat) : ℚ) := by push_cast; rfl
    rw [hfract, div_mul_eq_mul_div, hshift, Rat.floor_natCast_div_natCast]
    rfl

/-- A magnitude far below the quantum, of which the cut keeps that it is there. -/
theorem reads_of_tiny {k : Nat} (hk : 20 < k) {y : ℚ} (h0 : 0 < y) (h : y * 2 ^ 20 < 1) : Cut.Reads ⟨0, 1, k, true⟩ y := by
  have hpow : 2 ^ 21 ≤ 2 ^ k := Nat.pow_le_pow_right two_pos hk
  have hfloor : ⌊y⌋ = 0 := Int.floor_eq_zero_iff.2 ⟨h0.le, by linarith⟩
  have hfract : Int.fract y = y := by rw [Int.fract, hfloor, Int.cast_zero, sub_zero]
  have hdraw : ⌊y * 2 ^ 16⌋ = 0 := Int.floor_eq_zero_iff.2 ⟨by positivity, by linarith⟩
  refine ⟨fun h => absurd (show k = 0 from h) (by omega), hfloor.symm, ?_, ?_, ?_, ?_, ?_⟩ <;> simp only [hfract]
  · exact iff_of_false (by simp [Cut.exact]) h0.ne'
  · exact iff_of_false (by omega) (by linarith)
  · exact iff_of_false (by omega) (by linarith)
  · omega
  · rw [hdraw, Nat.div_eq_of_lt (by omega)]
    rfl

theorem cutAt_reads {m : Nat} (hm : 0 < m) (e q : Int) : (cutAt m e false q).Reads ((m : ℚ) * 2 ^ e / 2 ^ q) := by
  have hscale : (m : ℚ) * 2 ^ e / 2 ^ q = m * 2 ^ (e - q) := by rw [zpow_sub₀ two_ne_zero, mul_div_assoc]
  unfold cutAt
  dsimp only
  split
  · rename_i hle
    have hbits := reads_of_bits (m <<< (-(q - e)).toNat) 0
    rw [pow_zero, Nat.div_one, Nat.mod_one, pow_zero, div_one, Nat.shiftLeft_eq] at hbits
    rw [hscale, Nat.shiftLeft_eq, show e - q = ((-(q - e)).toNat : Int) by omega, zpow_natCast]
    exact_mod_cast hbits
  · rename_i hpos
    split
    · rename_i hfar
      refine reads_of_tiny (by have := bitLen_pos hm; omega) (by have := zpow_two_pos e; have := zpow_two_pos q; positivity) ?_
      calc (m : ℚ) * 2 ^ e / 2 ^ q * 2 ^ 20 = m * 2 ^ (e - q + 20) := by
            rw [hscale, mul_assoc, zpow_add₀ two_ne_zero]
            norm_cast
        _ < 2 ^ (e - q + 20 + bitLen m) := mul_zpow_lt_zpow_bitLen m _
        _ ≤ 1 := zpow_le_one_of_nonpos₀ one_le_two (by omega)
    · rw [hscale, Nat.shiftRight_eq_div_pow, show e - q = -((q - e).toNat : Int) by omega, zpow_neg, zpow_natCast,
        ← div_eq_mul_inv]
      exact reads_of_bits m _

section
variable {c : Cut} {y : ℚ} (h : c.Reads y)
include h

theorem Cut.Reads.sig_add_fract : (c.sig : ℚ) + Int.fract y = y := by
  rw [show (c.sig : ℚ) = ((c.sig : Int) : ℚ) from (Int.cast_natCast c.sig).symm, h.sig, Int.floor_add_fract]

/-! ### Which neighbour each mode takes (R150, R152) -/

variable (d : Nat) (neg : Bool)

theorem Cut.Reads.away_nearestEven :
    c.away 0 d neg = true ↔ 1 / 2 < Int.fract y ∨ Int.fract y = 1 / 2 ∧ c.sig % 2 = 1 := by
  rw [← h.aboveHalf, ← h.half]
  simp only [Cut.away, Bool.or_eq_true, Bool.and_eq_true, decide_eq_true_iff, beq_iff_eq]
  refine or_congr_right (and_congr_right fun htie => ?_)
  simp [h.tie htie]

theorem Cut.Reads.away_nearestAway : c.away 4 d neg = true ↔ 1 / 2 ≤ Int.fract y := by
  rw [le_iff_lt_or_eq, eq_comm (a := (1 / 2 : ℚ)), ← h.aboveHalf, ← h.half, ← le_iff_lt_or_eq]
  simp only [Cut.away, Bool.and_eq_true, bne_iff_ne, decide_eq_true_iff]
  refine and_iff_right_of_imp fun hle hk => ?_
  rw [h.whole hk, hk] at hle
  exact absurd hle (by decide)

theorem Cut.Reads.away_draw : c.away 5 d neg = true ↔ (d : Int) < ⌊Int.fract y * 2 ^ 16⌋ := by
  rw [← h.draw, Nat.cast_lt]
  simp only [Cut.away, Bool.and_eq_true, Bool.not_eq_true', decide_eq_true_iff]
  refine and_iff_right_of_imp fun hlt => ?_
  rw [← Bool.not_eq_true, h.exact]
  intro h0
  have hdraw := h.draw
  rw [h0, zero_mul, Int.floor_zero, Nat.cast_eq_zero] at hdraw
  omega

end

/-- The mode rounds toward zero for this sign (R150). -/
def TowardZero (mode : Nat) (neg : Bool) : Prop := mode = 1 ∨ (mode = 2 ∧ neg = false) ∨ (mode = 3 ∧ neg = true)

/-- The mode rounds away from zero for this sign (R150). -/
def AwayFromZero (mode : Nat) (neg : Bool) : Prop := (mode = 2 ∧ neg = true) ∨ (mode = 3 ∧ neg = false)

theorem away_towardZero (c : Cut) (d : Nat) {mode : Nat} {neg : Bool} (h : TowardZero mode neg) : c.away mode d neg = false := by
  rcases h with rfl | ⟨rfl, rfl⟩ | ⟨rfl, rfl⟩ <;> rfl

theorem away_awayFromZero (c : Cut) (d : Nat) {mode : Nat} {neg : Bool} (h : AwayFromZero mode neg) :
    c.away mode d neg = !c.exact := by
  rcases h with ⟨rfl, rfl⟩ | ⟨rfl, rfl⟩ <;> rfl

/-! ### The integer each mode takes -/

/-- `n` is the integer nearest to `y`, the even one at a tie. -/
def NearestEven (y : ℚ) (n : Nat) : Prop := |y - n| ≤ 1 / 2 ∧ (|y - n| = 1 / 2 → n % 2 = 0)

/-- `n` is the integer nearest to `y`, the greater one at a tie. -/
def NearestAway (y : ℚ) (n : Nat) : Prop := |y - n| ≤ 1 / 2 ∧ (|y - n| = 1 / 2 → y < n)

theorem rounded_of_away {c : Cut} {mode d : Nat} {neg : Bool} (h : c.away mode d neg = true) :
    c.rounded mode d neg = c.sig + 1 := if_pos h

theorem rounded_of_not_away {c : Cut} {mode d : Nat} {neg : Bool} (h : ¬ c.away mode d neg = true) :
    c.rounded mode d neg = c.sig := if_neg h

theorem sig_le_rounded (c : Cut) (mode d : Nat) (neg : Bool) : c.sig ≤ c.rounded mode d neg := by
  unfold Cut.rounded
  split <;> omega

theorem rounded_le_succ (c : Cut) (mode d : Nat) (neg : Bool) : c.rounded mode d neg ≤ c.sig + 1 := by
  unfold Cut.rounded
  split <;> omega

section
variable {c : Cut} {y : ℚ} (h : c.Reads y) (d : Nat) (neg : Bool)
include h

theorem Cut.Reads.nearestEven : NearestEven y (c.rounded 0 d neg) := by
  have hy := h.sig_add_fract
  have h0 := Int.fract_nonneg y
  have h1 := Int.fract_lt_one y
  by_cases ha : c.away 0 d neg = true
  · rw [rounded_of_away ha]
    rw [h.away_nearestEven] at ha
    have hdist : |y - (c.sig + 1 : Nat)| = 1 - Int.fract y := by
      rw [abs_of_nonpos (by push_cast; linarith)]
      push_cast
      linarith
    rw [NearestEven, hdist]
    rcases ha with ha | ⟨ha, hodd⟩
    · exact ⟨by linarith, fun _ => by linarith⟩
    · exact ⟨by linarith, fun _ => by omega⟩
  · rw [rounded_of_not_away ha]
    rw [h.away_nearestEven, not_or, not_lt] at ha
    have hdist : |y - c.sig| = Int.fract y := by
      rw [abs_of_nonneg (by linarith)]
      linarith
    rw [NearestEven, hdist]
    exact ⟨ha.1, fun htie => Nat.mod_two_ne_one.1 fun hodd => ha.2 ⟨htie, hodd⟩⟩

theorem Cut.Reads.nearestAway : NearestAway y (c.rounded 4 d neg) := by
  have hy := h.sig_add_fract
  have h0 := Int.fract_nonneg y
  have h1 := Int.fract_lt_one y
  by_cases ha : c.away 4 d neg = true
  · rw [rounded_of_away ha]
    rw [h.away_nearestAway] at ha
    have hlt : y < (c.sig + 1 : Nat) := by
      push_cast
      linarith
    refine ⟨?_, fun _ => hlt⟩
    rw [abs_of_neg (by linarith)]
    push_cast
    linarith
  · rw [rounded_of_not_away ha]
    rw [h.away_nearestAway, not_le] at ha
    rw [NearestAway, abs_of_nonneg (by linarith)]
    exact ⟨by linarith, fun htie => by linarith⟩

theorem Cut.Reads.rounded_towardZero {mode : Nat} (hmode : TowardZero mode neg) : (c.rounded mode d neg : Int) = ⌊y⌋ := by
  rw [rounded_of_not_away (Bool.not_eq_true _ ▸ away_towardZero c d hmode), h.sig]

theorem Cut.Reads.rounded_awayFromZero {mode : Nat} (hmode : AwayFromZero mode neg) : (c.rounded mode d neg : Int) = ⌈y⌉ := by
  have hy := h.sig_add_fract
  have h1 := Int.fract_lt_one y
  have h0 := Int.fract_nonneg y
  have haway := away_awayFromZero c d hmode
  rw [eq_comm, Int.ceil_eq_iff, Int.cast_natCast]
  cases hex : c.exact with
  | true =>
    rw [hex] at haway
    rw [rounded_of_not_away (by simp [haway])]
    rw [h.exact] at hex
    constructor <;> linarith
  | false =>
    rw [hex] at haway
    rw [rounded_of_away haway]
    have hne : Int.fract y ≠ 0 := fun h0 => by
      rw [h.exact.2 h0] at hex
      cases hex
    have hpos : 0 < Int.fract y := lt_of_le_of_ne h0 hne.symm
    push_cast
    constructor <;> linarith

theorem Cut.Reads.rounded_draw :
    (c.rounded 5 d neg : Int) = ⌊y⌋ + if (d : Int) < ⌊Int.fract y * 2 ^ 16⌋ then 1 else 0 := by
  rw [← h.sig, ← if_congr (h.away_draw d neg) rfl rfl, Cut.rounded]
  split <;> simp

end

/-- A stochastic rounding takes no more than rounding away from zero does. -/
theorem rounded_draw_le (c : Cut) (d : Nat) (neg : Bool) : c.rounded 5 d neg ≤ c.rounded 3 0 false := by
  by_cases ha : c.away 5 d neg = true
  · have hup : c.away 3 0 false = true := (Bool.and_eq_true_iff.1 ha).1
    rw [rounded_of_away ha, rounded_of_away hup]
  · rw [rounded_of_not_away ha]
    exact sig_le_rounded c 3 0 false

/-! ### Where the integer taken exceeds a bound -/

section
variable {y : ℚ} {n : Nat} (b : Nat)

theorem NearestEven.lt_iff (h : NearestEven y n) : b < n ↔ (b : ℚ) + 1 / 2 < y ∨ y = b + 1 / 2 ∧ b % 2 = 1 := by
  obtain ⟨hdist, htie⟩ := h
  obtain ⟨hlo, hhi⟩ := abs_le.1 hdist
  constructor
  · intro hb
    have hb' : (b : ℚ) + 1 ≤ n := by exact_mod_cast hb
    rcases (show (b : ℚ) + 1 / 2 ≤ y by linarith).lt_or_eq with hlt | heq
    · exact .inl hlt
    · have hn : n = b + 1 := by
        have hle : (n : ℚ) ≤ b + 1 := by linarith
        have : n ≤ b + 1 := by exact_mod_cast hle
        omega
      have heven := htie (by rw [← heq, hn, abs_of_nonpos (by push_cast; linarith)]; push_cast; ring)
      exact .inr ⟨heq.symm, by omega⟩
  · intro hb
    by_contra hn
    have hn' : (n : ℚ) ≤ b := by exact_mod_cast not_lt.1 hn
    rcases hb with hb | ⟨hb, hodd⟩
    · linarith
    · have hn : n = b := by
        have hle : (b : ℚ) ≤ n := by linarith
        have : b ≤ n := by exact_mod_cast hle
        omega
      have heven := htie (by rw [hb, hn, abs_of_nonneg (by linarith)]; ring)
      omega

theorem NearestAway.lt_iff (h : NearestAway y n) : b < n ↔ (b : ℚ) + 1 / 2 ≤ y := by
  obtain ⟨hdist, htie⟩ := h
  obtain ⟨hlo, hhi⟩ := abs_le.1 hdist
  constructor
  · intro hb
    have hb' : (b : ℚ) + 1 ≤ n := by exact_mod_cast hb
    linarith
  · intro hb
    by_contra hn
    have hn' : (n : ℚ) ≤ b := by exact_mod_cast not_lt.1 hn
    have := htie (by rw [abs_of_nonneg (by linarith)]; linarith)
    linarith

theorem lt_iff_of_eq_floor (h : (n : Int) = ⌊y⌋) : b < n ↔ (b : ℚ) + 1 ≤ y := by
  rw [← Nat.cast_lt (α := Int), h, ← Int.add_one_le_iff, Int.le_floor]
  push_cast
  rfl

theorem lt_iff_of_eq_ceil (h : (n : Int) = ⌈y⌉) : b < n ↔ (b : ℚ) < y := by
  rw [← Nat.cast_lt (α := Int), h, Int.lt_ceil, Int.cast_natCast]

end

end Sys2Proof.Machine
end

section
namespace Sys2Proof.Machine

/-! ## Rounding to a format (R151, R152) -/

/-- The quantum of a magnitude in a format. -/
def FloatFmt.quantum (f : FloatFmt) (m : Nat) (e : Int) : Int := max (e + (bitLen m : Int) - 1 - ((f.m : Int) - 1)) f.qmin

/-- The magnitude cut at its quantum. -/
def FloatFmt.cut (f : FloatFmt) (m : Nat) (e : Int) : Cut := cutAt m e false (f.quantum m e)

theorem qmin_le_quantum (f : FloatFmt) (m : Nat) (e : Int) : f.qmin ≤ f.quantum m e := le_max_right _ _

section
variable {f : FloatFmt} {r : Rounding} {neg : Bool} {m : Nat} {e : Int}

theorem round_of_ne_five (h : r.mode ≠ 5) : f.round r neg m e false =
    if f.above ((f.cut m e).rounded r.mode r.d neg) (f.quantum m e) then .overflow
    else .value ((f.cut m e).rounded r.mode r.d neg) (f.quantum m e) := if_neg h

/-- Under mode 5 the largest finite value is exceeded where what is rounded away from zero exceeds it. -/
theorem round_of_five (hf : f.Proper) (h : r.mode = 5) : f.round r neg m e false =
    if f.above ((f.cut m e).rounded 0 0 neg) (f.quantum m e) then .overflow
    else if f.above ((f.cut m e).rounded 3 0 false) (f.quantum m e) then .value f.maxSig f.maxQ
    else .value ((f.cut m e).rounded 5 r.d neg) (f.quantum m e) := by
  have hup : (f.above (f.cut m e).sig (f.quantum m e)
      || (f.above ((f.cut m e).sig + 1) (f.quantum m e) && !(f.cut m e).exact)) =
        f.above ((f.cut m e).rounded 3 0 false) (f.quantum m e) := by
    have haway := away_awayFromZero (f.cut m e) 0 (mode := 3) (neg := false) (.inr ⟨rfl, rfl⟩)
    cases hex : (f.cut m e).exact with
    | true => rw [rounded_of_not_away (by simp [haway, hex])]; simp
    | false =>
      rw [rounded_of_away (by simp [haway, hex]), Bool.not_false, Bool.and_true, Bool.or_eq_right_iff_imp]
      exact above_mono hf (Nat.le_succ _)
  rw [← hup]
  exact if_pos h

end

/-! ### The magnitude in units of its quantum -/

theorem magnitude_lt_quantum (f : FloatFmt) (m : Nat) (e : Int) : (m : ℚ) * 2 ^ e / 2 ^ f.quantum m e < (2 ^ f.m : Nat) := by
  rw [div_lt_iff₀ (zpow_two_pos _)]
  refine (mul_zpow_lt_zpow_bitLen m e).trans_le ?_
  rw [Nat.cast_pow, Nat.cast_ofNat, ← zpow_natCast, ← zpow_add₀ two_ne_zero]
  refine zpow_le_zpow_right₀ one_le_two ?_
  have := le_max_left (e + (bitLen m : Int) - 1 - ((f.m : Int) - 1)) f.qmin
  unfold FloatFmt.quantum
  omega

section
variable {f : FloatFmt} {m : Nat} (hm : 0 < m) (e : Int) (mode d : Nat) (neg : Bool)
include hm

theorem cut_reads (f : FloatFmt) : (f.cut m e).Reads ((m : ℚ) * 2 ^ e / 2 ^ f.quantum m e) := cutAt_reads hm e _

theorem rounded_le_two_pow (f : FloatFmt) : (f.cut m e).rounded mode d neg ≤ 2 ^ f.m := by
  have hsig : (f.cut m e).sig < 2 ^ f.m := by
    have hlt : ⌊(m : ℚ) * 2 ^ e / 2 ^ f.quantum m e⌋ < ((2 ^ f.m : Nat) : Int) :=
      Int.floor_lt.2 (by exact_mod_cast magnitude_lt_quantum f m e)
    rw [← (cut_reads hm e f).sig] at hlt
    exact_mod_cast hlt
  exact (rounded_le_succ (f.cut m e) mode d neg).trans hsig

variable (hf : f.Proper)
include hf

/-- The quantum is the least, or the significand has the hidden bit. -/
theorem quantum_normal (h : f.quantum m e ≠ f.qmin) :
    ((2 ^ (f.m - 1) : Nat) : ℚ) ≤ (m : ℚ) * 2 ^ e / 2 ^ f.quantum m e := by
  have hq : f.quantum m e = e + bitLen m - 1 - ((f.m : Int) - 1) := (max_choice _ _).resolve_right h
  rw [le_div_iff₀ (zpow_two_pos _), Nat.cast_pow, Nat.cast_ofNat, ← zpow_natCast, ← zpow_add₀ two_ne_zero]
  refine le_of_eq_of_le ?_ (zpow_bitLen_le_mul_zpow hm e)
  have := hf.1
  congr 1
  omega

theorem rounded_normal : f.quantum m e = f.qmin ∨ 2 ^ (f.m - 1) ≤ (f.cut m e).rounded mode d neg := by
  refine or_iff_not_imp_left.2 fun h => ?_
  have hle : ((2 ^ (f.m - 1) : Nat) : Int) ≤ ⌊(m : ℚ) * 2 ^ e / 2 ^ f.quantum m e⌋ :=
    Int.le_floor.2 (by exact_mod_cast quantum_normal hm e hf h)
  rw [← (cut_reads hm e f).sig] at hle
  exact le_trans (by exact_mod_cast hle) (sig_le_rounded _ mode d neg)

/-- What is rounded exceeds the largest finite value where a rule says that holds of the largest quantum, says no below the
largest finite value, and yes from a whole quantum beyond it. -/
theorem above_rounded_iff {T : Prop} (below : (m : ℚ) * 2 ^ e < f.largest → ¬ T)
    (beyond : f.largest + 2 ^ f.maxQ ≤ (m : ℚ) * 2 ^ e → T)
    (on : f.quantum m e = f.maxQ → (f.maxSig < (f.cut m e).rounded mode d neg ↔ T)) :
    f.above ((f.cut m e).rounded mode d neg) (f.quantum m e) = true ↔ T := by
  have hlow := le_maxSig hf
  have htop := maxSig_lt hf
  have hdouble := two_pow_m hf
  have hx : (m : ℚ) * 2 ^ e / 2 ^ f.quantum m e * 2 ^ f.quantum m e = m * 2 ^ e := div_mul_cancel₀ _ (zpow_two_pos _).ne'
  have hn := rounded_le_two_pow hm e mode d neg f
  rw [above_iff hf]
  rcases lt_trichotomy (f.quantum m e) f.maxQ with hq | hq | hq
  · have hmax : ((2 ^ f.m : Nat) : ℚ) * 2 ^ f.quantum m e ≤ f.largest := by
      rw [two_pow_m_mul_zpow hf, le_largest_iff hf le_rfl (by omega)]
      exact ⟨hq, fun _ => hlow⟩
    refine iff_of_false (not_lt.2 (le_trans ?_ hmax)) (below (lt_of_lt_of_le ?_ hmax))
    · exact mul_le_mul_of_nonneg_right (by exact_mod_cast hn) (zpow_two_pos _).le
    · rw [← hx]
      exact mul_lt_mul_of_pos_right (magnitude_lt_quantum f m e) (zpow_two_pos _)
  · rw [← on hq, hq, FloatFmt.largest, mul_lt_mul_iff_left₀ (zpow_two_pos _), Nat.cast_lt]
  · have hne : f.quantum m e ≠ f.qmin := (lt_of_le_of_lt (qmin_le_maxQ hf) hq).ne'
    have hmax : f.largest + 2 ^ f.maxQ ≤ ((2 ^ (f.m - 1) : Nat) : ℚ) * 2 ^ f.quantum m e :=
      calc f.largest + 2 ^ f.maxQ = ((f.maxSig + 1 : Nat) : ℚ) * 2 ^ f.maxQ := by
            rw [FloatFmt.largest]
            push_cast
            ring
        _ ≤ (2 ^ f.m : Nat) * 2 ^ f.maxQ := mul_le_mul_of_nonneg_right (Nat.cast_le.2 htop) (zpow_two_pos _).le
        _ = (2 ^ (f.m - 1) : Nat) * 2 ^ (f.maxQ + 1) := two_pow_m_mul_zpow hf _
        _ ≤ (2 ^ (f.m - 1) : Nat) * 2 ^ f.quantum m e :=
          mul_le_mul_of_nonneg_left (zpow_le_zpow_right₀ one_le_two hq) (Nat.cast_nonneg _)
    refine iff_of_true (lt_of_lt_of_le (lt_add_of_pos_right _ (zpow_two_pos f.maxQ)) (hmax.trans ?_)) (beyond (hmax.trans ?_))
    · have hsig := (rounded_normal hm e mode d neg hf).resolve_left hne
      exact mul_le_mul_of_nonneg_right (Nat.cast_le.2 hsig) (zpow_two_pos _).le
    · rw [← hx]
      exact mul_le_mul_of_nonneg_right (quantum_normal hm e hf hne) (zpow_two_pos _).le

end

end Sys2Proof.Machine
end

section
namespace Sys2Proof.Machine

/-! ## Overflow in each mode (R150, R151) -/

section
variable (f : FloatFmt) (a x : ℚ)

theorem maxSig_add_lt_iff : (f.maxSig : ℚ) + a < x / 2 ^ f.maxQ ↔ f.largest + a * 2 ^ f.maxQ < x := by
  rw [lt_div_iff₀ (zpow_two_pos _), add_mul]
  rfl

theorem maxSig_add_le_iff : (f.maxSig : ℚ) + a ≤ x / 2 ^ f.maxQ ↔ f.largest + a * 2 ^ f.maxQ ≤ x := by
  rw [le_div_iff₀ (zpow_two_pos _), add_mul]
  rfl

theorem eq_maxSig_add_iff : x / 2 ^ f.maxQ = f.maxSig + a ↔ x = f.largest + a * 2 ^ f.maxQ := by
  rw [div_eq_iff (zpow_two_pos _).ne', add_mul]
  rfl

end

section
variable {f : FloatFmt} (hf : f.Proper) {m : Nat} (hm : 0 < m) (e : Int) (d : Nat) (neg : Bool)
include hf hm

theorem above_nearestEven_iff : f.above ((f.cut m e).rounded 0 d neg) (f.quantum m e) = true ↔
    f.largest + 2 ^ f.maxQ / 2 < (m : ℚ) * 2 ^ e ∨ (m : ℚ) * 2 ^ e = f.largest + 2 ^ f.maxQ / 2 ∧ f.maxSig % 2 = 1 := by
  have hstep := zpow_two_pos f.maxQ
  refine above_rounded_iff hm e 0 d neg hf ?_ (fun h => .inl (by linarith)) fun hq => ?_
  · rintro h (h' | ⟨h', -⟩) <;> linarith
  · have h := (cut_reads hm e f).nearestEven d neg
    rw [hq] at h
    rw [h.lt_iff, maxSig_add_lt_iff, eq_maxSig_add_iff, one_div_mul_eq_div]

theorem above_nearestAway_iff : f.above ((f.cut m e).rounded 4 d neg) (f.quantum m e) = true ↔
    f.largest + 2 ^ f.maxQ / 2 ≤ (m : ℚ) * 2 ^ e := by
  have hstep := zpow_two_pos f.maxQ
  refine above_rounded_iff hm e 4 d neg hf (fun h h' => by linarith) (fun h => by linarith) fun hq => ?_
  have h := (cut_reads hm e f).nearestAway d neg
  rw [hq] at h
  rw [h.lt_iff, maxSig_add_le_iff, one_div_mul_eq_div]

theorem above_towardZero_iff {mode : Nat} (hmode : TowardZero mode neg) :
    f.above ((f.cut m e).rounded mode d neg) (f.quantum m e) = true ↔ f.largest + 2 ^ f.maxQ ≤ (m : ℚ) * 2 ^ e := by
  have hstep := zpow_two_pos f.maxQ
  refine above_rounded_iff hm e mode d neg hf (fun h h' => by linarith) id fun hq => ?_
  have h := (cut_reads hm e f).rounded_towardZero d neg hmode
  rw [hq] at h
  rw [lt_iff_of_eq_floor _ h, maxSig_add_le_iff, one_mul]

theorem above_awayFromZero_iff {mode : Nat} (hmode : AwayFromZero mode neg) :
    f.above ((f.cut m e).rounded mode d neg) (f.quantum m e) = true ↔ f.largest < (m : ℚ) * 2 ^ e := by
  have hstep := zpow_two_pos f.maxQ
  refine above_rounded_iff hm e mode d neg hf (fun h h' => by linarith) (fun h => by linarith) fun hq => ?_
  have h := (cut_reads hm e f).rounded_awayFromZero d neg hmode
  rw [hq] at h
  rw [lt_iff_of_eq_ceil _ h, ← add_zero (f.maxSig : ℚ), maxSig_add_lt_iff, zero_mul, add_zero]

end

/-! ### The modes apart -/

theorem mode_cases {mode : Nat} (h : mode ≤ 5) (neg : Bool) :
    mode = 0 ∨ mode = 4 ∨ mode = 5 ∨ TowardZero mode neg ∨ AwayFromZero mode neg := by
  unfold TowardZero AwayFromZero
  cases neg <;> simp <;> omega

theorem TowardZero.others {mode : Nat} {neg : Bool} (h : TowardZero mode neg) :
    mode ≠ 0 ∧ mode ≠ 4 ∧ mode ≠ 5 ∧ ¬ AwayFromZero mode neg := by
  rcases h with rfl | ⟨rfl, rfl⟩ | ⟨rfl, rfl⟩ <;> simp [AwayFromZero]

theorem AwayFromZero.others {mode : Nat} {neg : Bool} (h : AwayFromZero mode neg) :
    mode ≠ 0 ∧ mode ≠ 4 ∧ mode ≠ 5 ∧ ¬ TowardZero mode neg := by
  rcases h with ⟨rfl, rfl⟩ | ⟨rfl, rfl⟩ <;> simp [TowardZero]

/-! ### The outcomes of a rounding -/

section
variable {f : FloatFmt} (hf : f.Proper) {r : Rounding} {neg : Bool} {m : Nat} (hm : 0 < m) {e : Int}

theorem round_overflow_of_ne_five (h : r.mode ≠ 5) :
    f.round r neg m e false = .overflow ↔ f.above ((f.cut m e).rounded r.mode r.d neg) (f.quantum m e) = true := by
  rw [round_of_ne_five h, ite_eq_left_iff]
  simp

include hf

theorem round_overflow_of_five (h : r.mode = 5) :
    f.round r neg m e false = .overflow ↔ f.above ((f.cut m e).rounded 0 0 neg) (f.quantum m e) = true := by
  rw [round_of_five hf h, ite_eq_left_iff]
  refine ⟨fun h => by_contra fun ha => ?_, fun ha hn => absurd ha hn⟩
  have hvalue := h ha
  split at hvalue <;> cases hvalue

include hm

/-- Where each mode overflows (R151). -/
theorem round_overflow_iff (hmode : r.mode ≤ 5) : f.round r neg m e false = .overflow ↔
    ((r.mode = 0 ∨ r.mode = 5) ∧ (f.largest + 2 ^ f.maxQ / 2 < (m : ℚ) * 2 ^ e
        ∨ (m : ℚ) * 2 ^ e = f.largest + 2 ^ f.maxQ / 2 ∧ f.maxSig % 2 = 1))
      ∨ (r.mode = 4 ∧ f.largest + 2 ^ f.maxQ / 2 ≤ (m : ℚ) * 2 ^ e)
      ∨ (TowardZero r.mode neg ∧ f.largest + 2 ^ f.maxQ ≤ (m : ℚ) * 2 ^ e)
      ∨ (AwayFromZero r.mode neg ∧ f.largest < (m : ℚ) * 2 ^ e) := by
  rcases mode_cases hmode neg with h | h | h | h | h
  · rw [round_overflow_of_ne_five (by omega), h, above_nearestEven_iff hf hm]
    simp [TowardZero, AwayFromZero]
  · rw [round_overflow_of_ne_five (by omega), h, above_nearestAway_iff hf hm]
    simp [TowardZero, AwayFromZero]
  · rw [round_overflow_of_five hf h, h, above_nearestEven_iff hf hm]
    simp [TowardZero, AwayFromZero]
  · obtain ⟨h0, h4, h5, hup⟩ := h.others
    rw [round_overflow_of_ne_five h5, above_towardZero_iff hf hm e r.d neg h]
    simp [h0, h4, h5, hup, h]
  · obtain ⟨h0, h4, h5, hdown⟩ := h.others
    rw [round_overflow_of_ne_five h5, above_awayFromZero_iff hf hm e r.d neg h]
    simp [h0, h4, h5, hdown, h]

variable {sig : Nat} {q : Int}

/-- A rounding that does not overflow gives what its mode takes, within the largest finite value; mode 5 gives the largest
finite value for what is beyond it (R151, R152). -/
theorem round_value_cases (h : f.round r neg m e false = .value sig q) :
    (r.mode = 5 ∧ f.largest < (m : ℚ) * 2 ^ e ∧ sig = f.maxSig ∧ q = f.maxQ)
    ∨ ((r.mode = 5 → (m : ℚ) * 2 ^ e ≤ f.largest) ∧ sig = (f.cut m e).rounded r.mode r.d neg ∧ q = f.quantum m e
      ∧ (sig : ℚ) * 2 ^ q ≤ f.largest) := by
  by_cases h5 : r.mode = 5
  · have hbeyond := above_awayFromZero_iff hf hm e 0 false (mode := 3) (.inr ⟨rfl, rfl⟩)
    rw [round_of_five hf h5] at h
    split at h
    · cases h
    · split at h <;> rename_i hup <;> rw [hbeyond] at hup <;> obtain ⟨rfl, rfl⟩ := Rounded.value.inj h
      · exact .inl ⟨h5, hup, rfl, rfl⟩
      · refine .inr ⟨fun _ => not_lt.1 hup, by rw [h5], rfl, not_lt.1 ?_⟩
        rw [← hbeyond] at hup
        rw [← above_iff hf]
        exact mt (above_mono hf (rounded_draw_le _ _ _)) hup
  · rw [round_of_ne_five h5] at h
    split at h
    · cases h
    · rename_i hle
      obtain ⟨rfl, rfl⟩ := Rounded.value.inj h
      rw [above_iff hf] at hle
      exact .inr ⟨fun h => absurd h h5, rfl, rfl, not_lt.1 hle⟩

/-- What is given is a value of the format. -/
theorem round_value_of_format (h : f.round r neg m e false = .value sig q) :
    sig ≤ 2 ^ f.m ∧ f.qmin ≤ q ∧ (q = f.qmin ∨ 2 ^ (f.m - 1) ≤ sig) ∧ (sig : ℚ) * 2 ^ q ≤ f.largest := by
  rcases round_value_cases hf hm h with ⟨-, -, rfl, rfl⟩ | ⟨-, rfl, rfl, hle⟩
  · exact ⟨(maxSig_lt hf).le, qmin_le_maxQ hf, .inr (le_maxSig hf), le_rfl⟩
  · exact ⟨rounded_le_two_pow hm e _ _ _ f, qmin_le_quantum f m e, rounded_normal hm e _ _ _ hf, hle⟩

/-- Outside mode 5 what is given is what the mode takes of the magnitude in units of the quantum. -/
theorem round_value_of_ne_five (h : f.round r neg m e false = .value sig q) (h5 : r.mode ≠ 5) :
    sig = (f.cut m e).rounded r.mode r.d neg ∧ (f.cut m e).Reads ((m : ℚ) * 2 ^ e / 2 ^ q) := by
  rcases round_value_cases hf hm h with ⟨h', -⟩ | ⟨-, hsig, rfl, -⟩
  · exact absurd h' h5
  · exact ⟨hsig, cut_reads hm e f⟩

theorem round_value_nearestEven (h : f.round r neg m e false = .value sig q) (hmode : r.mode = 0) :
    NearestEven ((m : ℚ) * 2 ^ e / 2 ^ q) sig := by
  obtain ⟨rfl, hreads⟩ := round_value_of_ne_five hf hm h (by omega)
  rw [hmode]
  exact hreads.nearestEven r.d neg

theorem round_value_nearestAway (h : f.round r neg m e false = .value sig q) (hmode : r.mode = 4) :
    NearestAway ((m : ℚ) * 2 ^ e / 2 ^ q) sig := by
  obtain ⟨rfl, hreads⟩ := round_value_of_ne_five hf hm h (by omega)
  rw [hmode]
  exact hreads.nearestAway r.d neg

theorem round_value_towardZero (h : f.round r neg m e false = .value sig q) (hmode : TowardZero r.mode neg) :
    (sig : Int) = ⌊(m : ℚ) * 2 ^ e / 2 ^ q⌋ := by
  obtain ⟨-, -, h5, -⟩ := hmode.others
  obtain ⟨rfl, hreads⟩ := round_value_of_ne_five hf hm h h5
  exact hreads.rounded_towardZero r.d neg hmode

theorem round_value_awayFromZero (h : f.round r neg m e false = .value sig q) (hmode : AwayFromZero r.mode neg) :
    (sig : Int) = ⌈(m : ℚ) * 2 ^ e / 2 ^ q⌉ := by
  obtain ⟨-, -, h5, -⟩ := hmode.others
  obtain ⟨rfl, hreads⟩ := round_value_of_ne_five hf hm h h5
  exact hreads.rounded_awayFromZero r.d neg hmode

theorem round_value_beyond (h : f.round r neg m e false = .value sig q) (h5 : r.mode = 5) (hx : f.largest < (m : ℚ) * 2 ^ e) :
    (sig : ℚ) * 2 ^ q = f.largest := by
  rcases round_value_cases hf hm h with ⟨-, -, rfl, rfl⟩ | ⟨hle, -⟩
  · rfl
  · exact absurd (hle h5) (not_le.2 hx)

theorem round_value_draw (h : f.round r neg m e false = .value sig q) (h5 : r.mode = 5) (hx : (m : ℚ) * 2 ^ e ≤ f.largest) :
    (sig : Int) = ⌊(m : ℚ) * 2 ^ e / 2 ^ q⌋
      + if (r.d : Int) < ⌊Int.fract ((m : ℚ) * 2 ^ e / 2 ^ q) * 2 ^ 16⌋ then 1 else 0 := by
  rcases round_value_cases hf hm h with ⟨-, hlt, -⟩ | ⟨-, rfl, rfl, -⟩
  · exact absurd hx (not_le.2 hlt)
  · rw [h5]
    exact (cut_reads hm e f).rounded_draw r.d neg

end

end Sys2Proof.Machine
end

section
namespace Sys2Proof.Machine

/-! ## The rounded value beside the exact one (R150, R152) -/

section
variable {x : ℚ} {q : Int} {n : Nat}

theorem abs_sub_scaled (x : ℚ) (q : Int) (n : Nat) : |x - n * 2 ^ q| = |x / 2 ^ q - n| * 2 ^ q := by
  have hq := zpow_two_pos q
  calc |x - n * 2 ^ q| = |(x / 2 ^ q - n) * 2 ^ q| := by rw [sub_mul, div_mul_cancel₀ _ hq.ne']
    _ = |x / 2 ^ q - n| * 2 ^ q := by rw [abs_mul, abs_of_pos hq]

theorem scaled_dist_iff : (|x - n * 2 ^ q| ≤ 2 ^ q / 2 ↔ |x / 2 ^ q - n| ≤ 1 / 2)
    ∧ (|x - n * 2 ^ q| = 2 ^ q / 2 ↔ |x / 2 ^ q - n| = 1 / 2) := by
  rw [abs_sub_scaled, ← one_div_mul_eq_div 2 ((2 : ℚ) ^ q)]
  exact ⟨mul_le_mul_iff_left₀ (zpow_two_pos q), mul_left_inj' (zpow_two_pos q).ne'⟩

theorem NearestEven.scaled (h : NearestEven (x / 2 ^ q) n) :
    |x - n * 2 ^ q| ≤ 2 ^ q / 2 ∧ (|x - n * 2 ^ q| = 2 ^ q / 2 → n % 2 = 0) := by
  rw [scaled_dist_iff.1, scaled_dist_iff.2]
  exact h

theorem NearestAway.scaled (h : NearestAway (x / 2 ^ q) n) :
    |x - n * 2 ^ q| ≤ 2 ^ q / 2 ∧ (|x - n * 2 ^ q| = 2 ^ q / 2 → x < n * 2 ^ q) := by
  rw [scaled_dist_iff.1, scaled_dist_iff.2, ← div_lt_iff₀ (zpow_two_pos q)]
  exact h

theorem scaled_of_eq_floor (h : (n : Int) = ⌊x / 2 ^ q⌋) : (n : ℚ) * 2 ^ q ≤ x ∧ x < n * 2 ^ q + 2 ^ q := by
  obtain ⟨hlo, hhi⟩ := Int.floor_eq_iff.1 h.symm
  rw [Int.cast_natCast] at hlo hhi
  rw [← le_div_iff₀ (zpow_two_pos q), ← add_one_mul, ← div_lt_iff₀ (zpow_two_pos q)]
  exact ⟨hlo, hhi⟩

theorem scaled_of_eq_ceil (h : (n : Int) = ⌈x / 2 ^ q⌉) : x ≤ n * 2 ^ q ∧ (n : ℚ) * 2 ^ q < x + 2 ^ q := by
  obtain ⟨hlo, hhi⟩ := Int.ceil_eq_iff.1 h.symm
  rw [Int.cast_natCast] at hlo hhi
  rw [← div_le_iff₀ (zpow_two_pos q), ← sub_lt_iff_lt_add, ← sub_one_mul, ← lt_div_iff₀ (zpow_two_pos q)]
  exact ⟨hhi, hlo⟩

end

/-! ## What is put for a rounding (R151, R155) -/

section
variable {f : FloatFmt} {r : Rounding} {neg : Bool} {m : Nat} {e : Int} (o : Overflow)

theorem put_of_overflow (h : f.round r neg m e false = .overflow) :
    f.put o r (.fin neg m e false) = f.overflowEnc o r.mode neg := by
  rw [FloatFmt.put, h]

theorem put_of_value {sig : Nat} {q : Int} (h : f.round r neg m e false = .value sig q) :
    f.put o r (.fin neg m e false) = f.encode neg sig q r.ftz := by
  rw [FloatFmt.put, h]

theorem overflowEnc_towardZero (f : FloatFmt) {mode : Nat} (h : TowardZero mode neg) :
    f.overflowEnc .ieee mode neg = f.maxEnc neg := by
  rcases h with rfl | ⟨rfl, rfl⟩ | ⟨rfl, rfl⟩ <;> rfl

theorem overflowEnc_of_not_towardZero (f : FloatFmt) {mode : Nat} (h : ¬ TowardZero mode neg) :
    f.overflowEnc .ieee mode neg = f.infEnc neg := by
  unfold FloatFmt.overflowEnc
  dsimp only
  split
  · exact absurd (.inl rfl) h
  · cases neg
    · exact absurd (.inr (.inl ⟨rfl, rfl⟩)) h
    · rfl
  · cases neg
    · rfl
    · exact absurd (.inr (.inr ⟨rfl, rfl⟩)) h
  · rfl

end

/-! ## What is representable is kept (R135, R150) -/

/-- A cut that leaves nothing behind is kept in every mode. -/
theorem rounded_of_whole (sig mode d : Nat) (neg : Bool) : Cut.rounded ⟨sig, 0, 0, false⟩ mode d neg = sig := by
  refine rounded_of_not_away ?_
  unfold Cut.away
  split <;> simp [Cut.exact]

section
variable {f : FloatFmt} (hf : f.Proper)
include hf

/-- A value of the format, rounded in any mode, is itself. -/
theorem round_representable {sig : Nat} {q : Int} (hlt : sig < 2 ^ f.m) (hq : f.qmin ≤ q)
    (hnorm : q = f.qmin ∨ 2 ^ (f.m - 1) ≤ sig) (hle : (sig : ℚ) * 2 ^ q ≤ f.largest) (r : Rounding) (neg : Bool) :
    f.round r neg sig q false = .value sig q := by
  have hquantum : f.quantum sig q = q := by
    have hlen := bitLen_le_of_lt hlt
    have hfull : 2 ^ (f.m - 1) ≤ sig → f.m - 1 < bitLen sig := fun h =>
      (Nat.pow_lt_pow_iff_right (a := 2) (by omega)).1 (h.trans_lt (lt_two_pow_bitLen sig))
    have := hf.1
    unfold FloatFmt.quantum
    omega
  have hcut : f.cut sig q = ⟨sig, 0, 0, false⟩ := by
    rw [FloatFmt.cut, hquantum]
    simp [cutAt]
  have hwithin : f.above sig q ≠ true := by
    rw [Ne, above_iff hf]
    exact not_lt.2 hle
  by_cases h5 : r.mode = 5
  · simp only [round_of_five hf h5, hcut, hquantum, rounded_of_whole, if_neg hwithin]
  · simp only [round_of_ne_five h5, hcut, hquantum, rounded_of_whole, if_neg hwithin]

variable {e fr : Nat} (h : f.FinEnc e fr) (o : Overflow) (r : Rounding) (s : Bool)
include h

theorem put_subnormal (hftz : r.ftz = false) (h0 : fr ≠ 0) : f.put o r (.fin s fr f.qmin false) = f.pack s 0 fr := by
  have hle : (fr : ℚ) * 2 ^ f.qmin ≤ f.largest :=
    mul_le_mul (Nat.cast_le.2 (h.1.le.trans (le_maxSig hf))) (zpow_le_zpow_right₀ one_le_two (qmin_le_maxQ hf))
      (zpow_two_pos _).le (Nat.cast_nonneg _)
  have hm := two_pow_m hf
  rw [put_of_value o (round_representable hf (by have := h.1; omega) le_rfl (.inl rfl) hle r s), hftz,
    FloatFmt.encode, if_neg h0, if_pos h.1]
  rfl

theorem put_normal (h0 : e ≠ 0) :
    f.put o r (.fin s (2 ^ (f.m - 1) + fr) ((e : Int) - f.bias - ((f.m : Int) - 1)) false) = f.pack s e fr := by
  have hpos := Nat.two_pow_pos (f.m - 1)
  have hm := two_pow_m hf
  obtain ⟨hfr, he, htop⟩ := h
  have hle : ((2 ^ (f.m - 1) + fr : Nat) : ℚ) * 2 ^ ((e : Int) - f.bias - ((f.m : Int) - 1)) ≤ f.largest := by
    rw [le_largest_iff hf (Nat.le_add_right _ _) (by omega), FloatFmt.maxQ]
    exact ⟨by omega, fun h => htop (by omega)⟩
  rw [put_of_value o (round_representable hf (by omega) (by unfold FloatFmt.qmin; omega)
    (.inr (Nat.le_add_right _ _)) hle r s), FloatFmt.encode, if_neg (by omega), if_neg (by omega), if_pos (by omega),
    Nat.add_sub_cancel_left]
  congr 1
  omega

end

/-- The parts of an encoding that is no NaN and no infinity are those of a finite value. -/
theorem finEnc_of_not_special {f : FloatFmt} (hf : f.Proper) {e fr : Nat} (he : e < 2 ^ f.expBits) (hfr : fr < 2 ^ (f.m - 1))
    (hnan : f.isNanEnc e fr = false) (hinf : f.isInfEnc e fr = false) : f.FinEnc e fr := by
  have := two_pow_m hf
  refine ⟨hfr, ?_⟩
  unfold FloatFmt.isNanEnc at hnan
  unfold FloatFmt.isInfEnc FloatFmt.hasInf at hinf
  unfold FloatFmt.maxField FloatFmt.maxSig
  cases hs : f.special <;> simp [hs] at hnan hinf ⊢ <;> omega

theorem put_infEnc (f : FloatFmt) {e fr : Nat} (h : f.isInfEnc e fr = true) (o : Overflow) (r : Rounding) (s : Bool) :
    f.put o r (.inf s) = f.pack s e fr := by
  simp only [FloatFmt.isInfEnc, Bool.and_eq_true, beq_iff_eq] at h
  obtain ⟨⟨hinf, rfl⟩, rfl⟩ := h
  exact if_pos hinf

/-- An encoding that is no NaN is put back for its value, in any mode without `.ftz`. -/
theorem put_decode {f : FloatFmt} (hf : f.Proper) (hpad : f.pad = 0) {x : Nat} (hx : x < 2 ^ f.width) (o : Overflow)
    {r : Rounding} (hftz : r.ftz = false) (hnan : f.decode false x ≠ .nan) : f.put o r (f.decode false x) = x := by
  have hm := Nat.le_of_succ_le hf.1
  obtain ⟨s, e, fr, rfl, he, hfr⟩ : ∃ s e fr, x = f.pack s e fr ∧ e < 2 ^ f.expBits ∧ fr < 2 ^ (f.m - 1) :=
    ⟨f.sign x, f.exp x, f.frac x, (pack_parts hm hpad hx).symm,
      Nat.mod_lt _ (Nat.two_pow_pos _), Nat.mod_lt _ (Nat.two_pow_pos _)⟩
  have hdecode := decode_pack s hm hfr he false
  cases hn : f.isNanEnc e fr with
  | true => exact absurd (hdecode.trans (if_pos hn)) hnan
  | false =>
    cases hi : f.isInfEnc e fr with
    | true =>
      rw [hdecode, hn, hi]
      exact put_infEnc f hi o r s
    | false =>
      have hfin := finEnc_of_not_special hf he hfr hn hi
      rw [decode_pack_finite hf hfin, Num.mk', Num.mk']
      split
      · rename_i h0
        subst h0
        split
        · rename_i h0
          rw [h0]
          rfl
        · exact put_subnormal hf hfin o r s hftz ‹_›
      · rw [if_neg (by have := Nat.two_pow_pos (f.m - 1); omega)]
        exact put_normal hf hfin o r s ‹_›

end Sys2Proof.Machine

open Sys2Proof Sys2Proof.Machine

/-- Settles O9: a magnitude in units of its quantum is cut into its whole part and a fraction, of which each mode takes the
floor, the ceiling or the nearest integer; what that exceeds need be looked at only where the quantum is the largest one. -/
theorem roundingModes : Obligations.RoundingModes := by
  refine ⟨by decide, fun code f o r neg m e hcode hm hmode => ?rounding, fun x mode d h => ?kept⟩
  case rounding =>
    have hf := proper_of_floatFmt hcode
    refine ⟨round_overflow_iff hf hm hmode, fun h => ?overflow, fun sig q h => ?value⟩
    case overflow =>
      rw [put_of_overflow .ieee h, put_of_overflow .narrow h, put_of_overflow .narrowNan h]
      refine ⟨fun hdown => ?_, fun hdown hinf => ?_, has_maxEnc hf neg, rfl⟩
      · rw [overflowEnc_towardZero f hdown]
        exact has_maxEnc hf neg
      · rw [overflowEnc_of_not_towardZero f hdown]
        exact decode_infEnc hf neg hinf
    case value =>
      obtain ⟨hsig, hq, hnorm, hle⟩ := round_value_of_format hf hm h
      refine ⟨hsig, hq, hnorm, hle, fun h0 => (round_value_nearestEven hf hm h h0).scaled,
        fun h4 => (round_value_nearestAway hf hm h h4).scaled,
        fun hdown => scaled_of_eq_floor (round_value_towardZero hf hm h hdown),
        fun hup => scaled_of_eq_ceil (round_value_awayFromZero hf hm h hup),
        round_value_beyond hf hm h, round_value_draw hf hm h, put_of_value o h, fun h0 => ?_,
        fun h0 => has_encode hf neg h0 hsig hq hnorm hle⟩
      rw [h0]
      exact decode_zeroEnc hf neg
  case kept => exact put_decode fp32Fmt_proper rfl x.isLt .ieee rfl h

end

section

namespace Sys2Proof.Machine

/-! ## Every step keeps the home's memory in its canonical form (O38)

A running package writes the home's memory through `State.homeMerge` alone, and `mergeMem_wf` says that keeps the canonical
form; bring-up and power loss leave it empty. Each operation therefore has one lemma here: `f_mem` where it leaves the home's memory alone, `f_wf` where it may write
there; `f_wf` of an operation that runs another one on a state asks that of the other one too. They stand in the order of the
model's files, and each cites those of the operations it calls. -/

/-! ### Folds over a state -/

@[simp] theorem foldl_mem {α : Type} {f : State → α → State} (h : ∀ s a, (f s a).mem = s.mem) :
    ∀ (l : List α) (s : State), (l.foldl f s).mem = s.mem
  | [], _ => rfl
  | a :: l, s => (foldl_mem h l (f s a)).trans (h s a)

@[simp] theorem foldl_keepsWf {α : Type} {f : State → α → State}
    (hf : ∀ s a, s.mem.wf = true → (f s a).mem.wf = true) :
    ∀ (l : List α) {s : State}, s.mem.wf = true → (l.foldl f s).mem.wf = true
  | [], _, h => h
  | a :: l, _, h => foldl_keepsWf hf l (hf _ a h)

theorem foldl_snd_keepsWf {α β : Type} {f : β × State → α → β × State}
    (hf : ∀ b a, b.2.mem.wf = true → (f b a).2.mem.wf = true) :
    ∀ (l : List α) {b : β × State}, b.2.mem.wf = true → (l.foldl f b).2.mem.wf = true
  | [], _, h => h
  | a :: l, _, h => foldl_snd_keepsWf hf l (hf _ a h)

/-! ### Draws, records and the writes of a lane -/

@[simp] theorem State.modLaunch_mem (s : State) (seq : Nat) (g : Launch → Launch) : (s.modLaunch seq g).mem = s.mem :=
  rfl

@[simp] theorem State.report_mem (s : State) (r : Report) : (s.report r).mem = s.mem := rfl

@[simp] theorem State.draw_mem (s : State) : (s.draw).2.mem = s.mem := rfl

@[simp] theorem State.drawBytes_mem (s : State) (n : Nat) : (s.drawBytes n).2.mem = s.mem := rfl

@[simp] theorem State.engineView_mem (s : State) (t : Team) : (s.engineView t).2.mem = s.mem := rfl

@[simp] theorem State.laneView_mem (s : State) (t : Team) (item : DWord) (a n : Nat) :
    (s.laneView t item a n).2.mem = s.mem := by
  grind [State.laneView, State.draw_mem]

@[simp] theorem State.contextFault_mem (s : State) (p : FrameId) (c : Cause) (pc : DWord) :
    (s.contextFault p c pc).mem = s.mem :=
  rfl

@[simp] theorem State.takeFault_mem (s : State) (k : RodKey) (m : BitVec 32) (i : FaultInfo) :
    (s.takeFault k m i).mem = s.mem := by
  grind [State.takeFault, State.contextFault_mem, State.setRod_mem, State.modFrame_mem]

@[simp] theorem State.takeFaults_mem (s : State) (k : RodKey) (word : DWord) (l : List (Nat × Cause × DWord)) :
    (s.takeFaults k word l).mem = s.mem := by
  simp [State.takeFaults]

@[simp] theorem State.enterHandler_mem (s : State) (p : FrameId) : (s.enterHandler p).mem = s.mem := rfl

@[simp] theorem State.leaveHandler_mem (s : State) (p : FrameId) : (s.leaveHandler p).mem = s.mem := rfl

/-! ### The caches, the directory and the home -/

@[simp] theorem State.notify_mem (s : State) (n : Nat) : (s.notify n).mem = s.mem := by
  unfold State.notify
  split <;> simp

@[simp] theorem State.homeMerge_wf {s : State} (h : s.mem.wf = true) (n : Nat) (mask : BitVec 64) (d : BitVec 512) :
    (s.homeMerge n mask d).mem.wf = true := by
  rw [State.homeMerge, State.notify_mem]
  exact mergeMem_wf n mask d h

@[simp] theorem State.setFrameSector_mem (s : State) (p : FrameId) (x : Sector) :
    (s.setFrameSector p x).mem = s.mem := by
  unfold State.setFrameSector
  rw [State.modFrame_mem, foldl_mem]
  intro s f
  split
  · rfl
  · split <;> simp

@[simp] theorem State.putDieSector_mem (s : State) (d : Nat) (x : Sector) : (s.putDieSector d x).mem = s.mem := rfl

@[simp] theorem State.dropFrameSector_mem (s : State) (p : FrameId) (n : Nat) (u : Bool) :
    (s.dropFrameSector p n u).mem = s.mem := by
  unfold State.dropFrameSector
  split <;> simp

@[simp] theorem State.dropDieSector_mem (s : State) (d n : Nat) (u : Bool) : (s.dropDieSector d n u).mem = s.mem := rfl

@[simp] theorem State.flushFrame_mem (s : State) (p : FrameId) (n : Nat) (u : Bool) :
    (s.flushFrame p n u).mem = s.mem := by
  grind [State.flushFrame, State.setFrameSector_mem, State.putDieSector_mem]

@[simp] theorem State.flushDieFrames_mem (s : State) (d n : Nat) (u : Bool) : (s.flushDieFrames d n u).mem = s.mem := by
  simp [State.flushDieFrames]

@[simp] theorem State.dropDieFrames_mem (s : State) (d n : Nat) (u : Bool) : (s.dropDieFrames d n u).mem = s.mem := by
  simp [State.dropDieFrames]

@[simp] theorem State.evictFrame_mem (s : State) (p : FrameId) (n : Nat) (u : Bool) :
    (s.evictFrame p n u).mem = s.mem := by
  simp [State.evictFrame]

@[simp] theorem State.claimFrame_mem (s : State) (p : FrameId) (n : Nat) (u : Bool) :
    (s.claimFrame p n u).mem = s.mem := by
  simp [State.claimFrame, apply_ite State.mem]

@[simp] theorem State.makeRoom_mem (s : State) (p : FrameId) (n : Nat) (u : Bool) : (s.makeRoom p n u).mem = s.mem := by
  unfold State.makeRoom
  dsimp only
  split
  · rfl
  · split
    · rfl
    · split <;> simp

@[simp] theorem State.putFrameSector_mem (s : State) (p : FrameId) (x : Sector) :
    (s.putFrameSector p x).mem = s.mem := by
  simp [State.putFrameSector]

@[simp] theorem State.putLine_mem (s : State) (n : Nat) (l : DirLine) : (s.putLine n l).mem = s.mem := rfl

@[simp] theorem State.putAgentSector_mem (s : State) (a : Nat) (x : Sector) : (s.putAgentSector a x).mem = s.mem := by
  unfold State.putAgentSector
  split <;> simp

@[simp] theorem State.dropAgentSector_mem (s : State) (a n : Nat) : (s.dropAgentSector a n).mem = s.mem := by
  unfold State.dropAgentSector
  split <;> simp

@[simp] theorem State.gather_mem (s : State) (a n : Nat) : (s.gather a n).mem = s.mem := by
  unfold State.gather
  split <;> simp

@[simp] theorem State.mergeDirty_wf {s : State} (h : s.mem.wf = true) (a n : Nat) :
    (s.mergeDirty a n).mem.wf = true := by
  grind [State.mergeDirty, State.gather_mem, State.homeMerge_wf]

@[simp] theorem State.snoopInvalidate_wf {s : State} (h : s.mem.wf = true) (a n : Nat) :
    (s.snoopInvalidate a n).mem.wf = true := by
  simp [State.snoopInvalidate, h]

@[simp] theorem State.snoopClean_wf {s : State} (h : s.mem.wf = true) (a n : Nat) :
    (s.snoopClean a n).mem.wf = true := by
  grind [State.snoopClean, State.mergeDirty_wf, State.putAgentSector_mem]

@[simp] theorem State.snoopShare_mem (s : State) (a n : Nat) : (s.snoopShare a n).mem = s.mem := by
  grind [State.snoopShare, State.gather_mem, State.putAgentSector_mem]

@[simp] theorem State.evictLine_wf {s : State} (h : s.mem.wf = true) (line : Nat) (l : DirLine) :
    (s.evictLine line l).mem.wf = true := by
  rw [State.evictLine, State.putLine_mem]
  exact foldl_keepsWf (fun s a hs => foldl_keepsWf (fun s k hs => State.snoopInvalidate_wf hs a _) _ hs) _ h

@[simp] theorem State.evictWay_wf {s : State} (h : s.mem.wf = true) (line : Nat) : (s.evictWay line).mem.wf = true := by
  grind [State.evictWay, State.draw_mem, State.evictLine_wf]

@[simp] theorem State.makeWay_wf {s : State} (h : s.mem.wf = true) (line : Nat) : (s.makeWay line).mem.wf = true := by
  unfold State.makeWay
  split
  · exact h
  · exact foldl_keepsWf (fun s _ hs => State.evictWay_wf hs line) _ h

@[simp] theorem State.claimLine_wf {s : State} (h : s.mem.wf = true) (n a : Nat) : (s.claimLine n a).mem.wf = true := by
  refine foldl_keepsWf (fun s k hs => ?_) _ h
  dsimp only
  split
  · simp [hs]
  · exact hs

@[simp] theorem State.setDir_wf {s : State} (h : s.mem.wf = true) (n : Nat) (g : DirSector) :
    (s.setDir n g).mem.wf = true := by
  grind [State.setDir, State.claimLine_wf, State.makeWay_wf, State.putLine_mem]

@[simp] theorem State.moveLine_wf {s : State} (h : s.mem.wf = true) (line : Nat) : (s.moveLine line).mem.wf = true := by
  unfold State.moveLine
  split <;> simp [h]

@[simp] theorem State.invalidateOthers_wf {s : State} (h : s.mem.wf = true) (n : Nat) (keep : Option Nat) :
    (s.invalidateOthers n keep).mem.wf = true := by
  refine foldl_keepsWf (fun s a hs => ?_) _ h
  split
  · exact hs
  · exact State.snoopInvalidate_wf hs a n

@[simp] theorem State.grant_wf {s : State} (h : s.mem.wf = true) (a n : Nat) (d : BitVec 512) (st : Moesi)
    (g : DirSector) : (s.grant a n d st g).mem.wf = true := by
  simp [State.grant, h]

@[simp] theorem State.readShared_wf {s : State} (h : s.mem.wf = true) (a n : Nat) :
    (s.readShared a n).mem.wf = true := by
  grind [State.readShared, State.grant_wf, State.snoopShare_mem, State.gather_mem]

@[simp] theorem State.readUnique_wf {s : State} (h : s.mem.wf = true) (a n : Nat) :
    (s.readUnique a n).mem.wf = true := by
  simp [State.readUnique, h]

@[simp] theorem State.upgrade_wf {s : State} (h : s.mem.wf = true) (a n : Nat) : (s.upgrade a n).mem.wf = true := by
  grind [State.upgrade, State.invalidateOthers_wf, State.setDir_wf, State.putAgentSector_mem, State.readUnique_wf]

@[simp] theorem State.writeBack_wf {s : State} (h : s.mem.wf = true) (a n : Nat) : (s.writeBack a n).mem.wf = true := by
  grind [State.writeBack, State.mergeDirty_wf, State.setDir_wf, State.dropAgentSector_mem]

@[simp] theorem State.writeBackKeep_wf {s : State} (h : s.mem.wf = true) (a n : Nat) :
    (s.writeBackKeep a n).mem.wf = true := by
  grind [State.writeBackKeep, State.mergeDirty_wf, State.putAgentSector_mem, State.setDir_wf]

@[simp] theorem State.untrackedRead_wf {s : State} (h : s.mem.wf = true) (n : Nat) :
    (s.untrackedRead n).2.mem.wf = true := by
  grind [State.untrackedRead, State.setDir_wf, State.snoopClean_wf]

@[simp] theorem State.untrackedWrite_wf {s : State} (h : s.mem.wf = true) (n : Nat) (mask : BitVec 64)
    (d : BitVec 512) : (s.untrackedWrite n mask d).mem.wf = true := by
  grind [State.untrackedWrite, State.homeMerge_wf, State.setDir_wf, State.invalidateOthers_wf]

@[simp] theorem State.noteHome_mem (s : State) (d n : Nat) : (s.noteHome d n).mem = s.mem := rfl

@[simp] theorem State.dieFill_wf {s : State} (h : s.mem.wf = true) (d n : Nat) (u : Bool) :
    (s.dieFill d n u).2.mem.wf = true := by
  grind [State.dieFill, State.noteHome_mem, State.putDieSector_mem, State.readShared_wf, State.untrackedRead_wf]

@[simp] theorem State.dieOwn_wf {s : State} (h : s.mem.wf = true) (d n : Nat) : (s.dieOwn d n).2.mem.wf = true := by
  grind [State.dieOwn, State.dieFill_wf, State.noteHome_mem, State.upgrade_wf, State.readUnique_wf]

@[simp] theorem State.dieModify_mem (s : State) (d n : Nat) (u : Bool) : (s.dieModify d n u).mem = s.mem := by
  unfold State.dieModify
  split <;> simp

@[simp] theorem State.dieToHome_wf {s : State} (h : s.mem.wf = true) (d n : Nat) (u : Bool) :
    (s.dieToHome d n u).mem.wf = true := by
  grind [State.dieToHome, State.flushDieFrames_mem, State.noteHome_mem, State.putDieSector_mem, State.homeMerge_wf,
    State.writeBackKeep_wf, State.untrackedWrite_wf]

@[simp] theorem State.dieDiscard_wf {s : State} (h : s.mem.wf = true) (d n : Nat) (u : Bool) :
    (s.dieDiscard d n u).mem.wf = true := by
  unfold State.dieDiscard
  dsimp only
  split
  · rw [State.dropDieFrames_mem]
    exact State.writeBack_wf (by split <;> simp [h]) _ n
  · simp [h]

@[simp] theorem State.readTower_wf {s : State} (h : s.mem.wf = true) (p : FrameId) (pl : Place) (u : Bool)
    (n off len : Nat) : (s.readTower p pl u n off len).2.2.mem.wf = true := by
  unfold State.readTower
  cases pl <;>
    grind [State.dieFill_wf, State.dieOwn_wf, State.dieToHome_wf, State.untrackedRead_wf, State.putFrameSector_mem,
      State.flushDieFrames_mem,
      State.noteHome_mem]

@[simp] theorem State.readSeg_wf {s : State} (h : s.mem.wf = true) (p : FrameId) (pl : Place) (u : Bool)
    (n off len : Nat) : (s.readSeg p pl u n off len).2.2.mem.wf = true := by
  grind [State.readSeg, State.readTower_wf]

@[simp] theorem State.writeTower_wf {s : State} (h : s.mem.wf = true) (p : FrameId) (pl : Place) (weak u : Bool)
    (n off : Nat) (b : List Byte) : (s.writeTower p pl weak u n off b).2.mem.wf = true := by
  grind [State.writeTower, State.dieOwn_wf, State.claimFrame_mem, State.dieModify_mem, State.putFrameSector_mem,
    State.flushDieFrames_mem, State.dropDieFrames_mem, State.putDieSector_mem, State.dieToHome_wf, State.noteHome_mem,
      State.homeMerge_wf, State.untrackedWrite_wf, State.dropDieSector_mem]

@[simp] theorem State.writeSeg_wf {s : State} (h : s.mem.wf = true) (p : FrameId) (pl : Place) (weak u : Bool)
    (n off : Nat) (b : List Byte) : (s.writeSeg p pl weak u n off b).2.mem.wf = true := by
  grind [State.writeSeg, State.writeTower_wf, State.homeMerge_wf]

@[simp] theorem State.releaseAt_mem (s : State) (p : FrameId) (scope : Nat) : (s.releaseAt p scope).mem = s.mem := by
  simp [State.releaseAt, apply_ite State.mem]

@[simp] theorem State.acquireAt_mem (s : State) (p : FrameId) (scope : Nat) : (s.acquireAt p scope).mem = s.mem := by
  unfold State.acquireAt
  split
  · rfl
  · split
    · simp
    · dsimp only
      split
      · simp
      · exact foldl_mem (fun s f => s.modFrame_mem f _) _ _

@[simp] theorem State.flushSector_wf {s : State} (h : s.mem.wf = true) (d n : Nat) (u : Bool) (scope : Nat) :
    (s.flushSector d n u scope).mem.wf = true := by
  grind [State.flushSector, State.flushDieFrames_mem, State.dieToHome_wf]

@[simp] theorem State.discardSector_wf {s : State} (h : s.mem.wf = true) (d n : Nat) (u : Bool) (scope : Nat) :
    (s.discardSector d n u scope).mem.wf = true := by
  grind [State.discardSector, State.dropDieFrames_mem, State.flushDieFrames_mem, State.dieDiscard_wf]

@[simp] theorem State.atomicSeg_wf {s : State} (h : s.mem.wf = true) (p : FrameId) (pl : Place) (u : Bool)
    (n off len : Nat) (f : Nat → Option Nat) : (s.atomicSeg p pl u n off len f).2.2.mem.wf = true := by
  unfold State.atomicSeg
  cases pl <;>
    grind [State.readSeg_wf, State.writeSeg_wf, State.dieToHome_wf, State.noteHome_mem, State.invalidateOthers_wf,
      State.setDir_wf,
      State.dropDieSector_mem, State.dropDieFrames_mem, State.homeMerge_wf]

@[simp] theorem State.predict_mem (s : State) (d n c : Nat) : (s.predict d n c).mem = s.mem := rfl

@[simp] theorem State.atomicPlace_mem (s : State) (p : FrameId) (ord : BitVec 2) (scope n : Nat) :
    (s.atomicPlace p ord scope n).2.mem = s.mem := by
  grind [State.atomicPlace, State.predict_mem]

/-! ### Translation -/

@[simp] theorem State.readEntry_wf {s : State} (h : s.mem.wf = true) (pa : Nat) : (s.readEntry pa).2.mem.wf = true := by
  grind [State.readEntry, State.untrackedRead_wf]

@[simp] theorem State.walkEntry_wf {s : State} (h : s.mem.wf = true) (asid level table va : Nat) :
    (s.walkEntry asid level table va).2.mem.wf = true := by
  grind [State.walkEntry, State.readEntry_wf, State.modHub_mem]

@[simp] theorem State.walkFrom_wf (asid va : Nat) :
    ∀ (fuel table : Nat) {s : State}, s.mem.wf = true → (State.walkFrom asid va fuel table s).2.mem.wf = true
  | 0, _, _, h => h
  | fuel + 1, table, s, h => by
    grind [State.walkFrom, State.walkEntry_wf, State.walkFrom_wf asid va fuel]

@[simp] theorem State.readRun_wf {s : State} (h : s.mem.wf = true) (table va : Nat) :
    (s.readRun table va).2.mem.wf = true := by
  unfold State.readRun
  refine foldl_snd_keepsWf (fun a k ha => ?_) _ h
  have := State.readEntry_wf ha (table + 8 * (levelIndex 3 va / 16 * 16 + k))
  split <;> simp_all

@[simp] theorem State.handOut_mem (s : State) (glob : Bool) (key holder e : Nat) :
    (s.handOut glob key holder e).mem = s.mem :=
  rfl

@[simp] theorem State.giveOut_mem (s : State) (glob : Bool) (key : Nat) (x : Xlat) :
    (s.giveOut glob key x).mem = s.mem :=
  rfl

@[simp] theorem State.runXlat_wf {s : State} (h : s.mem.wf = true) (asid part va table : Nat) :
    (s.runXlat asid part va table).2.mem.wf = true := by
  grind [State.runXlat, State.readRun_wf, State.draw_mem]

@[simp] theorem State.walk_wf {s : State} (h : s.mem.wf = true) (holder asid va : Nat) :
    (s.walk holder asid va).2.mem.wf = true := by
  grind [State.walk, State.walkFrom_wf, State.runXlat_wf, State.giveOut_mem, State.handOut_mem]

@[simp] theorem State.forget_mem (s : State) (q : Lookup) : (s.forget q).mem = s.mem := rfl

@[simp] theorem State.refill_wf {s : State} (h : s.mem.wf = true) (q : Lookup) : (s.refill q).2.mem.wf = true := by
  grind [State.refill, State.walk_wf, State.modFrame_mem, State.modDie_mem]

@[simp] theorem State.lookup_wf {s : State} (h : s.mem.wf = true) (q : Lookup) : (s.lookup q).2.mem.wf = true := by
  grind [State.lookup, State.modFrame_mem, State.refill_wf, State.forget_mem]

@[simp] theorem State.page_wf {s : State} (h : s.mem.wf = true) (q : Lookup) (n : Need) :
    (s.page q n).2.mem.wf = true := by
  unfold State.page
  grind [State.lookup_wf, State.refill_wf, State.forget_mem]

@[simp] theorem State.pages_wf (p : FrameId) (asid : Nat) (n : Need) :
    ∀ (l : List Nat) {s : State}, s.mem.wf = true → (s.pages p asid n l).2.mem.wf = true
  | [], _, h => h
  | va :: l, s, h => by
    grind [State.pages, State.page_wf, State.pages_wf p asid n l]

@[simp] theorem State.readPieces_wf (p : FrameId) (scope : Nat) :
    ∀ (l : List Piece) {s : State}, s.mem.wf = true → (State.readPieces p scope l s).2.2.mem.wf = true
  | [], _, h => h
  | x :: l, _, h => State.readPieces_wf p scope l (State.readSeg_wf h p _ _ x.sector x.off x.len)

@[simp] theorem State.writePieces_wf (p : FrameId) (scope : Nat) (weak : Bool) : ∀ (l : List Piece) (b : List Byte)
    {s : State}, s.mem.wf = true → (State.writePieces p scope weak l b s).2.mem.wf = true
  | [], _, _, h => h
  | x :: l, _, _, h => State.writePieces_wf p scope weak l _ (State.writeSeg_wf h p _ weak _ x.sector x.off _)

/-! ### Outstanding loads -/

@[simp] theorem State.loadPages_wf {s : State} (h : s.mem.wf = true) (k : RodKey) (r : Rod) (e : LoadEntry) :
    (s.loadPages k r e).2.mem.wf = true := by
  unfold State.loadPages
  split <;> simp [h]

@[simp] theorem State.performLoad_wf {s : State} (h : s.mem.wf = true) (k : RodKey) (r : Rod) (e : LoadEntry) :
    (s.performLoad k r e).2.mem.wf = true := by
  grind [State.performLoad, State.loadPages_wf, State.readPieces_wf, State.acquireAt_mem]

@[simp] theorem State.returnEntry_wf {s : State} (h : s.mem.wf = true) (k : RodKey) (l pos : Nat) :
    (s.returnEntry k l pos).mem.wf = true := by
  grind [State.returnEntry, State.performLoad_wf, State.drawBytes_mem, State.modRod_mem]

@[simp] theorem State.drainLane_wf (k : RodKey) (l : Nat) :
    ∀ (n : Nat) {s : State}, s.mem.wf = true → (s.drainLane k l n).mem.wf = true
  | 0, _, h => h
  | n + 1, _, h => State.drainLane_wf k l n (State.returnEntry_wf h k l 0)

@[simp] theorem State.drainWhere_wf {s : State} (h : s.mem.wf = true) (k : RodKey) (m : BitVec 32)
    (p : Lane → LoadEntry → Bool) : (s.drainWhere k m p).mem.wf = true := by
  refine foldl_keepsWf (fun s l hs => ?_) _ h
  split
  · exact hs
  · exact State.drainLane_wf k l _ hs

@[simp] theorem State.drainAll_wf {s : State} (h : s.mem.wf = true) (k : RodKey) (m : BitVec 32) :
    (s.drainAll k m).mem.wf = true := by
  simp [State.drainAll, h]

@[simp] theorem settleLoads_wf {s : State} (h : s.mem.wf = true) (i : Instr) (k : RodKey) (m : BitVec 32) :
    (settleLoads i k m s).mem.wf = true := by
  unfold settleLoads
  split <;> simp [h]

@[simp] theorem State.loadReturn_wf {s : State} (h : s.mem.wf = true) (k : RodKey) (lane pos : Nat) :
    (s.loadReturn k lane pos).mem.wf = true := by
  grind [State.loadReturn, State.returnEntry_wf]

@[simp] theorem State.between_wf {s : State} (h : s.mem.wf = true) : (s.between).mem.wf = true := by
  grind [State.between, State.loadReturn_wf]

/-! ### The issue of one word -/

@[simp] theorem State.settleWrites_mem (s : State) (k : RodKey) (m : BitVec 32) : (s.settleWrites k m).mem = s.mem := by
  grind [State.settleWrites, State.setRod_mem]

@[simp] theorem State.orderItems_mem (s : State) (is : Issue) (m : BitVec 32) : (s.orderItems is m).mem = s.mem := by
  unfold State.orderItems
  split <;> simp

@[simp] theorem takeDeferred_mem (s : State) (is : Issue) : (takeDeferred is s).2.mem = s.mem := by
  unfold takeDeferred
  dsimp only
  split <;> simp

theorem runMarked_wf {i : Instr} {k : RodKey} {body : Issue → State → State}
    (hb : ∀ is {s : State}, s.mem.wf = true → (body is s).mem.wf = true) :
    ∀ (fuel : Nat) (m lost : BitVec 32) {s : State}, s.mem.wf = true → (runMarked i k body fuel m lost s).mem.wf = true
  | 0, _, _, _, h => h
  | fuel + 1, m, lost, s, h => by
    rw [runMarked]
    split
    · exact h
    · dsimp only
      split
      · exact hb _ h
      · split
        · simp [h]
        · exact runMarked_wf hb fuel _ _ (by simp [h])

theorem runWord_wf {s : State} (h : s.mem.wf = true) {i : Instr} {k : RodKey} {m : BitVec 32}
    {body : Issue → State → State} (hb : ∀ is {s : State}, s.mem.wf = true → (body is s).mem.wf = true) :
    (runWord i k m body s).mem.wf = true := by
  unfold runWord
  split
  · exact h
  · split
    · simp [h]
    · split
      · exact h
      · exact runMarked_wf hb _ _ _ (by simp [h])

theorem issueWord_wf {s s' : State} {i : Instr} {body : Issue → State → State}
    (hb : ∀ is {s : State}, s.mem.wf = true → (body is s).mem.wf = true) (h : s.mem.wf = true)
    (he : issueWord i body s = .next s') : s'.mem.wf = true := by
  unfold issueWord at he
  split at he
  · cases he
  · split at he
    · cases he
    · split at he
      · cases he
        rw [State.modRod_mem]
        exact runWord_wf h hb
      · cases he

@[simp] theorem plainPass_mem (s : State) (f : LaneIn → LaneOut) (is : Issue) : (plainPass f is s).mem = s.mem := by
  simp [plainPass]

@[simp] theorem finishPass_mem (s : State) (is : Issue) (p : Plan) (a : Pass) : (finishPass is p a s).mem = s.mem := by
  simp [finishPass]

@[simp] theorem carryPass_mem (s : State) (f : LaneIn → LaneOut) (is : Issue) : (carryPass f is s).mem = s.mem := by
  simp [carryPass]

@[simp] theorem laneBody_mem (s : State) (f : State → Issue → LaneIn → LaneOut) (is : Issue) :
    (laneBody f is s).mem = s.mem := by
  unfold laneBody
  split <;> simp

theorem laneOp_wf {i : Instr} {f : LaneIn → LaneOut} {s s' : State} (h : s.mem.wf = true)
    (he : laneOp i f s = .next s') : s'.mem.wf = true :=
  issueWord_wf (fun is s hs => by simpa using hs) h he

@[simp] theorem crossBody_mem (s : State) (f : List (Nat × LaneIn) → LaneIn → LaneOut) (is : Issue) :
    (crossBody f is s).mem = s.mem := by
  grind [crossBody, finishPass_mem]

theorem crossOp_wf {i : Instr} {f : List (Nat × LaneIn) → LaneIn → LaneOut} {s s' : State} (h : s.mem.wf = true)
    (he : crossOp i f s = .next s') : s'.mem.wf = true :=
  issueWord_wf (fun is s hs => by simpa using hs) h he

@[simp] theorem passOver_mem (s : State) (is : Issue) : (passOver is s).mem = s.mem := by simp [passOver]

@[simp] theorem faultEnabled_mem (s : State) (is : Issue) (c : Cause) : (faultEnabled is c s).mem = s.mem := by
  simp [faultEnabled]

@[simp] theorem blockEnabled_mem (s : State) (is : Issue) (w : Wait) : (blockEnabled is w s).mem = s.mem := by
  simp [blockEnabled]

/-! ### Teams, rows, tokens and joins -/

@[simp] theorem State.modMember_mem (s : State) (tk : TeamKey) (launch team rod : Nat) (g : Rod → Rod) :
    (s.modMember tk launch team rod g).mem = s.mem := by
  unfold State.modMember
  split <;> simp

@[simp] theorem State.modSavedRod_mem (s : State) (tk : TeamKey) (launch team rod : Nat) (g : SavedRod → SavedRod) :
    (s.modSavedRod tk launch team rod g).mem = s.mem := by
  unfold State.modSavedRod
  split <;> simp

@[simp] theorem State.modPeerQueue_mem (s : State) (launch number q : Nat) (g : TokenQueue → TokenQueue) :
    (s.modPeerQueue launch number q g).mem = s.mem := by
  unfold State.modPeerQueue
  split
  · simp
  · exact foldl_mem (fun s p => s.modFrame_mem p _) _ _

@[simp] theorem State.popToken_mem (s : State) (tk : TeamKey) (q : Nat) : (s.popToken tk q).2.mem = s.mem := by
  unfold State.popToken
  split <;> simp

@[simp] theorem State.serveGets_mem (tk : TeamKey) (q : Nat) :
    ∀ (fuel : Nat) (s : State), (State.serveGets tk q fuel s).mem = s.mem
  | 0, _ => rfl
  | fuel + 1, s => by
    rw [State.serveGets]
    split
    · rfl
    · split
      · rfl
      · rw [State.serveGets_mem tk q fuel]
        simp

@[simp] theorem State.serveTeam_mem (s : State) (tk : TeamKey) : (s.serveTeam tk).mem = s.mem := by
  simp [State.serveTeam]

@[simp] theorem State.putToken_mem (s : State) (tk : TeamKey) (q : Nat) (v : Word) :
    (s.putToken tk q v).mem = s.mem := by
  simp [State.putToken]

@[simp] theorem State.append_mem (s : State) (p : FrameId) (e : EngineId) (c : Cmd) : (s.append p e c).mem = s.mem :=
  rfl

@[simp] theorem State.enqueue_mem (s : State) (p : FrameId) (e : EngineId) (c : Cmd) :
    (s.enqueue p e c).mem = s.mem := by
  simp [State.enqueue]

@[simp] theorem State.settleRows_mem (s : State) (tk : TeamKey) : (s.settleRows tk).mem = s.mem := by
  unfold State.settleRows
  split <;> simp

@[simp] theorem State.releaseRows_mem (s : State) (tk : TeamKey) (rod : Nat) (rows : List Nat) :
    (s.releaseRows tk rod rows).mem = s.mem := by
  unfold State.releaseRows
  split <;> simp

@[simp] theorem State.settleBarrier_mem (s : State) (tk : TeamKey) (n : Nat) : (s.settleBarrier tk n).mem = s.mem := by
  unfold State.settleBarrier
  split
  · rfl
  · dsimp only
    split
    · rfl
    · rw [State.modFrame_mem, foldl_mem (fun s e => by split <;> simp), State.setTeam_mem]

@[simp] theorem State.arrive_mem (s : State) (k : RodKey) (r : Rod) (n : Nat) : (s.arrive k r n).mem = s.mem := by
  unfold State.arrive
  split <;> simp

@[simp] theorem State.countFault_mem (s : State) (launch n : Nat) : (s.countFault launch n).mem = s.mem := rfl

@[simp] theorem State.engineFaultTo_mem (s : State) (tk : TeamKey) (launch rod : Nat) (ef : EngineFault) :
    (s.engineFaultTo tk launch rod ef).mem = s.mem := by
  grind [State.engineFaultTo, State.countFault_mem, State.modMember_mem, State.modTeam_mem]

@[simp] theorem State.countSupplier_mem (s : State) (tk : TeamKey) (t : Team) (i : Instance) :
    (s.countSupplier tk t i).mem = s.mem := by
  unfold State.countSupplier
  split <;> simp

@[simp] theorem State.settleJoin_mem (tk : TeamKey) (n : Nat) :
    ∀ (fuel : Nat) (s : State), (State.settleJoin tk n fuel s).mem = s.mem
  | 0, _ => rfl
  | fuel + 1, s => by
    rw [State.settleJoin]
    split
    · rfl
    · dsimp only
      split
      · rfl
      · split
        · rfl
        · split
          · rfl
          · rw [State.settleJoin_mem tk n fuel, foldl_mem (fun s e => by split <;> simp)]
            simp [apply_ite State.mem]

@[simp] theorem State.settleJoins_mem (s : State) (tk : TeamKey) : (s.settleJoins tk).mem = s.mem := by
  simp [State.settleJoins]

theorem State.sign_mem {s s' : State} {k : RodKey} {r : Rod} {j : Nat} {same : DWord → Bool} {fresh : Instance}
    (he : s.sign k r j same fresh = .signed s') : s'.mem = s.mem := by
  unfold State.sign at he
  dsimp only at he
  split at he
  · cases he
  · split at he
    · cases he
    · split at he
      · cases he
      · split at he
        · cases he
        · cases he
          simp

@[simp] theorem State.retireLanes_mem (s : State) (k : RodKey) (m : BitVec 32) (outcome : Lane → ItemOutcome) :
    (s.retireLanes k m outcome).mem = s.mem := by
  unfold State.retireLanes
  split <;> simp

@[simp] theorem State.retireRod_mem (s : State) (k : RodKey) : (s.retireRod k).mem = s.mem := by
  unfold State.retireRod
  split
  · rfl
  · split
    · rfl
    · dsimp only
      rw [State.settleJoins_mem, foldl_mem (fun s n => s.settleBarrier_mem _ n), foldl_mem
        (fun s ef => s.engineFaultTo_mem _ _ _ ef)]
      simp

/-! ### Control words -/

@[simp] theorem branchBody_mem (s : State) (f : Rod → Lane → Except (Cause × DWord) Lane) (is : Issue) :
    (branchBody f is s).mem = s.mem := by
  simp [branchBody]

@[simp] theorem exitBody_mem (s : State) (is : Issue) : (exitBody is s).mem = s.mem := by simp [exitBody]

@[simp] theorem rcvBody_mem (s : State) (w : BWord) (is : Issue) : (rcvBody w is s).mem = s.mem := by simp [rcvBody]

@[simp] theorem rsyncBody_mem (s : State) (is : Issue) : (rsyncBody is s).mem = s.mem := by simp [rsyncBody]

@[simp] theorem yieldBody_mem (s : State) (is : Issue) : (yieldBody is s).mem = s.mem := by
  unfold yieldBody
  split <;> simp

@[simp] theorem growBody_mem (s : State) (f sl : Nat) (is : Issue) : (growBody f sl is s).mem = s.mem := by
  grind [growBody, passOver_mem, faultEnabled_mem, State.modRod_mem, State.modFrame_mem, blockEnabled_mem]

@[simp] theorem shrinkBody_wf {s : State} (h : s.mem.wf = true) (f sl : Nat) (is : Issue) :
    (shrinkBody f sl is s).mem.wf = true := by
  unfold shrinkBody
  split <;> simp [h]

theorem jsetMask_mem {s s' : State} (is : Issue) (a : BitVec 8) {v} (he : jsetMask is a s = some (v, s')) :
    s'.mem = s.mem := by
  grind [jsetMask, State.setRod_mem]

@[simp] theorem jsetBody_mem (s : State) (j : Nat) (a : BitVec 8) (is : Issue) : (jsetBody j a is s).mem = s.mem := by
  grind [jsetBody, passOver_mem, faultEnabled_mem, jsetMask_mem, State.modRod_mem, blockEnabled_mem, State.modTeam_mem]

@[simp] theorem jwaitBody_mem (s : State) (j : Nat) (is : Issue) : (jwaitBody j is s).mem = s.mem := by
  grind [jwaitBody, passOver_mem, blockEnabled_mem]

@[simp] theorem cdoneBody_mem (s : State) (slot : Nat) (is : Issue) : (cdoneBody slot is s).mem = s.mem := by
  simp [cdoneBody]

@[simp] theorem validBody_mem (s : State) (p : Nat) (is : Issue) : (validBody p is s).mem = s.mem := by simp [validBody]

/-! ### Engine words -/

@[simp] theorem countDraw_mem (s : State) (is : Issue) (c : Cmd) : (countDraw is c s).mem = s.mem := by
  unfold countDraw
  split <;> simp

@[simp] theorem enterQueue_mem (s : State) (is : Issue) (t : Team) (e : EngineId) (c : Cmd) :
    (enterQueue is t e c s).mem = s.mem := by
  unfold enterQueue
  split <;> simp

@[simp] theorem signJoin_mem (s : State) (is : Issue) (t : Team) (j : Nat) (same : DWord → Bool) (c : Cmd) :
    (signJoin is t j same c s).mem = s.mem := by
  unfold signJoin
  dsimp only
  split
  · simp
  · simp
  · have := State.sign_mem ‹_›
    split <;> simp [this]

@[simp] theorem commandBody_mem (s : State) (w : EWord) (q : EShape) (is : Issue) :
    (commandBody w q is s).mem = s.mem := by
  grind [commandBody, passOver_mem, faultEnabled_mem, signJoin_mem, enterQueue_mem]

theorem commandOp_wf {i : Instr} {s s' : State} (h : s.mem.wf = true) (he : commandOp i s = .next s') :
    s'.mem.wf = true := by
  unfold commandOp at he
  split at he
  · exact issueWord_wf (fun is s hs => by simpa using hs) h he
  · exact issueWord_wf (fun is s hs => by simpa using hs) h he

theorem rowsBody_wf {f : Issue → Team → Nat → Nat → State → State}
    (hf : ∀ is t a n (s : State), (f is t a n s).mem = s.mem) (w : EWord) (is : Issue) {s : State}
    (h : s.mem.wf = true) : (rowsBody w f is s).mem.wf = true := by
  grind [rowsBody, passOver_mem, faultEnabled_mem]

@[simp] theorem acresBody_mem (s : State) (is : Issue) (_t : Team) (a n : Nat) :
    (acresBody is _t a n s).mem = s.mem := by
  grind [acresBody, State.modRod_mem, passOver_mem, State.modFrame_mem, blockEnabled_mem]

@[simp] theorem acrelBody_mem (s : State) (is : Issue) (_t : Team) (a n : Nat) :
    (acrelBody is _t a n s).mem = s.mem := by
  simp [acrelBody]

@[simp] theorem rredJoinedBody_mem (s : State) (w : RWord) (is : Issue) : (rredJoinedBody w is s).mem = s.mem := by
  unfold rredJoinedBody
  split
  · simp
  · split
    · simp
    · split
      · simp
      · dsimp only
        split
        · simp
        · simp
        · split
          · simp
          · simp
          · have := State.sign_mem ‹_›
            split <;> simp [this]

/-! ### The engines at work -/

@[simp] theorem State.effectOf_mem (s : State) (t0 : Team) (c : Cmd) : (s.effectOf t0 c).2.mem = s.mem := by
  grind [State.effectOf, State.engineView_mem]

@[simp] theorem State.modEngine_mem (s : State) (p : FrameId) (e : EngineId) (g : Engine → Engine) :
    (s.modEngine p e g).mem = s.mem :=
  rfl

@[simp] theorem State.noteHead_mem (s : State) (p : FrameId) (e : EngineId) : (s.noteHead p e).mem = s.mem := by
  grind [State.noteHead, State.modEngine_mem]

@[simp] theorem State.noteHeads_mem (s : State) : (s.noteHeads).mem = s.mem := by simp [State.noteHeads]

@[simp] theorem State.settleFrame_mem (s : State) (p : FrameId) : (s.settleFrame p).mem = s.mem := by
  simp [State.settleFrame]

@[simp] theorem State.reservePeer_mem (s : State) (c : Cmd) : (s.reservePeer c).mem = s.mem := by
  unfold State.reservePeer
  split <;> simp

@[simp] theorem State.commandFault_mem (s : State) (p : FrameId) (e : EngineId) (c : Cmd) (cause : Cause)
    (orig : Option (BitVec 8)) (addr : DWord) : (s.commandFault p e c cause orig addr).mem = s.mem := by
  simp [State.commandFault]

@[simp] theorem State.startCommand_mem (s : State) (p : FrameId) (e : EngineId) : (s.startCommand p e).mem = s.mem := by
  grind [State.startCommand, State.settleFrame_mem, State.commandFault_mem, State.modEngine_mem, State.effectOf_mem,
    State.reservePeer_mem, State.setTeam_mem]

@[simp] theorem State.readGlobal_wf (p : FrameId) (asid : Nat) :
    ∀ (fuel va n : Nat) {s : State}, s.mem.wf = true → (State.readGlobal p asid fuel va n s).2.2.mem.wf = true
  | 0, _, _, _, h => h
  | fuel + 1, va, n, s, h => by
    grind [State.readGlobal, State.page_wf, State.readSeg_wf, State.readGlobal_wf p asid fuel]

@[simp] theorem State.writeGlobal_wf (p : FrameId) (asid : Nat) : ∀ (fuel va : Nat) (b : List Byte) {s : State},
    s.mem.wf = true → (State.writeGlobal p asid fuel va b s).2.2.mem.wf = true
  | 0, _, _, _, h => h
  | fuel + 1, va, b, s, h => by
    grind [State.writeGlobal, State.page_wf, State.writeSeg_wf, State.writeGlobal_wf p asid fuel]

@[simp] theorem State.putFs_mem (s : State) (tk : TeamKey) (a : Nat) (b : List Byte) :
    (s.putFs tk a b).mem = s.mem := by
  simp [State.putFs]

@[simp] theorem copyRun_wf {s : State} (h : s.mem.wf = true) (p : FrameId) (asid : Nat) (fs : Cells 8) (c : Cmd)
    (rest : Nat) : (copyRun s p asid fs c rest).s.mem.wf = true := by
  unfold copyRun
  split <;> simp [h]

@[simp] theorem firstFaultRun_wf (p : FrameId) (asid sz f v : Nat) (tk : TeamKey) :
    ∀ (n c : Nat) {s : State}, s.mem.wf = true → (firstFaultRun p asid sz f v tk n c s).s.mem.wf = true
  | 0, _, _, h => h
  | n + 1, c, s, h => by
    grind [firstFaultRun, State.pages_wf, State.readGlobal_wf, State.putFs_mem, firstFaultRun_wf p asid sz f v tk n]

@[simp] theorem rowsRun_wf (p : FrameId) (asid : Nat) (fs : Cells 8) (c : Cmd) :
    ∀ (n r : Nat) {s : State}, s.mem.wf = true → (rowsRun p asid fs c n r s).s.mem.wf = true
  | 0, _, _, h => h
  | n + 1, r, s, h => by
    grind [rowsRun, State.writeGlobal_wf, State.readGlobal_wf, State.putFs_mem, rowsRun_wf p asid fs c n]

@[simp] theorem planesRun_wf (p : FrameId) (asid : Nat) (kb : DWord) (c : Cmd) :
    ∀ (n r : Nat) {s : State}, s.mem.wf = true → (planesRun p asid kb c n r s).s.mem.wf = true
  | 0, _, _, h => h
  | n + 1, r, s, h => by
    grind [planesRun, State.readGlobal_wf, State.modTeam_mem, planesRun_wf p asid kb c n]

@[simp] theorem peerRun_mem (s : State) (p : FrameId) (fs : Cells 8) (c : Cmd) (len : Nat) :
    (peerRun s p fs c len).s.mem = s.mem := by
  grind [peerRun, State.drawBytes_mem, State.putFs_mem]

@[simp] theorem State.reachTo_wf {s : State} (h : s.mem.wf = true) (p : FrameId) (t : Team) (c : Cmd) (last : Nat) :
    (s.reachTo p t c last).s.mem.wf = true := by
  unfold State.reachTo
  dsimp only
  split <;> simp [h]

@[simp] theorem State.reach_wf {s : State} (h : s.mem.wf = true) (p : FrameId) (t : Team) (c : Cmd) :
    (s.reach p t c).s.mem.wf = true := by
  simp [State.reach, h]

@[simp] theorem State.noteLanded_mem (s : State) (tk : TeamKey) (launch team rod : Nat) (l : List (Nat × Joined)) :
    (s.noteLanded tk launch team rod l).mem = s.mem := by
  simp [State.noteLanded]

@[simp] theorem State.finishReduce_mem (s : State) (p : FrameId) (c : Cmd) (v : Option DWord) :
    (s.finishReduce p c v).mem = s.mem := by
  unfold State.finishReduce
  split
  · rfl
  · refine foldl_mem (fun s q => ?_) _ _
    split
    · rfl
    · dsimp only
      split <;> simp

@[simp] theorem State.remoteToken_mem (s : State) (c : Cmd) : (s.remoteToken c).mem = s.mem := by
  unfold State.remoteToken
  split <;> simp

@[simp] theorem State.retireCommand_mem (s : State) (p : FrameId) (e : EngineId) (n : Nat) (c : Cmd)
    (payload : Word) : (s.retireCommand p e n c payload).mem = s.mem := by
  unfold State.retireCommand
  split <;> simp

@[simp] theorem State.finishCommand_wf {s : State} (h : s.mem.wf = true) (p : FrameId) (e : EngineId) (n : Nat) :
    (s.finishCommand p e n).mem.wf = true := by
  grind [State.finishCommand, State.reach_wf, State.retireCommand_mem, State.modTeam_mem]

@[simp] theorem State.landCommand_wf {s : State} (h : s.mem.wf = true) (p : FrameId) (e : EngineId) (n k : Nat) :
    (s.landCommand p e n k).mem.wf = true := by
  grind [State.landCommand, State.reachTo_wf, State.modEngine_mem, State.modTeam_mem]

@[simp] theorem State.landByte_wf {s : State} (h : s.mem.wf = true) (p : FrameId) (e : EngineId) (n k : Nat) :
    (s.landByte p e n k).mem.wf = true := by
  grind [State.landByte, State.reachTo_wf]

@[simp] theorem State.stopCommand_mem (s : State) (p : FrameId) (e : EngineId) (n : Nat) (c : Cmd) (cause : Cause)
    (addr : DWord) : (s.stopCommand p e n c cause addr).mem = s.mem :=
  rfl

@[simp] theorem State.releaseSlots_mem (s : State) (p : FrameId) (c : Cmd) : (s.releaseSlots p c).mem = s.mem := by
  grind [State.releaseSlots, State.modTeam_mem, State.modPeerQueue_mem]

@[simp] theorem State.cancelWhere_mem (s : State) (p : FrameId) (e : EngineId) (pr : Cmd → Bool) :
    (s.cancelWhere p e pr).mem = s.mem := by
  simp [State.cancelWhere]

@[simp] theorem State.faultCommand_mem (s : State) (p : FrameId) (e : EngineId) (n : Nat) (c : Cmd) (cause : Cause)
    (addr : DWord) : (s.faultCommand p e n c cause addr).mem = s.mem := by
  unfold State.faultCommand
  split <;> simp

@[simp] theorem State.runFault_wf {s : State} (h : s.mem.wf = true) (p : FrameId) (e : EngineId) (n : Nat) :
    (s.runFault p e n).mem.wf = true := by
  grind [State.runFault, State.reach_wf, State.faultCommand_mem]

@[simp] theorem State.deliverFault_mem (s : State) (k : RodKey) : (s.deliverFault k).mem = s.mem := by
  grind [State.deliverFault, State.modFrame_mem, State.setRod_mem, State.takeFault_mem]

@[simp] theorem State.restartEntry_mem (s : State) (p : FrameId) (e : EngineId) (n : Nat) :
    (s.restartEntry p e n).mem = s.mem := by
  grind [State.restartEntry, State.effectOf_mem, State.modEngine_mem]

@[simp] theorem State.restartEntries_mem (s : State) (p : FrameId) (e : EngineId) :
    (s.restartEntries p e).mem = s.mem := by
  simp [State.restartEntries]

@[simp] theorem State.issueResume_mem (s : State) (p : FrameId) (e : EngineId) : (s.issueResume p e).mem = s.mem := by
  simp [State.issueResume]

/-! ### Fetch and the ports -/

@[simp] theorem State.fetchThrough_wf {s : State} (h : s.mem.wf = true) (p : FrameId) (x : Xlat) (pc : DWord) :
    (s.fetchThrough p x pc).2.mem.wf = true := by
  grind [State.fetchThrough, State.readSeg_wf]

@[simp] theorem State.eitherWord_mem (s : State) (p : FrameId) (launch : Nat) (pc w : DWord) :
    (s.eitherWord p launch pc w).2.mem = s.mem := by
  unfold State.eitherWord
  split <;> simp

@[simp] theorem State.fetchWord_wf {s : State} (h : s.mem.wf = true) (k : RodKey) (r : Rod) (pc : DWord) :
    (s.fetchWord k r pc).2.mem.wf = true := by
  grind [State.fetchWord, State.page_wf, State.fetchThrough_wf, State.eitherWord_mem]

@[simp] theorem State.holdCode_wf {s : State} (h : s.mem.wf = true) (p : FrameId) (pc : DWord) :
    (s.holdCode p pc).mem.wf = true := by
  grind [State.holdCode, State.page_wf, State.fetchThrough_wf, State.modFrame_mem]

@[simp] theorem State.fetch_wf {s : State} (h : s.mem.wf = true) (k : RodKey) (r : Rod) (pc : DWord) :
    (s.fetch k r pc).2.mem.wf = true := by
  grind [State.fetch, State.fetchWord_wf]

@[simp] theorem State.markIssued_mem (s : State) (port : Nat) (who : Issuer) : (s.markIssued port who).mem = s.mem := by
  simp [State.markIssued]

@[simp] theorem State.markFirmware_mem (s : State) (p : FrameId) : (s.markFirmware p).mem = s.mem := rfl

@[simp] theorem State.endCycle_mem (s : State) (p : FrameId) (late : List (Nat × BitVec 32)) :
    (s.endCycle p late).mem = s.mem := by
  simp [State.endCycle, apply_ite State.mem]

/-! ### What happens at an issue boundary -/

@[simp] theorem State.fetchFault_mem (s : State) (who : Issuer) (c : Cause) (word addr : DWord) :
    (s.fetchFault who c word addr).mem = s.mem := by
  unfold State.fetchFault
  split <;> simp

@[simp] theorem State.divertRod_mem (s : State) (k : RodKey) : (s.divertRod k).mem = s.mem := by
  unfold State.divertRod
  split <;> simp

@[simp] theorem State.addRecord_mem (s : State) (k : RodKey) (m : BitVec 32) (i : FaultInfo) :
    (s.addRecord k m i).mem = s.mem := by
  unfold State.addRecord
  split <;> simp

@[simp] theorem State.stopRecord_mem (s : State) (k : RodKey) (r : Rod) (c : Cause) (halted : Bool) :
    (s.stopRecord k r c halted).mem = s.mem := by
  simp [State.stopRecord]

@[simp] theorem State.takeHalt_mem (s : State) (k : RodKey) (r : Rod) : (s.takeHalt k r).mem = s.mem := by
  simp [State.takeHalt]

@[simp] theorem State.takeSlice_mem (s : State) (k : RodKey) (r : Rod) : (s.takeSlice k r).mem = s.mem := by
  simp [State.takeSlice]

@[simp] theorem State.takeWdog_mem (s : State) (k : RodKey) (r : Rod) : (s.takeWdog k r).mem = s.mem := by
  simp [State.takeWdog]

@[simp] theorem State.takeTrap_mem (s : State) (k : RodKey) (t : TrapForm) : (s.takeTrap k t).mem = s.mem := by
  grind [State.takeTrap, State.takeHalt_mem, State.takeWdog_mem, State.takeSlice_mem]

@[simp] theorem State.deliverAll_mem (k : RodKey) : ∀ (n : Nat) (s : State), (State.deliverAll k n s).mem = s.mem
  | 0, _ => rfl
  | n + 1, s => (State.deliverAll_mem k n _).trans (s.deliverFault_mem k)

@[simp] theorem State.divertIfDue_mem (s : State) (k : RodKey) : (s.divertIfDue k).mem = s.mem := by
  grind [State.divertIfDue, State.divertRod_mem]

@[simp] theorem State.boundary_mem (s : State) (k : RodKey) : (s.boundary k).mem = s.mem := by
  unfold State.boundary
  split
  · rfl
  · split <;> simp

@[simp] theorem State.boundaries_mem (s : State) (p : FrameId) : (s.boundaries p).mem = s.mem :=
  foldl_mem (fun s _ => s.boundary_mem _) _ _

/-! ### Privileged words -/

theorem sysBody_wf {f : Issue → Operands → State → Except Cause State}
    (hf : ∀ is o {s s' : State}, s.mem.wf = true → f is o s = .ok s' → s'.mem.wf = true) (is : Issue) {s : State}
    (h : s.mem.wf = true) : (sysBody f is s).mem.wf = true := by
  unfold sysBody
  split
  · simp [h]
  · split
    · simp [h]
    · split
      · simp [h]
      · simpa using hf _ _ h ‹_›

theorem sysOp_wf {i : Instr} {f : Issue → Operands → State → Except Cause State}
    (hf : ∀ is o {s s' : State}, s.mem.wf = true → f is o s = .ok s' → s'.mem.wf = true) {s s' : State}
    (h : s.mem.wf = true) (he : sysOp i f s = .next s') : s'.mem.wf = true :=
  issueWord_wf (sysBody_wf hf) h he

@[simp] theorem State.modContext_mem (s : State) (p : FrameId) (g : Lane → Lane) : (s.modContext p g).mem = s.mem := rfl

@[simp] theorem State.writeEngctl_mem (s : State) (p : FrameId) (v : Word) : (s.writeEngctl p v).mem = s.mem := by
  simp [State.writeEngctl, apply_ite State.mem]

theorem State.sysWrite_mem {s s' : State} {p : FrameId} {n : Nat} {v : DWord} (he : s.sysWrite p n v = .ok s') :
    s'.mem = s.mem := by
  unfold State.sysWrite at he
  dsimp only at he
  repeat' split at he
  all_goals cases he
  all_goals simp

@[simp] theorem State.windowReg_wf {s : State} (h : s.mem.wf = true) (k : RodKey) (l n : Nat) :
    (s.windowReg k l n).mem.wf = true := by
  simp [State.windowReg, h]

theorem State.windowRead_wf {s : State} (h : s.mem.wf = true) (p : FrameId) (n : Nat) {v} {s' : State}
    (he : s.windowRead p n = .ok (v, s')) : s'.mem.wf = true := by
  grind [State.windowRead, State.windowReg_wf]

theorem State.windowWrite_wf {s : State} (h : s.mem.wf = true) (p : FrameId) (n : Nat) (v : Word) {s' : State}
    (he : s.windowWrite p n v = .ok s') : s'.mem.wf = true := by
  grind [State.windowWrite, State.modRod_mem, State.windowReg_wf]

@[simp] theorem State.writeContext_mem (s : State) (p : FrameId) (o : Operand) (v : DWord) :
    (s.writeContext p o v).mem = s.mem :=
  rfl

theorem sysrdBody_wf (n : Nat) (is : Issue) (o : Operands) {s s' : State} (h : s.mem.wf = true)
    (he : sysrdBody n is o s = .ok s') : s'.mem.wf = true := by
  unfold sysrdBody at he
  split at he
  · cases he
    simp [h]
  · cases hr : s.windowRead is.frame n with
    | error c => rw [hr] at he; cases he
    | ok x =>
      rw [hr] at he
      cases he
      simpa using State.windowRead_wf h is.frame n hr

theorem trapBody_mem {s s' : State} (t : TrapForm) (is : Issue) (o : Operands) (he : trapBody t is o s = .ok s') :
    s'.mem = s.mem := by
  grind [trapBody, State.boundary_mem, State.setRod_mem]

@[simp] theorem rettBody_mem (s : State) (is : Issue) : (rettBody is s).mem = s.mem := by
  grind [rettBody, passOver_mem, faultEnabled_mem, State.leaveHandler_mem]

theorem parkqBody_mem {s s' : State} (dst p : Nat) (is : Issue) (_o : Operands)
    (he : parkqBody dst p is _o s = .ok s') : s'.mem = s.mem := by
  grind [parkqBody, State.modContext_mem, State.modFrame_mem]

@[simp] theorem State.resumeLanes_mem (s : State) (p : FrameId) (x : Record) (skip : Bool) :
    (s.resumeLanes p x skip).mem = s.mem := by
  grind [State.resumeLanes, State.boundary_mem, State.modFrame_mem, State.setRod_mem]

@[simp] theorem State.abortLanes_mem (s : State) (p : FrameId) (x : Record) : (s.abortLanes p x).mem = s.mem := by
  grind [State.abortLanes, State.retireLanes_mem, State.retireRod_mem, State.modFrame_mem, State.countFault_mem]

@[simp] theorem State.runRod_mem (s : State) (p : FrameId) (x : Record) : (s.runRod p x).mem = s.mem := by
  grind [State.runRod, State.setRod_mem, State.serveTeam_mem, State.boundary_mem, State.modFrame_mem]

@[simp] theorem State.retryCommand_mem (s : State) (p : FrameId) (x : Record) : (s.retryCommand p x).mem = s.mem := by
  unfold State.retryCommand
  split <;> simp

@[simp] theorem State.abortCommand_mem (s : State) (p : FrameId) (x : Record) (code : BitVec 8) :
    (s.abortCommand p x code).mem = s.mem := by
  unfold State.abortCommand
  split <;> simp

theorem resumeBody_mem {s s' : State} (form : ResumeForm) (is : Issue) (o : Operands)
    (he : resumeBody form is o s = .ok s') : s'.mem = s.mem := by
  grind [resumeBody, State.retryCommand_mem, State.abortCommand_mem, State.resumeLanes_mem, State.abortLanes_mem,
    State.runRod_mem]

@[simp] theorem State.invalidate_mem (s : State) (die scope : Nat) (va : DWord) (asid : Nat) :
    (s.invalidate die scope va asid).mem = s.mem := by
  unfold State.invalidate
  exact foldl_mem (fun s f => s.modFrame_mem f _) _ _

theorem tlbiBody_mem {s s' : State} (scope : Nat) (is : Issue) (o : Operands) (he : tlbiBody scope is o s = .ok s') :
    s'.mem = s.mem := by
  grind [tlbiBody, State.modFrame_mem, State.invalidate_mem]

theorem fwcallBody_mem {s s' : State} (w : RWord) (is : Issue) (_o : Operands) (he : fwcallBody w is _o s = .ok s') :
    s'.mem = s.mem := by
  grind [fwcallBody, State.report_mem, State.modFrame_mem]

/-! ### Images of rods and teams -/

@[simp] theorem State.bankSwap_mem (s : State) (p : FrameId) : (s.bankSwap p).mem = s.mem := by
  grind [State.bankSwap, State.modFrame_mem]

@[simp] theorem State.detachRod_wf {s : State} (h : s.mem.wf = true) (p : FrameId) (slot epoch : Nat)
    (place : Option ImagePlace) : (s.detachRod p slot epoch place).mem.wf = true := by
  unfold State.detachRod
  dsimp only
  split <;> simp [h]

@[simp] theorem State.appendFresh_mem (s : State) (k : RodKey) (x : Record) (m : BitVec 32) :
    (s.appendFresh k x m).mem = s.mem := by
  unfold State.appendFresh
  split <;> simp

theorem State.appendEach_mem {α : Type} (s : State) (k : RodKey) (x : State → α → Record) (m : α → BitVec 32)
    (l : List α) : (l.foldl (fun s e => s.appendFresh k (x s e) (m e)) s).mem = s.mem :=
  foldl_mem (fun s e => s.appendFresh_mem k (x s e) (m e)) l s

theorem State.drawEach_mem (s : State) (k : RodKey) (x : State → BitVec 32 → Record) (l : List (BitVec 32)) :
    (l.foldl (fun s m => s.draw.2.appendFresh k (x s m) m) s).mem = s.mem :=
  foldl_mem (fun s m => (s.draw.2.appendFresh_mem k (x s m) m).trans s.draw_mem) l s

@[simp] theorem State.freshRecords_mem (s : State) (k : RodKey) (v : SavedRod) : (s.freshRecords k v).mem = s.mem := by
  unfold State.freshRecords
  split
  · rfl
  · rename_i r _
    have hp := fun m =>
      (State.drawEach_mem _ k (fun s m =>
        let i := laneFault .undefinedInstruction (s.draw.2.wordAt k r (r.lane (lowest m)).pc) 0
        { recordOf s.draw.2 k r m i with cause := s.draw.1.extractLsb' 0 8 }) (r.unnamedParts m)).trans
      (State.appendEach_mem s k (fun s e => { e.1 with word := s.freshWord k r e.1 e.2 }) Prod.snd
        (v.parked.flatMap r.parkedParts))
    split
    · exact hp _
    · exact (State.stopRecord_mem ..).trans (hp _)
    · exact (State.stopRecord_mem ..).trans (hp _)
    · exact (State.modRod_mem ..).trans ((State.stopRecord_mem ..).trans (hp _))

@[simp] theorem State.attachRod_mem (s : State) (p : FrameId) (slot teamSlot : Nat) (v : SavedRod) :
    (s.attachRod p slot teamSlot v).mem = s.mem := by
  unfold State.attachRod
  dsimp only
  rw [State.settleJoins_mem, State.serveTeam_mem, State.settleRows_mem]
  split
  · rw [foldl_mem (fun q n => q.modRod_mem _ _)]
    simp
  · simp

@[simp] theorem State.detachTeam_mem (s : State) (tk : TeamKey) (epoch : Nat) (place : Option ImagePlace) :
    (s.detachTeam tk epoch place).mem = s.mem := by
  unfold State.detachTeam
  split <;> simp

@[simp] theorem State.restoreEntry_mem (s : State) (p : FrameId) (slot epoch : Nat) (x : EngineId × Nat × Cmd) :
    (s.restoreEntry p slot epoch x).mem = s.mem := by
  grind [State.restoreEntry, State.modFrame_mem, State.modEngine_mem, State.restartEntries_mem]

@[simp] theorem State.attachTeam_mem (s : State) (tk : TeamKey) (v : SavedTeam) : (s.attachTeam tk v).mem = s.mem := by
  simp [State.attachTeam]

@[simp] theorem State.putRun_wf (p : FrameId) (u : Bool) :
    ∀ (l : List (Nat × Nat)) (b : List Byte) {s : State}, s.mem.wf = true → (State.putRun p u l b s).2.mem.wf = true
  | [], _, _, h => h
  | (pa, k) :: l, b, s, h => by
    grind [State.putRun, State.writeSeg_wf, State.putRun_wf p u l]

@[simp] theorem State.getRun_wf (p : FrameId) (u : Bool) :
    ∀ (l : List (Nat × Nat)) {s : State}, s.mem.wf = true → (State.getRun p u l s).2.2.mem.wf = true
  | [], _, h => h
  | (pa, k) :: l, s, h => by
    grind [State.getRun, State.readSeg_wf, State.getRun_wf p u l]

theorem State.putImage_wf (p : FrameId) (asid : Nat) : ∀ (fuel va : Nat) (b : List Byte) {s : State},
    s.mem.wf = true → ∀ {s'}, State.putImage p asid fuel va b s = .ok s' → s'.mem.wf = true
  | 0, _, _, _, h, _, he => by cases he; exact h
  | fuel + 1, va, b, s, h, s', he => by
    have ih := fun va b {s} h => @State.putImage_wf p asid fuel va b s h
    grind [State.putImage, State.page_wf, State.putRun_wf]

theorem State.getImage_wf (p : FrameId) (asid : Nat) : ∀ (fuel va n : Nat) {s : State}, s.mem.wf = true → ∀ {x},
    State.getImage p asid fuel va n s = .ok x → x.2.mem.wf = true
  | 0, _, _, _, h, _, he => by cases he; exact h
  | fuel + 1, va, n, s, h, x, he => by
    have ih := fun va n {s} h => @State.getImage_wf p asid fuel va n s h
    grind [State.getImage, State.page_wf, State.getRun_wf]

theorem State.saveImage_wf {s : State} (h : s.mem.wf = true) {p : FrameId} {va : Nat} {b : List Byte} {s' : State}
    (he : s.saveImage p va b = .ok s') : s'.mem.wf = true :=
  State.putImage_wf p _ _ _ _ h he

theorem State.loadImage_wf {s : State} (h : s.mem.wf = true) {p : FrameId} {va n : Nat} {x : List Byte × State}
    (he : s.loadImage p va n = .ok x) : x.2.mem.wf = true :=
  State.getImage_wf p _ _ _ _ h he

theorem State.storeImage_wf {s : State} (h : s.mem.wf = true) {p : FrameId} {launch : Nat} {b : List Byte}
    {x : Option ImagePlace × State} (he : s.storeImage p launch b = .ok x) : x.2.mem.wf = true := by
  grind [State.storeImage, State.putRun_wf]

theorem State.saveRod_wf {s : State} (h : s.mem.wf = true) {p : FrameId} {slot epoch : Nat} {s' : State}
    (he : s.saveRod p slot epoch = .ok s') : s'.mem.wf = true := by
  have hd : (s.drainWhere (rodKey p slot) 0xFFFFFFFF fun _ e => e.kind == .atomic).mem.wf = true :=
    State.drainWhere_wf h _ _ _
  unfold State.saveRod at he
  generalize s.drainWhere (rodKey p slot) 0xFFFFFFFF (fun _ e => e.kind == .atomic) = s0 at hd he
  cases hr : s0.rod? (rodKey p slot) with
  | none =>
    simp only [hr] at he
    exact Except.ok.inj he ▸ hd
  | some r =>
    cases hi : s0.storeImage p r.launch (s0.imageOfRod (rodKey p slot) r epoch) with
    | error c =>
      simp only [hr, hi] at he
      cases he
    | ok x =>
      simp only [hr, hi] at he
      rw [← Except.ok.inj he]
      exact State.detachRod_wf (State.storeImage_wf hd hi) _ _ _ _

theorem State.saveTeam_wf {s : State} (h : s.mem.wf = true) {tk : TeamKey} {epoch : Nat} {s' : State}
    (he : s.saveTeam tk epoch = .ok s') : s'.mem.wf = true := by
  unfold State.saveTeam at he
  split at he
  · cases he; exact h
  · split at he
    · cases he
    · rw [← Except.ok.inj he, State.detachTeam_mem]
      exact State.storeImage_wf h ‹_›

theorem State.patchImage_wf {s : State} (h : s.mem.wf = true) (p : FrameId) (place : ImagePlace) (e : Nat × List Byte)
    {s' : State} (he : s.patchImage p place e = .ok s') : s'.mem.wf = true := by
  cases place with
  | area a n => grind [State.patchImage, State.putRun_wf]
  | named asid va => exact State.putImage_wf p asid _ _ _ h he

theorem State.patchAll_wf (p : FrameId) (place : ImagePlace) : ∀ (l : List (Nat × List Byte)) {s : State},
    s.mem.wf = true → ∀ {s'}, State.patchAll p place l s = .ok s' → s'.mem.wf = true
  | [], _, h, _, he => by cases he; exact h
  | e :: l, s, h, s', he => by
    rw [State.patchAll] at he
    split at he
    · cases he
    · exact State.patchAll_wf p place l (State.patchImage_wf h p place e ‹_›) he

theorem State.bringRodUp_wf (p : FrameId) (s : State) (v : SavedRod) (h : s.mem.wf = true) :
    (s.bringRodUp p v).mem.wf = true := by
  unfold State.bringRodUp
  split
  · split
    · exact h
    · rw [State.modFrame_mem]
      exact State.patchAll_wf p _ _ h ‹_›
  · exact h

theorem State.bringTeamUp_wf (p : FrameId) (s : State) (v : SavedTeam) (h : s.mem.wf = true) :
    (s.bringTeamUp p v).mem.wf = true := by
  unfold State.bringTeamUp
  split
  · split
    · exact h
    · rw [State.modFrame_mem]
      exact State.patchAll_wf p _ _ h ‹_›
  · exact h

@[simp] theorem State.bringImagesUp_wf {s : State} (h : s.mem.wf = true) (p : FrameId) :
    (s.bringImagesUp p).mem.wf = true :=
  foldl_keepsWf (State.bringTeamUp_wf p) _ (foldl_keepsWf (State.bringRodUp_wf p) _ h)

theorem State.saveRodAt_wf {s : State} (h : s.mem.wf = true) (p : FrameId) (slot va : Nat) {s' : State}
    (he : s.saveRodAt p slot va = .ok s') : s'.mem.wf = true := by
  grind [State.saveRodAt, State.drainWhere_wf, State.saveImage_wf, State.detachRod_wf]

@[simp] theorem ctxsvBody_wf {s : State} (h : s.mem.wf = true) (is : Issue) : (ctxsvBody is s).mem.wf = true := by
  grind [ctxsvBody, passOver_mem, faultEnabled_mem, State.modFrame_mem, State.saveRodAt_wf]

theorem State.saveTeamAt_wf {s : State} (h : s.mem.wf = true) (tk : TeamKey) (va : Nat) {s' : State}
    (he : s.saveTeamAt tk va = .ok s') : s'.mem.wf = true := by
  grind [State.saveTeamAt, State.saveImage_wf, State.detachTeam_mem]

@[simp] theorem ctxsvTeamBody_wf {s : State} (h : s.mem.wf = true) (is : Issue) :
    (ctxsvTeamBody is s).mem.wf = true := by
  grind [ctxsvTeamBody, passOver_mem, faultEnabled_mem, State.modFrame_mem, State.saveTeamAt_wf]

theorem State.endSave_wf {f : State → Except Cause State}
    (hf : ∀ {s s' : State}, s.mem.wf = true → f s = .ok s' → s'.mem.wf = true) {s : State} (h : s.mem.wf = true)
    (p : FrameId) : (s.endSave p f).mem.wf = true := by
  unfold State.endSave
  dsimp only
  split
  · simp [h]
  case _ he =>
    rw [State.modContext_mem]
    exact hf (by simpa using h) he

@[simp] theorem State.finishSave_wf {s : State} (h : s.mem.wf = true) (p : FrameId) :
    (s.finishSave p).mem.wf = true := by
  unfold State.finishSave
  split
  · dsimp only
    split
    · exact h
    · exact State.endSave_wf (fun hs he => State.saveTeamAt_wf hs _ _ he) h p
  · split
    · exact h
    · exact State.endSave_wf (fun hs he => State.saveRodAt_wf hs _ _ _ he) h p
  · exact h

@[simp] theorem State.loadRod_mem (s : State) (p : FrameId) (slot : Nat) (tk : TeamKey) (t : Team) (b : List Byte) :
    (s.loadRod p slot tk t b).mem = s.mem := by
  simp [State.loadRod]

theorem ctxldBody_wf (is : Issue) (o : Operands) {s s' : State} (h : s.mem.wf = true)
    (he : ctxldBody is o s = .ok s') : s'.mem.wf = true := by
  unfold ctxldBody at he
  dsimp only at he
  split at he
  · cases he
  · split at he
    · cases he
    · split at he
      · cases he
      · split at he
        · cases he; exact h
        · split at he
          · cases he
          · split at he
            · cases he
            case _ hl =>
              rw [← Except.ok.inj he, State.loadRod_mem]
              exact State.loadImage_wf h hl

@[simp] theorem State.loadTeam_mem (s : State) (tk : TeamKey) (b : List Byte) : (s.loadTeam tk b).mem = s.mem := by
  simp [State.loadTeam]

theorem ctxldTeamBody_wf (is : Issue) (o : Operands) {s s' : State} (h : s.mem.wf = true)
    (he : ctxldTeamBody is o s = .ok s') : s'.mem.wf = true := by
  unfold ctxldTeamBody at he
  dsimp only at he
  split at he
  · cases he
  · split at he
    · cases he
    · split at he
      · cases he
      · split at he
        · cases he; exact h
        · split at he
          · cases he
          · split at he
            · cases he
            case _ hl =>
              rw [← Except.ok.inj he, State.loadTeam_mem]
              exact State.loadImage_wf h hl

theorem engrdBody_mem {s s' : State} (dst : Nat) (is : Issue) (o : Operands) (he : engrdBody dst is o s = .ok s') :
    s'.mem = s.mem := by
  grind [engrdBody, State.modContext_mem]

@[simp] theorem State.clearQueue_mem (s : State) (p : FrameId) (e : EngineId) : (s.clearQueue p e).mem = s.mem := by
  simp [State.clearQueue]

theorem State.appendEntry_mem {s s' : State} (p : FrameId) (e : EngineId) (b : List Byte)
    (he : s.appendEntry p e b = .ok s') : s'.mem = s.mem := by
  grind [State.appendEntry, State.enqueue_mem, State.reservePeer_mem, State.setTeam_mem]

theorem State.writeTeamKind_mem {s s' : State} {kind : Nat} {tk : TeamKey} {t : Team} {n : Nat} {b : List Byte}
    (he : s.writeTeamKind kind tk t n b = .ok s') : s'.mem = s.mem := by
  unfold State.writeTeamKind at he
  split at he
  · rw [← Except.ok.inj he]; rfl
  · dsimp only at he
    split at he
    · cases he
    · rw [← Except.ok.inj he]; rfl
  · rw [← Except.ok.inj he]; rfl
  · rw [← Except.ok.inj he, foldl_mem (fun s rod => s.modMember_mem _ _ _ _ _)]
    rfl
  · rw [← Except.ok.inj he]; rfl

theorem engwrBody_mem {s s' : State} (src : Nat) (is : Issue) (o : Operands) (he : engwrBody src is o s = .ok s') :
    s'.mem = s.mem := by
  grind [engwrBody, State.clearQueue_mem, State.appendEntry_mem, State.writeTeamKind_mem]

/-! ### What is resident on a frame -/

@[simp] theorem State.beginSlice_mem (s : State) (p : FrameId) (asid : Nat) : (s.beginSlice p asid).mem = s.mem := rfl

@[simp] theorem State.startTeamOn_mem (s : State) (p : FrameId) (l : Launch) (ts slot : Nat) :
    (s.startTeamOn p l ts slot).mem = s.mem := by
  simp [State.startTeamOn]

@[simp] theorem State.freeChoice_mem (s : State) (p : FrameId) : (s.freeChoice p).mem = s.mem := by
  unfold State.freeChoice
  split <;> simp

@[simp] theorem State.teamStart_mem (s : State) (p : FrameId) : (s.teamStart p).mem = s.mem := by
  grind [State.teamStart, State.freeChoice_mem, State.startTeamOn_mem]

@[simp] theorem State.dropRequest_mem (s : State) (p : FrameId) (q : Request) : (s.dropRequest p q).mem = s.mem := rfl

@[simp] theorem State.pruneRequests_mem (s : State) (p : FrameId) : (s.pruneRequests p).mem = s.mem := rfl

@[simp] theorem State.serveGrow_mem (s : State) (p : FrameId) (slot f sl : Nat) :
    (s.serveGrow p slot f sl).mem = s.mem := by
  grind [State.serveGrow, State.modFrame_mem, State.setRod_mem]

@[simp] theorem State.serveAcres_mem (s : State) (p : FrameId) (slot row n : Nat) :
    (s.serveAcres p slot row n).mem = s.mem := by
  grind [State.serveAcres, State.modFrame_mem, State.setRod_mem]

theorem State.teamBack_mem {s s' : State} (p : FrameId) (launch team : Nat) {v}
    (he : s.teamBack p launch team = some (v, s')) : s'.mem = s.mem := by
  grind [State.teamBack, State.beginSlice_mem, State.attachTeam_mem, State.modFrame_mem]

@[simp] theorem State.serveStart_mem (s : State) (p : FrameId) (q : Request) (team rod : Nat) :
    (s.serveStart p q team rod).mem = s.mem := by
  grind [State.serveStart, State.dropRequest_mem, State.teamBack_mem, State.modTeam_mem, State.setRod_mem]

@[simp] theorem State.releaseSlice_mem (s : State) (k : RodKey) : (s.releaseSlice k).mem = s.mem := by
  grind [State.releaseSlice, State.serveTeam_mem, State.modFrame_mem, State.setRod_mem]

@[simp] theorem State.serveReload_mem (s : State) (p : FrameId) (q : Request) (team rod : Nat) :
    (s.serveReload p q team rod).mem = s.mem := by
  grind [State.serveReload, State.teamBack_mem, State.dropRequest_mem, State.releaseSlice_mem, State.attachRod_mem,
    State.modFrame_mem]

@[simp] theorem State.serveTeamReload_mem (s : State) (p : FrameId) (q : Request) (team : Nat) :
    (s.serveTeamReload p q team).mem = s.mem := by
  grind [State.serveTeamReload, State.teamBack_mem, State.dropRequest_mem]

@[simp] theorem State.serveOne_mem (s : State) (p : FrameId) (q : Request) : (s.serveOne p q).mem = s.mem := by
  unfold State.serveOne
  split <;> simp

@[simp] theorem State.requestServe_mem (s : State) (p : FrameId) : (s.requestServe p).mem = s.mem := by
  grind [State.requestServe, State.pruneRequests_mem, State.serveOne_mem]

@[simp] theorem State.evictRod_wf {s : State} (h : s.mem.wf = true) (p : FrameId) (slot : Nat) (r : Rod) :
    (s.evictRod p slot r).mem.wf = true := by
  unfold State.evictRod
  cases h1 : s.saveRod p slot (s.frame p).epochNow with
  | error c =>
    simp only [h1]
    exact h
  | ok s1 =>
    simp only [h1]
    have hs := State.saveRod_wf h h1
    rw [apply_ite (fun s : State => s.mem.wf = true)]
    refine ite_prop_iff_and.mpr ⟨fun _ => ?_, fun _ => ?_⟩
    · rw [State.modFrame_mem]; exact hs
    · split
      · exact h
      · rename_i s3 h3
        rw [State.modFrame_mem]
        exact State.saveTeam_wf ((State.modFrame_mem ..).symm ▸ hs) h3

@[simp] theorem State.rodEviction_wf {s : State} (h : s.mem.wf = true) (p : FrameId) :
    (s.rodEviction p).mem.wf = true := by
  grind [State.rodEviction, State.evictRod_wf]

@[simp] theorem State.teamRetire_mem (s : State) (tk : TeamKey) : (s.teamRetire tk).mem = s.mem := by
  grind [State.teamRetire, State.modFrame_mem, State.eraseTeam_mem, State.bankSwap_mem, State.modLaunch_mem,
    State.countFault_mem]

@[simp] theorem State.schedulerChoice_mem (s : State) (p : FrameId) : (s.schedulerChoice p).mem = s.mem := by
  grind [State.schedulerChoice, State.bankSwap_mem, State.modFrame_mem]

@[simp] theorem State.startPreempt_mem (s : State) (p : FrameId) (next : Option Bank) :
    (s.startPreempt p next).mem = s.mem := by
  simp [State.startPreempt]

theorem saveEach_wf {α : Type} {f : α → State → Except Cause State}
    (hf : ∀ x {s s' : State}, s.mem.wf = true → f x s = .ok s' → s'.mem.wf = true) :
    ∀ (l : List α) {s : State}, s.mem.wf = true → (saveEach f l s).2.mem.wf = true
  | [], _, h => h
  | x :: l, s, h => by
    rw [saveEach]
    split
    · exact h
    · exact saveEach_wf hf l (hf x h ‹_›)

theorem State.saveAsking_wf (p : FrameId) (epoch : Nat) (e : Nat × Rod) {s s' : State} (h : s.mem.wf = true)
    (he : s.saveAsking p epoch e = .ok s') : s'.mem.wf = true := by
  unfold State.saveAsking at he
  split at he
  · cases he
  · cases he
    rw [State.modFrame_mem]
    exact State.saveRod_wf h ‹_›

theorem State.saveTeamAsking_wf {s : State} (h : s.mem.wf = true) {tk : TeamKey} {t : Team} {epoch : Nat} {s' : State}
    (he : s.saveTeamAsking tk t epoch = .ok s') : s'.mem.wf = true := by
  unfold State.saveTeamAsking at he
  split at he
  · cases he
  case _ hs =>
    have h1 := State.saveTeam_wf h hs
    split at he
    · rw [← Except.ok.inj he]; exact h1
    · rw [← Except.ok.inj he, State.modFrame_mem]; exact h1

@[simp] theorem State.endPreempt_mem (s : State) (p : FrameId) (g : Preempting) : (s.endPreempt p g).mem = s.mem := by
  simp [State.endPreempt]

@[simp] theorem State.saveFrame_wf {s : State} (h : s.mem.wf = true) (p : FrameId) (g : Preempting) :
    (s.saveFrame p g).mem.wf = true := by
  have hr := saveEach_wf (State.saveAsking_wf p (s.frame p).epochNow)
    ((s.rodsOn p).mergeSort (fun a b => decide (a.1 ≤ b.1))) h
  unfold State.saveFrame
  dsimp only
  split
  case _ e => rw [e] at hr; simpa using hr
  case _ s1 e =>
    rw [e] at hr
    have ht := saveEach_wf
      (f := fun (x : Nat × Team) s' => s'.saveTeamAsking { frame := p, slot := x.1 } x.2 (s.frame p).epochNow)
      (fun _ _ _ hs he => State.saveTeamAsking_wf hs he)
      ((s.teamsOn p).mergeSort (fun a b => decide (a.2.number ≤ b.2.number))) hr
    split
    case _ e => rw [e] at ht; simpa using ht
    case _ e => rw [e] at ht; simpa using ht

@[simp] theorem State.renewSlice_mem (s : State) (p : FrameId) (a : Launch) : (s.renewSlice p a).mem = s.mem := by
  unfold State.renewSlice
  split <;> simp

@[simp] theorem State.yieldFrame_mem (s : State) (p : FrameId) (a : Launch) : (s.yieldFrame p a).mem = s.mem := by
  grind [State.yieldFrame, State.renewSlice_mem, State.startPreempt_mem]

@[simp] theorem State.drainFrame_mem (s : State) (p : FrameId) (a : Launch) : (s.drainFrame p a).mem = s.mem := by
  unfold State.drainFrame
  split <;> simp

@[simp] theorem State.preemption_wf {s : State} (h : s.mem.wf = true) (p : FrameId) :
    (s.preemption p).mem.wf = true := by
  grind [State.preemption, State.boundaries_mem, State.saveFrame_wf, State.drainFrame_mem, State.yieldFrame_mem]

/-! ### Deadlines and watchdogs -/

@[simp] theorem State.stripTeam_mem (s : State) (tk : TeamKey) (t : Team) : (s.stripTeam tk t).mem = s.mem := by
  simp [State.stripTeam, apply_ite State.mem]

@[simp] theorem State.stripTeams_mem (s : State) (p : FrameId) (seq : Nat) : (s.stripTeams p seq).mem = s.mem := by
  simp [State.stripTeams]

@[simp] theorem State.cancelLaunch_mem (s : State) (p : FrameId) (seq : Nat) (pr : Cmd → Bool) :
    (s.cancelLaunch p seq pr).mem = s.mem := by
  simp [State.cancelLaunch]

@[simp] theorem State.oweDiverts_mem (s : State) (seq : Nat) (p : FrameId) : (s.oweDiverts seq p).mem = s.mem := by
  simp [State.oweDiverts, apply_ite State.mem]

@[simp] theorem State.wrapFrame_mem (s : State) (seq : Nat) (p : FrameId) : (s.wrapFrame seq p).mem = s.mem := by
  simp [State.wrapFrame]

@[simp] theorem State.enterWrapUp_mem (s : State) (seq : Nat) : (s.enterWrapUp seq).mem = s.mem := by
  simp [State.enterWrapUp]

@[simp] theorem State.killRod_mem (s : State) (k : RodKey) : (s.killRod k).mem = s.mem := by
  unfold State.killRod
  split <;> simp

@[simp] theorem State.killSavedRod_mem (s : State) (p : FrameId) (r : Rod) : (s.killSavedRod p r).mem = s.mem := by
  grind [State.killSavedRod, State.modFrame_mem, State.countFault_mem, State.modLaunch_mem, State.modTeam_mem]

@[simp] theorem State.dropSavedTeams_mem (s : State) (p : FrameId) (seq : Nat) :
    (s.dropSavedTeams p seq).mem = s.mem := by
  unfold State.dropSavedTeams
  split <;> simp

@[simp] theorem State.killFrame_mem (s : State) (seq : Nat) (p : FrameId) : (s.killFrame seq p).mem = s.mem := by
  simp [State.killFrame, apply_ite State.mem]

@[simp] theorem State.killLaunch_mem (s : State) (seq : Nat) (all : Bool) : (s.killLaunch seq all).mem = s.mem := by
  simp [State.killLaunch]

@[simp] theorem State.deadlineKill_mem (s : State) (seq : Nat) : (s.deadlineKill seq).mem = s.mem := by
  grind [State.deadlineKill, State.killLaunch_mem, State.modLaunch_mem]

@[simp] theorem State.wrapUpThreshold_mem (s : State) (seq : Nat) : (s.wrapUpThreshold seq).mem = s.mem := by
  grind [State.wrapUpThreshold, State.deadlineKill_mem, State.enterWrapUp_mem]

@[simp] theorem State.launchKill_mem (s : State) (seq : Nat) : (s.launchKill seq).mem = s.mem := by
  grind [State.launchKill, State.killLaunch_mem]

@[simp] theorem State.stuckReport_mem (s : State) (p : FrameId) : (s.stuckReport p).mem = s.mem := by
  unfold State.stuckReport
  split <;> simp

@[simp] theorem State.stuckWatchdog_mem (s : State) (p : FrameId) : (s.stuckWatchdog p).mem = s.mem := by
  grind [State.stuckWatchdog, State.modFrame_mem, State.stuckReport_mem]

@[simp] theorem State.engineReport_mem (s : State) (p : FrameId) (e : EngineId) (c : Cmd) :
    (s.engineReport p e c).mem = s.mem := by
  simp [State.engineReport]

@[simp] theorem State.engineWatchdog_mem (s : State) (p : FrameId) (e : EngineId) :
    (s.engineWatchdog p e).mem = s.mem := by
  grind [State.engineWatchdog, State.modEngine_mem, State.engineReport_mem]

@[simp] theorem State.noteStuck_mem (s : State) (p : FrameId) : (s.noteStuck p).mem = s.mem := by
  unfold State.noteStuck
  split <;> simp

theorem State.closeStep_wf {s : State} (h : s.mem.wf = true) : s.closeStep.mem.wf = true :=
  foldl_keepsWf (fun s p hs => State.bringImagesUp_wf (by simpa using hs) p) _ (by simpa using h)

theorem endStep_wf {o : Host.Outcome State Fault Refusal} (h : ∀ {s}, o = .next s → s.mem.wf = true) {s' : State}
    (he : endStep o = .next s') : s'.mem.wf = true := by
  cases o with
  | next s => cases he; exact State.closeStep_wf (h rfl)
  | fault f => cases he
  | refused r => cases he

@[simp] theorem State.partitionWatchdog_mem (s : State) (p : FrameId) (seq : BitVec 16) :
    (s.partitionWatchdog p seq).mem = s.mem := by
  grind [State.partitionWatchdog, State.report_mem, State.modFrame_mem]

/-! ### Control pages, core chiplets and evictions of a die -/

@[simp] theorem State.ioWrite_wf {s : State} (h : s.mem.wf = true) (n off : Nat) (b : List Byte) :
    (s.ioWrite n off b).mem.wf = true := by
  unfold State.ioWrite
  split <;> simp [h]

@[simp] theorem State.coreWrite_wf {s : State} (h : s.mem.wf = true) (a n off : Nat) (b : List Byte) :
    (s.coreWrite a n off b).mem.wf = true := by
  grind [State.coreWrite, State.ioWrite_wf, State.upgrade_wf, State.putAgentSector_mem]

@[simp] theorem State.setXl_mem (s : State) (part : Nat) (g : XlPage → XlPage) : (s.setXl part g).mem = s.mem := rfl

@[simp] theorem State.coreStore_wf {s : State} (h : s.mem.wf = true) (a addr : Nat) (b : List Byte) :
    (s.coreStore a addr b).mem.wf = true := by
  unfold State.coreStore
  split
  · exact foldl_keepsWf (fun s x hs => State.coreWrite_wf hs a _ _ _) _ h
  · exact h

@[simp] theorem State.coreDrop_mem (s : State) (a n : Nat) : (s.coreDrop a n).mem = s.mem := by
  grind [State.coreDrop, State.dropAgentSector_mem]

@[simp] theorem State.evictDie_wf {s : State} (h : s.mem.wf = true) (d n : Nat) (u : Bool) :
    (s.evictDie d n u).mem.wf = true := by
  unfold State.evictDie
  split <;> simp [h]

/-! ### The hub's own accesses -/

@[simp] theorem State.homeSpan_wf {s : State} (h : s.mem.wf = true) (u : Bool) (n off len : Nat) :
    (s.homeSpan u n off len).2.mem.wf = true := by
  grind [State.homeSpan, State.drawBytes_mem, State.untrackedRead_wf]

@[simp] theorem State.homeRead_wf (u : Bool) :
    ∀ (l : List (Nat × Nat × Nat)) {s : State}, s.mem.wf = true → (State.homeRead u l s).2.2.mem.wf = true
  | [], _, h => h
  | (n, off, len) :: l, _, h => State.homeRead_wf u l (State.homeSpan_wf h u n off len)

@[simp] theorem State.homeWrite_wf (u : Bool) : ∀ (l : List (Nat × Nat × Nat)) (b : List Byte) {s : State},
    s.mem.wf = true → (State.homeWrite u l b s).mem.wf = true
  | [], _, _, h => h
  | (n, off, len) :: l, b, s, h => State.homeWrite_wf u l _ (by
      split
      · exact h
      · split <;> simp [h])

@[simp] theorem State.readPhys_wf {s : State} (h : s.mem.wf = true) (pa n : Nat) : (s.readPhys pa n).2.mem.wf = true :=
  State.homeRead_wf false _ h

@[simp] theorem State.writePhys_wf {s : State} (h : s.mem.wf = true) (pa : Nat) (b : List Byte) :
    (s.writePhys pa b).mem.wf = true :=
  State.homeWrite_wf false _ _ h

@[simp] theorem State.hubPage_wf {s : State} (h : s.mem.wf = true) (asid va : Nat) (need : Need) :
    (s.hubPage asid va need).2.mem.wf = true := by
  grind [State.hubPage, State.walk_wf, State.modHub_mem]

@[simp] theorem State.hubPages_wf (asid : Nat) (need : Need) :
    ∀ (l : List Nat) {s : State}, s.mem.wf = true → (State.hubPages asid need l s).2.mem.wf = true
  | [], _, h => h
  | va :: l, s, h => by
    grind [State.hubPages, State.hubPage_wf, State.hubPages_wf asid need l]

@[simp] theorem State.hubAccess_wf {s : State} (h : s.mem.wf = true) (asid va n : Nat) (need : Need) :
    (s.hubAccess asid va n need).2.mem.wf = true := by
  grind [State.hubAccess, State.hubPages_wf]

@[simp] theorem State.hubGather_wf :
    ∀ (l : List HubPiece) {s : State}, s.mem.wf = true → (State.hubGather l s).2.mem.wf = true
  | [], _, h => h
  | q :: l, _, h => State.hubGather_wf l (State.homeRead_wf q.untracked [q.span] h)

@[simp] theorem State.hubScatter_wf :
    ∀ (l : List HubPiece) (b : List Byte) {s : State}, s.mem.wf = true → (State.hubScatter l b s).mem.wf = true
  | [], _, _, h => h
  | q :: l, _, _, h => State.hubScatter_wf l _ (State.homeWrite_wf q.untracked _ _ h)

@[simp] theorem State.hubRead_wf {s : State} (h : s.mem.wf = true) (asid va n : Nat) :
    (s.hubRead asid va n).2.mem.wf = true := by
  grind [State.hubRead, State.hubAccess_wf, State.hubGather_wf]

@[simp] theorem State.hubWrite_wf {s : State} (h : s.mem.wf = true) (asid va : Nat) (b : List Byte) :
    (s.hubWrite asid va b).2.mem.wf = true := by
  grind [State.hubWrite, State.hubAccess_wf, State.hubScatter_wf]

@[simp] theorem State.hubAdd_wf {s : State} (h : s.mem.wf = true) (asid va : Nat) (v : DWord) :
    (s.hubAdd asid va v).2.mem.wf = true := by
  grind [State.hubAdd, State.hubAccess_wf, State.hubGather_wf, State.hubScatter_wf]

@[simp] theorem State.hubSignal_wf {s : State} (h : s.mem.wf = true) (asid va : Nat) (v : DWord) (add : Bool) :
    (s.hubSignal asid va v add).2.mem.wf = true := by
  unfold State.hubSignal
  split <;> simp [h]

/-! ### Queues and their packets -/

@[simp] theorem State.setQueue_mem (s : State) (q : Nat) (x : Queue) : (s.setQueue q x).mem = s.mem := rfl

@[simp] theorem State.modQueue_mem (s : State) (q : Nat) (g : Queue → Queue) : (s.modQueue q g).mem = s.mem := by
  unfold State.modQueue
  split <;> simp

@[simp] theorem State.putDesc_wf {s : State} (h : s.mem.wf = true) (x : Queue) (off n v : Nat) :
    (s.putDesc x off n v).mem.wf = true := by
  simp [State.putDesc, h]

@[simp] theorem State.getDesc_wf {s : State} (h : s.mem.wf = true) (x : Queue) (off n : Nat) :
    (s.getDesc x off n).2.mem.wf = true := by
  simp [State.getDesc, h]

@[simp] theorem State.publishIndex_wf {s : State} (h : s.mem.wf = true) (q : Nat) :
    (s.publishIndex q).mem.wf = true := by
  unfold State.publishIndex
  split <;> simp [h]

@[simp] theorem State.publishIssue_wf {s : State} (h : s.mem.wf = true) (q : Nat) :
    (s.publishIssue q).mem.wf = true := by
  unfold State.publishIssue
  split <;> simp [h]

@[simp] theorem State.queueError_wf {s : State} (h : s.mem.wf = true) (q code idx : Nat) :
    (s.queueError q code idx).mem.wf = true := by
  grind [State.queueError, State.setQueue_mem, State.putDesc_wf]

@[simp] theorem State.readTail_wf {s : State} (h : s.mem.wf = true) (q : Nat) : (s.readTail q).mem.wf = true := by
  grind [State.readTail, State.getDesc_wf, State.queueError_wf, State.setQueue_mem]

@[simp] theorem State.enterState_wf {s : State} (h : s.mem.wf = true) (q n : Nat) :
    (s.enterState q n).mem.wf = true := by
  unfold State.enterState
  split <;> simp [h]

theorem State.takeSlot_wf {s : State} (h : s.mem.wf = true) {part : Nat} {s' : State}
    (he : s.takeSlot part = some s') : s'.mem.wf = true := by
  unfold State.takeSlot at he
  split at he
  · cases he; exact h
  · obtain ⟨v, -, rfl⟩ := Option.map_eq_some_iff.1 he
    exact State.enterState_wf h v 3

@[simp] theorem State.askSlot_mem (s : State) (q : Nat) : (s.askSlot q).mem = s.mem := rfl

@[simp] theorem State.dropAsk_mem (s : State) (q : Nat) : (s.dropAsk q).mem = s.mem := rfl

@[simp] theorem State.registerQueue_wf {s : State} (h : s.mem.wf = true) (q desc part asid : Nat) :
    (s.registerQueue q desc part asid).mem.wf = true := by
  grind [State.registerQueue, State.setQueue_mem, State.putDesc_wf]

@[simp] theorem State.tailWrite_wf {s : State} (h : s.mem.wf = true) (q : Nat) : (s.tailWrite q).mem.wf = true := by
  grind [State.tailWrite, State.setQueue_mem, State.readTail_wf, State.askSlot_mem]

@[simp] theorem State.finishStop_wf {s : State} (h : s.mem.wf = true) (q : Nat) : (s.finishStop q).mem.wf = true := by
  grind [State.finishStop, State.getDesc_wf, State.dropAsk_mem, State.setQueue_mem, State.putDesc_wf]

@[simp] theorem State.endStop_wf {s : State} (h : s.mem.wf = true) (q : Nat) : (s.endStop q).mem.wf = true := by
  grind [State.endStop, State.finishStop_wf]

@[simp] theorem State.takeStop_wf {s : State} (h : s.mem.wf = true) (q : Nat) : (s.takeStop q).mem.wf = true := by
  grind [State.takeStop, State.getDesc_wf, State.putDesc_wf, State.setQueue_mem]

@[simp] theorem State.stopRequest_wf {s : State} (h : s.mem.wf = true) (q : Nat) : (s.stopRequest q).mem.wf = true := by
  simp [State.stopRequest, h]

@[simp] theorem State.checkLine0_wf {s : State} (h : s.mem.wf = true) (q : Nat) (x : Queue) :
    (s.checkLine0 q x).mem.wf = true := by
  grind [State.checkLine0, State.readPhys_wf, State.queueError_wf, State.askSlot_mem, State.setQueue_mem]

@[simp] theorem State.serveQueue_wf {s : State} (h : s.mem.wf = true) (q : Nat) : (s.serveQueue q).mem.wf = true := by
  grind [State.serveQueue, State.takeSlot_wf, State.putDesc_wf, State.dropAsk_mem, State.setQueue_mem,
    State.readTail_wf]

@[simp] theorem State.takeStart_wf {s : State} (h : s.mem.wf = true) (q : Nat) : (s.takeStart q).mem.wf = true := by
  grind [State.takeStart, State.getDesc_wf, State.putDesc_wf, State.checkLine0_wf]

@[simp] theorem State.startRequest_wf {s : State} (h : s.mem.wf = true) (q : Nat) :
    (s.startRequest q).mem.wf = true := by
  simp [State.startRequest, h]

@[simp] theorem State.restartQueue_wf {s : State} (h : s.mem.wf = true) (q : Nat) :
    (s.restartQueue q).mem.wf = true := by
  grind [State.restartQueue, State.readTail_wf, State.publishIssue_wf, State.setQueue_mem, State.serveQueue_wf,
    State.checkLine0_wf]

@[simp] theorem State.askTimedOut_mem (s : State) (q : Nat) : (s.askTimedOut q).mem = s.mem := by
  grind [State.askTimedOut, State.askSlot_mem]

@[simp] theorem State.askAllTimedOut_mem (s : State) : (s.askAllTimedOut).mem = s.mem := by simp [State.askAllTimedOut]

@[simp] theorem State.swapIn_wf {s : State} (h : s.mem.wf = true) (q : Nat) : (s.swapIn q).mem.wf = true := by
  grind [State.swapIn, State.takeSlot_wf, State.readTail_wf, State.enterState_wf, State.dropAsk_mem, State.modQueue_mem]

@[simp] theorem State.queueWatchdog_mem (s : State) (q : Nat) : (s.queueWatchdog q).mem = s.mem := by
  grind [State.queueWatchdog, State.report_mem]

@[simp] theorem State.passPacket_wf {s : State} (h : s.mem.wf = true) (q : Nat) : (s.passPacket q).mem.wf = true := by
  simp [State.passPacket, h]

@[simp] theorem State.completePacket_wf {s : State} (h : s.mem.wf = true) (q num : Nat) :
    (s.completePacket q num).mem.wf = true := by
  simp [State.completePacket, h]

@[simp] theorem State.lookAhead_wf {s : State} (h : s.mem.wf = true) (q : Nat) : (s.lookAhead q).mem.wf = true := by
  grind [State.lookAhead, State.hubRead_wf, State.modQueue_mem]

@[simp] theorem State.packetBytes_wf {s : State} (h : s.mem.wf = true) (x : Queue) :
    (s.packetBytes x).2.mem.wf = true := by
  grind [State.packetBytes, State.hubRead_wf, State.drawBytes_mem]

theorem State.withPacket_wf {body : Queue → List Byte → State → State}
    (hb : ∀ x b {s : State}, s.mem.wf = true → (body x b s).mem.wf = true) {s : State} (h : s.mem.wf = true)
    (q type : Nat) : (s.withPacket q type body).mem.wf = true := by
  have hp := fun x => State.packetBytes_wf h x
  grind [State.withPacket, State.queueError_wf]

@[simp] theorem signalPacket_wf {s : State} (h : s.mem.wf = true) (q : Nat) (x : Queue) (b : List Byte) :
    (signalPacket q x b s).mem.wf = true := by
  grind [signalPacket, State.hubSignal_wf, State.queueError_wf, State.passPacket_wf]

@[simp] theorem waitPacket_wf {s : State} (h : s.mem.wf = true) (q : Nat) (x : Queue) (b : List Byte) :
    (waitPacket q x b s).mem.wf = true := by
  grind [waitPacket, State.hubAccess_wf, State.queueError_wf, State.hubGather_wf, State.passPacket_wf,
    State.publishIssue_wf, State.putDesc_wf, State.setQueue_mem]

@[simp] theorem State.endWait_wf {s : State} (h : s.mem.wf = true) (q : Nat) (w : WaitPacket) :
    (s.endWait q w).mem.wf = true := by
  simp [State.endWait, h]

@[simp] theorem State.firstError_wf {s : State} (h : s.mem.wf = true) (q code idx : Nat) :
    (s.firstError q code idx).mem.wf = true := by
  grind [State.firstError, State.queueError_wf]

@[simp] theorem State.failWait_wf {s : State} (h : s.mem.wf = true) (q : Nat) (x : Queue) :
    (s.failWait q x).mem.wf = true := by
  simp [State.failWait, h]

@[simp] theorem State.waitComplete_wf {s : State} (h : s.mem.wf = true) (q : Nat) :
    (s.waitComplete q).mem.wf = true := by
  grind [State.waitComplete, State.hubRead_wf, State.failWait_wf, State.endWait_wf]

@[simp] theorem State.waitTimeout_wf {s : State} (h : s.mem.wf = true) (q : Nat) : (s.waitTimeout q).mem.wf = true := by
  grind [State.waitTimeout, State.endWait_wf, State.queueError_wf, State.askTimedOut_mem]

@[simp] theorem callqPacket_wf {s : State} (h : s.mem.wf = true) (q : Nat) (x : Queue) (b : List Byte) :
    (callqPacket q x b s).mem.wf = true := by
  simp [callqPacket, h]

@[simp] theorem State.sendHome_wf {s : State} (h : s.mem.wf = true) (d : Nat) (x : Sector) :
    (s.sendHome d x).mem.wf = true := by
  unfold State.sendHome
  split <;> simp [h]

@[simp] theorem State.flushDie_wf {s : State} (h : s.mem.wf = true) (d : Nat) : (s.flushDie d).mem.wf = true := by
  unfold State.flushDie
  refine foldl_keepsWf (fun s x hs => State.sendHome_wf hs d x) _ ?_
  rw [foldl_mem (fun s p => foldl_mem (fun s x => s.flushFrame_mem p _ _) _ s)]
  exact h

@[simp] theorem fencePacket_wf {s : State} (h : s.mem.wf = true) (q : Nat) (x : Queue) (b : List Byte) :
    (fencePacket q x b s).mem.wf = true := by
  unfold fencePacket
  refine State.passPacket_wf (foldl_keepsWf (fun s d hs => State.flushDie_wf hs d) _ ?_) q
  rw [foldl_mem (fun s p => s.releaseAt_mem p _)]
  exact h

@[simp] theorem timestampPacket_wf {s : State} (h : s.mem.wf = true) (q : Nat) (x : Queue) (b : List Byte) :
    (timestampPacket q x b s).mem.wf = true := by
  grind [timestampPacket, State.hubWrite_wf, State.queueError_wf, State.passPacket_wf]

/-! ### Admission and completion of launches -/

@[simp] theorem State.usePool_mem (s : State) (part : Nat) (g : Nat → Nat) : (s.usePool part g).mem = s.mem := rfl

@[simp] theorem completionWrite_mem (seq : Nat) (r : Option Nat × State) : (completionWrite seq r).mem = r.2.mem := by
  unfold completionWrite
  split <;> simp

@[simp] theorem State.writeCompletion_wf {s : State} (h : s.mem.wf = true) (asid seq : Nat) (crec : DWord)
    (bytes : List Byte) (csig value : DWord) (add : Bool) :
    (s.writeCompletion asid seq crec bytes csig value add).mem.wf = true := by
  have h1 : (if crec = 0 then s else completionWrite seq (s.hubWrite asid crec.toNat bytes)).mem.wf = true := by
    split <;> simp [h]
  unfold State.writeCompletion
  dsimp only
  split
  · exact h1
  · rw [completionWrite_mem]
    exact State.hubSignal_wf h1 _ _ _ _

@[simp] theorem refuseLaunch_wf {s : State} (h : s.mem.wf = true) (q : Nat) (x : Queue) (b : List Byte)
    (l : LaunchRecord) (reason : Nat) : (refuseLaunch q x b l reason s).mem.wf = true := by
  simp [refuseLaunch, h]

@[simp] theorem emptyLaunch_wf {s : State} (h : s.mem.wf = true) (q : Nat) (x : Queue) (b : List Byte)
    (l : LaunchRecord) : (emptyLaunch q x b l s).mem.wf = true := by
  simp [emptyLaunch, h]

@[simp] theorem admitLaunch_wf {s : State} (h : s.mem.wf = true) (q : Nat) (x : Queue) (b : List Byte)
    (l : LaunchRecord) (frames : List FrameId) : (admitLaunch q x b l frames s).mem.wf = true := by
  grind [admitLaunch, State.modHub_mem, State.publishIssue_wf, State.modQueue_mem, State.usePool_mem]

@[simp] theorem State.launchReads_wf {s : State} (h : s.mem.wf = true) (x : Queue) (b r : List Byte) :
    (s.launchReads x b r).2.mem.wf = true := by
  grind [State.launchReads, State.hubRead_wf]

@[simp] theorem launchPacket_wf {s : State} (h : s.mem.wf = true) (q : Nat) (x : Queue) (b : List Byte) :
    (launchPacket q x b s).mem.wf = true := by
  grind [launchPacket, State.hubRead_wf, State.passPacket_wf, State.report_mem, State.launchReads_wf, refuseLaunch_wf,
    emptyLaunch_wf, admitLaunch_wf]

@[simp] theorem State.writeMap_wf {s : State} (h : s.mem.wf = true) (l : Launch) : (s.writeMap l).2.mem.wf = true := by
  grind [State.writeMap, State.hubWrite_wf, State.report_mem]

@[simp] theorem State.launchRelease_mem (s : State) (l : Launch) : (s.launchRelease l).mem = s.mem := by
  simp [State.launchRelease]

@[simp] theorem State.completeLaunch_wf {s : State} (h : s.mem.wf = true) (l : Launch) :
    (s.completeLaunch l).mem.wf = true := by
  grind [State.completeLaunch, State.writeMap_wf, State.launchRelease_mem, State.writeCompletion_wf, State.modHub_mem,
    State.completePacket_wf, State.modQueue_mem, State.usePool_mem]

@[simp] theorem State.launchCompletion_wf {s : State} (h : s.mem.wf = true) (seq : Nat) :
    (s.launchCompletion seq).mem.wf = true := by
  grind [State.launchCompletion, State.completeLaunch_wf]

/-! ### Memory words -/

theorem memBody_wf {f : LaneStep} (hf : ∀ is l {s : State}, s.mem.wf = true → (f is l s).2.mem.wf = true) (is : Issue)
    {s : State} (h : s.mem.wf = true) : (memBody f is s).mem.wf = true := by
  rw [memBody, State.takeFaults_mem]
  refine foldl_snd_keepsWf (fun a l ha => ?_) _ (by simp [h])
  have := hf is l ha
  split <;> simp_all

theorem drained_wf {p : Lane → LoadEntry → Bool} {body : Issue → State → State}
    (hb : ∀ is {s : State}, s.mem.wf = true → (body is s).mem.wf = true) (is : Issue) {s : State}
    (h : s.mem.wf = true) : (drained p body is s).mem.wf = true := by
  have h1 : (s.drainWhere is.key is.enabled p).mem.wf = true := State.drainWhere_wf h _ _ _
  unfold drained
  dsimp only
  split
  · exact hb _ h1
  · exact h1

@[simp] theorem State.modLane_mem (s : State) (k : RodKey) (l : Nat) (f : Lane → Lane) :
    (s.modLane k l f).mem = s.mem := by
  simp [State.modLane]

@[simp] theorem State.defer_mem (s : State) (k : RodKey) (l : Nat) (c : Cause) (addr : DWord) :
    (s.defer k l c addr).mem = s.mem := by
  simp [State.defer]

@[simp] theorem pagesCheck_wf {s : State} (h : s.mem.wf = true) (is : Issue) (need : Need) (pages : List Nat) :
    (pagesCheck s is need pages).2.mem.wf = true := by
  grind [pagesCheck, State.pages_wf]

@[simp] theorem globalCheck_wf {s : State} (h : s.mem.wf = true) (is : Issue) (ea : DWord) (n : Nat) (aligned : Bool)
    (need : Need) : (globalCheck s is ea n aligned need).2.mem.wf = true := by
  unfold globalCheck
  split <;> simp [h]

@[simp] theorem State.markLoad_mem (s : State) (k : RodKey) (l : Nat) (e : LoadEntry) (c : Cause) :
    (s.markLoad k l e c).mem = s.mem := by
  simp [State.markLoad]

@[simp] theorem State.pushLoad_wf {s : State} (h : s.mem.wf = true) (k : RodKey) (l : Nat) (e : LoadEntry) :
    (s.pushLoad k l e).mem.wf = true := by
  simp [State.pushLoad, h]

theorem loadLane_wf (kind : LoadKind) (w : MWord) (is : Issue) (l : Nat) {s : State} (h : s.mem.wf = true) :
    (loadLane kind w is l s).2.mem.wf = true := by
  grind [loadLane, globalCheck_wf, State.markLoad_mem, State.pushLoad_wf]

@[simp] theorem ffScan_wf (is : Issue) (w : MWord) :
    ∀ (l : List Nat) {s : State}, s.mem.wf = true → (ffScan is w l s).2.2.mem.wf = true
  | [], _, h => h
  | l :: t, s, h => by
    grind [ffScan, globalCheck_wf, ffScan_wf is w t]

@[simp] theorem ffLoad_wf {s : State} (h : s.mem.wf = true) (is : Issue) (w : MWord)
    (e : Nat × Except Failure (List Xlat)) : (ffLoad is w s e).mem.wf = true := by
  unfold ffLoad
  split <;> simp [h]

@[simp] theorem ldffBody_wf {s : State} (h : s.mem.wf = true) (w : MWord) (is : Issue) :
    (ldffBody w is s).mem.wf = true := by
  have hs := ffScan_wf is w (maskLanes is.enabled) h
  have hl : ∀ l : List (Nat × Except Failure (List Xlat)),
      (l.foldl (ffLoad is w) (ffScan is w (maskLanes is.enabled) s).2.2).mem.wf = true :=
    fun l => foldl_keepsWf (fun s e hs => ffLoad_wf hs is w e) l hs
  grind [ldffBody, State.takeFaults_mem, State.modRod_mem]

@[simp] theorem State.inFlight_mem (s : State) (k : RodKey) (l scope : Nat) (weak : Bool) (ea : DWord)
    (ps : List Piece) : (s.inFlight k l scope weak ea ps).mem = s.mem := by
  grind [State.inFlight, State.modLane_mem]

@[simp] theorem State.deferMet_mem (s : State) (k : RodKey) (l : Nat) (ea : DWord) (c : Option Cause) :
    (s.deferMet k l ea c).mem = s.mem := by
  cases c <;> simp [State.deferMet]

theorem storeLane_wf (kind : StoreKind) (w : MWord) (is : Issue) (l : Nat) {s : State} (h : s.mem.wf = true) :
    (storeLane kind w is l s).2.mem.wf = true := by
  grind [storeLane, globalCheck_wf, State.defer_mem, State.releaseAt_mem, State.writePieces_wf, State.deferMet_mem,
    State.inFlight_mem]

theorem stBody_wf (w : MWord) (is : Issue) {s : State} (h : s.mem.wf = true) : (stBody w is s).mem.wf = true :=
  drained_wf (memBody_wf (storeLane_wf .weak w)) is h

theorem releasing_wf {body : Issue → State → State}
    (hb : ∀ is {s : State}, s.mem.wf = true → (body is s).mem.wf = true) (is : Issue) {s : State}
    (h : s.mem.wf = true) : (releasing body is s).mem.wf = true := by
  unfold releasing
  dsimp only
  split
  · simp [h]
  · exact hb _ (by simp [h])

@[simp] theorem ldfLane_mem (w : MWord) (is : Issue) (l : Nat) (s : State) : (ldfLane w is l s).2.mem = s.mem := by
  grind [ldfLane, State.laneView_mem, State.modLane_mem]

@[simp] theorem stfLane_mem (w : MWord) (is : Issue) (l : Nat) (s : State) : (stfLane w is l s).2.mem = s.mem := by
  grind [stfLane, State.modTeam_mem]

theorem waitqBody_wf (n : Nat) (is : Issue) {s : State} (h : s.mem.wf = true) : (waitqBody n is s).mem.wf = true := by
  rw [waitqBody, passOver_mem]
  exact foldl_keepsWf (fun s l hs => State.drainLane_wf is.key l _ hs) _ h

@[simp] theorem State.atomicAt_wf {s : State} (h : s.mem.wf = true) (p : FrameId) (scope : Nat) (x : Piece)
    (op : AtomOp) (b c : Nat) : (s.atomicAt p scope x op b c).2.2.mem.wf = true := by
  simp [State.atomicAt, h]

@[simp] theorem State.atomicHalves_wf {s : State} (h : s.mem.wf = true) (p : FrameId) (scope : Nat) (x : Piece)
    (op : AtomOp) (b : Nat) : (s.atomicHalves p scope x op b).2.2.mem.wf = true := by
  grind [State.atomicHalves, State.atomicAt_wf, State.between_wf]

theorem atomLane_wf (op : AtomOp) (n scope : Nat) (need : Need) (old : Bool) (is : Issue) (l : Nat) {s : State}
    (h : s.mem.wf = true) : (atomLane op n scope need old is l s).2.mem.wf = true := by
  unfold atomLane
  dsimp only
  split
  · exact h
  · rename_i o _
    have hg := globalCheck_wf h is (o.a.value (is.rod.lane l) fun _ => 0) n true need
    split
    case _ e => rw [e] at hg; exact hg
    case _ e => rw [e] at hg; split <;> simpa using hg
    case _ e =>
      rw [e] at hg
      split
      · exact hg
      · grind [State.atomicHalves_wf, State.atomicAt_wf, State.markLoad_mem, State.pushLoad_wf, State.deferMet_mem,
          State.inFlight_mem]

@[simp] theorem atomfLane_mem (m : BitVec 18) (is : Issue) (l : Nat) (s : State) :
    (atomfLane m is l s).2.mem = s.mem := by
  grind [atomfLane, State.modTeam_mem, State.modLane_mem]

@[simp] theorem fenceBody_mem (s : State) (order scope : Nat) (is : Issue) :
    (fenceBody order scope is s).mem = s.mem := by
  unfold fenceBody
  split <;> simp

@[simp] theorem State.completeFence_mem (s : State) (k : RodKey) (r : Rod) (lane : Nat) (f : FenceWait) :
    (s.completeFence k r lane f).mem = s.mem := by
  grind [State.completeFence, State.releaseAt_mem, State.acquireAt_mem, takeDeferred_mem, State.orderItems_mem,
    State.modRod_mem]

theorem rangeSector_wf {act : State → Nat → Nat → Bool → Nat → State}
    (ha : ∀ {s : State}, s.mem.wf = true → ∀ d n u scope, (act s d n u scope).mem.wf = true) (k : RodKey)
    (l scope : Nat) (ea : DWord) (s : State) (e : Nat × BitVec 2) (h : s.mem.wf = true) :
    (rangeSector act k l scope ea s e).mem.wf = true := by
  unfold rangeSector
  dsimp only
  split
  · exact ha h _ _ _ _
  · split <;> simp [ha h, h]

theorem rangeLane_wf {act : State → Nat → Nat → Bool → Nat → State}
    (ha : ∀ {s : State}, s.mem.wf = true → ∀ d n u scope, (act s d n u scope).mem.wf = true) (w : MWord) (is : Issue)
    (l : Nat) {s : State} (h : s.mem.wf = true) : (rangeLane w act is l s).2.mem.wf = true := by
  have hf : ∀ (ls : List (Nat × BitVec 2)) ea {s : State}, s.mem.wf = true →
      (ls.foldl (rangeSector act is.key l w.scope.toNat ea) s).mem.wf = true :=
    fun ls ea => foldl_keepsWf (rangeSector_wf ha is.key l w.scope.toNat ea) ls
  grind [rangeLane, pagesCheck_wf, State.defer_mem]

theorem prefLane_wf (w : MWord) (is : Issue) (l : Nat) {s : State} (h : s.mem.wf = true) :
    (prefLane w is l s).2.mem.wf = true := by
  grind [prefLane, globalCheck_wf, State.dieFill_wf, State.readSeg_wf]

/-! ### Requests and snoops -/

@[simp] theorem State.readMiss_wf {s : State} (h : s.mem.wf = true) (a n : Nat) : (s.readMiss a n).mem.wf = true := by
  unfold State.readMiss
  split <;> simp [h]

@[simp] theorem State.writeMiss_wf {s : State} (h : s.mem.wf = true) (a n : Nat) : (s.writeMiss a n).mem.wf = true := by
  unfold State.writeMiss
  split <;> simp [h]

@[simp] theorem State.writeShared_wf {s : State} (h : s.mem.wf = true) (a n : Nat) :
    (s.writeShared a n).mem.wf = true := by
  unfold State.writeShared
  split <;> simp [h]

@[simp] theorem State.ownedWrite_wf {s : State} (h : s.mem.wf = true) (a n : Nat) (keep : Bool) :
    (s.ownedWrite a n keep).mem.wf = true := by
  grind [State.ownedWrite, State.writeBackKeep_wf, State.writeBack_wf]

@[simp] theorem State.snoop_wf {s : State} (h : s.mem.wf = true) (a n : Nat) (k : SnoopKind) :
    (s.snoop a n k).mem.wf = true := by
  unfold State.snoop
  split
  · exact h
  · cases k with
    | invalidate => simp [h]
    | share => exact State.setDir_wf (by simpa using h) n _
    | clean => exact State.setDir_wf (State.snoopClean_wf h a n) n _

@[simp] theorem State.homeAtomic_wf {s : State} (h : s.mem.wf = true) (op : AtomOp) (addr size : Nat)
    (b c : BitVec 64) : (s.homeAtomic op addr size b c).mem.wf = true := by
  grind [State.homeAtomic, State.setDir_wf, State.invalidateOthers_wf, State.homeMerge_wf]

@[simp] theorem State.decay_mem (s : State) : (s.decay).mem = s.mem := by
  unfold State.decay
  split <;> simp

/-! ### Pages, power, partitions and links -/

@[simp] theorem State.dropWalks_mem (s : State) (part : Nat) (x : XlPage) : (s.dropWalks part x).mem = s.mem := rfl

@[simp] theorem State.unmapRequest_mem (s : State) (part : Nat) (v : BitVec 32) :
    (s.unmapRequest part v).mem = s.mem := by
  grind [State.unmapRequest, State.setXl_mem, State.dropWalks_mem]

theorem State.reclaimDie_wf (pages : List (Nat × Nat)) (a : Bool × State) (d : Nat) (h : a.2.mem.wf = true) :
    (State.reclaimDie pages a d).2.mem.wf = true :=
  foldl_snd_keepsWf (fun a x ha => State.dieDiscard_wf (by simpa using ha) d x.1 x.2) _ h

@[simp] theorem State.dropOnce_mem (s : State) (part : Nat) (u : XlPage) : (s.dropOnce part u).mem = s.mem := rfl

@[simp] theorem State.unmapComplete_wf {s : State} (h : s.mem.wf = true) (part : Nat) :
    (s.unmapComplete part).mem.wf = true := by
  have hr := fun p l => foldl_snd_keepsWf (State.reclaimDie_wf p) l (b := (false, s)) h
  grind [State.unmapComplete, State.setXl_mem, State.dropOnce_mem]

@[simp] theorem State.migrationRequest_mem (s : State) (part : Nat) (v : BitVec 64) :
    (s.migrationRequest part v).mem = s.mem := by
  grind [State.migrationRequest, State.setXl_mem, State.modHub_mem]

@[simp] theorem State.migrationLow_mem (s : State) (part : Nat) (v : DWord) : (s.migrationLow part v).mem = s.mem := by
  unfold State.migrationLow
  split <;> simp

@[simp] theorem State.xlWrite_mem (s : State) (part off size : Nat) (v : DWord) :
    (s.xlWrite part off size v).mem = s.mem := by
  grind [State.xlWrite, State.setXl_mem, State.unmapRequest_mem, State.migrationRequest_mem, State.migrationLow_mem]

@[simp] theorem State.migrationSwitch_wf {s : State} (h : s.mem.wf = true) (part : Nat) :
    (s.migrationSwitch part).mem.wf = true := by
  have hm : ∀ (l : List Nat) {s : State}, s.mem.wf = true → (l.foldl State.moveLine s).mem.wf = true :=
    fun l => foldl_keepsWf (fun s n hs => State.moveLine_wf hs n) l
  grind [State.migrationSwitch, State.setXl_mem, State.modHub_mem]

@[simp] theorem State.migrationRetire_mem (s : State) (page : Nat) : (s.migrationRetire page).mem = s.mem := by
  grind [State.migrationRetire, State.modHub_mem]

@[simp] theorem State.emptyFrameCache_mem (s : State) (p : FrameId) : (s.emptyFrameCache p).mem = s.mem := by
  simp [State.emptyFrameCache]

@[simp] theorem State.gateFrame_mem (s : State) (p : FrameId) : (s.gateFrame p).mem = s.mem := by
  unfold State.gateFrame
  split <;> simp

@[simp] theorem State.gateSlice_wf {s : State} (h : s.mem.wf = true) (d slice : Nat) :
    (s.gateSlice d slice).mem.wf = true := by
  unfold State.gateSlice
  split
  · exact h
  · rw [State.modDie_mem]
    exact foldl_keepsWf (fun s x hs => State.dieDiscard_wf hs d x.1 x.2) _ h

@[simp] theorem State.wake_mem (s : State) (t : GateTarget) : (s.wake t).mem = s.mem := by
  unfold State.wake
  split <;> simp

@[simp] theorem State.setIsolated_mem (s : State) (agent : Nat) (on : Bool) : (s.setIsolated agent on).mem = s.mem :=
  rfl

@[simp] theorem State.count_mem (s : State) (c : Counter) (n : Nat) : (s.count c n).mem = s.mem := rfl

@[simp] theorem State.drainAgent_wf {s : State} (h : s.mem.wf = true) (agent : Nat) :
    (s.drainAgent agent).mem.wf = true := by
  rw [State.drainAgent, State.setIsolated_mem]
  split
  · exact foldl_keepsWf (fun s x hs => State.dieDiscard_wf hs agent x.1 x.2) _ h
  · split
    · exact foldl_keepsWf (fun s x hs => State.writeBack_wf hs 8 x.num) _ h
    · split
      · exact foldl_keepsWf (fun s x hs => State.writeBack_wf hs 9 x.num) _ h
      · exact h

@[simp] theorem State.loseCopies_mem (s : State) (agent : Nat) : (s.loseCopies agent).mem = s.mem := by
  unfold State.loseCopies
  split
  · exact foldl_mem (fun s p => s.modFrame_mem p _) _ _
  · simp

@[simp] theorem State.forceAgent_mem (s : State) (agent : Nat) : (s.forceAgent agent).mem = s.mem := by
  simp [State.forceAgent]

@[simp] theorem State.markPartition_mem (s : State) (agent : Nat) : (s.markPartition agent).mem = s.mem := by
  unfold State.markPartition
  split <;> simp

@[simp] theorem State.cutLoads_mem (s : State) (lost : List Nat → Bool) : (s.cutLoads lost).mem = s.mem := rfl

@[simp] theorem State.cutWrite_mem (s : State) (lost : List Nat → Bool) (w : RodKey × Nat × Nat × DWord) :
    (s.cutWrite lost w).mem = s.mem := by
  grind [State.cutWrite, State.draw_mem, State.modRod_mem]

@[simp] theorem State.cutCommand_wf {s : State} (h : s.mem.wf = true) (p : FrameId) (e : EngineId)
    (lost : List Nat → Bool) (n : Nat) : (s.cutCommand p e lost n).mem.wf = true := by
  unfold State.cutCommand
  split
  · exact h
  · split
    · exact h
    · split
      · exact h
      · dsimp only
        split
        · exact h
        · split
          · simpa using h
          · split <;> simp [h]

@[simp] theorem State.cutCommands_wf {s : State} (h : s.mem.wf = true) (lost : List Nat → Bool) :
    (s.cutCommands lost).mem.wf = true :=
  foldl_keepsWf (fun _ p hs => foldl_keepsWf (fun _ e hs => foldl_keepsWf
    (fun _ n hs => State.cutCommand_wf hs p e lost n) _ hs) _ hs) _ h

@[simp] theorem State.cutMessages_wf {s : State} (h : s.mem.wf = true) (lost : List Nat → Bool) :
    (s.cutMessages lost).mem.wf = true := by
  refine State.cutCommands_wf ?_ lost
  rw [foldl_mem (fun s w => s.cutWrite_mem lost w), State.cutLoads_mem]
  exact h

@[simp] theorem State.linkDown_wf {s : State} (h : s.mem.wf = true) (a b : Nat) : (s.linkDown a b).mem.wf = true := by
  unfold State.linkDown
  split <;> simp [h]

@[simp] theorem State.linkRetrain_mem (s : State) (a b : Nat) : (s.linkRetrain a b).mem = s.mem := by
  unfold State.linkRetrain
  split <;> simp

@[simp] theorem State.setPhase_mem (s : State) (d : Nat) (ph : ResetPhase) : (s.setPhase d ph).mem = s.mem := rfl

@[simp] theorem State.resetRequest_mem (s : State) (d : Nat) : (s.resetRequest d).mem = s.mem := by
  grind [State.resetRequest, State.modHub_mem, State.report_mem, State.setPhase_mem]

@[simp] theorem State.releaseResets_mem (s : State) : (s.releaseResets).mem = s.mem := by simp [State.releaseResets]

@[simp] theorem State.drainForward_mem (s : State) (d : Nat) : (s.drainForward d).mem = s.mem := by
  grind [State.drainForward, State.modDie_mem, State.setPhase_mem, State.releaseResets_mem, State.modHub_mem,
    State.report_mem]

@[simp] theorem State.startContext_mem (s : State) (p : FrameId) (addr : DWord) : (s.startContext p addr).mem = s.mem :=
  rfl

@[simp] theorem State.trainLinks_mem (s : State) (d : Nat) : (s.trainLinks d).mem = s.mem := by
  rw [State.trainLinks, foldl_mem (fun s k => s.count_mem _ _), State.modHub_mem]

@[simp] theorem State.resetDie_mem (s : State) (d : Nat) : (s.resetDie d).mem = s.mem := by
  unfold State.resetDie
  split
  · rfl
  · dsimp only
    split
    · rw [foldl_mem (fun s p => by simp)]
      simp
    · rw [State.setIsolated_mem, foldl_mem (fun s p => s.startContext_mem p _), foldl_mem (fun s p => by simp)]
      simp

@[simp] theorem State.killItems_mem (s : State) (launch : Nat) (items : List Nat) :
    (s.killItems launch items).mem = s.mem :=
  rfl

@[simp] theorem State.loseRod_mem (s : State) (k : RodKey) (r : Rod) : (s.loseRod k r).mem = s.mem := rfl

@[simp] theorem State.loseTeam_mem (s : State) (tk : TeamKey) (t : Team) : (s.loseTeam tk t).mem = s.mem := by
  simp [State.loseTeam, foldl_mem (fun s (e : Nat × Rod) => s.loseRod_mem (rodKey tk.frame e.1) e.2)]

@[simp] theorem State.forcedReset_wf {s : State} (h : s.mem.wf = true) (d : Nat) : (s.forcedReset d).mem.wf = true := by
  unfold State.forcedReset
  split
  · exact h
  · dsimp only
    rw [State.releaseResets_mem, State.setPhase_mem, State.forceAgent_mem, State.modHub_mem,
      foldl_mem (fun s (e : TeamKey × Team) => s.loseTeam_mem e.1 e.2)]
    exact State.cutMessages_wf h _

@[simp] theorem State.partitionChange_mem (s : State) (changes : List (Nat × PartDesc)) :
    (s.partitionChange changes).mem = s.mem := by
  unfold State.partitionChange
  split <;> simp

/-! ### Bring-up, counters and the hub link -/

@[simp] theorem State.acquireTime_mem (s : State) : (s.acquireTime).mem = s.mem := by
  unfold State.acquireTime
  split <;> simp

@[simp] theorem State.startContexts_mem (s : State) : (s.startContexts).mem = s.mem :=
  foldl_mem (fun s p => s.startContext_mem p _) _ _

theorem State.bringUp_wf (s : State) (failed : List Nat) (source : Nat) : (s.bringUp failed source).mem.wf = true := by
  unfold State.bringUp
  dsimp only
  split
  · rfl
  · rw [State.count_mem, State.modHub_mem, State.startContexts_mem, State.acquireTime_mem, foldl_mem
    (fun s a => s.setIsolated_mem a true)]
    rfl

@[simp] theorem State.hubFrame_wf {s : State} (h : s.mem.wf = true) (asid addr : Nat) (b : List Byte)
    (sig : Option SignalWrite) : (s.hubFrame asid addr b sig).mem.wf = true := by
  have h1 : (if b = [] then s else completionWrite 0 (s.hubWrite asid addr b)).mem.wf = true := by
    split <;> simp [h]
  unfold State.hubFrame
  dsimp only
  split
  · exact h1
  · rw [completionWrite_mem]
    exact State.hubSignal_wf h1 _ _ _ _

@[simp] theorem State.replan_mem (s : State) (d : Nat) (r : ReplanResult) : (s.replan d r).mem = s.mem := by
  unfold State.replan
  split <;> simp

@[simp] theorem State.storeCounters_mem (s : State) : (s.storeCounters).mem = s.mem := rfl

@[simp] theorem State.hoursDue_mem (s : State) : (s.hoursDue).mem = s.mem := by
  grind [State.hoursDue, State.modHub_mem, State.count_mem]

@[simp] theorem State.storeDue_mem (s : State) : (s.storeDue).mem = s.mem := by
  unfold State.storeDue
  split <;> simp

@[simp] theorem State.temperatureTaken_mem (s : State) (agent degrees : Nat) :
    (s.temperatureTaken agent degrees).mem = s.mem := by
  unfold State.temperatureTaken
  split <;> simp

theorem State.unpowered_wf (s : State) : s.unpowered.mem.wf = true := rfl

/-! ### Time and accesses from outside -/

@[simp] theorem State.finishFences_wf {s : State} (h : s.mem.wf = true) (k : RodKey) :
    (s.finishFences k).mem.wf = true := by
  refine foldl_keepsWf (fun s l hs => ?_) _ h
  split
  · exact hs
  · split
    · exact hs
    · dsimp only
      split <;> simp [hs]

@[simp] theorem State.forceDiverts_wf {s : State} (h : s.mem.wf = true) (l : Launch) :
    (s.forceDiverts l).mem.wf = true :=
  foldl_keepsWf (fun s e hs => by simpa using State.finishFences_wf hs e.1) _ h

@[simp] theorem State.launchDue_wf {s : State} (h : s.mem.wf = true) (seq : Nat) : (s.launchDue seq).mem.wf = true := by
  grind [State.launchDue, State.deadlineKill_mem, State.wrapUpThreshold_mem, State.forceDiverts_wf]

@[simp] theorem State.unmapDue_wf {s : State} (h : s.mem.wf = true) (part : Nat) : (s.unmapDue part).mem.wf = true := by
  grind [State.unmapDue, State.setXl_mem, State.unmapComplete_wf]

@[simp] theorem State.forwardDue_mem (s : State) (d : Nat) : (s.forwardDue d).mem = s.mem := by
  unfold State.forwardDue
  split <;> simp

@[simp] theorem State.takeDue_wf {s : State} (h : s.mem.wf = true) : s.takeDue.mem.wf = true := by
  unfold State.takeDue
  simp only [State.storeDue_mem, State.hoursDue_mem, State.askAllTimedOut_mem, foldl_mem State.forwardDue_mem,
    State.decay_mem]
  exact foldl_keepsWf (fun s n hs => State.unmapDue_wf hs n) _
    (foldl_keepsWf (fun s n hs => State.launchDue_wf hs n) _ h)

@[simp] theorem State.tick_wf {s : State} (h : s.mem.wf = true) (ns : Nat) : (s.tick ns).mem.wf = true := by
  simp [State.tick, h]

@[simp] theorem State.timeStep_wf {s : State} (h : s.mem.wf = true) (ns : Nat) : (s.timeStep ns).mem.wf = true := by
  unfold State.timeStep
  split <;> simp [h]

@[simp] theorem State.agentWalk_wf {s : State} (h : s.mem.wf = true) (holder asid va : Nat) (need : Need) :
    (s.agentWalk holder asid va need).2.mem.wf = true := by
  grind [State.agentWalk, State.walk_wf, State.modHub_mem]

@[simp] theorem State.agentPage_wf {s : State} (h : s.mem.wf = true) (holder asid va : Nat) (need : Need) :
    (s.agentPage holder asid va need).2.mem.wf = true := by
  grind [State.agentPage, State.agentWalk_wf, State.modHub_mem]

@[simp] theorem State.agentPages_wf (holder asid : Nat) (need : Need) :
    ∀ (l : List Nat) {s : State}, s.mem.wf = true → (State.agentPages holder asid need l s).2.mem.wf = true
  | [], _, h => h
  | va :: l, s, h => by
    grind [State.agentPages, State.agentPage_wf, State.agentPages_wf holder asid need l]

@[simp] theorem State.agentPieces_wf {s : State} (h : s.mem.wf = true) (holder asid va n : Nat) (need : Need) :
    (s.agentPieces holder asid va n need).2.mem.wf = true := by
  grind [State.agentPieces, State.agentPages_wf]

@[simp] theorem State.agentLoad_wf {s : State} (h : s.mem.wf = true) (holder asid va n : Nat) :
    (s.agentLoad holder asid va n).mem.wf = true := by
  simp [State.agentLoad, h]

@[simp] theorem State.agentStore_wf {s : State} (h : s.mem.wf = true) (holder asid va : Nat) (b : List Byte) :
    (s.agentStore holder asid va b).mem.wf = true := by
  simp [State.agentStore, h]

@[simp] theorem State.infoRead_mem (s : State) (off n : Nat) : (s.infoRead off n).mem = s.mem := by
  unfold State.infoRead
  split <;> simp

@[simp] theorem State.copyOut_wf {s : State} (h : s.mem.wf = true) (asid addr n farAsid farAddr : Nat)
    (sig : Option SignalWrite) : (s.copyOut asid addr n farAsid farAddr sig).mem.wf = true := by
  grind [State.copyOut, State.hubRead_wf, State.report_mem]

@[simp] theorem State.controlStore_mem (s : State) (off : Nat) (b : List Byte) :
    (s.controlStore off b).mem = s.mem := by
  unfold State.controlStore
  split <;> simp

theorem State.driverStore_wf {s memory : State} (h : s.mem.wf = true) (hm : memory.mem.wf = true) (addr : Nat)
    (b : List Byte) : (s.driverStore addr b memory).mem.wf = true := by
  unfold State.driverStore
  split
  · simp [h]
  · exact hm

@[simp] theorem State.outside_wf {s : State} (h : s.mem.wf = true) (a : OutsideAccess) :
    (s.outside a).mem.wf = true := by
  cases a with
  | coreStore agent addr b =>
    rw [State.outside]
    split
    · exact h
    · exact State.driverStore_wf h (State.coreStore_wf h agent addr b) addr b
  | hostStore addr b =>
    exact State.driverStore_wf h (foldl_keepsWf (fun s x hs => State.ioWrite_wf hs _ _ _) _ h) addr b
  | coreDrop agent n => simp [State.outside, h]
  | agentLoad holder asid va n => exact State.agentLoad_wf h holder asid va n
  | agentStore holder asid va b => exact State.agentStore_wf h holder asid va b
  | xlWrite part off size v => simp [State.outside, h]
  | asidWrite asid root part v => exact h
  | infoRead off n => simp [State.outside, h]
  | copyOut asid addr n farAsid farAddr sig => exact State.copyOut_wf h asid addr n farAsid farAddr sig
  | imageWrite agent version digest signature => exact h
  | entrySet agent kind reserved => exact h
  | energyUsed agent joules => simp [State.outside, h]
  | temperatureTaken agent degrees => simp [State.outside, h]
  | softError agent corrected => simp [State.outside, h]

/-! ### Tokens and barriers -/

theorem onceBody_wf {f : Issue → Operands → Team → State → State}
    (hf : ∀ is o t {s : State}, s.mem.wf = true → (f is o t s).mem.wf = true) (is : Issue) {s : State}
    (h : s.mem.wf = true) : (onceBody f is s).mem.wf = true := by
  unfold onceBody
  split
  · simp [h]
  · split
    · simp [h]
    · split
      · simp [h]
      · exact hf _ _ _ h

theorem onceOp_wf {i : Instr} {f : Issue → Operands → Team → State → State}
    (hf : ∀ is o t {s : State}, s.mem.wf = true → (f is o t s).mem.wf = true) {s s' : State} (h : s.mem.wf = true)
    (he : onceOp i f s = .next s') : s'.mem.wf = true :=
  issueWord_wf (drained_wf (onceBody_wf hf)) h he

@[simp] theorem tkputBody_mem (s : State) (q : Nat) (is : Issue) (o : Operands) (t : Team) :
    (tkputBody q is o t s).mem = s.mem := by
  grind [tkputBody, faultEnabled_mem, State.putToken_mem, State.orderItems_mem, passOver_mem]

@[simp] theorem takePayload_mem (s : State) (is : Issue) (dst : Nat) (v : Word) (p : Option Nat) :
    (takePayload is dst v p s).mem = s.mem := by
  simp [takePayload]

@[simp] theorem tkgetBody_mem (s : State) (q : Nat) (is : Issue) (o : Operands) (t : Team) :
    (tkgetBody q is o t s).mem = s.mem := by
  grind [tkgetBody, faultEnabled_mem, blockEnabled_mem, State.popToken_mem, takePayload_mem]

@[simp] theorem tktryBody_mem (s : State) (q p : Nat) (is : Issue) (o : Operands) (t : Team) :
    (tktryBody q p is o t s).mem = s.mem := by
  grind [tktryBody, faultEnabled_mem, State.modRod_mem, State.popToken_mem, takePayload_mem]

@[simp] theorem tksetBody_mem (s : State) (q producer consumer : Nat) (is : Issue) (_o : Operands) (_t : Team) :
    (tksetBody q producer consumer is _o _t s).mem = s.mem := by
  simp [tksetBody]

@[simp] theorem barMeetBody_mem (s : State) (n : Nat) (is : Issue) (_o : Operands) (t : Team) :
    (barMeetBody n is _o t s).mem = s.mem := by
  simp [barMeetBody]

@[simp] theorem barPassBody_mem (s : State) (n : Nat) (is : Issue) (_o : Operands) (_t : Team) :
    (barPassBody n is _o _t s).mem = s.mem := by
  simp [barPassBody]

@[simp] theorem barSizeBody_mem (s : State) (n : Nat) (is : Issue) (o : Operands) (t : Team) :
    (barSizeBody n is o t s).mem = s.mem := by
  grind [barSizeBody, faultEnabled_mem, State.settleBarrier_mem, State.modTeam_mem, passOver_mem]

/-! ### Every instruction and event -/

theorem nextState_wf {t s' : State} (he : (Host.Outcome.next t : Host.Outcome State Fault Refusal) = .next s')
    (h : t.mem.wf = true) : s'.mem.wf = true :=
  Host.Outcome.next.inj he ▸ h

theorem sysKeeping_wf {i : Instr} {f : Issue → Operands → State → Except Cause State}
    (hf : ∀ is o {s s' : State}, f is o s = .ok s' → s'.mem = s.mem) {s s' : State} (h : s.mem.wf = true)
    (he : sysOp i f s = .next s') : s'.mem.wf = true :=
  sysOp_wf (fun is o _ _ hs hb => by rw [hf is o hb]; exact hs) h he

theorem commandRow_wf {i : Instr} {s s' : State} (h : s.mem.wf = true) (he : exec i s = .next s')
    (hx : exec i s = commandOp i s) : s'.mem.wf = true :=
  commandOp_wf h (hx ▸ he)

theorem exec_wf {i : Instr} {s s' : State} (h : s.mem.wf = true) (he : exec i s = .next s') : s'.mem.wf = true := by
  cases i with
  | iadd w | isub w | imul w | imulh w | imad w | idiv w | irem w | imin w | imax w | iabs w | ineg w | lea w
  | and w | or w | xor w | andn w | lmux w | shl w | shr w | sar w | rol w | shf w | bfx w | bfi w | popc w | clz w
  | ctz w | brev w | bperm w | icmp w | plop w | sel w | pmovGet w | pmovSet w | mov w | pfx w | xset w | xadd w
  | iaddImm w | isubImm w | imulImm w | iminImm w | imaxImm w | leaImm w | andImm w | orImm w | xorImm w
  | andnImm w | shlImm w | shrImm w | sarImm w | rolImm w | bfxImm w | bpermImm w | icmpImm w | movi w | movhi w
  | xaddImm w | fadd w | fsub w | fmul w | ffma w | fmin w | fmax w | fminn w | fmaxn w | frnd w | fdiv w | fsqrt w
  | frcp w | frsq w | fcmp w | fclass w | hadd2 w | hmul2 w | hfma2 w | hmin2 w | hmax2 w | cvt w | logc w | expc w
  | lmul w | ldiv w | lpow w | lroot w | fex2 w | flg2 w | fsin w | fcos w | ftanh w | fsigm w | rngc w | dadd w
  | dmul w | dfma w | ddiv w | dsqrt w | dcvt w =>
    exact laneOp_wf h he
  | lxch w | pagg w | rred w =>
    exact crossOp_wf h he
  | rredJoined w | fence w | bra w | brx w | call w | ret w | exit w | rcv w | rsync w | nop w | yield w | grow w
  | shrink w | jset w | jwait w | cstat w | cdone w | valid w | slack w | srd w | rett w | ctxsv w | ctxsvTeam w =>
    exact issueWord_wf (fun _ _ hs => by simp [hs]) h he
  | ld w =>
    exact issueWord_wf (memBody_wf (loadLane_wf .ld w)) h he
  | lds w =>
    exact issueWord_wf (memBody_wf (loadLane_wf .lds w)) h he
  | lda w =>
    exact issueWord_wf (memBody_wf (loadLane_wf .lda w)) h he
  | ldff w =>
    exact issueWord_wf (fun is _ hs => ldffBody_wf hs w is) h he
  | st w =>
    exact issueWord_wf (stBody_wf w) h he
  | sts w =>
    exact issueWord_wf (drained_wf (memBody_wf (storeLane_wf _ w))) h he
  | stl w =>
    exact issueWord_wf (drained_wf (releasing_wf (memBody_wf (storeLane_wf _ w)))) h he
  | ldf w | stf w | atomf w =>
    exact issueWord_wf (drained_wf (memBody_wf (fun _ _ s hs => by simpa using hs))) h he
  | waitq w =>
    exact issueWord_wf (waitqBody_wf _) h he
  | atom w | red w | cas w | atadd2 w =>
    exact issueWord_wf (drained_wf (memBody_wf (atomLane_wf _ _ _ _ _))) h he
  | cflush w =>
    exact issueWord_wf (drained_wf (memBody_wf (rangeLane_wf State.flushSector_wf w))) h he
  | cinv w =>
    exact issueWord_wf (drained_wf (memBody_wf (rangeLane_wf State.discardSector_wf w))) h he
  | pref w =>
    exact issueWord_wf (memBody_wf (prefLane_wf w)) h he
  | tkput w | tkget w | tktry w | tkset w | barMeet w | barPass w | barSize w =>
    exact onceOp_wf (fun _ _ _ s hs => by simpa using hs) h he
  | vadd w | vsub w | vmul w | vfma w | vmin w | vmax w | vscl w | vcvt w | vmov w | vfill w | vcmp w | vsel w
  | vsum w | vmaxr w | vlogc w | vexpc w | vex2 w | vsigm w | vtanh w | cpin w | cpout w | cpff w | cp2d w | cppl w
  | cpacc w | cpaci w | cppeer w | windef w | winrel w | aczero w | mma w | mscl w | mchk w =>
    exact commandRow_wf h he rfl
  | acres w | acrel w =>
    exact issueWord_wf (rowsBody_wf (fun _ _ _ _ s => by simp) w) h he
  | trapHalt w | trapSlice w | trapWdog w =>
    exact sysKeeping_wf (fun _ _ _ _ hb => trapBody_mem (he := hb) ..) h he
  | sysrd w =>
    exact sysOp_wf (fun is o _ _ hs hb => sysrdBody_wf _ is o hs hb) h he
  | syswr w =>
    exact sysKeeping_wf (fun _ _ _ _ hb => State.sysWrite_mem hb) h he
  | eventClear w | bkpt w =>
    exact sysOp_wf (fun _ _ _ _ hs hb => Except.ok.inj hb ▸ by simpa using hs) h he
  | rodWindowWrite w =>
    exact sysOp_wf (fun _ _ _ _ hs hb => State.windowWrite_wf hs _ _ _ hb) h he
  | engrd w =>
    exact sysKeeping_wf (fun _ _ _ _ hb => engrdBody_mem (he := hb) ..) h he
  | engwr w =>
    exact sysKeeping_wf (fun _ _ _ _ hb => engwrBody_mem (he := hb) ..) h he
  | ctxld w =>
    exact sysOp_wf (fun is o _ _ hs hb => ctxldBody_wf is o hs hb) h he
  | ctxldTeam w =>
    exact sysOp_wf (fun is o _ _ hs hb => ctxldTeamBody_wf is o hs hb) h he
  | tlbiVa w | tlbiAsid w | tlbiAll w =>
    exact sysKeeping_wf (fun _ _ _ _ hb => tlbiBody_mem (he := hb) ..) h he
  | fwcall w =>
    exact sysKeeping_wf (fun _ _ _ _ hb => fwcallBody_mem (he := hb) ..) h he
  | parkq w =>
    exact sysKeeping_wf (fun _ _ _ _ hb => parkqBody_mem (he := hb) ..) h he
  | resumeRetry w | resumeSkip w | resumeAbort w | resumeRun w =>
    exact sysKeeping_wf (fun _ _ _ _ hb => resumeBody_mem (he := hb) ..) h he
  | idle w =>
    exact sysOp_wf (fun _ _ _ _ hs hb => Except.ok.inj hb ▸ by split <;> simpa using hs) h he
  | syncRelease k lane | carryWaitRelease k lane | engineCommandStart p e | engineCommandFinish p e pos
  | commandRunFault p e pos | engineIssueStop p e | engineIssueResume p e | loadReturn k lane pos | teamStart p
  | requestServe p | rodEviction p | teamRetire p ts | wrapUpThreshold seq | itemDivert k | deadlineKill seq
  | launchCompletion seq | stuckFrameWatchdog p | engineWatchdog p e | partitionWatchdog p recSeq | hubDoorbell p
  | debugRequest p | preemption p | schedulerChoice p | launchKill seq | queueRegister q desc part asid
  | queueTailWrite q | queueStopRequest q | queueStartRequest q | queueRestart q | queueSwapIn q | queueWatchdog q
  | waitComplete q | waitTimeout q | readShared agent sector | readUnique agent sector | upgrade agent sector
  | writeBack agent sector | writeBackKeep agent sector | snoop agent sector kind
  | homeAtomic op addr size operand compare | predictorDecay | unmapRequest part value | unmapComplete part
  | leaseWrite part value | unmapStatusClear part value | migrationRequest part value | migrationSwitch part
  | migrationRetire page | framePowerGate p | slicePowerGate die slice | resetRequest die | drainForward die
  | dieReset die | forcedReset die | linkDown a b | partitionChange first more | timeStatusRead | timeStep ns
  | attestationRequest nonce | counterFlush | hubLinkFrame asid addr bytes signal | powerGateWake t
  | linkRetrain a b | rollbackCountRaise count | forcedIsolation agent =>
    exact nextState_wf he (by simp [h])
  | engineFaultDelivery k | engineStopped p e | fwcallReply p status reply | handlerEntry p | untrackedRead sector
  | untrackedWrite sector mask data | uClassAccess sector mask data | timeSourceSelect source | timeSourceLoss
  | firmwareContextRestart p addr | debugAgentRelease p | offsetMeasurement offset =>
    exact nextState_wf he (by split <;> simp [h])
  | tlbiComplete p =>
    refine nextState_wf he ?_
    split
    · split <;> simp [h]
    · exact h
  | idleWake p =>
    exact nextState_wf he (by grind [State.modFrame_mem])
  | fenceComplete k lane | sliceTimeReached p | timerReached p =>
    exact nextState_wf he (by grind [State.modFrame_mem, State.completeFence_mem])
  | launch q =>
    refine nextState_wf he ?_
    split
    · exact State.withPacket_wf (fun _ _ _ hs => launchPacket_wf hs ..) h q 1
    · exact h
  | powerOnReset failed source =>
    exact nextState_wf he (State.bringUp_wf s failed source)
  | orderlyShutdown | powerLoss =>
    exact nextState_wf he (State.unpowered_wf _)
  | signal q | wait q | callq q | joinq q | fencePacket q | nopPacket q | timestamp q =>
    exact nextState_wf he (State.withPacket_wf (fun _ _ _ hs => by simp [hs]) h q _)
  | drainedIsolation agent =>
    refine nextState_wf he ?_
    rw [State.markPartition_mem]
    exact foldl_keepsWf (fun _ a hs => State.drainAgent_wf hs a) _ h
  | maintenanceReplan dies results =>
    exact nextState_wf he (foldl_keepsWf (fun _ a hs => by split <;> simp [hs]) _ h)

/-! ### The step -/

@[simp] theorem State.nextTurn_mem (s : State) : (s.nextTurn).2.mem = s.mem := by
  unfold State.nextTurn
  split <;> simp

theorem runFetched_wf {s : State} (h : s.mem.wf = true) (who : Issuer) (f : Fetched) {s' : State}
    (he : runFetched who f s = .next s') : s'.mem.wf = true := by
  cases f with
  | instr i => exact exec_wf (s := { s with cur := some who }) h he
  | fault c word addr => exact nextState_wf he (by simp [h])

theorem issueOne_wf {s : State} (h : s.mem.wf = true) (who : Issuer) {s' : State} (he : issueOne who s = .next s') :
    s'.mem.wf = true := by
  grind [issueOne, State.fetch_wf, runFetched_wf]

theorem portTurn_wf {s : State} (h : s.mem.wf = true) (p : FrameId) (port : Nat) {s' : State}
    (he : portTurn p port s = .next s') : s'.mem.wf = true := by
  grind [portTurn, State.boundaries_mem, issueOne_wf, State.markIssued_mem]

theorem firmwareTurn_wf {s : State} (h : s.mem.wf = true) (p : FrameId) {s' : State}
    (he : firmwareTurn p s = .next s') : s'.mem.wf = true := by
  grind [firmwareTurn, State.finishSave_wf, State.enterHandler_mem, issueOne_wf, State.markFirmware_mem]

theorem takeTurn_wf {s : State} (h : s.mem.wf = true) (t : Turn) {s' : State} (he : takeTurn t s = .next s') :
    s'.mem.wf = true := by
  cases t with
  | issue p port => exact portTurn_wf h p port he
  | firmware p => exact firmwareTurn_wf h p he
  | between k lane pos n => exact nextState_wf he h
  | event i =>
    rw [takeTurn] at he
    split at he
    · exact nextState_wf he h
    · exact exec_wf h he
  | cycle p late | evictFrame p n u | evictDie d n u | land p e pos n | landByte p e pos n | codeAhead p pc
  | lookAhead q | tick ns | outside a => exact nextState_wf he (by simp [h])

theorem step_wf {s : State} (h : s.mem.wf = true) {s' : State} (he : step s = .next s') : s'.mem.wf = true := by
  have h1 : s.nextTurn.2.mem.wf = true := by rwa [State.nextTurn_mem]
  unfold step at he
  dsimp only at he
  split at he
  · split at he
    · exact endStep_wf (fun ht => takeTurn_wf h1 _ ht) he
    · exact nextState_wf he h1
  · split at he
    · exact exec_wf h1 he
    · exact nextState_wf he h1

/-! ### The obligation -/

/-- Settles O38: what moves next, the turn it takes and the close of the step each keep the canonical form. -/
theorem stepKeepsMemoryCanonical : Obligations.StepKeepsMemoryCanonical :=
  fun _ _ h he => step_wf h he

end Sys2Proof.Machine
end

section

namespace Sys2Proof.Machine

/-! ## Where a write stands, and what gives way to it (O27)

First the bytes of a sector, then the sectors of a cache, and what each move of a sector does to the copies that frames
and dies hold. Two relations carry the rest: `SameAt`, two states agree on one sector (an operation on another sector
keeps it, and the same operation on both states keeps it), and `KeysGrow`, the second state has the same frames or one
more. -/

/-! ### Bytes of a sector -/

theorem getLsbD_spread (m : BitVec 64) {i : Nat} (h : i < 512) : (spread m).getLsbD i = m.getLsbD (i / 8) := by
  simp [spread, h]

theorem byte_ext {v w : Byte} (h : ∀ i, i < 8 → v.getLsbD i = w.getLsbD i) : v = w :=
  BitVec.eq_of_getLsbD_eq h

theorem getLsbD_byte {w : Nat} (d : BitVec w) (k i : Nat) (h : i < 8) :
    (d.extractLsb' (8 * k) 8).getLsbD i = d.getLsbD (8 * k + i) := by
  simp [h]

theorem byte_mergeBytes (mask : BitVec 64) (new old : BitVec 512) {k : Nat} (hk : k < 64) :
    (mergeBytes mask new old).extractLsb' (8 * k) 8 =
      if mask.getLsbD k then new.extractLsb' (8 * k) 8 else old.extractLsb' (8 * k) 8 := by
  refine byte_ext (fun i hi => ?_)
  have hs : (spread mask).getLsbD (8 * k + i) = mask.getLsbD k := by
    rw [getLsbD_spread mask (by omega), show (8 * k + i) / 8 = k by omega]
  rw [getLsbD_byte _ k i hi, apply_ite (fun v : Byte => v.getLsbD i), getLsbD_byte _ k i hi, getLsbD_byte _ k i hi,
    mergeBytes, BitVec.getLsbD_or, BitVec.getLsbD_and, BitVec.getLsbD_and, BitVec.getLsbD_not, hs]
  cases mask.getLsbD k <;> simp [show 8 * k + i < 512 by omega]

theorem getLsbD_segMask {off len k : Nat} (h : off + len ≤ 64) :
    (segMask off len).getLsbD k = decide (off ≤ k ∧ k < off + len) := by
  rw [segMask, BitVec.getLsbD_ofNat, Nat.testBit_mul_two_pow, Nat.testBit_two_pow_sub_one, Bool.eq_iff_iff]
  simp
  omega

theorem testBit_ofLe : ∀ (b : List Byte) (j i : Nat), i < 8 → (ofLe b).testBit (8 * j + i) = (b.getD j 0).getLsbD i
  | [], _, _, _ => by simp [ofLe]
  | x :: b, j, i, hi => by
    rw [ofLe, Nat.add_comm, show (256 : Nat) = 2 ^ 8 by rfl, Nat.testBit_two_pow_mul_add _ x.isLt]
    cases j with
    | zero => simp [hi, BitVec.getLsbD]
    | succ j =>
      rw [if_neg (by omega), show 8 * (j + 1) + i - 8 = 8 * j + i by omega, testBit_ofLe b j i hi]
      simp

theorem byte_segData {off : Nat} {b : List Byte} {k : Nat} (h : off ≤ k) (hk : k < 64) :
    (segData off b).extractLsb' (8 * k) 8 = b.getD (k - off) 0 := by
  refine byte_ext (fun i hi => ?_)
  rw [getLsbD_byte _ k i hi, segData, BitVec.getLsbD_ofNat, Nat.testBit_mul_two_pow,
    show 8 * k + i - 8 * off = 8 * (k - off) + i by omega, testBit_ofLe b _ i hi]
  simp [show 8 * k + i < 512 by omega, show 8 * off ≤ 8 * k + i by omega]

theorem segBytes_eq {d : BitVec 512} {off : Nat} {b : List Byte}
    (h : ∀ j, j < b.length → d.extractLsb' (8 * (off + j)) 8 = b.getD j 0) : segBytes d off b.length = b := by
  refine List.ext_getElem (by simp [segBytes]) (fun j h1 h2 => ?_)
  simp [segBytes, h j h2, h2]

/-- A byte of a sector after a party has written bytes of it. -/
theorem byte_write (x : Sector) (mask : BitVec 64) (d : BitVec 512) {k : Nat} (hk : k < 64) :
    (x.write mask d).data.extractLsb' (8 * k) 8 =
      if mask.getLsbD k then d.extractLsb' (8 * k) 8 else x.data.extractLsb' (8 * k) 8 :=
  byte_mergeBytes mask d x.data hk

theorem byte_write_seg (x : Sector) {off : Nat} {b : List Byte} (h : off + b.length ≤ 64) {j : Nat}
    (hj : j < b.length) :
    (x.write (segMask off b.length) (segData off b)).data.extractLsb' (8 * (off + j)) 8 = b.getD j 0 := by
  rw [byte_write _ _ _ (by omega), getLsbD_segMask h, if_pos (by simp; omega), byte_segData (by omega) (by omega)]
  congr 1
  omega

theorem mask_sub_iff {v m : BitVec 64} : v &&& m = m ↔ ∀ k, m.getLsbD k = true → v.getLsbD k = true := by
  constructor
  · intro h k hk
    have := congrArg (fun x => x.getLsbD k) h
    simp only [BitVec.getLsbD_and, hk, Bool.and_true] at this
    exact this
  · intro h
    refine BitVec.eq_of_getLsbD_eq (fun k _ => ?_)
    rw [BitVec.getLsbD_and]
    cases hm : m.getLsbD k
    · simp
    · simp [h k hm]

/-! ### The sectors of a cache -/

theorem Sector.same_iff {x : Sector} {n : Nat} {u : Bool} : x.same n u = true ↔ x.num = n ∧ x.untracked = u := by
  simp [Sector.same]

theorem findSector_key {n : Nat} {u : Bool} {l : List Sector} {x : Sector} (h : findSector n u l = some x) :
    x.num = n ∧ x.untracked = u :=
  Sector.same_iff.1 (List.find?_some (p := fun x : Sector => x.same n u) h)

@[simp] theorem findSector_dropSector_same (n : Nat) (u : Bool) (l : List Sector) :
    findSector n u (dropSector n u l) = none := by
  simp [findSector, dropSector]

theorem findSector_dropSector_ne {n m : Nat} {u v : Bool} (h : m ≠ n ∨ v ≠ u) (l : List Sector) :
    findSector m v (dropSector n u l) = findSector m v l := by
  unfold findSector dropSector
  rw [List.find?_filter]
  refine List.find?_congr (fun x _ => ?_)
  cases hx : x.same m v with
  | false => simp
  | true =>
    obtain ⟨rfl, rfl⟩ := Sector.same_iff.1 hx
    simp [Sector.same]
    tauto

theorem findSector_putSector_same (x : Sector) (l : List Sector) :
    findSector x.num x.untracked (putSector x l) = some x := by
  simp [findSector, putSector, Sector.same]

theorem findSector_putSector_ne {x : Sector} {m : Nat} {v : Bool} (h : m ≠ x.num ∨ v ≠ x.untracked) (l : List Sector) :
    findSector m v (putSector x l) = findSector m v l := by
  have hx : x.same m v = false := by
    rw [Bool.eq_false_iff, ne_eq, Sector.same_iff]
    tauto
  rw [← findSector_dropSector_ne h l]
  simp [findSector, putSector, hx]

/-- The sector a cache holds, or one with no byte held, is that sector. -/
theorem getD_key {o : Option Sector} {n : Nat} {u : Bool} (h : ∀ x, o = some x → x.num = n ∧ x.untracked = u) :
    (o.getD (Sector.empty n u)).num = n ∧ (o.getD (Sector.empty n u)).untracked = u := by
  cases o with
  | none => exact ⟨rfl, rfl⟩
  | some x => exact h x rfl

theorem State.frameSector_key {s : State} {p : FrameId} {n : Nat} {u : Bool} {x : Sector}
    (h : s.frameSector p n u = some x) : x.num = n ∧ x.untracked = u :=
  findSector_key h

theorem State.dieSector_key {s : State} {d n : Nat} {u : Bool} {x : Sector} (h : s.dieSector d n u = some x) :
    x.num = n ∧ x.untracked = u :=
  findSector_key h

/-! ### Frames and dies -/

theorem State.die_modDie (s : State) (d e : Nat) (g : Die → Die) :
    (s.modDie d g).die e = if e = d then g (s.die d) else s.die e := by
  unfold State.modDie State.die State.setDie tableGet
  split
  · rename_i h
    rw [h, tableFind_tableSet_same]
    rfl
  · rename_i h
    rw [tableFind_tableSet_ne _ h]

theorem State.dieSector_putDieSector (s : State) (d e m : Nat) (v : Bool) (x : Sector) :
    (s.putDieSector d x).dieSector e m v =
      if e = d ∧ m = x.num ∧ v = x.untracked then some x else s.dieSector e m v := by
  unfold State.putDieSector State.dieSector
  rw [State.die_modDie]
  split
  · rename_i h
    subst h
    split
    · rename_i h
      obtain ⟨-, rfl, rfl⟩ := h
      exact findSector_putSector_same x _
    · exact findSector_putSector_ne (by tauto) _
  · rename_i h
    rw [if_neg (fun hh => h hh.1)]

theorem State.dieSector_dropDieSector (s : State) (d n e m : Nat) (u v : Bool) :
    (s.dropDieSector d n u).dieSector e m v =
      if e = d ∧ m = n ∧ v = u then none else s.dieSector e m v := by
  unfold State.dropDieSector State.dieSector
  rw [State.die_modDie]
  split
  · rename_i h
    subst h
    split
    · rename_i h
      obtain ⟨-, rfl, rfl⟩ := h
      exact findSector_dropSector_same _ _ _
    · exact findSector_dropSector_ne (by tauto) _
  · rename_i h
    rw [if_neg (fun hh => h hh.1)]

theorem State.frameSector_putCopy (s : State) (p q : FrameId) (m : Nat) (v : Bool) (x : Sector) :
    (s.modFrame p (fun f => { f with cache := putSector x f.cache })).frameSector q m v =
      if q = p ∧ m = x.num ∧ v = x.untracked then some x else s.frameSector q m v := by
  unfold State.frameSector
  rw [State.frame_modFrame]
  split
  · rename_i h
    subst h
    split
    · rename_i h
      obtain ⟨-, rfl, rfl⟩ := h
      exact findSector_putSector_same x _
    · exact findSector_putSector_ne (by tauto) _
  · rename_i h
    rw [if_neg (fun hh => h hh.1)]

theorem State.frameSector_dropFrameSector (s : State) (p q : FrameId) (n m : Nat) (u v : Bool) :
    (s.dropFrameSector p n u).frameSector q m v =
      if q = p ∧ m = n ∧ v = u then none else s.frameSector q m v := by
  unfold State.dropFrameSector
  split
  · rename_i h
    split
    · rename_i hk
      obtain ⟨rfl, rfl, rfl⟩ := hk
      exact h
    · rfl
  · unfold State.frameSector
    rw [State.frame_modFrame]
    split
    · rename_i h
      subst h
      split
      · rename_i h
        obtain ⟨-, rfl, rfl⟩ := h
        exact findSector_dropSector_same _ _ _
      · exact findSector_dropSector_ne (by tauto) _
    · rename_i h
      rw [if_neg (fun hh => h hh.1)]

@[simp] theorem State.frameSector_putDieSector (s : State) (d : Nat) (x : Sector) (q : FrameId) (m : Nat) (v : Bool) :
    (s.putDieSector d x).frameSector q m v = s.frameSector q m v :=
  rfl

/-- A frame that is not in the machine's table holds no sector. -/
theorem State.frameSector_none_of_absent {s : State} {p : FrameId} (h : p ∉ s.frames.map Prod.fst) (n : Nat)
    (u : Bool) : s.frameSector p n u = none := by
  rw [State.frameSector, frame_of_not_mem h]
  rfl

theorem State.mem_framesOfDie {s : State} {p : FrameId} {d : Nat} :
    p ∈ s.framesOfDie d ↔ p ∈ s.frames.map Prod.fst ∧ p.die = d := by
  simp only [State.framesOfDie, List.mem_filterMap, List.mem_map]
  constructor
  · rintro ⟨e, he, hp⟩
    split at hp
    · cases hp
      exact ⟨⟨e, he, rfl⟩, ‹_›⟩
    · cases hp
  · rintro ⟨⟨e, he, rfl⟩, hd⟩
    exact ⟨e, he, by rw [if_pos hd]⟩

/-- A frame of a die that holds a sector is one of the die's frames. -/
theorem State.mem_framesOfDie_of_holds {s : State} {p : FrameId} {n : Nat} {u : Bool} {x : Sector}
    (h : s.frameSector p n u = some x) : p ∈ s.framesOfDie p.die := by
  refine State.mem_framesOfDie.2 ⟨?_, rfl⟩
  by_contra hp
  rw [State.frameSector_none_of_absent hp] at h
  cases h

/-! ### What an operation of the frames' caches leaves alone -/

theorem foldl_proj_of_mem {α γ : Type} {f : State → α → State} {g : State → γ} : ∀ {l : List α} {s : State},
    (∀ s, ∀ a ∈ l, g (f s a) = g s) → g (l.foldl f s) = g s
  | [], _, _ => rfl
  | a :: _, s, h =>
    (foldl_proj_of_mem (s := f s a) (fun s b hb => h s b (List.mem_cons_of_mem _ hb))).trans (h s a List.mem_cons_self)

theorem foldl_proj {α γ : Type} {f : State → α → State} {g : State → γ} (h : ∀ s a, g (f s a) = g s) (l : List α)
    (s : State) : g (l.foldl f s) = g s :=
  foldl_proj_of_mem (fun s a _ => h s a)

/-- The frames' caches aside, the states are the same. -/
def State.noFrames (s : State) : State := { s with frames := [] }

@[simp] theorem State.noFrames_modFrame (s : State) (p : FrameId) (g : Frame → Frame) :
    (s.modFrame p g).noFrames = s.noFrames :=
  rfl

@[simp] theorem State.noFrames_setFrameSector (s : State) (p : FrameId) (x : Sector) :
    (s.setFrameSector p x).noFrames = s.noFrames := by
  unfold State.setFrameSector
  dsimp only
  rw [State.noFrames_modFrame]
  refine foldl_proj (fun s f => ?_) _ s
  split
  · rfl
  · split <;> rfl

@[simp] theorem State.dies_setFrameSector (s : State) (p : FrameId) (x : Sector) :
    (s.setFrameSector p x).dies = s.dies := by
  have h := congrArg State.dies (s.noFrames_setFrameSector p x)
  exact h

@[simp] theorem State.dieSector_setFrameSector (s : State) (p : FrameId) (x : Sector) (d m : Nat) (v : Bool) :
    (s.setFrameSector p x).dieSector d m v = s.dieSector d m v := by
  simp [State.dieSector, State.die]

@[simp] theorem State.hub_setFrameSector (s : State) (p : FrameId) (x : Sector) :
    (s.setFrameSector p x).hub = s.hub := by
  have h := congrArg State.hub (s.noFrames_setFrameSector p x)
  exact h

/-! ### A frame's sector changes -/

theorem Sector.shared_shared (x : Sector) : x.shared.shared = x.shared := by
  obtain ⟨num, valid, dirty, data, st, untracked⟩ := x
  cases st <;> rfl

/-- Every frame of `l` but `p` takes note that its copy is no longer the die's only one. -/
def State.shareOthers (s : State) (p : FrameId) (n : Nat) (u : Bool) (l : List FrameId) : State :=
  l.foldl (fun s f =>
    if f = p then s
    else match s.frameSector f n u with
      | some y => s.modFrame f (fun q => { q with cache := putSector y.shared q.cache })
      | none => s) s

theorem State.frameSector_shareOthers (p : FrameId) (n : Nat) (u : Bool) (q : FrameId) (m : Nat) (v : Bool) :
    ∀ (l : List FrameId) (s : State), (s.shareOthers p n u l).frameSector q m v =
      if q ∈ l ∧ q ≠ p ∧ m = n ∧ v = u then (s.frameSector q m v).map Sector.shared else s.frameSector q m v
  | [], s => by simp [State.shareOthers]
  | f :: l, s => by
    have hstep : (State.shareOthers s p n u [f]).frameSector q m v =
        if q = f ∧ q ≠ p ∧ m = n ∧ v = u then (s.frameSector q m v).map Sector.shared else s.frameSector q m v := by
      rw [State.shareOthers, List.foldl_cons, List.foldl_nil]
      split
      · rename_i h
        rw [if_neg (by rintro ⟨rfl, h1, -⟩; exact h1 h)]
      · rename_i h
        split
        · rename_i y hy
          obtain ⟨hn, hu⟩ := State.frameSector_key hy
          rw [State.frameSector_putCopy]
          by_cases hq : q = f ∧ m = n ∧ v = u
          · obtain ⟨rfl, rfl, rfl⟩ := hq
            rw [if_pos ⟨rfl, hn.symm, hu.symm⟩, if_pos ⟨rfl, h, rfl, rfl⟩, hy]
            rfl
          · rw [if_neg (by rintro ⟨h1, h2, h3⟩; exact hq ⟨h1, h2.trans hn, h3.trans hu⟩), if_neg (by tauto)]
        · rename_i hy
          split
          · rename_i hq
            obtain ⟨rfl, -, rfl, rfl⟩ := hq
            rw [hy]
            rfl
          · rfl
    have hl : s.shareOthers p n u (f :: l) = (s.shareOthers p n u [f]).shareOthers p n u l := rfl
    rw [hl, State.frameSector_shareOthers p n u q m v l, hstep]
    by_cases hk : q ≠ p ∧ m = n ∧ v = u
    · have ho : ∀ o : Option Sector, (o.map Sector.shared).map Sector.shared = o.map Sector.shared := fun o => by
        simp [Function.comp_def, Sector.shared_shared]
      obtain ⟨hp, rfl, rfl⟩ := hk
      by_cases hq : q ∈ l <;> rcases eq_or_ne q f with rfl | hf <;> simp [*]
    · rw [if_neg (fun h => hk h.2), if_neg (fun h => hk h.2), if_neg (fun h => hk h.2)]

theorem State.heldElsewhere_iff {s : State} {p : FrameId} {n : Nat} {u : Bool} :
    s.heldElsewhere p n u = true ↔ ∃ q : FrameId, q.die = p.die ∧ q ≠ p ∧ (s.frameSector q n u).isSome := by
  simp only [State.heldElsewhere, List.any_eq_true, Bool.and_eq_true, bne_iff_ne]
  constructor
  · rintro ⟨q, hq, hne, hs⟩
    exact ⟨q, (State.mem_framesOfDie.1 hq).2, hne, hs⟩
  · rintro ⟨q, hd, hne, hs⟩
    obtain ⟨x, hx⟩ := Option.isSome_iff_exists.1 hs
    exact ⟨q, hd ▸ State.mem_framesOfDie_of_holds hx, hne, hs⟩

/-- The state in which a frame holds a sector that enters its cache. -/
def State.entryState (s : State) (p : FrameId) (x : Sector) : Moesi :=
  if x.dirty != 0 then .m else if s.heldElsewhere p x.num x.untracked then .s else .e

theorem State.setFrameSector_eq (s : State) (p : FrameId) (x : Sector) :
    s.setFrameSector p x = (s.shareOthers p x.num x.untracked (s.framesOfDie p.die)).modFrame p
      (fun f => { f with cache := putSector { x with st := s.entryState p x } f.cache }) :=
  rfl

theorem State.frameSector_setFrameSector (s : State) (p : FrameId) (x : Sector) (q : FrameId) (m : Nat) (v : Bool) :
    (s.setFrameSector p x).frameSector q m v =
      if m = x.num ∧ v = x.untracked then
        if q = p then some { x with st := s.entryState p x }
        else if q.die = p.die then (s.frameSector q m v).map Sector.shared else s.frameSector q m v
      else s.frameSector q m v := by
  rw [State.setFrameSector_eq, State.frameSector_putCopy, State.frameSector_shareOthers]
  by_cases hk : m = x.num ∧ v = x.untracked
  · rw [if_pos hk]
    by_cases hp : q = p
    · rw [if_pos ⟨hp, hk⟩, if_pos hp]
    · rw [if_neg (fun h => hp h.1), if_neg hp]
      by_cases hm : q ∈ s.framesOfDie p.die
      · rw [if_pos ⟨hm, hp, hk⟩, if_pos (State.mem_framesOfDie.1 hm).2]
      · rw [if_neg (fun h => hm h.1)]
        split
        · rename_i hd
          cases hx : s.frameSector q m v with
          | none => rfl
          | some y => exact absurd (hd ▸ State.mem_framesOfDie_of_holds hx) hm
        · rfl
  · rw [if_neg (fun h => hk h.2), if_neg (fun h => hk h.2.2), if_neg hk]

/-! ### The frames of the machine -/

/-- The frames of the machine, in order. -/
def State.frameKeys (s : State) : List FrameId := s.frames.map Prod.fst

theorem map_fst_tableSet {α β : Type} [DecidableEq α] {k : α} (v : β) :
    ∀ {t : List (α × β)}, k ∈ t.map Prod.fst → (tableSet k v t).map Prod.fst = t.map Prod.fst
  | [], h => by cases h
  | (a, u) :: t, h => by
    unfold tableSet
    split
    · rename_i ha
      simp [ha]
    · rename_i ha
      have ht : k ∈ t.map Prod.fst := by
        simp only [List.map_cons, List.mem_cons] at h
        exact h.resolve_left (Ne.symm ha)
      simp only [List.map_cons, map_fst_tableSet v ht]

theorem State.frameKeys_modFrame {s : State} {p : FrameId} (h : p ∈ s.frameKeys) (g : Frame → Frame) :
    (s.modFrame p g).frameKeys = s.frameKeys :=
  map_fst_tableSet _ h

theorem State.mem_frameKeys_of_holds {s : State} {p : FrameId} {n : Nat} {u : Bool} {x : Sector}
    (h : s.frameSector p n u = some x) : p ∈ s.frameKeys :=
  (State.mem_framesOfDie.1 (State.mem_framesOfDie_of_holds h)).1

theorem State.framesOfDie_eq (s : State) (d : Nat) : s.framesOfDie d = s.frameKeys.filter (fun p => p.die = d) := by
  unfold State.framesOfDie State.frameKeys
  induction s.frames with
  | nil => rfl
  | cons e t ih =>
    by_cases h : e.1.die = d <;> simp [h, ih]

theorem State.framesOfDie_congr {s t : State} (h : t.frameKeys = s.frameKeys) (d : Nat) :
    t.framesOfDie d = s.framesOfDie d := by
  rw [State.framesOfDie_eq, State.framesOfDie_eq, h]

theorem State.frameKeys_setFrameSector {s : State} {p : FrameId} (h : p ∈ s.frameKeys) (x : Sector) :
    (s.setFrameSector p x).frameKeys = s.frameKeys := by
  have hf : ∀ (l : List FrameId), (s.shareOthers p x.num x.untracked l).frameKeys = s.frameKeys := by
    refine fun l => foldl_proj (g := State.frameKeys) (fun s f => ?_) l s
    split
    · rfl
    · split
      · exact State.frameKeys_modFrame (State.mem_frameKeys_of_holds ‹_›) _
      · rfl
  rw [State.setFrameSector_eq, State.frameKeys_modFrame ((hf _).symm ▸ h), hf]

/-! ### A frame's dirty bytes reach the die cache -/

/-- The die's sector after a frame's dirty bytes have reached it. -/
def State.flushed (s : State) (p : FrameId) (n : Nat) (u : Bool) (x : Sector) : Sector :=
  { ((s.dieSector p.die n u).getD (Sector.empty n u)).write x.dirty x.data with st := .m }

theorem State.flushed_key (s : State) (p : FrameId) (n : Nat) (u : Bool) (x : Sector) :
    (s.flushed p n u x).num = n ∧ (s.flushed p n u x).untracked = u :=
  getD_key (fun _ h => State.dieSector_key h)

section
variable {s : State} {p : FrameId} {n : Nat} {u : Bool}

theorem State.flushFrame_of_none (h : s.frameSector p n u = none) : s.flushFrame p n u = s := by
  simp only [State.flushFrame, h]

theorem State.flushFrame_of_clean {x : Sector} (h : s.frameSector p n u = some x) (hd : x.dirty = 0) :
    s.flushFrame p n u = s := by
  simp only [State.flushFrame, h, hd, if_true]

theorem State.flushFrame_of_dirty {x : Sector} (h : s.frameSector p n u = some x) (hd : x.dirty ≠ 0) :
    s.flushFrame p n u = (s.putDieSector p.die (s.flushed p n u x)).setFrameSector p x.clean := by
  simp only [State.flushFrame, h, hd, if_false]
  rfl

/-- Either nothing is dirty and nothing happens, or the dirty bytes go to the die cache. -/
theorem State.flushFrame_cases (s : State) (p : FrameId) (n : Nat) (u : Bool) :
    s.flushFrame p n u = s ∨ ∃ x, s.frameSector p n u = some x ∧ x.dirty ≠ 0 ∧
      s.flushFrame p n u = (s.putDieSector p.die (s.flushed p n u x)).setFrameSector p x.clean := by
  cases h : s.frameSector p n u with
  | none => exact .inl (State.flushFrame_of_none h)
  | some x =>
    by_cases hd : x.dirty = 0
    · exact .inl (State.flushFrame_of_clean h hd)
    · exact .inr ⟨x, rfl, hd, State.flushFrame_of_dirty h hd⟩

end

theorem State.frameSector_flushFrame_ne (s : State) (p : FrameId) {n : Nat} {u : Bool} (q : FrameId) {m : Nat}
    {v : Bool} (h : q.die ≠ p.die ∨ m ≠ n ∨ v ≠ u) : (s.flushFrame p n u).frameSector q m v = s.frameSector q m v := by
  obtain he | ⟨x, hx, -, he⟩ := s.flushFrame_cases p n u <;> rw [he]
  obtain ⟨rfl, rfl⟩ := State.frameSector_key hx
  rw [State.frameSector_setFrameSector, State.frameSector_putDieSector]
  split
  · rename_i hk
    have hd : q.die ≠ p.die := h.resolve_right (by rintro (h | h); exacts [h hk.1, h hk.2])
    rw [if_neg (fun e => hd (congrArg FrameId.die e)), if_neg hd]
  · rfl

theorem State.frameSector_flushFrame_none {s : State} (p : FrameId) (n : Nat) (u : Bool) {q : FrameId} {m : Nat}
    {v : Bool} (h : s.frameSector q m v = none) : (s.flushFrame p n u).frameSector q m v = none := by
  obtain he | ⟨x, hx, -, he⟩ := s.flushFrame_cases p n u <;> rw [he]
  · exact h
  · obtain ⟨rfl, rfl⟩ := State.frameSector_key hx
    rw [State.frameSector_setFrameSector, State.frameSector_putDieSector]
    split
    · rename_i hk
      obtain ⟨rfl, rfl⟩ := hk
      split
      · rename_i hq
        rw [hq] at h
        exact absurd (h.symm.trans hx) (by simp)
      · rw [h]
        simp
    · exact h

theorem State.dieSector_flushFrame_ne (s : State) (p : FrameId) {n : Nat} {u : Bool} {d m : Nat} {v : Bool}
    (h : d ≠ p.die ∨ m ≠ n ∨ v ≠ u) : (s.flushFrame p n u).dieSector d m v = s.dieSector d m v := by
  obtain he | ⟨x, -, -, he⟩ := s.flushFrame_cases p n u <;> rw [he]
  obtain ⟨hn, hu⟩ := s.flushed_key p n u x
  rw [State.dieSector_setFrameSector, State.dieSector_putDieSector, if_neg]
  rintro ⟨rfl, rfl, rfl⟩
  rw [hn, hu] at h
  tauto

@[simp] theorem State.hub_flushFrame (s : State) (p : FrameId) (n : Nat) (u : Bool) :
    (s.flushFrame p n u).hub = s.hub := by
  obtain he | ⟨x, -, -, he⟩ := s.flushFrame_cases p n u <;> rw [he]
  rw [State.hub_setFrameSector]
  rfl

@[simp] theorem State.hub_dropFrameSector (s : State) (p : FrameId) (n : Nat) (u : Bool) :
    (s.dropFrameSector p n u).hub = s.hub := by
  unfold State.dropFrameSector
  split <;> rfl

@[simp] theorem State.dieSector_dropFrameSector (s : State) (p : FrameId) (n : Nat) (u : Bool) (d m : Nat) (v : Bool) :
    (s.dropFrameSector p n u).dieSector d m v = s.dieSector d m v := by
  unfold State.dropFrameSector
  split <;> rfl

/-! ### A frame's eviction -/

/-- An eviction drops the sector and moves its dirty bytes on; it changes no other sector (R169, R170). -/
theorem evictFrame_moves_dirty (s : State) (p : FrameId) (n : Nat) (u : Bool) :
    let t := s.evictFrame p n u
    t.frameSector p n u = none ∧ t.mem = s.mem ∧ t.hub = s.hub ∧ t.rods = s.rods
      ∧ (∀ x, s.frameSector p n u = some x → ∀ k, k < 64 → x.dirty.getLsbD k = true →
          ∃ y, t.dieSector p.die n u = some y ∧ y.dirty.getLsbD k = true
            ∧ y.data.extractLsb' (8 * k) 8 = x.data.extractLsb' (8 * k) 8)
      ∧ ∀ (m : Nat) (v : Bool), m ≠ n ∨ v ≠ u →
          t.frameSector p m v = s.frameSector p m v ∧ t.dieSector p.die m v = s.dieSector p.die m v := by
  refine ⟨?_, s.evictFrame_mem p n u, by simp [State.evictFrame],
    congrArg Outline.rods (outline_evictFrame s p n u), fun x hx k hk hd => ?_, fun m v h => ⟨?_, ?_⟩⟩
  · rw [State.evictFrame, State.frameSector_dropFrameSector, if_pos ⟨rfl, rfl, rfl⟩]
  · have hx0 : x.dirty ≠ 0 := by
      rintro h
      simp [h] at hd
    obtain ⟨hn, hu⟩ := s.flushed_key p n u x
    refine ⟨s.flushed p n u x, ?_, ?_, ?_⟩
    · rw [State.evictFrame, State.dieSector_dropFrameSector, State.flushFrame_of_dirty hx hx0,
        State.dieSector_setFrameSector, State.dieSector_putDieSector, if_pos ⟨rfl, hn.symm, hu.symm⟩]
    · simp [State.flushed, Sector.write, hd]
    · exact (byte_write _ x.dirty x.data hk).trans (if_pos hd)
  · rw [State.evictFrame, State.frameSector_dropFrameSector, if_neg (by tauto),
      State.frameSector_flushFrame_ne s p p (.inr h)]
  · rw [State.evictFrame, State.dieSector_dropFrameSector, State.dieSector_flushFrame_ne s p (.inr h)]

/-! ### Other frames give way to a write -/

theorem foldl_preserves {α : Type} {f : State → α → State} {Q : State → Prop} (h : ∀ s a, Q s → Q (f s a)) :
    ∀ (l : List α) {s : State}, Q s → Q (l.foldl f s)
  | [], _, hs => hs
  | a :: l, _, hs => foldl_preserves h l (h _ a hs)

theorem foldl_establishes {α : Type} {f : State → α → State} {Q : State → Prop} (h : ∀ s a, Q s → Q (f s a)) {a : α}
    (ha : ∀ s, Q (f s a)) : ∀ {l : List α} {s : State}, a ∈ l → Q (l.foldl f s)
  | [], _, hm => by cases hm
  | b :: l, s, hm => by
    rcases List.mem_cons.1 hm with rfl | hm
    · exact foldl_preserves h l (ha s)
    · exact foldl_establishes (l := l) (s := f s b) h ha hm

theorem State.frameSector_evictFrame_none {s : State} (p : FrameId) (n : Nat) (u : Bool) {q : FrameId} {m : Nat}
    {v : Bool} (h : s.frameSector q m v = none) : (s.evictFrame p n u).frameSector q m v = none := by
  rw [State.evictFrame, State.frameSector_dropFrameSector, State.frameSector_flushFrame_none p n u h]
  simp

theorem State.frameSector_claimFrame_none (s : State) (p : FrameId) (n : Nat) (u : Bool) {q : FrameId}
    (hd : q.die = p.die) (hq : q ≠ p) : (s.claimFrame p n u).frameSector q n u = none := by
  have hk : ∀ (s : State) (f : FrameId), s.frameSector q n u = none →
      (if f = p then s else s.evictFrame f n u).frameSector q n u = none := fun s f hs => by
    split
    · exact hs
    · exact State.frameSector_evictFrame_none f n u hs
  by_cases hm : q ∈ s.framesOfDie p.die
  · refine foldl_establishes (Q := fun s => s.frameSector q n u = none) hk (fun s => ?_) hm
    rw [if_neg hq, State.evictFrame, State.frameSector_dropFrameSector, if_pos ⟨rfl, rfl, rfl⟩]
  · refine foldl_preserves (Q := fun s => s.frameSector q n u = none) hk _ ?_
    refine State.frameSector_none_of_absent (fun h => hm ?_) n u
    exact State.mem_framesOfDie.2 ⟨h, hd⟩

theorem State.frameSector_setFrameSector_none {s : State} {p q : FrameId} (x : Sector) {m : Nat} {v : Bool} (hq : q ≠ p)
    (h : s.frameSector q m v = none) : (s.setFrameSector p x).frameSector q m v = none := by
  rw [State.frameSector_setFrameSector, if_neg hq, h]
  simp

theorem State.frameSector_putFrameSector_none {s : State} {p q : FrameId} (x : Sector) {m : Nat} {v : Bool} (hq : q ≠ p)
    (h : s.frameSector q m v = none) : (s.putFrameSector p x).frameSector q m v = none := by
  refine State.frameSector_setFrameSector_none x hq ?_
  unfold State.makeRoom
  dsimp only
  split
  · exact h
  · split
    · exact h
    · split
      · exact foldl_preserves (Q := fun s => s.frameSector q m v = none)
          (fun s k => State.frameSector_evictFrame_none p _ _) _ h
      · exact h

/-- A write that stands in a frame's cache leaves no copy in the die's other frames. -/
theorem frameWrite_alone {s t : State} {p : FrameId} {weak u : Bool} {n off : Nat} {b : List Byte}
    (hd : deviceSector n = true) (hp : s.storePlace p.die n .frame weak = .frame)
    (hw : s.writeSeg p .frame weak u n off b = (none, t)) (q : FrameId) (hq : q.die = p.die) (hne : q ≠ p) :
    t.frameSector q n u = none := by
  simp only [State.writeSeg, hd, if_true, State.writeTower, hp] at hw
  split at hw
  · cases hw
  · rw [← (Prod.mk.inj hw).2]
    exact State.frameSector_putFrameSector_none _ hne (State.frameSector_claimFrame_none _ p n u hq hne)

/-! ### Bytes at the home -/

theorem State.homeMerge_mem (s : State) (n : Nat) (mask : BitVec 64) (d : BitVec 512) :
    (s.homeMerge n mask d).mem = mergeMem s.mem n mask d :=
  State.notify_mem _ n

theorem cellGet_homeMerge_ne (s : State) {n a : Nat} (mask : BitVec 64) (d : BitVec 512) (h : a / 64 ≠ n) :
    cellGet (s.homeMerge n mask d).mem a = cellGet s.mem a := by
  rw [State.homeMerge_mem, cellGet_mergeMem, if_neg (by simp [inMask, h])]

/-- A cell of a sector after bytes of the sector have been merged at the home. -/
theorem cellGet_mergeMem_sector (m : Memory) (n : Nat) (mask : BitVec 64) (d : BitVec 512) {k : Nat} (hk : k < 64) :
    cellGet (mergeMem m n mask d) (64 * n + k) =
      if mask.getLsbD k then d.extractLsb' (8 * k) 8 else cellGet m (64 * n + k) := by
  rw [cellGet_mergeMem, inMask, show (64 * n + k) / 64 = n by omega, show (64 * n + k) % 64 = k by omega]
  simp

theorem cellGet_mergeMem_in (m : Memory) (n : Nat) {off : Nat} {b : List Byte} (h : off + b.length ≤ 64) {j : Nat}
    (hj : j < b.length) :
    cellGet (mergeMem m n (segMask off b.length) (segData off b)) (64 * n + off + j) = b.getD j 0 := by
  rw [Nat.add_assoc, cellGet_mergeMem_sector _ _ _ _ (by omega), getLsbD_segMask h, if_pos (by simp; omega),
    byte_segData (by omega) (by omega)]
  congr 1
  omega

theorem cellGet_mergeMem_out (m : Memory) (n : Nat) {off : Nat} {b : List Byte} (h : off + b.length ≤ 64) {a : Nat}
    (ha : a < 64 * n + off ∨ 64 * n + off + b.length ≤ a) :
    cellGet (mergeMem m n (segMask off b.length) (segData off b)) a = cellGet m a := by
  rw [cellGet_mergeMem, if_neg]
  simp only [inMask, getLsbD_segMask h, Bool.and_eq_true, beq_iff_eq, decide_eq_true_eq]
  omega

/-! ### No frame holds the sector -/

theorem State.flushDieFrames_of_none {s : State} {d n : Nat} {u : Bool}
    (h : ∀ q ∈ s.framesOfDie d, s.frameSector q n u = none) :
    s.flushDieFrames d n u = s :=
  foldl_fixed (fun q hq => State.flushFrame_of_none (h q hq))

/-! ### A write at the home -/

theorem State.dieToHome_of_none {s : State} {d n : Nat} {u : Bool} (hd : s.dieSector d n u = none)
    (hf : ∀ q ∈ s.framesOfDie d, s.frameSector q n u = none) : s.dieToHome d n u = s := by
  rw [State.dieToHome, State.flushDieFrames_of_none hf]
  simp only [hd]

theorem State.dieSector_noteHome (s : State) (e k d n : Nat) (u : Bool) :
    (s.noteHome e k).dieSector d n u = s.dieSector d n u := by
  unfold State.noteHome State.dieSector
  dsimp only
  rw [State.die_modDie]
  split
  · rename_i h
    rw [h]
  · rfl

theorem State.untrackedWrite_mem_of_idle {s : State} {n : Nat} (h : (s.dir n).st = .dI) (mask : BitVec 64)
    (d : BitVec 512) : (s.untrackedWrite n mask d).mem = mergeMem s.mem n mask d := by
  have hi : s.invalidateOthers n none = s := by
    rw [State.invalidateOthers, DirSector.holders, h]
    simp [agentBits]
  rw [State.untrackedWrite, State.homeMerge_mem, hi]
  rfl

theorem writeSeg_home {s : State} {p : FrameId} {n : Nat} {u : Bool} (weak : Bool) (off : Nat) (b : List Byte)
    (hd : s.dieSector p.die n u = none) (hf : ∀ q ∈ s.framesOfDie p.die, s.frameSector q n u = none)
    (hp : s.poisoned n = false) (hs : s.severed p.die n = false) (hu : u = true ∨ (s.dir n).st = .dI) :
    ∃ t, s.writeSeg p .home weak u n off b = (none, t) ∧
      t.mem = mergeMem s.mem n (segMask off b.length) (segData off b) := by
  unfold State.writeSeg
  split
  · have hpl : s.storePlace p.die n .home weak = .home := by simp [State.storePlace]
    have h0 : (s.noteHome p.die n).dieToHome p.die n u = s.noteHome p.die n :=
      State.dieToHome_of_none ((s.dieSector_noteHome p.die n p.die n u).trans hd) hf
    have hp' : (s.noteHome p.die n).poisoned n = false := hp
    simp only [State.writeTower, hpl, hs, h0, hp', Bool.false_eq_true, if_false]
    refine ⟨_, rfl, ?_⟩
    rw [State.dropDieSector_mem, State.dropDieFrames_mem]
    split
    · rw [State.homeMerge_mem, State.noteHome_mem]
    · rename_i hn
      exact State.untrackedWrite_mem_of_idle (s := s.noteHome p.die n) (hu.resolve_left hn) _ _
  · rw [hs]
    exact ⟨_, rfl, State.homeMerge_mem ..⟩

/-- A write at the home changes its bytes and no others (R169, R185). -/
theorem homeWrite_in_place {s : State} {p : FrameId} {n : Nat} {u : Bool} (weak : Bool) {off : Nat} {b : List Byte}
    (hd : s.dieSector p.die n u = none) (hf : ∀ q ∈ s.framesOfDie p.die, s.frameSector q n u = none)
    (hp : s.poisoned n = false) (hs : s.severed p.die n = false) (hu : u = true ∨ (s.dir n).st = .dI)
    (hm : s.mem.wf = true) (hb : off + b.length ≤ 64) :
    ∃ t, s.writeSeg p .home weak u n off b = (none, t) ∧ t.mem.wf = true
      ∧ (∀ j, j < b.length → cellGet t.mem (64 * n + off + j) = b.getD j 0)
      ∧ (∀ a, a < 64 * n + off ∨ 64 * n + off + b.length ≤ a → cellGet t.mem a = cellGet s.mem a)
      ∧ t.rods = s.rods ∧ t.teams = s.teams ∧ t.carry = s.carry := by
  obtain ⟨t, ht, hmem⟩ := writeSeg_home weak off b hd hf hp hs hu
  have ho : t.outline = s.outline := by
    rw [← outline_writeHome s p weak u n off b, ht]
  refine ⟨t, ht, hmem ▸ mergeMem_wf n _ _ hm, fun j hj => ?_, fun a ha => ?_, congrArg Outline.rods ho,
    congrArg Outline.teams ho, congrArg Outline.carry ho⟩
  · rw [hmem, cellGet_mergeMem_in _ _ hb hj]
  · rw [hmem, cellGet_mergeMem_out _ _ hb ha]

/-! ### A die's eviction -/

theorem State.dropDieFrames_dieSector (s : State) (d n : Nat) (u : Bool) (e m : Nat) (v : Bool) :
    (s.dropDieFrames d n u).dieSector e m v = s.dieSector e m v :=
  foldl_proj (g := fun s => s.dieSector e m v) (fun s p => s.dieSector_dropFrameSector p n u e m v) _ s

/-- A die that evicts an untracked sector puts its dirty bytes home, and those alone (R169, R184, R431). -/
theorem evictDie_puts_dirty_home (s : State) (d n : Nat) (x : Sector) :
    let t := s.evictDie d n true
    s.dieSector d n true = some x → (∀ q ∈ s.framesOfDie d, s.frameSector q n true = none) →
    (x.dirty ≠ 0 → s.severed d n = false) →
    t.dieSector d n true = none
      ∧ (∀ k, k < 64 → cellGet t.mem (64 * n + k) =
          if x.dirty.getLsbD k then x.data.extractLsb' (8 * k) 8 else cellGet s.mem (64 * n + k))
      ∧ ∀ a, a / 64 ≠ n → cellGet t.mem a = cellGet s.mem a := by
  intro t hx hf hs
  have hm : s.meetsError d n true ≠ some .linkDown := by
    have hany : (s.framesOfDie d).any (fun p =>
        ((s.frameSector p n true).map (fun x => x.dirty != 0)).getD false) = false := by
      rw [List.any_eq_false]
      intro q hq
      simp [hf q hq]
    unfold State.meetsError
    rw [hany, hx]
    by_cases h0 : x.dirty = 0
    · simp [h0]
    · rw [hs h0]
      cases s.poisoned n <;> simp
  have ht : t = ((s.dieToHome d n true).dropDieFrames d n true).dropDieSector d n true := by
    simp only [t, State.evictDie, if_neg hm, State.dieDiscard, State.flushDieFrames_of_none hf]
  have hmem : t.mem = if x.dirty = 0 then s.mem else mergeMem s.mem n x.dirty x.data := by
    rw [ht, State.dropDieSector_mem, State.dropDieFrames_mem, State.dieToHome, State.flushDieFrames_of_none hf]
    simp only [hx]
    split
    · rfl
    · simp only [if_true, State.putDieSector_mem, State.homeMerge_mem, State.noteHome_mem]
  refine ⟨?_, fun k hk => ?_, fun a ha => ?_⟩
  · rw [ht, State.dieSector_dropDieSector, if_pos ⟨rfl, rfl, rfl⟩]
  · rw [hmem]
    split
    · rename_i h0
      simp [h0]
    · exact cellGet_mergeMem_sector _ _ _ _ hk
  · rw [hmem]
    split
    · rfl
    · rw [cellGet_mergeMem, if_neg (by simp [inMask, ha])]

/-! ### Two states that agree on a sector -/

/-- The states agree on the copies of a sector that the dies of `P` and the core chiplets hold, and on its bytes at the
home. -/
structure SameAt (P : Nat → Prop) (n : Nat) (v : Bool) (s t : State) : Prop where
  frame : ∀ q : FrameId, P q.die → t.frameSector q n v = s.frameSector q n v
  die : ∀ d, P d → t.dieSector d n v = s.dieSector d n v
  core0 : findSector n v t.hub.core0 = findSector n v s.hub.core0
  core1 : findSector n v t.hub.core1 = findSector n v s.hub.core1
  cells : ∀ a, a / 64 = n → cellGet t.mem a = cellGet s.mem a

section
variable {P : Nat → Prop} {n : Nat} {v : Bool} {s t r : State}

theorem SameAt.refl (P : Nat → Prop) (n : Nat) (v : Bool) (s : State) : SameAt P n v s s :=
  ⟨fun _ _ => rfl, fun _ _ => rfl, rfl, rfl, fun _ _ => rfl⟩

theorem SameAt.trans (h : SameAt P n v s t) (h' : SameAt P n v t r) : SameAt P n v s r :=
  ⟨fun q hq => (h'.frame q hq).trans (h.frame q hq), fun d hd => (h'.die d hd).trans (h.die d hd),
    h'.core0.trans h.core0, h'.core1.trans h.core1, fun a ha => (h'.cells a ha).trans (h.cells a ha)⟩

theorem SameAt.symm (h : SameAt P n v s t) : SameAt P n v t s :=
  ⟨fun q hq => (h.frame q hq).symm, fun d hd => (h.die d hd).symm, h.core0.symm, h.core1.symm,
    fun a ha => (h.cells a ha).symm⟩

theorem SameAt.foldl {α : Type} {f : State → α → State} : ∀ {l : List α} {s : State},
    (∀ s, ∀ a ∈ l, SameAt P n v s (f s a)) → SameAt P n v s (l.foldl f s)
  | [], s, _ => .refl P n v s
  | a :: _, s, h => (h s a List.mem_cons_self).trans (SameAt.foldl (fun s b hb => h s b (List.mem_cons_of_mem _ hb)))

theorem SameAt.homeData (h : SameAt P n v s t) : t.homeData n = s.homeData n := by
  have hc : cellsRead t.mem (64 * n) 64 = cellsRead s.mem (64 * n) 64 := by
    refine List.map_congr_left (fun k hk => h.cells _ ?_)
    have := List.mem_range.1 hk
    omega
  rw [State.homeData, State.homeData, hc]

theorem SameAt.agentSector (hP : ∀ a d, Config.dieOfAgent a = some d → P d) (h : SameAt P n false s t) (a : Nat) :
    t.agentSector a n = s.agentSector a n := by
  unfold State.agentSector
  cases ha : Config.dieOfAgent a with
  | some d => exact h.die d (hP a d ha)
  | none => by_cases h8 : a = 8 <;> simp [h8, h.core0, h.core1]

/-- A change of the hub that is not to its cores' caches. -/
theorem SameAt.modHub {g : Hub → Hub} (h0 : ∀ x, (g x).core0 = x.core0) (h1 : ∀ x, (g x).core1 = x.core1) (s : State) :
    SameAt P n v s (s.modHub g) :=
  ⟨fun _ _ => rfl, fun _ _ => rfl, congrArg _ (h0 s.hub), congrArg _ (h1 s.hub), fun _ _ => rfl⟩

/-- The frames and the die caches change, elsewhere. -/
theorem SameAt.caches (hf : ∀ q : FrameId, P q.die → t.frameSector q n v = s.frameSector q n v)
    (hd : ∀ d, P d → t.dieSector d n v = s.dieSector d n v) (hh : t.hub = s.hub) (hm : t.mem = s.mem) :
    SameAt P n v s t :=
  ⟨hf, hd, by rw [hh], by rw [hh], fun _ _ => by rw [hm]⟩

end

/-! ### Operations on other sectors, and on other dies -/

section
variable {P : Nat → Prop} {n : Nat} {v : Bool}

theorem SameAt.putLine (s : State) (k : Nat) (l : DirLine) : SameAt P n v s (s.putLine k l) := by
  refine SameAt.modHub (fun _ => ?_) (fun _ => ?_) s <;> rfl

theorem SameAt.notify (s : State) (k : Nat) : SameAt P n v s (s.notify k) := by
  unfold State.notify
  split
  · refine SameAt.modHub (fun _ => ?_) (fun _ => ?_) s <;> rfl
  · exact .refl P n v s

theorem SameAt.noteHome (s : State) (d k : Nat) : SameAt P n v s (s.noteHome d k) :=
  .caches (fun _ _ => rfl) (fun e _ => s.dieSector_noteHome d k e n v) rfl rfl

theorem SameAt.homeMerge_ne (s : State) {m : Nat} (mask : BitVec 64) (d : BitVec 512) (h : m ≠ n) :
    SameAt P n v s (s.homeMerge m mask d) := by
  refine .trans (t := { s with mem := mergeMem s.mem m mask d }) ?_ (SameAt.notify _ m)
  refine ⟨fun _ _ => rfl, fun _ _ => rfl, rfl, rfl, fun a ha => ?_⟩
  rw [cellGet_mergeMem, if_neg]
  simp only [inMask, Bool.and_eq_true, beq_iff_eq]
  omega

theorem SameAt.putDieSector_ne (s : State) {d : Nat} {x : Sector} (h : ¬ P d ∨ x.num ≠ n ∨ x.untracked ≠ v) :
    SameAt P n v s (s.putDieSector d x) := by
  refine .caches (fun _ _ => rfl) (fun e he => ?_) rfl rfl
  rw [State.dieSector_putDieSector, if_neg]
  rintro ⟨rfl, hn, hv⟩
  rcases h with h | h | h
  exacts [h he, h hn.symm, h hv.symm]

theorem SameAt.dropDieSector_ne (s : State) {d m : Nat} {u : Bool} (h : ¬ P d ∨ m ≠ n ∨ u ≠ v) :
    SameAt P n v s (s.dropDieSector d m u) := by
  refine .caches (fun _ _ => rfl) (fun e he => ?_) rfl rfl
  rw [State.dieSector_dropDieSector, if_neg]
  rintro ⟨rfl, hn, hv⟩
  rcases h with h | h | h
  exacts [h he, h hn.symm, h hv.symm]

theorem SameAt.flushFrame_ne (s : State) {p : FrameId} {m : Nat} {u : Bool} (h : ¬ P p.die ∨ m ≠ n ∨ u ≠ v) :
    SameAt P n v s (s.flushFrame p m u) := by
  refine .caches (fun q hq => ?_) (fun d hd => ?_) (s.hub_flushFrame p m u) (s.flushFrame_mem p m u)
  · refine State.frameSector_flushFrame_ne s p q ?_
    rcases h with h | h | h
    exacts [.inl (fun e => h (e ▸ hq)), .inr (.inl h.symm), .inr (.inr h.symm)]
  · refine State.dieSector_flushFrame_ne s p ?_
    rcases h with h | h | h
    exacts [.inl (fun e => h (e ▸ hd)), .inr (.inl h.symm), .inr (.inr h.symm)]

theorem SameAt.dropFrameSector_ne (s : State) {p : FrameId} {m : Nat} {u : Bool} (h : m ≠ n ∨ u ≠ v) :
    SameAt P n v s (s.dropFrameSector p m u) := by
  refine .caches (fun q _ => ?_) (fun d _ => s.dieSector_dropFrameSector p m u d n v) (s.hub_dropFrameSector p m u)
    (s.dropFrameSector_mem p m u)
  rw [State.frameSector_dropFrameSector, if_neg]
  rintro ⟨-, hn, hv⟩
  rcases h with h | h
  exacts [h hn.symm, h hv.symm]

theorem SameAt.flushDieFrames_ne (s : State) {d m : Nat} {u : Bool} (h : m ≠ n ∨ u ≠ v) :
    SameAt P n v s (s.flushDieFrames d m u) :=
  .foldl (fun s _ _ => .flushFrame_ne s (.inr h))

theorem SameAt.dropDieFrames_ne (s : State) {d m : Nat} {u : Bool} (h : m ≠ n ∨ u ≠ v) :
    SameAt P n v s (s.dropDieFrames d m u) :=
  .foldl (fun s _ _ => .dropFrameSector_ne s h)

theorem SameAt.gather_ne (s : State) (a : Nat) {m : Nat} (h : m ≠ n) : SameAt P n v s (s.gather a m) := by
  unfold State.gather
  split
  · exact .flushDieFrames_ne s (.inl h)
  · exact .refl P n v s

theorem SameAt.putAgentSector_ne (s : State) (a : Nat) {x : Sector} (h : x.num ≠ n ∨ x.untracked ≠ v) :
    SameAt P n v s (s.putAgentSector a x) := by
  have h' : n ≠ x.num ∨ v ≠ x.untracked := h.imp Ne.symm Ne.symm
  unfold State.putAgentSector
  split
  · exact .putDieSector_ne s (.inr h)
  · by_cases h8 : a = 8 <;> simp only [h8, if_true, if_false] <;>
      exact ⟨fun _ _ => rfl, fun _ _ => rfl, by simp [State.modHub, findSector_putSector_ne h'],
        by simp [State.modHub, findSector_putSector_ne h'], fun _ _ => rfl⟩

theorem SameAt.dropAgentSector_ne (s : State) (a : Nat) {m : Nat} (h : m ≠ n) :
    SameAt P n v s (s.dropAgentSector a m) := by
  unfold State.dropAgentSector
  split
  · exact .trans (.dropDieFrames_ne s (.inl h)) (.dropDieSector_ne _ (.inr (.inl h)))
  · by_cases h8 : a = 8 <;> simp only [h8, if_true, if_false] <;>
      exact ⟨fun _ _ => rfl, fun _ _ => rfl, by simp [State.modHub, findSector_dropSector_ne (.inl h.symm)],
        by simp [State.modHub, findSector_dropSector_ne (.inl h.symm)], fun _ _ => rfl⟩

theorem SameAt.mergeDirty_ne (s : State) (a : Nat) {m : Nat} (h : m ≠ n) : SameAt P n v s (s.mergeDirty a m) := by
  unfold State.mergeDirty
  dsimp only
  split
  · split
    · exact .gather_ne s a h
    · exact .trans (.gather_ne s a h) (.homeMerge_ne _ _ _ h)
  · exact .gather_ne s a h

theorem SameAt.snoopInvalidate_ne (s : State) (a : Nat) {m : Nat} (h : m ≠ n) :
    SameAt P n v s (s.snoopInvalidate a m) :=
  .trans (.mergeDirty_ne s a h) (.dropAgentSector_ne _ a h)

end

theorem State.agentSector_key {s : State} {a n : Nat} {x : Sector} (h : s.agentSector a n = some x) :
    x.num = n ∧ x.untracked = false := by
  unfold State.agentSector at h
  split at h <;> exact findSector_key h

section
variable {P : Nat → Prop} {n : Nat} {v : Bool}

theorem SameAt.snoopClean_ne (s : State) (a : Nat) {m : Nat} (h : m ≠ n) : SameAt P n v s (s.snoopClean a m) := by
  unfold State.snoopClean
  dsimp only
  split
  · rename_i x hx
    refine .trans (.mergeDirty_ne s a h) (.putAgentSector_ne _ a (.inl ?_))
    exact (State.agentSector_key hx).1 ▸ h
  · exact .mergeDirty_ne s a h

/-! ### Entries of the package directory give way -/

theorem SameAt.evictLine_ne (s : State) {line : Nat} (l : DirLine) (h : line ≠ n / 4) :
    SameAt P n v s (s.evictLine line l) := by
  refine .trans (.foldl (fun s a _ => .foldl (fun s k hk => .snoopInvalidate_ne s a ?_))) (.putLine _ line _)
  have := List.mem_range.1 hk
  omega

end

/-! ### The directory while a sector is given up -/

@[simp] theorem State.hub_flushDieFrames (s : State) (d n : Nat) (u : Bool) : (s.flushDieFrames d n u).hub = s.hub :=
  foldl_proj (fun s p => s.hub_flushFrame p n u) _ s

@[simp] theorem State.hub_dropDieFrames (s : State) (d n : Nat) (u : Bool) : (s.dropDieFrames d n u).hub = s.hub :=
  foldl_proj (fun s p => s.hub_dropFrameSector p n u) _ s

@[simp] theorem State.hub_gather (s : State) (a n : Nat) : (s.gather a n).hub = s.hub := by
  unfold State.gather
  split <;> simp

@[simp] theorem State.directory_homeMerge (s : State) (n : Nat) (mask : BitVec 64) (d : BitVec 512) :
    (s.homeMerge n mask d).hub.directory = s.hub.directory := by
  unfold State.homeMerge State.notify
  split <;> rfl

@[simp] theorem State.directory_mergeDirty (s : State) (a n : Nat) :
    (s.mergeDirty a n).hub.directory = s.hub.directory := by
  unfold State.mergeDirty
  dsimp only
  split
  · split <;> simp
  · simp

@[simp] theorem State.directory_dropAgentSector (s : State) (a n : Nat) :
    (s.dropAgentSector a n).hub.directory = s.hub.directory := by
  unfold State.dropAgentSector
  split
  · exact congrArg Hub.directory (s.hub_dropDieFrames _ n false)
  · by_cases h8 : a = 8 <;> simp [h8, State.modHub]

@[simp] theorem State.directory_snoopInvalidate (s : State) (a n : Nat) :
    (s.snoopInvalidate a n).hub.directory = s.hub.directory := by
  simp [State.snoopInvalidate]

/-- An entry that the directory does not have is not there after another has been evicted. -/
theorem State.noEntry_evictLine {s : State} {j : Nat} (line : Nat) (l : DirLine)
    (h : tableFind j s.hub.directory = none) : tableFind j (s.evictLine line l).hub.directory = none := by
  have hd : (s.evictLine line l).hub.directory = tableErase line s.hub.directory := by
    unfold State.evictLine State.putLine
    simp only [State.modHub, if_true]
    refine congrArg _ ?_
    exact foldl_proj (g := fun s => s.hub.directory)
      (fun s a => foldl_proj (g := fun s => s.hub.directory) (fun s k => s.directory_snoopInvalidate a _) _ s) _ s
  rw [hd]
  by_cases hj : j = line
  · rw [hj, tableFind_tableErase_same]
  · rw [tableFind_tableErase_ne hj, h]

section
variable {P : Nat → Prop} {n : Nat} {v : Bool}

theorem SameAt.evictWay {s : State} (line : Nat) (h : tableFind (n / 4) s.hub.directory = none) :
    SameAt P n v s (s.evictWay line) ∧ tableFind (n / 4) (s.evictWay line).hub.directory = none := by
  have hdraw : SameAt P n v s s.draw.2 := .caches (fun _ _ => rfl) (fun _ _ => rfl) rfl rfl
  unfold State.evictWay
  dsimp only
  split
  · rename_i e he
    have hm : e ∈ s.hub.directory := (List.mem_filter.1 (List.mem_of_getElem? he)).1
    have hne : e.1 ≠ n / 4 := by
      intro hx
      obtain ⟨l, hl⟩ := tableFind_isSome_of_mem hm
      rw [hx, h] at hl
      cases hl
    exact ⟨.trans hdraw (.evictLine_ne _ e.2 hne), State.noEntry_evictLine e.1 e.2 h⟩
  · exact ⟨hdraw, h⟩

theorem SameAt.makeWay (s : State) : SameAt P n v s (s.makeWay (n / 4)) := by
  unfold State.makeWay
  split
  · exact .refl P n v s
  · rename_i h
    refine (foldl_preserves (Q := fun t => SameAt P n v s t ∧ tableFind (n / 4) t.hub.directory = none)
      (fun t _ ht => ?_) _ ⟨.refl P n v s, by simpa using h⟩).1
    obtain ⟨hs, hn⟩ := SameAt.evictWay (P := P) (v := v) (n / 4) ht.2
    exact ⟨ht.1.trans hs, hn⟩

theorem SameAt.claimLine (s : State) (a : Nat) : SameAt P n v s (s.claimLine n a) := by
  refine .foldl (fun s k hk => ?_)
  have hk4 := List.mem_range.1 hk
  dsimp only
  split
  · rename_i h
    simp only [Bool.and_eq_true, bne_iff_ne] at h
    exact .trans (.snoopClean_ne s _ (by have := h.1.1; omega)) (.putLine _ _ _)
  · exact .refl P n v s

/-- What the directory notes of a sector moves no copy of it, and no byte. -/
theorem SameAt.setDir (s : State) (g : DirSector) : SameAt P n v s (s.setDir n g) := by
  have h1 : SameAt P n v s (if g.st.owned then s.claimLine n g.owner else s) := by
    split
    · exact .claimLine s g.owner
    · exact .refl P n v s
  unfold State.setDir
  generalize (if g.st.owned then s.claimLine n g.owner else s) = s1 at h1 ⊢
  refine .trans (.trans h1 ?_) (.putLine _ _ _)
  split
  · exact .refl P n v s1
  · exact .makeWay s1

end

/-! ### A store of a host -/

theorem cellGet_snoopInvalidate_ne (s : State) (ag : Nat) {n a : Nat} (h : a / 64 ≠ n) :
    cellGet (s.snoopInvalidate ag n).mem a = cellGet s.mem a := by
  rw [State.snoopInvalidate, State.dropAgentSector_mem]
  unfold State.mergeDirty
  dsimp only
  split
  · split
    · rw [State.gather_mem]
    · rw [cellGet_homeMerge_ne _ _ _ h, State.gather_mem]
  · rw [State.gather_mem]

theorem cellGet_invalidateOthers_ne (s : State) (keep : Option Nat) {n a : Nat} (h : a / 64 ≠ n) :
    cellGet (s.invalidateOthers n keep).mem a = cellGet s.mem a := by
  refine foldl_proj (g := fun s => cellGet s.mem a) (fun s ag => ?_) _ s
  split
  · rfl
  · exact cellGet_snoopInvalidate_ne s ag h

/-! ### Copies that a store from outside takes away (R431) -/

@[simp] theorem State.hub_putDieSector (s : State) (d : Nat) (x : Sector) : (s.putDieSector d x).hub = s.hub := rfl

@[simp] theorem State.hub_dropDieSector (s : State) (d n : Nat) (u : Bool) : (s.dropDieSector d n u).hub = s.hub := rfl

@[simp] theorem State.dieSector_homeMerge (s : State) (k : Nat) (mask : BitVec 64) (x : BitVec 512) (d n : Nat)
    (u : Bool) :
    (s.homeMerge k mask x).dieSector d n u = s.dieSector d n u := by
  unfold State.homeMerge State.notify
  split <;> rfl

@[simp] theorem State.core0_homeMerge (s : State) (k : Nat) (mask : BitVec 64) (x : BitVec 512) :
    (s.homeMerge k mask x).hub.core0 = s.hub.core0 := by
  unfold State.homeMerge State.notify
  split <;> rfl

@[simp] theorem State.core1_homeMerge (s : State) (k : Nat) (mask : BitVec 64) (x : BitVec 512) :
    (s.homeMerge k mask x).hub.core1 = s.hub.core1 := by
  unfold State.homeMerge State.notify
  split <;> rfl

theorem State.dieSector_flushDieFrames_ne (s : State) {d e : Nat} (n : Nat) (u : Bool) (m : Nat) (v : Bool)
    (h : e ≠ d) :
    (s.flushDieFrames d n u).dieSector e m v = s.dieSector e m v :=
  foldl_proj_of_mem (g := fun s => s.dieSector e m v) (fun s p hp =>
    s.dieSector_flushFrame_ne p (.inl (fun he => h (he.trans (State.mem_framesOfDie.1 hp).2))))

/-- Dirty bytes that go home change no copy of a die but the agent's own. -/
theorem State.dieSector_mergeDirty_ne (s : State) {b d : Nat} (n : Nat) (m : Nat) (v : Bool)
    (h : Config.dieOfAgent b ≠ some d) : (s.mergeDirty b n).dieSector d m v = s.dieSector d m v := by
  have hg : (s.gather b n).dieSector d m v = s.dieSector d m v := by
    unfold State.gather
    split
    · rename_i e he
      exact State.dieSector_flushDieFrames_ne s n false m v (fun hd => h (hd ▸ he))
    · rfl
  unfold State.mergeDirty
  dsimp only
  split
  · split
    · exact hg
    · rw [State.dieSector_homeMerge, hg]
  · exact hg

/-- An agent that drops a sector has none. -/
theorem State.agentSector_snoopInvalidate (s : State) (a n : Nat) :
    (s.snoopInvalidate a n).agentSector a n = none := by
  unfold State.snoopInvalidate State.dropAgentSector State.agentSector
  cases ha : Config.dieOfAgent a with
  | some d => simp only [State.dieSector_dropDieSector, and_self, if_true]
  | none => by_cases h8 : a = 8 <;> simp [h8, State.modHub]

theorem State.core_mergeDirty (s : State) (b n : Nat) :
    (s.mergeDirty b n).hub.core0 = s.hub.core0 ∧ (s.mergeDirty b n).hub.core1 = s.hub.core1 := by
  unfold State.mergeDirty
  dsimp only
  split
  · split <;> simp
  · simp

/-- What one agent gives up brings no copy to another. -/
theorem State.agentSector_snoopInvalidate_none {s : State} {a n : Nat} (b : Nat) (h : s.agentSector a n = none) :
    (s.snoopInvalidate b n).agentSector a n = none := by
  obtain ⟨h0, h1⟩ := s.core_mergeDirty b n
  unfold State.agentSector at h ⊢
  unfold State.snoopInvalidate State.dropAgentSector
  cases ha : Config.dieOfAgent a with
  | some d =>
    simp only [ha] at h ⊢
    cases hb : Config.dieOfAgent b with
    | some e =>
      simp only [State.dieSector_dropDieSector, State.dropDieFrames_dieSector]
      split
      · rfl
      · rename_i hd
        rw [State.dieSector_mergeDirty_ne s n n false (fun he => hd ⟨?_, trivial, trivial⟩), h]
        exact Option.some.inj (he.symm.trans hb)
    | none =>
      have hd := State.dieSector_mergeDirty_ne s (b := b) (d := d) n n false (by simp [hb])
      exact hd.trans h
  | none =>
    simp only [ha] at h ⊢
    cases hb : Config.dieOfAgent b with
    | some e => simpa [h0, h1] using h
    | none => by_cases h8 : a = 8 <;> by_cases hb8 : b = 8 <;> simp_all [State.modHub]

theorem State.mem_agentBits {m : BitVec 10} {a : Nat} : a ∈ agentBits m ↔ m.getLsbD a = true := by
  simp only [agentBits, List.mem_filter, List.mem_range, and_iff_right_iff_imp]
  intro h
  by_contra hlt
  simp [BitVec.getLsbD_of_ge m a (by omega)] at h

/-- Every agent that the directory names gives the sector up. -/
theorem State.agentSector_invalidateOthers {s : State} {n a : Nat} (h : (s.dir n).holders.getLsbD a = true) :
    (s.invalidateOthers n none).agentSector a n = none := by
  refine foldl_establishes (Q := fun s => s.agentSector a n = none) (fun s b hs => ?_) (fun s => ?_)
    (State.mem_agentBits.2 h)
  · exact State.agentSector_snoopInvalidate_none b hs
  · exact State.agentSector_snoopInvalidate s a n

theorem State.agentSector_setDir (s : State) (n : Nat) (g : DirSector) (a : Nat) :
    (s.setDir n g).agentSector a n = s.agentSector a n :=
  SameAt.agentSector (P := fun _ => True) (fun _ _ _ => trivial) (.setDir s g) a

theorem State.agentSector_homeMerge (s : State) (n : Nat) (mask : BitVec 64) (x : BitVec 512) (a m : Nat) :
    (s.homeMerge n mask x).agentSector a m = s.agentSector a m := by
  unfold State.agentSector
  simp

theorem sectorRuns_nil (fuel a : Nat) : sectorRuns fuel a [] = [] := by
  cases fuel <;> simp [sectorRuns]

/-- The bytes of a store that a host makes within one sector. -/
theorem runsOf_one {addr : Nat} {b : List Byte} (hb : 0 < b.length) (h : addr % 64 + b.length ≤ 64) :
    runsOf addr b = [(addr / 64, addr % 64, b)] := by
  have hne : b ≠ [] := List.ne_nil_of_length_pos hb
  have hmin : min b.length (64 - addr % 64) = b.length := Nat.min_eq_left (by omega)
  rw [runsOf, sectorRuns, if_neg hne]
  simp only [hmin, List.take_length, List.drop_length, sectorRuns_nil]

/-- A host's store changes its bytes at the home, and every holder of the sector gives it up (R427, R431, R22). -/
theorem hostStore_in_place (s : State) (addr : Nat) (b : List Byte) (hb : 0 < b.length) (h : addr % 64 + b.length ≤ 64)
    (hc : controlOffset addr = none) (hp : s.poisoned (addr / 64) = false)
    (hs : s.severed hubNode (addr / 64) = false) :
    let n := addr / 64
    let t := s.outside (.hostStore addr b)
    (∀ j, j < b.length → cellGet t.mem (addr + j) = b.getD j 0)
      ∧ (∀ a, a / 64 ≠ n → cellGet t.mem a = cellGet s.mem a)
      ∧ (∀ a, (s.dir n).holders.getLsbD a = true → t.agentSector a n = none) ∧ t.rods = s.rods ∧ t.teams = s.teams := by
  intro n t
  have ht : t = s.untrackedWrite n (segMask (addr % 64) b.length) (segData (addr % 64) b) := by
    simp only [t, State.outside, State.driverStore, hc, runsOf_one hb h, List.foldl_cons, List.foldl_nil, State.ioWrite,
      hp, hs, Bool.or_self, Bool.false_eq_true, if_false]
    rfl
  have hmem : t.mem = mergeMem (s.invalidateOthers n none).mem n (segMask (addr % 64) b.length)
      (segData (addr % 64) b) := by
    rw [ht, State.untrackedWrite, State.homeMerge_mem]
    rfl
  have ho : t.outline = s.outline := by rw [ht, outline_untrackedWrite]
  refine ⟨fun j hj => ?_, fun a ha => ?_, fun a ha => ?_, congrArg Outline.rods ho, congrArg Outline.teams ho⟩
  · rw [hmem, show addr + j = 64 * n + addr % 64 + j by omega, cellGet_mergeMem_in _ _ h hj]
  · rw [hmem, cellGet_mergeMem, if_neg (by simp [inMask, ha]), cellGet_invalidateOthers_ne s none ha]
  · rw [ht, State.untrackedWrite, State.agentSector_homeMerge, State.agentSector_setDir]
    exact State.agentSector_invalidateOthers ha

/-! ### A store of a core chiplet -/

theorem State.agentSector_putAgentSector (s : State) (a : Nat) {x : Sector} (hu : x.untracked = false) :
    (s.putAgentSector a x).agentSector a x.num = some x := by
  unfold State.putAgentSector State.agentSector
  cases ha : Config.dieOfAgent a with
  | some d => simp only [State.dieSector_putDieSector, hu, and_self, if_true]
  | none =>
    have hf := fun l => hu ▸ findSector_putSector_same x l
    by_cases h8 : a = 8 <;> simp [h8, State.modHub, hf]

theorem State.agentSector_readUnique (s : State) (a n : Nat) : ((s.readUnique a n).agentSector a n).isSome := by
  unfold State.readUnique State.grant
  dsimp only
  rw [State.agentSector_setDir]
  rw [State.agentSector_putAgentSector _ a
    (x := { num := n, valid := allBytes, dirty := 0, data := _, st := .e, untracked := false }) rfl]
  rfl

theorem State.agentSector_upgrade (s : State) (a n : Nat) : ((s.upgrade a n).agentSector a n).isSome := by
  have hput : ∀ (s : State) (x : Sector), s.agentSector a n = some x →
      (s.putAgentSector a { x with st := .m }).agentSector a n = some { x with st := .m } := fun s x hx => by
    obtain ⟨rfl, hu⟩ := State.agentSector_key hx
    exact State.agentSector_putAgentSector s a (x := { x with st := .m }) hu
  unfold State.upgrade
  split
  · dsimp only
    split
    · rename_i x hx
      rw [State.agentSector_setDir, hput _ x hx]
      rfl
    · exact State.agentSector_readUnique _ a n
  · dsimp only
    split
    · rename_i x hx
      rw [hput _ x hx]
      rfl
    · exact State.agentSector_readUnique s a n

/-- A core chiplet's store leaves it the sector in M, the stored bytes dirty (R427, R22). -/
theorem coreStore_owns (s : State) (addr : Nat) (b : List Byte) (hb : 0 < b.length) (h : addr % 64 + b.length ≤ 64)
    (hc : controlOffset addr = none) (hp : s.poisoned (addr / 64) = false) (hs : s.severed hubNode (addr / 64) = false)
    (agent : Nat) (ha : agent = 8 ∨ agent = 9) (hout : s.agentOut agent = false) (hw : s.watched (addr / 64) = false)
    (hd : deviceSector (addr / 64) = true) :
    ∃ x, (s.outside (.coreStore agent addr b)).agentSector agent (addr / 64) = some x ∧ x.st = .m
      ∧ ∀ j, j < b.length → x.dirty.getLsbD (addr % 64 + j) = true
          ∧ x.data.extractLsb' (8 * (addr % 64 + j)) 8 = b.getD j 0 := by
  obtain ⟨x, hx⟩ := Option.isSome_iff_exists.1 (s.agentSector_upgrade agent (addr / 64))
  obtain ⟨hn, hu⟩ := State.agentSector_key hx
  refine ⟨{ x.write (segMask (addr % 64) b.length) (segData (addr % 64) b) with st := .m }, ?_, rfl,
    fun j hj => ⟨?_, ?_⟩⟩
  · simp only [State.outside, hout, Bool.false_eq_true, if_false, State.driverStore, hc, State.coreStore, ha,
      Bool.not_false, and_self, if_true, runsOf_one hb h, List.foldl_cons, List.foldl_nil, State.coreWrite, hp,
      hs, hw, hd, Bool.not_true, Bool.or_self, hx]
    have hput := State.agentSector_putAgentSector (s.upgrade agent (addr / 64)) agent
      (x := { x.write (segMask (addr % 64) b.length) (segData (addr % 64) b) with st := .m }) hu
    exact hn ▸ hput
  · simp only [Sector.write, BitVec.getLsbD_or, getLsbD_segMask h]
    simp
    omega
  · exact byte_write_seg x h hj

/-! ### The same operation on two states that agree on its sector -/

theorem findSector_putSector (x : Sector) (l : List Sector) (m : Nat) (v : Bool) :
    findSector m v (putSector x l) = if m = x.num ∧ v = x.untracked then some x else findSector m v l := by
  split
  · rename_i h
    obtain ⟨rfl, rfl⟩ := h
    exact findSector_putSector_same x l
  · exact findSector_putSector_ne (by tauto) l

section
variable {P : Nat → Prop} {n : Nat} {v : Bool} {s t : State}

theorem SameAt.heldElsewhere (h : SameAt P n v s t) {p : FrameId} (hp : P p.die) :
    t.heldElsewhere p n v = s.heldElsewhere p n v := by
  rw [Bool.eq_iff_iff, State.heldElsewhere_iff, State.heldElsewhere_iff]
  constructor <;> rintro ⟨q, hd, hne, hs⟩ <;> refine ⟨q, hd, hne, ?_⟩
  · rwa [h.frame q (hd ▸ hp)] at hs
  · rwa [h.frame q (hd ▸ hp)]

theorem SameAt.setFrameSector (h : SameAt P n v s t) {p : FrameId} (hp : P p.die) {x : Sector} (hn : x.num = n)
    (hv : x.untracked = v) : SameAt P n v (s.setFrameSector p x) (t.setFrameSector p x) := by
  have he : t.entryState p x = s.entryState p x := by
    rw [State.entryState, State.entryState, hn, hv, h.heldElsewhere hp]
  refine ⟨fun q hq => ?_, fun d hd => ?_, ?_, ?_, fun a ha => ?_⟩
  · rw [State.frameSector_setFrameSector, State.frameSector_setFrameSector, he, h.frame q hq]
  · rw [State.dieSector_setFrameSector, State.dieSector_setFrameSector, h.die d hd]
  · rw [State.hub_setFrameSector, State.hub_setFrameSector, h.core0]
  · rw [State.hub_setFrameSector, State.hub_setFrameSector, h.core1]
  · rw [State.setFrameSector_mem, State.setFrameSector_mem, h.cells a ha]

theorem SameAt.putDieSector (h : SameAt P n v s t) (d : Nat) (x : Sector) :
    SameAt P n v (s.putDieSector d x) (t.putDieSector d x) := by
  refine ⟨h.frame, fun e he => ?_, h.core0, h.core1, h.cells⟩
  rw [State.dieSector_putDieSector, State.dieSector_putDieSector, h.die e he]

theorem SameAt.flushFrame (h : SameAt P n v s t) {p : FrameId} (hp : P p.die) :
    SameAt P n v (s.flushFrame p n v) (t.flushFrame p n v) := by
  have hf := h.frame p hp
  cases hx : s.frameSector p n v with
  | none => rwa [State.flushFrame_of_none hx, State.flushFrame_of_none (hf.trans hx)]
  | some x =>
    obtain ⟨hn, hv⟩ := State.frameSector_key hx
    by_cases hd : x.dirty = 0
    · rwa [State.flushFrame_of_clean hx hd, State.flushFrame_of_clean (hf.trans hx) hd]
    · have hy : t.flushed p n v x = s.flushed p n v x := by rw [State.flushed, State.flushed, h.die p.die hp]
      rw [State.flushFrame_of_dirty hx hd, State.flushFrame_of_dirty (hf.trans hx) hd, hy]
      exact (h.putDieSector p.die _).setFrameSector hp hn hv

theorem State.frameKeys_flushFrame (s : State) (p : FrameId) (n : Nat) (u : Bool) :
    (s.flushFrame p n u).frameKeys = s.frameKeys := by
  obtain he | ⟨x, hx, -, he⟩ := s.flushFrame_cases p n u <;> rw [he]
  exact State.frameKeys_setFrameSector (s := s.putDieSector p.die _) (State.mem_frameKeys_of_holds hx) x.clean

theorem State.frameKeys_flushDieFrames (s : State) (d n : Nat) (u : Bool) :
    (s.flushDieFrames d n u).frameKeys = s.frameKeys :=
  foldl_proj (fun s p => s.frameKeys_flushFrame p n u) _ s

/-- The second machine has the first one's frames, or one more, the last. -/
def KeysGrow (p : FrameId) (s t : State) : Prop :=
  t.frameKeys = s.frameKeys ∨ (p ∉ s.frameKeys ∧ t.frameKeys = s.frameKeys ++ [p])

theorem KeysGrow.congr {p : FrameId} {s' t' : State} (h : KeysGrow p s t) (hs : s'.frameKeys = s.frameKeys)
    (ht : t'.frameKeys = t.frameKeys) : KeysGrow p s' t' := by
  unfold KeysGrow
  rwa [hs, ht]

theorem SameAt.flushEach {d : Nat} (hd : P d) : ∀ {l : List FrameId} {s t : State}, (∀ q ∈ l, q.die = d) →
    SameAt P n v s t →
      SameAt P n v (l.foldl (fun s p => s.flushFrame p n v) s) (l.foldl (fun s p => s.flushFrame p n v) t)
  | [], _, _, _, h => h
  | q :: l, _, _, hl, h =>
    SameAt.flushEach (l := l) hd (fun r hr => hl r (List.mem_cons_of_mem _ hr))
      (h.flushFrame (by rw [hl q List.mem_cons_self]; exact hd))

theorem SameAt.flushDieFrames (h : SameAt P n v s t) {p : FrameId} (hk : KeysGrow p s t) {d : Nat} (hd : P d) :
    SameAt P n v (s.flushDieFrames d n v) (t.flushDieFrames d n v) := by
  have hs : ∀ q ∈ s.framesOfDie d, q.die = d := fun q hq => (State.mem_framesOfDie.1 hq).2
  have hall := SameAt.flushEach hd hs h
  rcases hk with hk | ⟨hp, hk⟩
  · rw [State.flushDieFrames, State.flushDieFrames, State.framesOfDie_congr hk]
    exact hall
  · have hl : t.framesOfDie d = s.framesOfDie d ++ (if p.die = d then [p] else []) := by
      rw [State.framesOfDie_eq, hk, List.filter_append, ← State.framesOfDie_eq]
      congr 1
      by_cases hpd : p.die = d <;> simp [hpd]
    rw [State.flushDieFrames, State.flushDieFrames, hl, List.foldl_append]
    by_cases hpd : p.die = d
    · have hnone : ((s.framesOfDie d).foldl (fun s p => s.flushFrame p n v) s).frameSector p n v = none := by
        refine State.frameSector_none_of_absent (fun hm => hp ?_) n v
        rwa [← State.frameKeys_flushDieFrames s d n v]
      rw [if_pos hpd, List.foldl_cons, List.foldl_nil,
        State.flushFrame_of_none ((hall.frame p (hpd ▸ hd)).trans hnone)]
      exact hall
    · rw [if_neg hpd]
      exact hall

theorem SameAt.homeMerge (h : SameAt P n v s t) (mask : BitVec 64) (x : BitVec 512) :
    SameAt P n v (s.homeMerge n mask x) (t.homeMerge n mask x) := by
  have hm : SameAt P n v { s with mem := mergeMem s.mem n mask x } { t with mem := mergeMem t.mem n mask x } := by
    refine ⟨h.frame, h.die, h.core0, h.core1, fun a ha => ?_⟩
    rw [cellGet_mergeMem, cellGet_mergeMem, h.cells a ha]
  exact (SameAt.notify _ n).symm.trans (hm.trans (.notify _ n))

theorem SameAt.noteHomes (h : SameAt P n v s t) (d k : Nat) : SameAt P n v (s.noteHome d k) (t.noteHome d k) :=
  (SameAt.noteHome s d k).symm.trans (h.trans (.noteHome t d k))

theorem SameAt.putAgentSector (h : SameAt P n v s t) (a : Nat) (x : Sector) :
    SameAt P n v (s.putAgentSector a x) (t.putAgentSector a x) := by
  unfold State.putAgentSector
  split
  · exact h.putDieSector _ x
  · by_cases h8 : a = 8 <;> simp only [h8, if_true, if_false] <;>
      exact ⟨h.frame, h.die, by simp [State.modHub, findSector_putSector, h.core0],
        by simp [State.modHub, findSector_putSector, h.core1], h.cells⟩

end

/-! ### Tracked requests -/

section
variable {P : Nat → Prop} (hP : ∀ a d, Config.dieOfAgent a = some d → P d) {n : Nat} {s t : State} {p : FrameId}
include hP

theorem SameAt.gather (h : SameAt P n false s t) (hk : KeysGrow p s t) (a : Nat) :
    SameAt P n false (s.gather a n) (t.gather a n) := by
  unfold State.gather
  split
  · rename_i d hd
    exact h.flushDieFrames hk (hP a d hd)
  · exact h

theorem SameAt.mergeDirty (h : SameAt P n false s t) (hk : KeysGrow p s t) (a : Nat) :
    SameAt P n false (s.mergeDirty a n) (t.mergeDirty a n) := by
  have hg := h.gather hP hk a
  unfold State.mergeDirty
  dsimp only
  rw [hg.agentSector hP a]
  split
  · split
    · exact hg
    · exact hg.homeMerge _ _
  · exact hg

theorem SameAt.snoopClean (h : SameAt P n false s t) (hk : KeysGrow p s t) (a : Nat) :
    SameAt P n false (s.snoopClean a n) (t.snoopClean a n) := by
  have hm := h.mergeDirty hP hk a
  unfold State.snoopClean
  dsimp only
  rw [hm.agentSector hP a]
  split
  · exact hm.putAgentSector a _
  · exact hm

theorem SameAt.snoopShare (h : SameAt P n false s t) (hk : KeysGrow p s t) (a : Nat) :
    SameAt P n false (s.snoopShare a n) (t.snoopShare a n) := by
  have hg := h.gather hP hk a
  unfold State.snoopShare
  dsimp only
  rw [hg.agentSector hP a]
  split
  · exact hg.putAgentSector a _
  · exact hg

omit hP in
theorem SameAt.grant (h : SameAt P n false s t) (a : Nat) (d : BitVec 512) (st : Moesi) (g : DirSector) :
    SameAt P n false (s.grant a n d st g) (t.grant a n d st g) :=
  (SameAt.setDir _ g).symm.trans ((h.putAgentSector a _).trans (.setDir _ g))

theorem SameAt.readShared (h : SameAt P n false s t) (hk : KeysGrow p s t) (hh : t.hub = s.hub) (a : Nat) :
    SameAt P n false (s.readShared a n) (t.readShared a n) := by
  have hdir : t.dir n = s.dir n := by rw [State.dir, State.dir, State.line, State.line, hh]
  unfold State.readShared
  rw [hdir]
  dsimp only
  split
  · rw [h.homeData]
    exact h.grant a _ _ _
  · rw [h.homeData]
    exact h.grant a _ _ _
  · have hs := h.snoopShare hP hk (s.dir n).owner
    rw [hs.agentSector hP, hs.homeData]
    split
    · exact hs.grant a _ _ _
    · split <;> exact hs.grant a _ _ _
  · have hg := h.gather hP hk (s.dir n).owner
    rw [hg.agentSector hP, hg.homeData]
    split <;> exact hg.grant a _ _ _

theorem SameAt.untrackedRead (h : SameAt P n false s t) (hk : KeysGrow p s t) (hh : t.hub = s.hub) :
    (t.untrackedRead n).1 = (s.untrackedRead n).1 ∧ SameAt P n false (s.untrackedRead n).2 (t.untrackedRead n).2 := by
  have hdir : t.dir n = s.dir n := by rw [State.dir, State.dir, State.line, State.line, hh]
  have hc := fun g g' => (SameAt.setDir (s.snoopClean (s.dir n).owner n) g).symm.trans
    ((h.snoopClean hP hk (s.dir n).owner).trans (.setDir _ g'))
  unfold State.untrackedRead
  rw [hdir]
  dsimp only
  split
  · exact ⟨h.homeData, h⟩
  · exact ⟨h.homeData, h⟩
  · exact ⟨(hc _ _).homeData, hc _ _⟩
  · exact ⟨(hc _ _).homeData, hc _ _⟩

end

/-! ### The paths to the homes -/

/-- What the paths between the nodes are read off: the hub and the phases of the dies. -/
def State.fabric (s : State) : Hub × (Nat → ResetPhase) × Bool :=
  (s.hub, fun a => (s.die a).phase, s.dies.all (fun e => e.2.phase != .isolating))

section
variable {s t : State}

theorem State.hub_of_fabric (h : t.fabric = s.fabric) : t.hub = s.hub := congrArg Prod.fst h

theorem State.nodeUp_of_fabric (h : t.fabric = s.fabric) (a : Nat) : t.nodeUp a = s.nodeUp a := by
  have hp : (t.die a).phase = (s.die a).phase := congrFun (congrArg (fun f => f.2.1) h) a
  rw [State.nodeUp, State.nodeUp, State.hub_of_fabric h, hp]

theorem State.within_of_fabric (h : t.fabric = s.fabric) (out : Nat → Bool) (dest : Nat) :
    ∀ m, t.within out dest m = s.within out dest m
  | 0 => by rw [State.within, State.within, State.nodeUp_of_fabric h]
  | m + 1 => by
    have hl : t.linkUp = s.linkUp := by
      funext a b
      rw [State.linkUp, State.linkUp, State.hub_of_fabric h]
    simp only [State.within, State.within_of_fabric h out dest m, State.nodeUp_of_fabric h, hl]

/-- Whether a path to a home is cut is read off the fabric. -/
theorem State.severed_of_fabric (h : t.fabric = s.fabric) (d n : Nat) : t.severed d n = s.severed d n := by
  have hh := State.hub_of_fabric h
  have hw : t.fabricWhole = s.fabricWhole := by
    rw [State.fabricWhole, State.fabricWhole, hh, show t.dies.all _ = s.dies.all _ from congrArg (fun f => f.2.2) h]
  have ho : ∀ k, t.homeOf k = s.homeOf k := fun k => by rw [State.homeOf, State.homeOf, hh]
  have hr : ∀ dest, (t.route d dest).isNone = (s.route d dest).isNone := fun dest => by
    unfold State.route
    rw [State.within_of_fabric h]
    split <;> rfl
  simp only [State.severed, hw, State.towerOut, State.homeNode, ho, hh, hr]

theorem State.poisoned_of_fabric (h : t.fabric = s.fabric) (n : Nat) : t.poisoned n = s.poisoned n := by
  rw [State.poisoned, State.poisoned, State.hub_of_fabric h]

end

/-- A die changes, but not in its phase. -/
theorem State.fabric_modDie (s : State) (d : Nat) {g : Die → Die} (hg : ∀ q, (g q).phase = q.phase) :
    (s.modDie d g).fabric = s.fabric := by
  have hp : (fun a => ((s.modDie d g).die a).phase) = fun a => (s.die a).phase := by
    funext a
    rw [State.die_modDie]
    split
    · rename_i h
      rw [hg, h]
    · rfl
  have hall : ∀ t : List (Nat × Die), (tableSet d (g (tableGet Die.reset d t)) t).all
      (fun e => e.2.phase != .isolating) = t.all (fun e => e.2.phase != .isolating) := by
    intro t
    induction t with
    | nil => simp [tableSet, tableGet, tableFind, hg, Die.reset]
    | cons e t ih =>
      by_cases he : e.1 = d
      · simp [tableSet, tableGet, tableFind, he, hg]
      · simp only [tableGet] at ih
        simp [tableSet, tableGet, tableFind, he, ih]
  unfold State.fabric
  rw [hp]
  exact congrArg (fun b => (s.hub, _, b)) (hall s.dies)

@[simp] theorem State.fabric_putDieSector (s : State) (d : Nat) (x : Sector) : (s.putDieSector d x).fabric = s.fabric :=
  s.fabric_modDie d (fun _ => rfl)

@[simp] theorem State.fabric_noteHome (s : State) (d n : Nat) : (s.noteHome d n).fabric = s.fabric :=
  s.fabric_modDie d (fun _ => rfl)

@[simp] theorem State.fabric_setFrameSector (s : State) (p : FrameId) (x : Sector) :
    (s.setFrameSector p x).fabric = s.fabric := by
  unfold State.fabric State.die
  rw [State.hub_setFrameSector, State.dies_setFrameSector]

@[simp] theorem State.fabric_flushFrame (s : State) (p : FrameId) (n : Nat) (u : Bool) :
    (s.flushFrame p n u).fabric = s.fabric := by
  obtain he | ⟨x, -, -, he⟩ := s.flushFrame_cases p n u <;> rw [he]
  simp

@[simp] theorem State.fabric_flushDieFrames (s : State) (d n : Nat) (u : Bool) :
    (s.flushDieFrames d n u).fabric = s.fabric :=
  foldl_proj (fun s p => s.fabric_flushFrame p n u) _ s

/-! ### A read of a sector that two states agree on -/

section
variable {n : Nat} {v : Bool} {s t : State} {p : FrameId}

theorem SameAt.dieFill (h : SameAt (fun _ => True) n v s t) (hk : KeysGrow p s t) (hh : t.fabric = s.fabric) (d : Nat) :
    (t.dieFill d n v).1 = (s.dieFill d n v).1 ∧ SameAt (fun _ => True) n v (s.dieFill d n v).2 (t.dieFill d n v).2 := by
  have hn := h.noteHomes d n
  have hf : (t.noteHome d n).fabric = (s.noteHome d n).fabric := by
    rw [State.fabric_noteHome, State.fabric_noteHome, hh]
  have hs := State.severed_of_fabric hf d n
  have hp := State.poisoned_of_fabric hf n
  have hub := State.hub_of_fabric hf
  unfold State.dieFill
  rw [h.die d trivial]
  by_cases hv : ((s.dieSector d n v).getD (Sector.empty n v)).valid = allBytes
  · simp only [hv, if_true]
    exact ⟨trivial, h⟩
  simp only [hv, if_false, hs, hp]
  split
  · exact ⟨rfl, hn⟩
  split
  · exact ⟨rfl, hn⟩
  cases v with
  | true =>
    simp only [if_true, hn.homeData]
    exact ⟨trivial, hn.putDieSector d _⟩
  | false =>
    simp only [Bool.false_eq_true, if_false]
    split
    · exact ⟨rfl, hn.readShared (fun _ _ _ => trivial) hk hub _⟩
    · obtain ⟨hd, hu⟩ := hn.untrackedRead (fun _ _ _ => trivial) hk hub
      rw [hd, hu.die d trivial]
      exact ⟨rfl, hu.putDieSector d _⟩

/-- A frame reads the same bytes of a sector in two states that agree on it. -/
theorem SameAt.readSeg (h : SameAt (fun _ => True) n v s t) (hk : KeysGrow p s t) (hh : t.fabric = s.fabric)
    (off len : Nat) : (t.readSeg p .frame v n off len).2.1 = (s.readSeg p .frame v n off len).2.1 := by
  have hf := h.flushDieFrames hk (d := p.die) trivial
  obtain ⟨he, hd⟩ := hf.dieFill (hk.congr (s.frameKeys_flushDieFrames _ n v) (t.frameKeys_flushDieFrames _ n v))
    (by rw [State.fabric_flushDieFrames, State.fabric_flushDieFrames, hh]) p.die
  unfold State.readSeg
  split
  · unfold State.readTower
    dsimp only
    rw [h.frame p trivial]
    split
    · rfl
    · generalize (t.flushDieFrames p.die n v).dieFill p.die n v = x at he hd ⊢
      generalize (s.flushDieFrames p.die n v).dieFill p.die n v = y at he hd ⊢
      obtain ⟨c, s1⟩ := y
      obtain ⟨c', t1⟩ := x
      obtain rfl : c' = c := he
      cases c' with
      | some c => rfl
      | none =>
        dsimp only
        rw [hd.die p.die trivial]
        cases s1.dieSector p.die n v <;> rfl
  · rw [State.severed_of_fabric hh, h.homeData]
    split <;> rfl

end

/-! ### A byte of a sector that a frame does not hold -/

theorem State.flushFrame_idem (s : State) (p : FrameId) (n : Nat) (u : Bool) :
    (s.flushFrame p n u).flushFrame p n u = s.flushFrame p n u := by
  obtain he | ⟨x, hx, hd, he⟩ := s.flushFrame_cases p n u
  · rw [he, he]
  · obtain ⟨hn, hu⟩ := State.frameSector_key hx
    refine State.flushFrame_of_clean (x := { x.clean with
      st := (s.putDieSector p.die (s.flushed p n u x)).entryState p x.clean }) ?_ rfl
    rw [he, State.frameSector_setFrameSector, if_pos ⟨hn.symm, hu.symm⟩, if_pos rfl]

theorem State.flushEach_of_alone {p : FrameId} {n : Nat} {u : Bool} :
    ∀ {l : List FrameId} {s : State}, (∀ q ∈ l, q ≠ p → s.frameSector q n u = none) →
      l.foldl (fun s p => s.flushFrame p n u) s = if p ∈ l then s.flushFrame p n u else s
  | [], _, _ => rfl
  | q :: l, s, h => by
    have ht := fun r hr => h r (List.mem_cons_of_mem q hr)
    rw [List.foldl_cons]
    by_cases hq : q = p
    · rw [hq, State.flushEach_of_alone (fun r hr hne => State.frameSector_flushFrame_none p n u (ht r hr hne)),
        State.flushFrame_idem, ite_self, if_pos List.mem_cons_self]
    · rw [State.flushFrame_of_none (h q List.mem_cons_self hq), State.flushEach_of_alone ht]
      simp [Ne.symm hq]

/-- Of a die's frames only one may hold the sector: what reaches the die cache is that frame's. -/
theorem State.flushDieFrames_of_alone {s : State} {p : FrameId} {n : Nat} {u : Bool}
    (h : ∀ q ∈ s.framesOfDie p.die, q ≠ p → s.frameSector q n u = none) :
    s.flushDieFrames p.die n u = s.flushFrame p n u := by
  rw [State.flushDieFrames, State.flushEach_of_alone h]
  split
  · rfl
  · rename_i hp
    refine (State.flushFrame_of_none ?_).symm
    exact State.frameSector_none_of_absent (fun hm => hp (State.mem_framesOfDie.2 ⟨hm, rfl⟩)) n u

/-- A byte of the die's sector after a frame's dirty bytes have reached it. -/
theorem State.flushFrame_byte (s : State) (p : FrameId) (n : Nat) (u : Bool) {k : Nat} (hk : k < 64) :
    let x := (s.frameSector p n u).getD (Sector.empty n u)
    let y := (s.dieSector p.die n u).getD (Sector.empty n u)
    let z := ((s.flushFrame p n u).dieSector p.die n u).getD (Sector.empty n u)
    z.valid.getLsbD k = (y.valid.getLsbD k || x.dirty.getLsbD k)
      ∧ z.data.extractLsb' (8 * k) 8 =
          if x.dirty.getLsbD k then x.data.extractLsb' (8 * k) 8 else y.data.extractLsb' (8 * k) 8 := by
  intro x y z
  cases hx : s.frameSector p n u with
  | none => simp [x, y, z, State.flushFrame_of_none hx, hx, Sector.empty]
  | some w =>
    have hxw : x = w := by simp [x, hx]
    by_cases hd : w.dirty = 0
    · simp [y, z, hxw, State.flushFrame_of_clean hx hd, hd]
    · obtain ⟨hn, hu⟩ := s.flushed_key p n u w
      have hz : z = s.flushed p n u w := by
        simp only [z, State.flushFrame_of_dirty hx hd, State.dieSector_setFrameSector, State.dieSector_putDieSector, hn,
          hu, and_self, if_true, Option.getD_some]
      rw [hz, hxw]
      exact ⟨BitVec.getLsbD_or, byte_write _ _ _ hk⟩

/-- What an untracked request reads of a sector. -/
def State.homeValue (s : State) (n : Nat) (u : Bool) : BitVec 512 :=
  if u then s.homeData n else (s.untrackedRead n).1

theorem State.dieSector_untrackedRead (s : State) {d : Nat} (n : Nat)
    (hd : ∀ a, Config.dieOfAgent a ≠ some d) : (s.untrackedRead n).2.dieSector d n false = s.dieSector d n false := by
  have hs : (s.snoopClean (s.dir n).owner n).dieSector d n false = s.dieSector d n false := by
    have hm := s.dieSector_mergeDirty_ne n n false (hd (s.dir n).owner)
    unfold State.snoopClean
    dsimp only
    split
    · unfold State.putAgentSector
      split
      · rename_i e he
        rw [State.dieSector_putDieSector, if_neg (fun h => hd _ (h.1 ▸ he)), hm]
      · exact hm
    · exact hm
  have hg := fun g =>
    (SameAt.setDir (P := fun _ => True) (n := n) (v := false) (s.snoopClean (s.dir n).owner n) g).die d trivial
  unfold State.untrackedRead
  dsimp only
  split
  · rfl
  · rfl
  · exact (hg _).trans hs
  · exact (hg _).trans hs

theorem getLsbD_allBytes {k : Nat} (hk : k < 64) : allBytes.getLsbD k = true := by
  rw [allBytes, BitVec.getLsbD_allOnes, decide_eq_true hk]

/-- The bytes a die has after it has filled a sector: those it held, and the others from the home. -/
theorem State.dieFill_byte {s : State} {d n : Nat} {u : Bool} (hu : u = true ∨ ∀ a, Config.dieOfAgent a ≠ some d)
    (hag : u = true ∨ Config.agentOfDie d = none) (hp : s.poisoned n = false) (hs : s.severed d n = false) {k : Nat}
    (hk : k < 64) :
    let y := (s.dieSector d n u).getD (Sector.empty n u)
    ∃ t z, s.dieFill d n u = (none, t) ∧ t.dieSector d n u = some z ∧ z.data.extractLsb' (8 * k) 8 =
      if y.valid.getLsbD k then y.data.extractLsb' (8 * k) 8
      else ((s.noteHome d n).homeValue n u).extractLsb' (8 * k) 8 := by
  intro y
  have hykey : y.num = n ∧ y.untracked = u := getD_key (fun _ h => State.dieSector_key h)
  have hfill : ∀ home : BitVec 512, (y.fill allBytes home).data.extractLsb' (8 * k) 8 =
      if y.valid.getLsbD k then y.data.extractLsb' (8 * k) 8 else home.extractLsb' (8 * k) 8 := fun home => by
    rw [Sector.fill, byte_mergeBytes _ _ _ hk, BitVec.getLsbD_and, getLsbD_allBytes hk, BitVec.getLsbD_not]
    cases y.valid.getLsbD k <;> simp [hk]
  by_cases hv : y.valid = allBytes
  · cases hd : s.dieSector d n u with
    | none =>
      have h0 := congrArg (fun m => m.getLsbD 0) hv
      simp [y, hd, Sector.empty, allBytes] at h0
    | some z =>
      have hyz : y = z := by simp [y, hd]
      refine ⟨s, z, ?_, hd, ?_⟩
      · unfold State.dieFill
        simp only [show ((s.dieSector d n u).getD (Sector.empty n u)).valid = allBytes from hv, if_true]
      · rw [← hyz, hv, getLsbD_allBytes hk, if_pos rfl]
  · have hs' : (s.noteHome d n).severed d n = false := (State.severed_of_fabric (s.fabric_noteHome d n) d n).trans hs
    have hp' : (s.noteHome d n).poisoned n = false := hp
    unfold State.dieFill
    simp only [show ((s.dieSector d n u).getD (Sector.empty n u)).valid ≠ allBytes from hv, if_false, hs', hp',
      Bool.false_eq_true]
    cases u with
    | true =>
      refine ⟨_, y.fill allBytes ((s.noteHome d n).homeData n), rfl, ?_, hfill _⟩
      rw [State.dieSector_putDieSector, if_pos ⟨rfl, hykey.1.symm, hykey.2.symm⟩]
    | false =>
      have hd := hu.resolve_left (by simp)
      have hy : ((s.noteHome d n).untrackedRead n).2.dieSector d n false = s.dieSector d n false :=
        ((s.noteHome d n).dieSector_untrackedRead n hd).trans (s.dieSector_noteHome d n d n false)
      simp only [hag.resolve_left (by simp), Bool.false_eq_true, if_false, hy]
      refine ⟨_, { y.fill allBytes ((s.noteHome d n).untrackedRead n).1 with st := .s }, rfl, ?_, hfill _⟩
      rw [State.dieSector_putDieSector, if_pos ⟨rfl, hykey.1.symm, hykey.2.symm⟩]

/-! ### A write in a frame's cache -/

theorem agent_of_not_stream {d : Nat} (h : Config.isStream d = false) :
    Config.agentOfDie d = none ∧ ∀ a, Config.dieOfAgent a ≠ some d := by
  have hm : d ∉ Config.streamDies := by
    rw [← List.contains_iff_mem, ← Config.isStream, h]
    simp
  refine ⟨?_, fun a ha => hm (List.mem_of_getElem? ha)⟩
  rw [Config.agentOfDie, List.findIdx?_eq_none_iff]
  intro x hx
  simp only [beq_eq_false_iff_ne]
  exact fun e => hm (e ▸ hx)

section
variable {s : State} {p : FrameId} {n : Nat} {u : Bool}

theorem State.claimFrame_of_alone (h : ∀ q ∈ s.framesOfDie p.die, q ≠ p → s.frameSector q n u = none) :
    s.claimFrame p n u = s := by
  refine foldl_fixed (fun q hq => ?_)
  split
  · rfl
  · rename_i hne
    have hn := h q hq hne
    rw [State.evictFrame, State.flushFrame_of_none hn]
    simp only [State.dropFrameSector, hn]

theorem State.setFrameSector_of_alone {x : Sector}
    (h : ∀ q ∈ s.framesOfDie p.die, q ≠ p → s.frameSector q x.num x.untracked = none) :
    s.setFrameSector p x =
      s.modFrame p (fun f => { f with cache := putSector { x with st := s.entryState p x } f.cache }) := by
  have hl : s.shareOthers p x.num x.untracked (s.framesOfDie p.die) = s := by
    refine foldl_fixed (fun q hq => ?_)
    split
    · rfl
    · rename_i hne
      rw [h q hq hne]
  rw [State.setFrameSector_eq, hl]

/-- The sector a frame holds once it has written bytes of it. -/
def State.written (s : State) (p : FrameId) (n : Nat) (u : Bool) (off : Nat) (b : List Byte) : Sector :=
  let x := ((s.frameSector p n u).getD (Sector.empty n u)).write (segMask off b.length) (segData off b)
  { x with st := s.entryState p x }

theorem State.written_key (s : State) (p : FrameId) (n : Nat) (u : Bool) (off : Nat) (b : List Byte) :
    (s.written p n u off b).num = n ∧ (s.written p n u off b).untracked = u :=
  getD_key (fun _ h => State.frameSector_key h)

/-- A write that stands in a frame's cache, where no other frame of the die holds the sector, changes that cache
alone. -/
theorem writeSeg_frame {weak : Bool} (off : Nat) (b : List Byte) (hu : u = true ∨ Config.isStream p.die = false)
    (hd : deviceSector n = true) (hp : s.storePlace p.die n .frame weak = .frame)
    (ha : ∀ q ∈ s.framesOfDie p.die, q ≠ p → s.frameSector q n u = none) (hc : (s.frame p).cache.length < 1024) :
    s.writeSeg p .frame weak u n off b =
      (none, s.modFrame p (fun f => { f with cache := putSector (s.written p n u off b) f.cache })) := by
  have huo : (u || !Config.isStream p.die) = true := by
    rcases hu with rfl | h
    · rfl
    · simp [h]
  obtain ⟨hn, hv⟩ := s.written_key p n u off b
  simp only [State.writeSeg, hd, if_true, State.writeTower, hp, huo, State.claimFrame_of_alone ha]
  rw [State.putFrameSector, State.makeRoom, if_pos (show (s.frame p).cache.length < frameCacheLines from hc),
    State.setFrameSector_of_alone]
  · rfl
  · intro q hq hne
    exact (congrArg₂ (s.frameSector q) hn hv).trans (ha q hq hne)

end

theorem map_fst_tableSet_new {α β : Type} [DecidableEq α] {k : α} (v : β) :
    ∀ {t : List (α × β)}, k ∉ t.map Prod.fst → (tableSet k v t).map Prod.fst = t.map Prod.fst ++ [k]
  | [], _ => rfl
  | (a, u) :: t, h => by
    simp only [List.map_cons, List.mem_cons, not_or] at h
    simp [tableSet, Ne.symm h.1, map_fst_tableSet_new v h.2]

theorem KeysGrow.modFrame (s : State) (p : FrameId) (g : Frame → Frame) : KeysGrow p s (s.modFrame p g) := by
  by_cases h : p ∈ s.frameKeys
  · exact .inl (State.frameKeys_modFrame h g)
  · exact .inr ⟨h, map_fst_tableSet_new _ h⟩

/-! ### What the frame reads after the write -/

section
variable {s : State} {p : FrameId} {n : Nat} {u : Bool}

/-- The byte that a frame reads of a device sector which no other frame of its die holds. -/
theorem readByte_alone (hu : u = true ∨ Config.isStream p.die = false) (hd : deviceSector n = true)
    (ha : ∀ q ∈ s.framesOfDie p.die, q ≠ p → s.frameSector q n u = none) (hp : s.poisoned n = false)
    (hs : s.severed p.die n = false) {k : Nat} (hk : k < 64) :
    let x := (s.frameSector p n u).getD (Sector.empty n u)
    let y := (s.dieSector p.die n u).getD (Sector.empty n u)
    (s.readSeg p .frame u n k 1).2.1 =
      [if x.valid.getLsbD k then x.data.extractLsb' (8 * k) 8
       else if x.dirty.getLsbD k then x.data.extractLsb' (8 * k) 8
       else if y.valid.getLsbD k then y.data.extractLsb' (8 * k) 8
       else (((s.flushFrame p n u).noteHome p.die n).homeValue n u).extractLsb' (8 * k) 8] := by
  intro x y
  have hmask : x.valid &&& segMask k 1 = segMask k 1 ↔ x.valid.getLsbD k = true := by
    rw [mask_sub_iff]
    simp only [getLsbD_segMask (show k + 1 ≤ 64 by omega), decide_eq_true_eq]
    exact ⟨fun h => h k (by omega), fun h j hj => by rwa [show j = k by omega]⟩
  have hone : ∀ d : BitVec 512, segBytes d k 1 = [d.extractLsb' (8 * k) 8] := fun d => by simp [segBytes]
  have hf : (s.flushFrame p n u).fabric = s.fabric := s.fabric_flushFrame p n u
  obtain ⟨t, z, ht, hz, hb⟩ := State.dieFill_byte (s := s.flushFrame p n u) (d := p.die) (n := n) (u := u)
    (hu.imp_right (fun h => (agent_of_not_stream h).2)) (hu.imp_right (fun h => (agent_of_not_stream h).1))
    ((State.poisoned_of_fabric hf n).trans hp) ((State.severed_of_fabric hf p.die n).trans hs) hk
  obtain ⟨hvalid, hdata⟩ := s.flushFrame_byte p n u hk
  simp only [State.readSeg, hd, if_true, State.readTower, State.flushDieFrames_of_alone ha, ht, hz]
  by_cases hx : x.valid.getLsbD k = true
  · rw [if_pos (hmask.2 hx), if_pos hx, hone]
  · rw [if_neg (fun h => hx (hmask.1 h)), if_neg hx, hone, hb, hvalid, hdata]
    by_cases hdirty : x.dirty.getLsbD k = true
    · simp [x, hdirty]
    · simp [x, y, hdirty]

end

section
variable {s t : State} {p : FrameId} {n : Nat} {u : Bool}

/-- What a frame's die holds of a sector does not reach an untracked request of that die. -/
theorem homeValue_flushFrame (hu : u = true ∨ Config.isStream p.die = false) (h : SameAt (· ≠ p.die) n u s t)
    (hk : KeysGrow p s t) (hh : t.hub = s.hub) :
    ((t.flushFrame p n u).noteHome p.die n).homeValue n u = ((s.flushFrame p n u).noteHome p.die n).homeValue n u := by
  have hf := fun r : State => (SameAt.flushFrame_ne (P := (· ≠ p.die)) (n := n) (v := u) r (p := p) (m := n) (u := u)
    (.inl (fun hx => hx rfl))).trans (.noteHome _ p.die n)
  have hr := (hf s).symm.trans (h.trans (hf t))
  have hub : ((t.flushFrame p n u).noteHome p.die n).hub = ((s.flushFrame p n u).noteHome p.die n).hub :=
    (t.hub_flushFrame p n u).trans (hh.trans (s.hub_flushFrame p n u).symm)
  unfold State.homeValue
  cases u with
  | true => exact hr.homeData
  | false =>
    have hP := (agent_of_not_stream (hu.resolve_left (by simp))).2
    exact (hr.untrackedRead (fun a d ha (hd : d = p.die) => hP a (hd ▸ ha))
      (hk.congr (s.frameKeys_flushFrame p n false) (t.frameKeys_flushFrame p n false)) hub).1

end

/-- The machine once a frame has written bytes of a sector in its cache. -/
def State.frameWritten (s : State) (p : FrameId) (n : Nat) (u : Bool) (off : Nat) (b : List Byte) : State :=
  s.modFrame p (fun f => { f with cache := putSector (s.written p n u off b) f.cache })

theorem State.frameSector_frameWritten (s : State) (p : FrameId) (n : Nat) (u : Bool) (off : Nat) (b : List Byte)
    (q : FrameId) (m : Nat) (v : Bool) :
    (s.frameWritten p n u off b).frameSector q m v =
      if q = p ∧ m = n ∧ v = u then some (s.written p n u off b) else s.frameSector q m v := by
  obtain ⟨hn, hv⟩ := s.written_key p n u off b
  rw [State.frameWritten, State.frameSector_putCopy, hn, hv]

section
variable {s : State} {p : FrameId} {n : Nat} {u : Bool} {off : Nat} {b : List Byte}

theorem SameAt.frameWritten {P : Nat → Prop} {m : Nat} {v : Bool} (h : ¬ P p.die ∨ m ≠ n ∨ v ≠ u) :
    SameAt P m v s (s.frameWritten p n u off b) := by
  refine .caches (fun q hq => ?_) (fun _ _ => rfl) rfl rfl
  rw [State.frameSector_frameWritten, if_neg]
  rintro ⟨rfl, hm, hv⟩
  rcases h with h | h | h
  exacts [h hq, h hm, h hv]

theorem KeysGrow.frameWritten : KeysGrow p s (s.frameWritten p n u off b) :=
  KeysGrow.modFrame s p _

/-- The frame reads the bytes it has written. -/
theorem readSeg_frameWritten (hd : deviceSector n = true) (hb : off + b.length ≤ 64) :
    ((s.frameWritten p n u off b).readSeg p .frame u n off b.length).2.1 = b := by
  have hmask : (s.written p n u off b).valid &&& segMask off b.length = segMask off b.length :=
    mask_sub_iff.2 (fun k hk => by simp [State.written, Sector.write, hk])
  simp only [State.readSeg, hd, if_true, State.readTower, State.frameSector_frameWritten, and_self, Option.getD_some,
    hmask]
  exact segBytes_eq (fun j hj => byte_write_seg _ hb hj)

/-- The frame reads another byte of the sector as before. -/
theorem readByte_frameWritten (hu : u = true ∨ Config.isStream p.die = false) (hd : deviceSector n = true)
    (ha : ∀ q ∈ s.framesOfDie p.die, q ≠ p → s.frameSector q n u = none) (hp : s.poisoned n = false)
    (hs : s.severed p.die n = false) (hb : off + b.length ≤ 64) {k : Nat} (hk : k < 64)
    (hout : k < off ∨ off + b.length ≤ k) :
    ((s.frameWritten p n u off b).readSeg p .frame u n k 1).2.1 = (s.readSeg p .frame u n k 1).2.1 := by
  have ha' : ∀ q ∈ (s.frameWritten p n u off b).framesOfDie p.die, q ≠ p →
      (s.frameWritten p n u off b).frameSector q n u = none := fun q hq hne => by
    rw [State.frameSector_frameWritten, if_neg (fun h => hne h.1)]
    cases hx : s.frameSector q n u with
    | none => rfl
    | some x =>
      have hm := State.mem_framesOfDie_of_holds hx
      rw [(State.mem_framesOfDie.1 hq).2] at hm
      exact hx.symm.trans (ha q hm hne)
  have hh : (s.frameWritten p n u off b).fabric = s.fabric := rfl
  have hsec : (s.frameWritten p n u off b).frameSector p n u = some (s.written p n u off b) :=
    (State.frameSector_frameWritten ..).trans (if_pos ⟨rfl, rfl, rfl⟩)
  have hbit : (segMask off b.length).getLsbD k = false := by
    rw [getLsbD_segMask hb, decide_eq_false_iff_not]
    omega
  rw [readByte_alone hu hd ha' ((State.poisoned_of_fabric hh n).trans hp)
      ((State.severed_of_fabric hh p.die n).trans hs) hk,
    readByte_alone hu hd ha hp hs hk,
    homeValue_flushFrame hu (SameAt.frameWritten (.inl (fun h => h rfl))) KeysGrow.frameWritten rfl,
    hsec, Option.getD_some,
    show (s.frameWritten p n u off b).dieSector p.die n u = s.dieSector p.die n u from rfl]
  have hdata : (s.written p n u off b).data.extractLsb' (8 * k) 8 =
      ((s.frameSector p n u).getD (Sector.empty n u)).data.extractLsb' (8 * k) 8 :=
    (byte_write _ _ _ hk).trans (if_neg (by simp [hbit]))
  have hvalid : (s.written p n u off b).valid.getLsbD k =
      ((s.frameSector p n u).getD (Sector.empty n u)).valid.getLsbD k := by
    simp only [State.written, Sector.write, BitVec.getLsbD_or, hbit, Bool.or_false]
  have hdirty : (s.written p n u off b).dirty.getLsbD k =
      ((s.frameSector p n u).getD (Sector.empty n u)).dirty.getLsbD k := by
    simp only [State.written, Sector.write, BitVec.getLsbD_or, hbit, Bool.or_false]
  rw [hdata, hvalid, hdirty]

end

/-- A write that stands in a frame's cache changes its bytes there and no others (R170, R184). -/
theorem frameWrite_in_place (s : State) (p : FrameId) (weak u : Bool) (n off : Nat) (b : List Byte)
    (hu : u = true ∨ Config.isStream p.die = false) (hd : deviceSector n = true)
    (hpl : s.storePlace p.die n .frame weak = .frame)
    (ha : ∀ q ∈ s.framesOfDie p.die, q ≠ p → s.frameSector q n u = none) (hc : (s.frame p).cache.length < 1024)
    (hp : s.poisoned n = false) (hs : s.severed p.die n = false) (hb : off + b.length ≤ 64) :
    ∃ t, s.writeSeg p .frame weak u n off b = (none, t) ∧ t = { s with frames := t.frames }
      ∧ (∀ q, q ≠ p → t.frame q = s.frame q)
      ∧ { t.frame p with cache := [] } = { s.frame p with cache := [] }
      ∧ (t.readSeg p .frame u n off b.length).2.1 = b
      ∧ (∀ (m a : Nat) (v : Bool), a < 64 → (m ≠ n ∨ v ≠ u ∨ a < off ∨ off + b.length ≤ a) →
          (t.readSeg p .frame v m a 1).2.1 = (s.readSeg p .frame v m a 1).2.1) := by
  refine ⟨s.frameWritten p n u off b, writeSeg_frame off b hu hd hpl ha hc, rfl, fun q hq => ?_, ?_,
    readSeg_frameWritten hd hb, fun m a v ha64 hne => ?_⟩
  · rw [State.frameWritten, State.frame_modFrame, if_neg hq]
  · rw [State.frameWritten, State.frame_modFrame, if_pos rfl]
  · by_cases hk : m = n ∧ v = u
    · obtain ⟨rfl, rfl⟩ := hk
      exact readByte_frameWritten hu hd ha hp hs hb ha64 (by tauto)
    · exact (SameAt.frameWritten (.inr (by tauto))).readSeg KeysGrow.frameWritten rfl a 1

/-- Settles O27: one clause each for a frame's write, the copies that give way to it, the home, the evictions of a frame
and of a die, and the stores from outside. -/
theorem storesStayInPlace : Obligations.StoresStayInPlace := by
  refine ⟨fun s p weak u n off b hu hd hpl ha hc hp hs _ hb =>
      frameWrite_in_place s p weak u n off b hu hd hpl ha hc hp hs hb,
    fun s t p weak u n off b hd hpl hw q => frameWrite_alone hd hpl hw q,
    fun s p weak u n off b hd hf hp hs hu hm hb => homeWrite_in_place weak hd hf hp hs hu hm hb,
    evictFrame_moves_dirty, evictDie_puts_dirty_home, fun s addr b => ?_⟩
  intro n t hb h hc hp hs
  exact ⟨hostStore_in_place s addr b hb h hc hp hs, coreStore_owns s addr b hb h hc hp hs⟩

end Sys2Proof.Machine
end

section
namespace Sys2Proof

/-! ## A word is made of its fields (R203, R205 to R210) -/

theorem ofBool_getLsbD {m : Nat} (x : BitVec m) (s : Nat) : BitVec.ofBool (x.getLsbD s) = x.extractLsb' s 1 := by
  ext i hi
  obtain rfl : i = 0 := by omega
  cases h : x.getLsbD s <;> simp [h]

/-- A field at bit `t` and the `n` bits below it, from bit `s` on, are one field. -/
theorem extract_join {m l : Nat} (x : BitVec m) (t s n : Nat) (h : t = s + n) :
    x.extractLsb' t l ++ x.extractLsb' s n = x.extractLsb' s (l + n) :=
  BitVec.extractLsb'_append_extractLsb'_eq_extractLsb' h

theorem encGuard_fields (w : BitVec 64) : encGuard (fieldClass w) (fieldIndex w) (fieldGuard w) = w.extractLsb' 50 14 := by
  simp only [encGuard, fieldClass, fieldIndex, fieldGuard, BitVec.ofNat_toNat, BitVec.setWidth_eq, ofBool_getLsbD]
  rw [extract_join w 61 54 7 rfl, extract_join w 54 53 1 rfl, extract_join w 53 50 3 rfl]

theorem encR_fields (w : BitVec 64) : encR (fieldClass w) (fieldIndex w) (rword w) = w := by
  simp only [encR, rword, encGuard_fields]
  rw [extract_join w 50 42 8 rfl, extract_join w 42 34 8 rfl, extract_join w 34 26 8 rfl, extract_join w 26 18 8 rfl,
    extract_join w 18 0 18 rfl]
  exact extract_all w

theorem encI_fields (w : BitVec 64) : encI (fieldClass w) (fieldIndex w) (iword w) = w := by
  simp only [encI, iword, encGuard_fields]
  rw [extract_join w 50 42 8 rfl, extract_join w 42 34 8 rfl, extract_join w 34 0 34 rfl]
  exact extract_all w

theorem encM_fields (w : BitVec 64) : encM (fieldClass w) (fieldIndex w) (mword w) = w := by
  simp only [encM, mword, encGuard_fields, ofBool_getLsbD]
  rw [extract_join w 50 42 8 rfl, extract_join w 42 34 8 rfl, extract_join w 34 26 8 rfl, extract_join w 26 8 18 rfl,
    extract_join w 8 5 3 rfl, extract_join w 5 2 3 rfl, extract_join w 2 1 1 rfl, extract_join w 1 0 1 rfl]
  exact extract_all w

theorem encB_fields (w : BitVec 64) : encB (fieldClass w) (fieldIndex w) (bword w) = w := by
  simp only [encB, bword, encGuard_fields]
  rw [extract_join w 50 18 32 rfl, extract_join w 18 10 8 rfl, extract_join w 10 0 10 rfl]
  exact extract_all w

theorem encE_fields (w : BitVec 64) : encE (fieldClass w) (fieldIndex w) (eword w) = w := by
  simp only [encE, eword, encGuard_fields, ofBool_getLsbD]
  rw [extract_join w 50 42 8 rfl, extract_join w 42 34 8 rfl, extract_join w 34 26 8 rfl, extract_join w 26 22 4 rfl,
    extract_join w 22 18 4 rfl, extract_join w 18 14 4 rfl, extract_join w 14 11 3 rfl, extract_join w 11 7 4 rfl,
    extract_join w 7 6 1 rfl, extract_join w 6 5 1 rfl, extract_join w 5 0 5 rfl]
  exact extract_all w

end Sys2Proof
end

section
namespace Sys2Proof

open Machine (RMod.bits)

/-! ## What the opcode map makes of a word (R217, R218) -/

/-- The operation codes that their entries do not assign: BAR 3 to 15, TRAP 3, TLBI 3 (R218). -/
def reservedOp (w : BitVec 64) : Bool :=
  (fieldClass w == 3 && fieldIndex w == 0x17 && decide (3 ≤ RMod.bits (rword w).mod 14 4))
    || (fieldClass w == 6 && (fieldIndex w == 0x00 || fieldIndex w == 0x08) && RMod.bits (rword w).mod 8 2 == 3)

/-- Whether an entry has operation codes that it does not assign. -/
def hasReserved (c n : Nat) : Bool := (c == 3 && n == 0x17) || (c == 6 && (n == 0x00 || n == 0x08))

theorem reservedOp_of_not_hasReserved {w : BitVec 64} (h : hasReserved (fieldClass w) (fieldIndex w) = false) :
    reservedOp w = false := by
  obtain ⟨hbar, hsys⟩ := Bool.or_eq_false_iff.1 h
  simp only [reservedOp, hbar, hsys, Bool.false_and, Bool.or_self]

/-- What a word is read as is faithful to it: an instruction whose word it is, or a reserved operation where it holds the code
of one. -/
def Faithful (w : BitVec 64) : Except Reject Instr → Prop
  | .ok i => reservedOp w = false ∧ encode i = some w
  | .error e => reservedOp w = true ∧ e = .reservedOperation

theorem faithful_ite {w : BitVec 64} {b : Bool} {x y : Except Reject Instr} (hx : b = true → Faithful w x)
    (hy : b = false → Faithful w y) : Faithful w (if b then x else y) := by
  cases b
  · exact hy rfl
  · exact hx rfl

/-- An entry of the map of class `c` reads the words of its class and index faithfully. -/
def EntryFaithful (c : Nat) (e : Nat × (BitVec 64 → Except Reject Instr)) : Prop :=
  ∀ w, fieldClass w = c → fieldIndex w = e.1 → Faithful w (e.2 w)

/-! ### The kinds of entries -/

section
variable {c n : Nat}

/-- An entry of one instruction, in any format. -/
theorem entry_plain {α : Type} {read : BitVec 64 → α} {enc : Nat → Nat → α → BitVec 64} {C : α → Instr}
    (hread : ∀ w, enc (fieldClass w) (fieldIndex w) (read w) = w) (hr : hasReserved c n = false)
    (hC : ∀ x, encode (C x) = some (enc c n x)) : EntryFaithful c (n, fun w => .ok (C (read w))) := by
  rintro w rfl rfl
  exact ⟨reservedOp_of_not_hasReserved hr, (hC _).trans (congrArg some (hread w))⟩

/-- An instruction of an entry that tells its instructions apart by an operation code. -/
theorem faithful_R {w : BitVec 64} {C : RWord → Instr} (hr : reservedOp w = false)
    (hC : ∀ x, encode (C x) = some (encR (fieldClass w) (fieldIndex w) x)) : Faithful w (.ok (C (rword w))) :=
  ⟨hr, (hC _).trans (congrArg some (encR_fields w))⟩

theorem bits_lt (m : BitVec 18) (lo len : Nat) : RMod.bits m lo len < 2 ^ len := (m.extractLsb' lo len).isLt

/-- A code of one bit: both its values are assigned. -/
theorem entry_bit {A B : RWord → Instr} (lo : Nat) (hr : hasReserved c n = false)
    (hA : ∀ x, encode (A x) = some (encR c n x)) (hB : ∀ x, encode (B x) = some (encR c n x)) :
    EntryFaithful c (n, fun w => if RMod.bits (rword w).mod lo 1 == 0 then .ok (A (rword w))
      else if RMod.bits (rword w).mod lo 1 == 1 then .ok (B (rword w)) else .error .reservedOperation) := by
  rintro w rfl rfl
  have hw := reservedOp_of_not_hasReserved hr
  refine faithful_ite (fun _ => faithful_R hw hA) (fun h0 => faithful_ite (fun _ => faithful_R hw hB) (fun h1 => ?_))
  have := bits_lt (rword w).mod lo 1
  simp only [beq_eq_false_iff_ne] at h0 h1
  omega

/-- Codes 0, 1 and 2 are assigned, those from 3 on are reserved. -/
theorem entry_three {A B C : RWord → Instr} (lo len : Nat)
    (hr : ∀ w, fieldClass w = c → fieldIndex w = n → reservedOp w = decide (3 ≤ RMod.bits (rword w).mod lo len))
    (hA : ∀ x, encode (A x) = some (encR c n x)) (hB : ∀ x, encode (B x) = some (encR c n x))
    (hC : ∀ x, encode (C x) = some (encR c n x)) :
    EntryFaithful c (n, fun w => if RMod.bits (rword w).mod lo len == 0 then .ok (A (rword w))
      else if RMod.bits (rword w).mod lo len == 1 then .ok (B (rword w))
      else if RMod.bits (rword w).mod lo len == 2 then .ok (C (rword w)) else .error .reservedOperation) := by
  rintro w rfl rfl
  have hw := hr w rfl rfl
  refine faithful_ite (fun h => faithful_R ?_ hA) (fun h0 => faithful_ite (fun h => faithful_R ?_ hB)
    (fun h1 => faithful_ite (fun h => faithful_R ?_ hC) (fun h2 => ⟨?_, rfl⟩)))
  all_goals
    simp only [beq_iff_eq, beq_eq_false_iff_ne] at *
    rw [hw]
    simp only [decide_eq_true_eq, decide_eq_false_iff_not]
    omega

theorem reservedOp_bar {w : BitVec 64} (hc : fieldClass w = 3) (hn : fieldIndex w = 0x17) :
    reservedOp w = decide (3 ≤ RMod.bits (rword w).mod 14 4) := by
  simp [reservedOp, hc, hn]

theorem reservedOp_system {w : BitVec 64} (hc : fieldClass w = 6) (hn : fieldIndex w = 0x00 ∨ fieldIndex w = 0x08) :
    reservedOp w = decide (3 ≤ RMod.bits (rword w).mod 8 2) := by
  have := bits_lt (rword w).mod 8 2
  have hn : (fieldIndex w == 0x00 || fieldIndex w == 0x08) = true := by simpa using hn
  rw [Bool.eq_iff_iff]
  simp only [reservedOp, hc, hn, Nat.reduceBEq, Bool.false_and, Bool.false_or, Bool.true_and, beq_iff_eq, decide_eq_true_eq]
  omega

end

/-! ### The map, class by class -/

theorem opcodes0_faithful : ∀ e ∈ opcodes0, EntryFaithful 0 e := by
  simp only [opcodes0, opcodes0A, opcodes0B, List.cons_append, List.nil_append, List.forall_mem_cons]
  and_intros
  all_goals try exact entry_plain (read := rword) encR_fields rfl (fun _ => rfl)
  · exact entry_bit 8 rfl (fun _ => rfl) (fun _ => rfl)
  · exact entry_bit 4 rfl (fun _ => rfl) (fun _ => rfl)
  · exact List.forall_mem_nil _

theorem opcodes1_faithful : ∀ e ∈ opcodes1, EntryFaithful 1 e := by
  simp only [opcodes1, List.forall_mem_cons]
  and_intros
  all_goals try exact entry_plain (read := iword) encI_fields rfl (fun _ => rfl)
  · exact List.forall_mem_nil _

theorem opcodes2_faithful : ∀ e ∈ opcodes2, EntryFaithful 2 e := by
  simp only [opcodes2, opcodes2A, opcodes2B, List.cons_append, List.nil_append, List.forall_mem_cons]
  and_intros
  all_goals try exact entry_plain (read := rword) encR_fields rfl (fun _ => rfl)
  · exact List.forall_mem_nil _

theorem opcodes3_faithful : ∀ e ∈ opcodes3, EntryFaithful 3 e := by
  simp only [opcodes3, List.forall_mem_cons]
  and_intros
  all_goals try exact entry_plain (read := mword) encM_fields rfl (fun _ => rfl)
  all_goals try exact entry_plain (read := rword) encR_fields rfl (fun _ => rfl)
  · exact entry_three 14 4 (fun _ => reservedOp_bar) (fun _ => rfl) (fun _ => rfl) (fun _ => rfl)
  · exact List.forall_mem_nil _

theorem opcodes4_faithful : ∀ e ∈ opcodes4, EntryFaithful 4 e := by
  simp only [opcodes4, List.forall_mem_cons]
  and_intros
  all_goals try exact entry_plain (read := rword) encR_fields rfl (fun _ => rfl)
  all_goals try exact entry_plain (read := bword) encB_fields rfl (fun _ => rfl)
  · exact List.forall_mem_nil _

theorem opcodes5_faithful : ∀ e ∈ opcodes5, EntryFaithful 5 e := by
  simp only [opcodes5, opcodes5A, opcodes5B, List.cons_append, List.nil_append, List.forall_mem_cons]
  and_intros
  all_goals try exact entry_plain (read := eword) encE_fields rfl (fun _ => rfl)
  · exact List.forall_mem_nil _

theorem opcodes6_faithful : ∀ e ∈ opcodes6, EntryFaithful 6 e := by
  simp only [opcodes6, List.forall_mem_cons]
  and_intros
  all_goals try exact entry_plain (read := rword) encR_fields rfl (fun _ => rfl)
  · -- TRAP
    exact entry_three 8 2 (fun _ hc hn => reservedOp_system hc (.inl hn)) (fun _ => rfl) (fun _ => rfl) (fun _ => rfl)
  · -- SYSWR
    intro w hc hn
    have hw : reservedOp w = false := reservedOp_of_not_hasReserved (by rw [hc, hn]; rfl)
    have hC : ∀ {C : RWord → Instr}, (∀ x, encode (C x) = some (encR 6 0x03 x)) → Faithful w (.ok (C (rword w))) :=
      fun h => faithful_R hw (by rwa [hc, hn])
    exact faithful_ite (fun _ => hC (fun _ => rfl)) (fun _ => faithful_ite (fun _ => hC (fun _ => rfl))
      (fun _ => hC (fun _ => rfl)))
  · -- CTXSV
    exact entry_bit 8 rfl (fun _ => rfl) (fun _ => rfl)
  · -- CTXLD
    exact entry_bit 8 rfl (fun _ => rfl) (fun _ => rfl)
  · -- TLBI
    exact entry_three 8 2 (fun _ hc hn => reservedOp_system hc (.inr hn)) (fun _ => rfl) (fun _ => rfl) (fun _ => rfl)
  · -- RESUME: the four codes of two bits are assigned
    intro w hc hn
    have hw : reservedOp w = false := reservedOp_of_not_hasReserved (by rw [hc, hn]; rfl)
    have hC : ∀ {C : RWord → Instr}, (∀ x, encode (C x) = some (encR 6 0x0C x)) → Faithful w (.ok (C (rword w))) :=
      fun h => faithful_R hw (by rwa [hc, hn])
    refine faithful_ite (fun _ => hC (fun _ => rfl)) (fun h0 => faithful_ite (fun _ => hC (fun _ => rfl))
      (fun h1 => faithful_ite (fun _ => hC (fun _ => rfl)) (fun h2 => faithful_ite (fun _ => hC (fun _ => rfl))
      (fun h3 => ?_))))
    have := bits_lt (rword w).mod 8 2
    simp only [beq_eq_false_iff_ne] at h0 h1 h2 h3
    omega
  · exact List.forall_mem_nil _

theorem opcodes7_faithful : ∀ e ∈ opcodes7, EntryFaithful 7 e := by
  simp only [opcodes7, List.forall_mem_cons]
  and_intros
  all_goals try exact entry_plain (read := rword) encR_fields rfl (fun _ => rfl)
  · exact List.forall_mem_nil _

theorem fieldClass_lt (w : BitVec 64) : fieldClass w < 8 := (w.extractLsb' 61 3).isLt

theorem fieldIndex_lt (w : BitVec 64) : fieldIndex w < 128 := (w.extractLsb' 54 7).isLt

theorem opcodes_faithful {c : Nat} (hc : c < 8) : ∀ e ∈ opcodes c, EntryFaithful c e := by
  match c, hc with
  | 0, _ => exact opcodes0_faithful
  | 1, _ => exact opcodes1_faithful
  | 2, _ => exact opcodes2_faithful
  | 3, _ => exact opcodes3_faithful
  | 4, _ => exact opcodes4_faithful
  | 5, _ => exact opcodes5_faithful
  | 6, _ => exact opcodes6_faithful
  | 7, _ => exact opcodes7_faithful

/-! ## The decoder (R203, R217, R218) -/

/-- The indexes that R217 assigns in each class. -/
def assignedIndex (c n : Nat) : Bool :=
  match c with
  | 0 => decide (n < 0x2A) && n != 0x22 && n != 0x23
  | 1 => [0x00, 0x01, 0x02, 0x07, 0x08, 0x0B, 0x0C, 0x0D, 0x0E, 0x0F, 0x11, 0x12, 0x13, 0x14, 0x16, 0x1C, 0x1D,
          0x22, 0x23, 0x29].contains n
  | 2 => decide (n ≤ 0x20)
  | 3 => decide (n ≤ 0x17)
  | 4 => decide (n ≤ 0x12)
  | 5 => decide (n ≤ 0x12) || (decide (0x20 ≤ n) && decide (n ≤ 0x27)) || (decide (0x40 ≤ n) && decide (n ≤ 0x47))
  | 6 => decide (n ≤ 0x0D)
  | _ => decide (n ≤ 0x05)

theorem lookup_isSome_eq : ∀ (c : Fin 8) (n : Fin 128), ((opcodes c).lookup n.val).isSome = assignedIndex c n := by
  decide +kernel

theorem lookup_isSome (w : BitVec 64) :
    ((opcodes (fieldClass w)).lookup (fieldIndex w)).isSome = assignedIndex (fieldClass w) (fieldIndex w) :=
  lookup_isSome_eq ⟨_, fieldClass_lt w⟩ ⟨_, fieldIndex_lt w⟩

theorem guard_p7_neg_iff (w : BitVec 64) :
    ((fieldGuard w).neg && (fieldGuard w).pred == 7#3) = true ↔ fieldGuard w = { neg := true, pred := 7 } := by
  generalize fieldGuard w = g
  cases g
  simp

/-- The guard p7 with neg 1 is no instruction (R203). -/
theorem decode_of_p7_neg {w : BitVec 64} (h : fieldGuard w = { neg := true, pred := 7 }) :
    decode w = .error .undefinedInstruction := if_pos ((guard_p7_neg_iff w).2 h)

/-- Under a legal guard an unassigned index is undefined, or an extension in class 7. -/
theorem decode_of_unassigned {w : BitVec 64} (hg : fieldGuard w ≠ { neg := true, pred := 7 })
    (h : assignedIndex (fieldClass w) (fieldIndex w) = false) :
    decode w = .error (if fieldClass w = 7 then .extension else .undefinedInstruction) := by
  rw [← lookup_isSome, Option.isSome_eq_false_iff, Option.isNone_iff_eq_none] at h
  rw [decode, if_neg (fun h => hg ((guard_p7_neg_iff w).1 h)), h]
  by_cases hc : fieldClass w = 7 <;> simp [hc]

/-- Under a legal guard a word of an assigned index is read faithfully. -/
theorem decode_of_assigned {w : BitVec 64} (hg : fieldGuard w ≠ { neg := true, pred := 7 })
    (h : assignedIndex (fieldClass w) (fieldIndex w) = true) : Faithful w (decode w) := by
  rw [← lookup_isSome, Option.isSome_iff_exists] at h
  obtain ⟨f, hf⟩ := h
  obtain ⟨l, l', hl, -⟩ := List.lookup_eq_some_iff.1 hf
  have hmem : (fieldIndex w, f) ∈ opcodes (fieldClass w) := by simp [hl]
  rw [decode, if_neg (fun h => hg ((guard_p7_neg_iff w).1 h)), hf]
  exact opcodes_faithful (fieldClass_lt w) _ hmem w rfl rfl

theorem assigned_of_reservedOp {w : BitVec 64} (h : reservedOp w = true) :
    assignedIndex (fieldClass w) (fieldIndex w) = true := by
  simp only [reservedOp, Bool.or_eq_true, Bool.and_eq_true, beq_iff_eq] at h
  obtain ⟨⟨hc, hn⟩, -⟩ | ⟨⟨hc, hn | hn⟩, -⟩ := h <;> rw [hc, hn] <;> rfl

/-- A code that its entry does not assign is a reserved operation, under a legal guard. -/
theorem decode_of_reservedOp {w : BitVec 64} (hg : fieldGuard w ≠ { neg := true, pred := 7 }) (h : reservedOp w = true) :
    decode w = .error .reservedOperation := by
  have hw := decode_of_assigned hg (assigned_of_reservedOp h)
  cases hd : decode w with
  | ok i =>
    rw [hd] at hw
    exact absurd h (by simp [hw.1])
  | error e =>
    rw [hd] at hw
    rw [hw.2]

/-- Any other code of an assigned index is an instruction. -/
theorem decode_ok_of_assigned {w : BitVec 64} (hg : fieldGuard w ≠ { neg := true, pred := 7 })
    (ha : assignedIndex (fieldClass w) (fieldIndex w) = true) (h : reservedOp w = false) : ∃ i, decode w = .ok i := by
  have hw := decode_of_assigned hg ha
  cases hd : decode w with
  | ok i => exact ⟨i, rfl⟩
  | error e =>
    rw [hd] at hw
    exact absurd hw.1 (by simp [h])

/-- What decodes has a legal guard and an assigned index, and is read faithfully. -/
theorem faithful_of_decode_ok {w : BitVec 64} {i : Instr} (h : decode w = .ok i) : Faithful w (.ok i) := by
  have hg : fieldGuard w ≠ { neg := true, pred := 7 } := fun hg => by
    rw [decode_of_p7_neg hg] at h
    cases h
  cases ha : assignedIndex (fieldClass w) (fieldIndex w) with
  | false =>
    rw [decode_of_unassigned hg ha] at h
    cases h
  | true => exact h ▸ decode_of_assigned hg ha

/-- Only an index of class 7 is an extension (R218). -/
theorem class_of_decode_extension {w : BitVec 64} (h : decode w = .error .extension) : fieldClass w = 7 := by
  by_cases hg : fieldGuard w = { neg := true, pred := 7 }
  · rw [decode_of_p7_neg hg] at h
    cases h
  cases ha : assignedIndex (fieldClass w) (fieldIndex w) with
  | false =>
    rw [decode_of_unassigned hg ha] at h
    by_contra hc
    rw [if_neg hc] at h
    cases h
  | true =>
    have hw := decode_of_assigned hg ha
    rw [h] at hw
    cases hw.2

end Sys2Proof
end

section
namespace Sys2Proof

open Machine (RMod.bits RMod.j)

/-! ## An encoded word read back (R203, R205 to R210, R217) -/

/-- How a format reads back what it encodes. -/
structure ReadsBack {α : Type} (enc : Nat → Nat → α → BitVec 64) (read : BitVec 64 → α) (g : α → Guard) : Prop where
  cls : ∀ {c}, c < 8 → ∀ n x, fieldClass (enc c n x) = c
  index : ∀ {n}, n < 128 → ∀ c x, fieldIndex (enc c n x) = n
  guard : ∀ c n x, fieldGuard (enc c n x) = g x
  fields : ∀ c n x, read (enc c n x) = x

theorem readsBack_R : ReadsBack encR rword RWord.g :=
  ⟨fun h n => class_encR _ n h, fun h c => index_encR c _ h, guard_encR, rword_encR⟩
theorem readsBack_I : ReadsBack encI iword IWord.g :=
  ⟨fun h n => class_encI _ n h, fun h c => index_encI c _ h, guard_encI, iword_encI⟩
theorem readsBack_M : ReadsBack encM mword MWord.g :=
  ⟨fun h n => class_encM _ n h, fun h c => index_encM c _ h, guard_encM, mword_encM⟩
theorem readsBack_B : ReadsBack encB bword BWord.g :=
  ⟨fun h n => class_encB _ n h, fun h c => index_encB c _ h, guard_encB, bword_encB⟩
theorem readsBack_E : ReadsBack encE eword EWord.g :=
  ⟨fun h n => class_encE _ n h, fun h c => index_encE c _ h, guard_encE, eword_encE⟩

theorem legal_iff (g : Guard) : g.legal = true ↔ g ≠ { neg := true, pred := 7 } := by
  obtain ⟨neg, pred⟩ := g
  cases neg <;> simp [Guard.legal]

/-- A word with a legal guard is read by the entry of its class and index. -/
theorem decode_of_lookup {w : BitVec 64} (hg : (fieldGuard w).legal = true) {f : BitVec 64 → Except Reject Instr}
    (h : (opcodes (fieldClass w)).lookup (fieldIndex w) = some f) : decode w = f w := by
  rw [decode, if_neg (fun hp => (legal_iff _).1 hg ((guard_p7_neg_iff w).1 hp)), h]

section
variable {α : Type} {enc : Nat → Nat → α → BitVec 64} {read : BitVec 64 → α} {g : α → Guard}

theorem decode_enc (h : ReadsBack enc read g) {c n : Nat} (hcn : c < 8 ∧ n < 128) {x : α} (hg : (g x).legal = true)
    {f : BitVec 64 → Except Reject Instr} (hf : (opcodes c).lookup n = some f) : decode (enc c n x) = f (enc c n x) :=
  decode_of_lookup (by rwa [h.guard]) (by rwa [h.cls hcn.1, h.index hcn.2])

/-- Of an entry of one instruction. -/
theorem decode_enc_plain (h : ReadsBack enc read g) {c n : Nat} (hcn : c < 8 ∧ n < 128) {x : α}
    (hg : (g x).legal = true) {C : α → Instr} (hf : (opcodes c).lookup n = some (fun w => .ok (C (read w)))) :
    decode (enc c n x) = .ok (C x) :=
  (decode_enc h hcn hg hf).trans (by rw [h.fields])

end

theorem legal_of_wellFormed {i : Instr} (h : i.wellFormed = true) {g : Guard} (hg : Machine.guardOf i = some g) :
    g.legal = true := by
  rw [Instr.wellFormed, hg, Bool.and_eq_true] at h
  exact h.1

/-- The modifier values of a well-formed word are those its entry allows. -/
theorem modifiers_of_wellFormed {i : Instr} (h : i.wellFormed = true) {w : RWord} {s : Machine.Shape}
    (hs : Machine.rShape i = some (w, s)) : s.ok = true := by
  rw [Instr.wellFormed, Bool.and_eq_true] at h
  obtain ⟨-, h5⟩ := h
  simp only [Machine.check5, hs, Machine.rOk, Bool.and_eq_true] at h5
  obtain ⟨⟨-, hok⟩, -⟩ := h5
  exact hok

theorem bits_one (m : BitVec 18) (k : Nat) : RMod.bits m k 1 = (m.getLsbD k).toNat := by
  unfold RMod.bits
  rw [← ofBool_getLsbD]
  cases m.getLsbD k <;> rfl

/-- The two upper bits of a system register's number: 1 in the rod window alone (R362). -/
theorem bits_window (m : BitVec 18) : RMod.bits m 16 2 = RMod.bits m 8 10 / 256 := by
  have := m.isLt
  simp only [RMod.bits, BitVec.extractLsb'_toNat, Nat.shiftRight_eq_div_pow]
  omega

/-- Bit 4 of an RRED word tells which of the two instructions of index 0x26 it is (R249, R250). -/
def joinBitFits : Instr → Bool
  | .rred w => !RMod.j w.mod
  | .rredJoined w => RMod.j w.mod
  | _ => true

theorem decode_rred {x : RWord} (hg : x.g.legal = true) :
    decode (encR 0 0x26 x) = .ok (if RMod.j x.mod then .rredJoined x else .rred x) := by
  rw [decode_enc readsBack_R (by decide) hg rfl]
  have hbit : RMod.bits x.mod 4 1 = (RMod.j x.mod).toNat := bits_one x.mod 4
  simp only [rword_encR, hbit]
  cases RMod.j x.mod <;> rfl

/-- Every well-formed instruction word decodes to the instruction it stands for, RRED where its bit 4 fits: entries of one
instruction read it back by their format, the others by the code that well-formedness asks of their modifier bits. -/
theorem decode_encode {i : Instr} {w : BitVec 64} (hi : i.wellFormed = true) (hj : joinBitFits i = true)
    (he : encode i = some w) : decode w = .ok i := by
  cases i
  all_goals try exact absurd he.symm (Option.some_ne_none _)
  all_goals
    obtain rfl := Option.some.inj he
    have hg := legal_of_wellFormed hi rfl
  case rred | rredJoined =>
    simp only [joinBitFits, Bool.not_eq_true'] at hj
    rw [decode_rred hg, hj]
    rfl
  all_goals try
    (with_reducible refine decode_enc_plain readsBack_R ?_ hg ?_)
    · decide
    · rfl
  all_goals try
    (with_reducible refine decode_enc_plain readsBack_I ?_ hg ?_)
    · decide
    · rfl
  all_goals try
    (with_reducible refine decode_enc_plain readsBack_M ?_ hg ?_)
    · decide
    · rfl
  all_goals try
    (with_reducible refine decode_enc_plain readsBack_B ?_ hg ?_)
    · decide
    · rfl
  all_goals try
    (with_reducible refine decode_enc_plain readsBack_E ?_ hg ?_)
    · decide
    · rfl
  all_goals
    have hop := modifiers_of_wellFormed hi rfl
    rw [decode_enc readsBack_R (by decide) hg rfl]
    simp only [rword_encR, bits_one]
  case syswr | rodWindowWrite =>
    simp only [Machine.plainShape, Bool.and_eq_true, Bool.not_eq_true', bne_iff_ne, decide_eq_true_eq,
      Bool.and_eq_false_iff, decide_eq_false_iff_not] at hop
    simp only [bits_window, beq_iff_eq]
    grind
  all_goals
    simp only [Machine.plainShape, Machine.laneShape, Machine.memShape, Bool.not_eq_true', beq_iff_eq] at hop
    rw [hop]
    rfl

/-- Bit 4 of RRED is all that keeps a well-formed instruction word from decoding to its instruction. -/
theorem decode_encode_iff {i : Instr} {w : BitVec 64} (hi : i.wellFormed = true) (he : encode i = some w) :
    decode w = .ok i ↔ joinBitFits i = true := by
  refine ⟨fun hd => ?_, fun hj => decode_encode hi hj he⟩
  cases i
  case rred x | rredJoined x =>
    obtain rfl := Option.some.inj he
    rw [decode_rred (legal_of_wellFormed hi rfl)] at hd
    cases hj : RMod.j x.mod <;> simp_all [joinBitFits]
  all_goals rfl

end Sys2Proof
end

section
namespace Sys2Proof

/-- Refutes O33: RRED and RRED.j share index 0x26 and are told apart by bit 4 of `mod` (R249, R250), which check 5 leaves
free for both. The well-formed `rred` with that bit set has the word of RRED.j. No other kind of instruction word fails
(`decode_encode_iff`). -/
theorem not_decodeOfEncode : ¬ Obligations.DecodeOfEncode := by
  intro h
  have hi : Instr.wellFormed (.rred { g := { neg := false, pred := 7 }, dst := 1, a := 2, b := 0, c := 0, mod := 0x10 })
      = true := by decide
  have hd : decode (encR 0 0x26 { g := { neg := false, pred := 7 }, dst := 1, a := 2, b := 0, c := 0, mod := 0x10 })
      = .ok (.rredJoined { g := { neg := false, pred := 7 }, dst := 1, a := 2, b := 0, c := 0, mod := 0x10 }) := by decide
  exact absurd (hd.symm.trans (h _ _ hi rfl)) (by decide)

end Sys2Proof
end

section
namespace Sys2Proof

open Machine

/-! ## A word in its eight bytes (R9, R202) -/

theorem length_leBytes (n v : Nat) : (leBytes n v).length = n := by simp [leBytes]

theorem wordOfBytes_eq_ofLe (b : List Byte) : wordOfBytes b = BitVec.ofNat 64 (ofLe b) := by
  have h : b.foldr (fun x acc => x.toNat + 256 * acc) 0 = ofLe b := by
    induction b with
    | nil => rfl
    | cons x b ih => rw [List.foldr_cons, ih, ofLe]
  rw [wordOfBytes, h]

/-- The eight bytes of a word give the word back. -/
theorem wordOfBytes_leBytes (w : DWord) : wordOfBytes (leBytes 8 w.toNat) = w := by
  rw [wordOfBytes_eq_ofLe]
  refine BitVec.eq_of_getLsbD_eq (fun k hk => ?_)
  have hbyte : (leBytes 8 w.toNat).getD (k / 8) 0 = BitVec.ofNat 8 (w.toNat >>> (8 * (k / 8))) := by
    simp [leBytes, List.getD_eq_getElem?_getD, show k / 8 < 8 by omega]
  have hbit := testBit_ofLe (leBytes 8 w.toNat) (k / 8) (k % 8) (Nat.mod_lt _ (by decide))
  rw [Nat.div_add_mod, hbyte, BitVec.getLsbD_ofNat, Nat.testBit_shiftRight, Nat.div_add_mod] at hbit
  rw [BitVec.getLsbD_ofNat, hbit]
  simp [hk, Nat.mod_lt, BitVec.testBit_toNat]

theorem decodeBytes_leBytes (w : DWord) (rest : List Byte) :
    decodeBytes (leBytes 8 w.toNat ++ rest) = (decode w).map (fun i => (i, rest)) := by
  have hl := length_leBytes 8 w.toNat
  rw [decodeBytes, if_neg (by simp [hl]), List.take_left' hl, List.drop_left' hl, wordOfBytes_leBytes]

/-- Settles O34: what decodes is read faithfully, so its word is the word of the instruction; the decoder of bytes reads the
same word from them. -/
theorem encodeOfDecode : Obligations.EncodeOfDecode := by
  have hword : ∀ (w : DWord) (i : Instr), decode w = .ok i → encode i = some w :=
    fun w i h => (faithful_of_decode_ok h).2
  refine ⟨hword, fun w v i hw hv => ?_, fun w rest i h => ?_⟩
  · exact Option.some.inj ((hword w i hw).symm.trans (hword v i hv))
  · rw [decodeBytes_leBytes, h]
    rfl

/-- Settles O35: each word is read by the entry of its class and index. -/
theorem sanityWords : Obligations.SanityWords := by
  exact ⟨rfl, rfl, rfl, rfl, rfl, rfl, rfl, rfl⟩

/-- Settles O36: a guard p7 with neg 1 and an unassigned index are rejected by name, an assigned index is read faithfully,
and the cause of a rejected word is `rejectCause` by cases. -/
theorem unassignedWords : Obligations.UnassignedWords := by
  refine ⟨fun w => decode_of_p7_neg,
    fun w hg => ⟨decode_of_unassigned hg, decode_of_reservedOp hg, decode_ok_of_assigned hg⟩,
    fun w die e he => ⟨fun hc => ?_, ?_, ?_, ?_⟩⟩
  · simp [rejectCause, hc]
  · rintro rfl
    exact ⟨by simp [rejectCause], fun hc => by simp [rejectCause, hc]⟩
  · rintro rfl
    have hc := class_of_decode_extension he
    refine ⟨by simp [rejectCause, hc], ?_⟩
    cases hs : Config.isStream die <;> simp [rejectCause, hs]
  · rintro rfl
    exact ⟨by simp [rejectCause], fun hc => by simp [rejectCause, hc]⟩

end Sys2Proof
end

section
namespace Sys2Proof.Machine

/-! ## Words that fail a check (R43, R219, R366, R437) -/

/-- A runnable lane is one of its sub-rod. -/
theorem subRod_self {r : Rod} {l : Nat} (hl : l < 32) (hst : (r.lane l).st = .runnable) : (r.subRod l).getLsbD l = true := by
  rw [Rod.subRod, maskWhere_getLsbD r _ ⟨l, hl⟩, ← Rod.lane_lt r hl, Lane.live, hst]
  simp

/-- The lanes of a mask after they have parked and parted by outcome. -/
theorem regroup_park_lane (r : Rod) (m : BitVec 32) (seq : BitVec 16) (n : Fin 32) :
    { ((r.park m seq).regroup m).lanes[n] with group := r.lanes[n].group } = if m.getLsbD n.val then
      { r.lanes[n] with st := .parked, wait := .none, fence := none, record := some seq } else r.lanes[n] := by
  rw [regroup_lane, park_lane]
  split <;> rfl

/-- A lane outside the mask keeps its sub-rod number. -/
theorem regroup_lane_out (r : Rod) (m : BitVec 32) {n : Fin 32} (h : m.getLsbD n.val = false) :
    (r.regroup m).lanes[n] = r.lanes[n] := by
  rcases regroup_cases r m with ⟨-, he⟩ | he <;> rw [he]
  dsimp only
  rw [mapLanes_lane, h]
  rfl

/-- The checks of a word for an item, in the order of R219. -/
theorem wordCause_item (s : State) (p : FrameId) (slot : Nat) (r : Rod) (i : Instr) :
    wordCause s (rodKey p slot) r i =
      if opClass i = 6 then some .privileged
      else if ((guardOf i).map Guard.legal).getD true = false then some .undefinedInstruction
      else if opClass i = 7 ∧ Config.isStream p.die = false then some .extensionEmulation
      else if check5 i = false then some .illegalOperand
      else if check6 (s.recordOfLaunch r.launch).declared i = false
        ∨ slotUndeclared (s.recordOfLaunch r.launch).declared i = true then some .carryMisuse
      else none := by
  have hk : ((rodKey p slot).slot == .firmware) = false := rfl
  unfold wordCause
  simp only [hk, Bool.not_false, Bool.and_true, Bool.false_and, Bool.or_false, Bool.false_eq_true, if_false, beq_iff_eq,
    Bool.not_eq_true', Bool.and_eq_true, Bool.or_eq_true]
  rfl

/-- Settles O40: a failing check is one fault of the whole sub-rod (`exec_of_wordCause`), which appends one record and parks its
lanes; the cause is that of the first check that fails. -/
theorem wordChecksPark : Obligations.WordChecksPark := by
  refine ⟨fun i s p slot l r c he => ?_, fun i s p slot r => ?_⟩
  · intro k m hcur hr hl hst hc
    obtain ⟨-, hm⟩ := lowest_spec ⟨l, hl⟩ (subRod_self hl hst)
    have hm0 : (m == 0) = false := by
      rw [beq_eq_false_iff_ne]
      rintro h0
      rw [show r.subRod l = 0 from h0] at hm
      simp at hm
    have hex := exec_of_wordCause he hcur hr hl hst hc
    rw [takeFault_rod hr, State.modRod_of_some (State.rod?_setRod_same _ _ _), State.setRod_setRod] at hex
    refine ⟨_, _, recordOf s k r m (laneFault c (wordOf i) 0), hex, State.rod?_setRod_same _ _ _, ?_, ?_, rfl, rfl, rfl, ?_,
      rfl, rfl, rfl, rfl, rfl, rfl, rfl, rfl, fun n hn => ?_, fun n hn => ?_, rfl, rfl, rfl, rfl, rfl⟩
    · rw [State.frame_setRod, State.frame_modFrame_same]
    · rw [State.frame_setRod, State.frame_modFrame_same]
    · simp only [recordOf, hm0, Bool.false_eq_true, if_false]
    · rw [regroup_park_lane, if_pos hn]
    · rw [regroup_lane_out _ _ hn, park_lane, hn]
      rfl
  · intro k
    simp only [k, wordCause_item]
    refine ⟨fun h6 => if_pos h6, fun h7 hg hd => ?_, fun h6 h7 hg h5 => ?_, fun h6 h7 hg h5 => ?_⟩
    · simp [h7, hg, hd]
    · simp [h6, h7, hg, h5]
    · simp [h6, h7, hg, h5]

end Sys2Proof.Machine
end

section
namespace Sys2Proof.Machine

/-! ## Lane words that complete on every lane (R204, R235) -/

/-- Where no lane fails, a lane word without carries completes and its sub-rod stays together. -/
theorem exec_of_computes_ok {i : Instr} {f : LaneResult} (h : Computes i f) {s : State} {k : RodKey} {l : Nat} {r : Rod}
    (hi : IssuesFreely s k l r i) (hc : (planOf i).hasCarry = false)
    (hok : ∀ n : Fin 32, (r.subRod l).getLsbD n.val = true → actsOn i r.lanes[n] = true →
      (laneResult r (keyOf s r) i (f s k r) n.val r.lanes[n]).isOk = true) :
    exec i s = .next (s.setRod k (r.mapLanes (r.subRod l) (plainLane r (keyOf s r) i (f s k r)))) := by
  rw [exec_of_computes h hi hc, takeFaults_nil _ _ _ (plainFails_nil hok),
    State.modRod_of_some (State.rod?_setRod_same _ _ _), State.setRod_setRod, regroup_advanced hi.2.2 (fun n hn => ?_)]
  rw [mapLanes_lane, hn, if_pos rfl]
  exact plainLane_sameOutcome (hok n hn)

/-- A word that computes `f` and rounds nothing completes with `f`. -/
theorem completesWith_of_computes {i : Instr} {f : State → RodKey → Rod → LaneIn → LaneWrite}
    (h : Computes i (fun s k r x => { write := f s k r x, draws := 0 })) : CompletesWith i f := by
  intro s k l r hi hc ho
  have hok (n : Fin 32) (hn : (r.subRod l).getLsbD n.val = true) (ha : actsOn i r.lanes[n] = true) :
      laneResult r (keyOf s r) i (fun x => { write := f s k r x, draws := 0 }) n.val r.lanes[n]
        = .ok (written r (keyOf s r) i (f s k r) n.val r.lanes[n]) :=
    laneResult_gives_of_ok (s := s) (k := k) (q := r) (ho n hn ha)
  rw [exec_of_computes_ok h hi hc (fun n hn ha => by rw [hok n hn ha]; rfl)]
  refine congrArg (fun q => Host.Outcome.next (s.setRod k q)) (mapLanes_congr (fun n hn => ?_))
  unfold plainLane
  split
  · rw [hok n hn ‹_›]
  · rfl

/-- A word that makes `f` of the operands of each lane by itself, and rounds nothing, completes with `f`. -/
theorem completesWith_of_gives {i : Instr} {f : LaneIn → LaneWrite} (h : Computes i (gives f)) :
    CompletesWith i (fun _ _ _ => f) := completesWith_of_computes h

/-- A lane whose operands hold completes with `d` draws where its count does not pass its end. -/
theorem laneResult_of_draws {r : Rod} {kb : DWord} {i : Instr} {f : LaneIn → LaneOut} {g : LaneIn → LaneWrite} {d n : Nat}
    {x : Lane} (hf : ∀ y, f y = { write := g y, draws := d }) (ho : (laneOperands r x (planOf i)).isOk = true)
    (hd : d ≠ 0 → x.rsCount.toNat + d ≤ 2 ^ 20 - 1) :
    laneResult r kb i f n x = .ok { written r kb i g n x with rsCount := x.rsCount + BitVec.ofNat 20 d } := by
  have hdf : drawsFault x d = false := by
    unfold drawsFault
    by_cases h0 : d = 0
    · simp [h0]
    · simpa [h0] using hd h0
  unfold laneResult written
  cases hop : laneOperands r x (planOf i) with
  | error c =>
    rw [hop] at ho
    cases ho
  | ok o =>
    simp only [hf, hdf, Bool.false_eq_true, if_false]

/-- A word that computes `f` and rounds `n` results of a lane completes with `f`, and counts them in mode 5. -/
theorem completesRounding_of_computes {i : Instr} {m : BitVec 18} {n : Nat} {f : LaneIn → LaneWrite}
    (h : Computes i (givesRounded m n f)) : CompletesRounding i m n f := by
  intro s k l r hi hc ho hd
  have hok (a : Fin 32) (ha : (r.subRod l).getLsbD a.val = true) (hx : actsOn i r.lanes[a] = true) :
      laneResult r (keyOf s r) i (givesRounded m n f s k r) a.val r.lanes[a]
        = .ok { written r (keyOf s r) i f a.val r.lanes[a] with
            rsCount := r.lanes[a].rsCount + BitVec.ofNat 20 (if RMod.rm m = 5 then n else 0) } := by
    refine laneResult_of_draws (fun _ => rfl) (ho a ha hx) (fun h0 => ?_)
    split
    · exact hd ‹_› a ha hx
    · exact absurd (if_neg ‹_›) h0
  rw [exec_of_computes_ok h hi hc (fun a ha hx => by rw [hok a ha hx]; rfl)]
  refine congrArg (fun q => Host.Outcome.next (s.setRod k q)) (mapLanes_congr (fun a ha => ?_))
  unfold plainLane
  split
  · rw [hok a ha ‹_›]
    by_cases h5 : RMod.rm m = 5 <;> simp [h5]
  · rfl

end Sys2Proof.Machine
end

section
namespace Sys2Proof.Machine

/-! ## Integer results in a view (R236) -/

theorem ofInt_viewOf {w : Nat} (u : Bool) (a : BitVec w) : BitVec.ofInt w (viewOf u a) = a := by
  cases u
  · exact BitVec.ofInt_toInt
  · exact (BitVec.ofInt_natCast w a.toNat).trans (by simp)

theorem ofInt_sub_viewOf {w : Nat} (u : Bool) (a b : BitVec w) : BitVec.ofInt w (viewOf u a - viewOf u b) = a - b := by
  rw [Int.sub_eq_add_neg, BitVec.ofInt_add, BitVec.ofInt_neg, ofInt_viewOf, ofInt_viewOf, BitVec.sub_eq_add_neg]

theorem viewMin_le_viewMax (w : Nat) (u : Bool) : viewMin w u ≤ viewMax w u := by
  have hp : (0 : Int) < 2 ^ w := by positivity
  have hq : (0 : Int) < 2 ^ (w - 1) := by positivity
  cases u <;> simp only [viewMin, viewMax, Bool.false_eq_true, if_false, if_true] <;> omega

/-- A value of the view's range reads back. -/
theorem viewOf_ofInt {w : Nat} (hw : 0 < w) {u : Bool} {v : Int} (hlo : viewMin w u ≤ v) (hhi : v ≤ viewMax w u) :
    viewOf u (BitVec.ofInt w v) = v := by
  cases u
  · simp only [viewMin, viewMax, Bool.false_eq_true, if_false] at hlo hhi
    exact BitVec.toInt_ofInt_eq_self hw hlo (by omega)
  · simp only [viewMin, viewMax, if_true] at hlo hhi
    have hv : v < ((2 ^ w : Nat) : Int) := by push_cast; omega
    simp only [viewOf, if_true, BitVec.toNat_ofInt]
    rw [Int.emod_eq_of_lt hlo hv, Int.toNat_of_nonneg hlo]

theorem clampView_bounds (w : Nat) (u : Bool) (v : Int) :
    viewMin w u ≤ clampView w u v ∧ clampView w u v ≤ viewMax w u := by
  have := viewMin_le_viewMax w u
  unfold clampView
  omega

theorem clampView_eq_ite (w : Nat) (u : Bool) (v : Int) : clampView w u v =
    if v < viewMin w u then viewMin w u else if viewMax w u < v then viewMax w u else v := by
  have := viewMin_le_viewMax w u
  unfold clampView
  split_ifs <;> omega

/-- Reading a cut value back differs from it by a multiple of 2^w. -/
theorem dvd_viewOf_ofInt_sub (w : Nat) (u : Bool) (v : Int) : (2 : Int) ^ w ∣ viewOf u (BitVec.ofInt w v) - v := by
  cases u
  · have h := Int.dvd_bmod_sub_self (x := v) (m := 2 ^ w)
    simpa [viewOf] using h
  · have hp : ((2 ^ w : Nat) : Int) ≠ 0 := by positivity
    simp only [viewOf, if_true, BitVec.toNat_ofInt, Int.toNat_of_nonneg (Int.emod_nonneg v hp)]
    exact_mod_cast Int.dvd_emod_sub_self

end Sys2Proof.Machine

open Sys2Proof Sys2Proof.Machine

/-- Settles O1: the words compute the results their table names, and a value of the view's range reads back. -/
theorem integerArithmetic : Obligations.IntegerArithmetic := by
  refine ⟨fun w => ?_, fun w u hw => ⟨fun a b c => ?_, fun v => ?_, fun v => dvd_viewOf_ofInt_sub w u v⟩⟩
  · have h := arithmeticResults_computes w
    simp only [arithmeticResults, List.forall_mem_cons] at h
    obtain ⟨hadd, hsub, hmul, hmulh, hmad, hmin, hmax, habs, hneg, hlea, -⟩ := h
    exact ⟨completesWith_of_gives hadd, completesWith_of_gives hsub, completesWith_of_gives hmul,
      completesWith_of_gives hmulh, completesWith_of_gives hmad, completesWith_of_gives hmin,
      completesWith_of_gives hmax, completesWith_of_gives habs, completesWith_of_gives hneg,
      completesWith_of_gives hlea⟩
  · simp only [intResult, Bool.false_eq_true, if_false, BitVec.ofInt_add, BitVec.ofInt_mul, ofInt_sub_viewOf, ofInt_viewOf,
      and_self]
  · obtain ⟨hlo, hhi⟩ := clampView_bounds w u v
    exact (viewOf_ofInt hw hlo hhi).trans (clampView_eq_ite w u v)

/-- Settles O2: the words compute the results their table names for every operand value. -/
theorem integerDivision : Obligations.IntegerDivision := by
  intro w q least
  have h := arithmeticResults_computes w
  simp only [arithmeticResults, List.forall_mem_cons] at h
  obtain ⟨-, -, -, -, -, -, -, -, -, -, hidiv, hirem, -⟩ := h
  exact ⟨completesWith_of_gives hidiv, completesWith_of_gives hirem⟩

/-- Settles O3: the words compute the results their table names. -/
theorem logicAndShifts : Obligations.LogicAndShifts := by
  intro w
  have h := bitResults_computes w
  simp only [bitResults, List.forall_mem_cons] at h
  obtain ⟨hand, hor, hxor, handn, hlmux, hshl, hshr, hsar, hrol, hshf, -⟩ := h
  exact ⟨completesWith_of_gives hand, completesWith_of_gives hor, completesWith_of_gives hxor,
    completesWith_of_gives handn, completesWith_of_gives hlmux, completesWith_of_gives hshl,
    completesWith_of_gives hshr, completesWith_of_gives hsar, completesWith_of_gives hrol, completesWith_of_gives hshf⟩

/-- Settles O6: the immediate words compute the results their table names. -/
theorem immediateForms : Obligations.ImmediateForms := by
  intro w b h
  have hc := immediateResults_computes w
  simp only [immediateResults, List.forall_mem_cons] at hc
  obtain ⟨hadd, hsub, hmul, hmin, hmax, hlea, hand, hor, hxor, handn, hshl, hshr, hsar, hrol, hbfx, hbperm, hicmp, hmovi,
    hmovhi, hxadd, -⟩ := hc
  exact ⟨completesWith_of_gives hadd, completesWith_of_gives hsub, completesWith_of_gives hmul,
    completesWith_of_gives hmin, completesWith_of_gives hmax, completesWith_of_gives hlea, completesWith_of_gives hand,
    completesWith_of_gives hor, completesWith_of_gives hxor, completesWith_of_gives handn,
    completesWith_of_gives hshl, completesWith_of_gives hshr, completesWith_of_gives hsar, completesWith_of_gives hrol,
    completesWith_of_gives hbfx, completesWith_of_gives hbperm, completesWith_of_gives hicmp,
    completesWith_of_gives hmovi, completesWith_of_gives hmovhi, completesWith_of_gives hxadd⟩

/-- Settles O10: the words compute the results their table names, and take two draws. -/
theorem packedHalves : Obligations.PackedHalves := by
  intro w fmt v half out
  have h := formatResults_computes w
  simp only [formatResults, List.forall_mem_cons] at h
  obtain ⟨hadd, hmul, hfma, hmin, hmax, -⟩ := h
  exact ⟨completesRounding_of_computes hadd, completesRounding_of_computes hmul, completesRounding_of_computes hfma,
    completesRounding_of_computes hmin, completesRounding_of_computes hmax⟩

/-- Settles O7: the words compute the results their table names, and take one draw. -/
theorem floatArithmetic : Obligations.FloatArithmetic := by
  intro w mode v out
  have h := floatResults_computes w
  simp only [floatResults, List.forall_mem_cons] at h
  obtain ⟨hadd, hsub, hmul, hfma, hdiv, hsqrt, hrcp, hrsq, -, hmin, hmax, hminn, hmaxn, -⟩ := h
  have hrnd : Computes (.frnd w) (givesRounded w.mod 1 (fun x =>
      out (fun a _ _ => a.roundIntegral mode (laneRounding w.mod x 0).d) x)) :=
    computes_laneOp (fun _ => rfl) (fun _ => rfl)
  exact ⟨completesRounding_of_computes hadd, completesRounding_of_computes hsub, completesRounding_of_computes hmul,
    completesRounding_of_computes hfma, completesRounding_of_computes hdiv, completesRounding_of_computes hsqrt,
    completesRounding_of_computes hrcp, completesRounding_of_computes hrsq, completesRounding_of_computes hrnd,
    completesRounding_of_computes hmin, completesRounding_of_computes hmax, completesRounding_of_computes hminn,
    completesRounding_of_computes hmaxn⟩
end

section
namespace Sys2Proof.Machine

/-! ## Leading and trailing zeros (R244) -/

/-- The place of the first number below `w` where a test holds, or `w`. -/
theorem find_range_getD_spec (w : Nat) (p : Nat → Bool) :
    let n := ((List.range w).find? p).getD w
    n ≤ w ∧ (n < w → p n = true) ∧ ∀ k, k < n → p k = false := by
  cases h : (List.range w).find? p with
  | none =>
    rw [List.find?_eq_none] at h
    refine ⟨le_refl w, fun hn => absurd hn (lt_irrefl w), fun k hk => ?_⟩
    simpa using h k (List.mem_range.2 hk)
  | some n =>
    rw [List.find?_range_eq_some] at h
    obtain ⟨hp, hn, hk⟩ := h
    exact ⟨(List.mem_range.1 hn).le, fun _ => hp, fun k hlt => by simpa using hk k hlt⟩

theorem ctzFn_spec (w : Nat) (a : DWord) :
    ctzFn w a ≤ w ∧ (ctzFn w a < w → a.getLsbD (ctzFn w a) = true) ∧ ∀ k, k < ctzFn w a → a.getLsbD k = false :=
  find_range_getD_spec w (fun k => a.getLsbD k)

theorem clzFn_spec (w : Nat) (a : DWord) :
    clzFn w a ≤ w ∧ (clzFn w a < w → a.getLsbD (w - 1 - clzFn w a) = true)
      ∧ ∀ k, k < clzFn w a → a.getLsbD (w - 1 - k) = false :=
  find_range_getD_spec w (fun k => a.getLsbD (w - 1 - k))

/-- The bits above the leading one are clear. -/
theorem getLsbD_above_clzFn {w : Nat} {a : DWord} {k : Nat} (hk : k < w) (h : w - 1 - clzFn w a < k ∨ clzFn w a = w) :
    a.getLsbD k = false := by
  have h2 := (clzFn_spec w a).2.2 (w - 1 - k) (by omega)
  rwa [show w - 1 - (w - 1 - k) = k by omega] at h2

/-! ## Permuted bytes (R245) -/

/-- Byte `k` of BPERM before its place in the result. -/
def bpermByte (a b c : Word) (k : Nat) : BitVec 8 :=
  let nib := (b >>> (4 * k)).extractLsb' 0 4
  let t := ((c ++ a : DWord) >>> (8 * (nib.extractLsb' 0 3).toNat)).extractLsb' 0 8
  if nib.getLsbD 3 then (if t.getLsbD 7 then 0xFF#8 else 0x00#8) else t

theorem bpermFn_eq (a b c : Word) :
    bpermFn a b c = bpermByte a b c 3 ++ bpermByte a b c 2 ++ bpermByte a b c 1 ++ bpermByte a b c 0 := rfl

theorem extract_bytes (x0 x1 x2 x3 : BitVec 8) (k : Fin 4) :
    (x3 ++ x2 ++ x1 ++ x0).extractLsb' (8 * k.val) 8 = [x0, x1, x2, x3].getD k.val 0 := by
  refine BitVec.eq_of_getLsbD_eq (fun i hi => ?_)
  fin_cases k <;> simp [hi] <;> grind

/-- The top bit of a value as a comparison. -/
theorem getLsbD_top {w : Nat} (x : BitVec w) : x.getLsbD (w - 1) = decide (2 ^ (w - 1) ≤ x.toNat) := by
  rw [← BitVec.msb_eq_getLsbD_last, BitVec.msb_eq_decide]

/-- The byte that selector nibble `k` chooses (R245). -/
theorem bpermByte_toNat (a b c : Word) (k : Nat) :
    let nib := b.toNat / 16 ^ k % 16
    let t := (c.toNat * 2 ^ 32 + a.toNat) / 256 ^ (nib % 8) % 256
    (bpermByte a b c k).toNat = if 8 ≤ nib then (if 128 ≤ t then 255 else 0) else t := by
  intro nib t
  have hnib : ((b >>> (4 * k)).extractLsb' 0 4).toNat = nib := by
    simp [nib, BitVec.extractLsb'_toNat, Nat.shiftRight_eq_div_pow, pow_mul]
  have hsel : (((b >>> (4 * k)).extractLsb' 0 4).extractLsb' 0 3).toNat = nib % 8 := by
    rw [BitVec.extractLsb'_toNat, hnib, Nat.shiftRight_zero]
  have ht : (((c ++ a : DWord) >>> (8 * (nib % 8))).extractLsb' 0 8).toNat = t := by
    simp only [t, BitVec.extractLsb'_toNat, BitVec.toNat_ushiftRight, BitVec.toNat_append, Nat.shiftRight_eq_div_pow]
    rw [Nat.shiftLeft_eq, Nat.mul_comm, ← Nat.two_pow_add_eq_or_of_lt a.isLt, pow_mul]
    simp [Nat.mul_comm]
  unfold bpermByte
  simp only [hsel]
  rw [getLsbD_top (w := 4), getLsbD_top (w := 8), hnib, ht]
  by_cases h8 : 8 ≤ nib <;> by_cases h128 : 128 ≤ t <;> simp [h8, h128, ht]

end Sys2Proof.Machine

open Sys2Proof Sys2Proof.Machine

/-- Settles O4: zeros are counted to the first set bit, and a byte of BPERM is the one its selector names. -/
theorem bitFields : Obligations.BitFields := by
  intro w width
  have h := bitResults_computes w
  simp only [bitResults, List.forall_mem_cons] at h
  obtain ⟨-, -, -, -, -, -, -, -, -, -, hbfx, hbfi, hpopc, hclz, hctz, hbrev, hbperm, -⟩ := h
  refine ⟨completesWith_of_gives hbfx, completesWith_of_gives hbfi, completesWith_of_gives hpopc,
    completesWith_of_gives hclz, completesWith_of_gives hctz, fun a => ?_, completesWith_of_gives hbrev,
    completesWith_of_gives hbperm, fun a b c k => ?_⟩
  · obtain ⟨hclz, hlead, -⟩ := clzFn_spec width a
    obtain ⟨hctz, htrail, hbelow⟩ := ctzFn_spec width a
    exact ⟨fun k hk h => getLsbD_above_clzFn hk (.inl h), hlead, fun h k hk => getLsbD_above_clzFn hk (.inr h), hbelow,
      htrail, hclz, hctz⟩
  · intro nib t
    rw [bpermFn_eq, extract_bytes]
    refine Eq.trans ?_ (bpermByte_toNat a b c k.val)
    fin_cases k <;> rfl
end

section
namespace Sys2Proof.Machine

/-! ## Writes of predicates (R113, R246, R247) -/

theorem setPred_seven (x : Lane) (b : Bool) : x.setPred 7 b = x := if_neg (lt_irrefl 7)

/-- A masked write of the predicates, one by one. -/
theorem apply_preds_pred (x : Lane) (m v : BitVec 7) (k : Fin 7) :
    ((LaneWrite.preds m v).apply .none x).pred k.val = if m.getLsbD k.val then v.getLsbD k.val else x.pred k.val := by
  have hk := k.isLt
  simp only [Lane.pred, LaneWrite.apply, hk, if_true, BitVec.getLsbD_or, BitVec.getLsbD_and, BitVec.getLsbD_not, decide_true,
    Bool.true_and]
  cases m.getLsbD k.val <;> simp

end Sys2Proof.Machine

open Sys2Proof Sys2Proof.Machine

/-- Settles O5: the words compute the results their table names; p7 is no predicate of the write. -/
theorem comparesSelectsMoves : Obligations.ComparesSelectsMoves := by
  intro w
  have h := moveResults_computes w
  simp only [moveResults, List.forall_mem_cons] at h
  obtain ⟨hicmp, hplop, hsel, hget, hset, hmov, hpfx, hxset, hxadd, -⟩ := h
  exact ⟨completesWith_of_gives hicmp, completesWith_of_gives hplop, completesWith_of_gives hsel,
    completesWith_of_gives hget, completesWith_of_gives hset, completesWith_of_gives hmov,
    completesWith_of_gives hpfx, completesWith_of_gives hxset, completesWith_of_gives hxadd,
    fun x b => setPred_seven x b, apply_preds_pred⟩

/-- Settles O14: the words compute the results their table names, and the generator's rounds are those of R267. -/
theorem specialReads : Obligations.SpecialReads := by
  intro w
  have h := specialResults_computes w
  simp only [specialResults, List.forall_mem_cons] at h
  obtain ⟨hsrd, hcstat, hslack, hrngc, -⟩ := h
  refine ⟨completesWith_of_computes hsrd, completesWith_of_computes hcstat, completesWith_of_computes hslack,
    completesWith_of_gives hrngc, fun _ _ _ => rfl⟩
end

section
namespace Sys2Proof.Machine

/-! ## Comparing exact values (R157, R255) -/

/-- The number an exact value without a tail stands for; a zero, an infinity and a NaN give 0. -/
def Num.finValue : Num → ℚ
  | .fin n m e _ => (if n then -(m : ℚ) else m) * 2 ^ e
  | .nan | .inf _ | .zero _ => 0

/-- A sum in units at most the least exponent is exact. -/
theorem sumAt_mul_zpow {q : Int} {l : List Num} (h : q ≤ minExp 0 l) :
    ((sumAt q l : Int) : ℚ) * 2 ^ q = (l.map Num.finValue).sum := by
  induction l with
  | nil => simp [sumAt]
  | cons x l ih =>
    cases x with
    | fin n m e t =>
      have hq : q ≤ e ∧ q ≤ minExp 0 l := le_min_iff.1 h
      rw [sumAt, List.map_cons, List.sum_cons, ← ih hq.2, Int.cast_add, add_mul]
      refine congrArg (· + _) ?_
      rw [Num.finValue, zpow_two_split hq.1, Nat.shiftLeft_eq, ← mul_assoc]
      cases n <;> simp
    | nan | inf | zero => simpa [sumAt, Num.finValue, minExp] using ih h

theorem minExp_cons_le (d : Int) (x : Num) (l : List Num) : minExp d (x :: l) ≤ minExp d l := by
  cases x <;> simp [minExp]

theorem cmp_of_not_inf {x y : Num} (hx : x.isInf = false) (hy : y.isInf = false) :
    x.cmp y = compare (sumAt (minExp 0 [x, y]) [x]) (sumAt (minExp 0 [x, y]) [y]) := by
  cases x with
  | inf n => cases hx
  | nan | zero | fin =>
    cases y with
    | inf n => cases hy
    | nan | zero | fin => rfl

/-- Values that are no infinity compare as their exact numbers. -/
theorem cmp_iff_finValue {x y : Num} (hx : x.isInf = false) (hy : y.isInf = false) :
    (x.cmp y = .lt ↔ x.finValue < y.finValue) ∧ (x.cmp y = .eq ↔ x.finValue = y.finValue)
      ∧ (x.cmp y = .gt ↔ y.finValue < x.finValue) := by
  have hq := zpow_two_pos (minExp 0 [x, y])
  have hxq : minExp 0 [x, y] ≤ minExp 0 [x] := by cases x <;> cases y <;> simp [minExp]
  have hvx := sumAt_mul_zpow hxq
  have hvy := sumAt_mul_zpow (minExp_cons_le 0 x [y])
  simp only [List.map_cons, List.map_nil, List.sum_cons, List.sum_nil, add_zero] at hvx hvy
  rw [cmp_of_not_inf hx hy, ← hvx, ← hvy, compare_lt_iff_lt, compare_eq_iff_eq, compare_gt_iff_gt,
    mul_lt_mul_iff_left₀ hq, mul_lt_mul_iff_left₀ hq, mul_left_inj' hq.ne', Int.cast_lt, Int.cast_lt, Int.cast_inj]
  exact ⟨Iff.rfl, Iff.rfl, Iff.rfl⟩

theorem cmp_inf_left (n : Bool) (y : Num) :
    (Num.inf n).cmp y = if y = .inf n then .eq else if n then .lt else .gt := by
  cases y with
  | inf m => cases n <;> cases m <;> rfl
  | nan | zero | fin => simp [Num.cmp]

theorem cmp_inf_right (x : Num) (n : Bool) :
    x.cmp (.inf n) = if x = .inf n then .eq else if n then .gt else .lt := by
  cases x with
  | inf m => cases n <;> cases m <;> rfl
  | nan | zero | fin => simp [Num.cmp]

/-! ## The classes of an FP32 encoding (R256) -/

/-- The parts of an FP32 encoding as numbers. -/
theorem fp32_parts (x : Nat) : fp32Fmt.sign x = x.testBit 31 ∧ fp32Fmt.exp x = x / 2 ^ 23 % 256 ∧ fp32Fmt.frac x = x % 2 ^ 23 := by
  refine ⟨rfl, ?_, rfl⟩
  rw [FloatFmt.exp, Nat.shiftRight_eq_div_pow]
  rfl

theorem classOfFloat_fp32 (x : Nat) : classOfFloat fp32Fmt x =
    let e := x / 2 ^ 23 % 256
    let fr := x % 2 ^ 23
    if e = 255 ∧ fr ≠ 0 then 8
    else if e = 255 then (if x.testBit 31 then 0 else 7)
    else if e = 0 then (if fr = 0 then (if x.testBit 31 then 3 else 4) else (if x.testBit 31 then 2 else 5))
    else (if x.testBit 31 then 1 else 6) := by
  obtain ⟨hs, he, hf⟩ := fp32_parts x
  have hnan (e fr : Nat) : fp32Fmt.isNanEnc e fr = (e == 255 && fr != 0) := rfl
  have hinf (e fr : Nat) : fp32Fmt.isInfEnc e fr = (e == 255 && fr == 0) := rfl
  unfold classOfFloat
  simp only [hs, he, hf, hnan, hinf, Bool.and_eq_true, beq_iff_eq, bne_iff_ne]
  split_ifs <;> omega

theorem fclass_ftz_illegal {s : State} {k : RodKey} {r : Rod} {w : RWord} (hg : w.g.legal = true)
    (hf : RMod.ftz w.mod = true) : wordCause s k r (.fclass w) = some .illegalOperand := by
  have hc : opClass (.fclass w) = 2 := class_encR 2 0x0E (by omega) w
  have h5 : check5 (.fclass w) = false := by
    by_contra h
    have hm : w.mod &&& ~~~(maskBits 3 0) = 0 := by
      have hr : rOk w (laneShape .reg .reg .zero .zero 0) = true := Bool.of_not_eq_false h
      simp only [rOk, Bool.and_eq_true, beq_iff_eq] at hr
      simpa [laneShape] using hr.1.1.2
    have hbit : (w.mod &&& ~~~(maskBits 3 0)).getLsbD 7 = true := by
      rw [BitVec.getLsbD_and, show w.mod.getLsbD 7 = true from hf]
      rfl
    rw [hm] at hbit
    cases hbit
  have hg' : (guardOf (.fclass w)).map Guard.legal = some true := congrArg some hg
  unfold wordCause
  simp [hc, hg', h5]

/-- The words of the F64 extension are of class 7. -/
theorem wordCause_extension {s : State} {k : RodKey} {r : Rod} {i : Instr} {n : Nat} (hk : k.slot = .rod n)
    (hc : opClass i = 7) (hg : (guardOf i).map Guard.legal = some true) (hd : Config.isStream k.frame.die = false) :
    wordCause s k r i = some .extensionEmulation := by
  have hfw : (k.slot == .firmware) = false := by
    rw [hk]
    rfl
  unfold wordCause
  simp [hc, hg, hd, hfw]

end Sys2Proof.Machine

open Sys2Proof Sys2Proof.Machine

/-- Settles O8: values compare as their exact numbers, and the class follows the three parts of the encoding. -/
theorem floatTests : Obligations.FloatTests := by
  refine ⟨fun w => ?_, fun ftz x y => ?_, fun e => ?_, fun s k r w hg hf => fclass_ftz_illegal hg hf⟩
  · have h := floatResults_computes w
    simp only [floatResults, List.forall_mem_cons] at h
    obtain ⟨-, -, -, -, -, -, -, -, -, -, -, -, -, hfcmp, hfclass, -⟩ := h
    exact ⟨completesWith_of_gives hfcmp, completesWith_of_gives hfclass⟩
  · intro value a b _ _
    have hv (z : Machine.Num) : value z = z.finValue := by cases z <;> rfl
    refine ⟨fun ha hb => ?_, fun ha => ?_, fun ha => ?_, fun hb => ?_, fun hb => ?_⟩
    · rw [hv, hv]
      exact cmp_iff_finValue ha hb
    · rw [ha, cmp_inf_left]
      rfl
    · rw [ha, cmp_inf_left]
      rfl
    · rw [hb, cmp_inf_right]
      rfl
    · rw [hb, cmp_inf_right]
      rfl
  · intro c exp frac
    have hexp : exp = e.toNat / 2 ^ 23 % 256 := by simp [exp, BitVec.extractLsb'_toNat, Nat.shiftRight_eq_div_pow]
    have hfrac : frac = e.toNat % 2 ^ 23 := by simp [frac, BitVec.extractLsb'_toNat]
    have hsign : e.getLsbD 31 = decide (2 ^ 31 ≤ e.toNat) := getLsbD_top (w := 32) e
    have hc : c = _ := classOfFloat_fp32 e.toNat
    have hlt := e.isLt
    rw [BitVec.testBit_toNat, hsign] at hc
    simp only [hsign, ← BitVec.toNat_inj, decide_eq_true_eq, decide_eq_false_iff_not, BitVec.ofNat_eq_ofNat,
      BitVec.toNat_ofNat] at hc ⊢
    split_ifs at hc <;> omega

/-- Settles O13: the words compute the results their table names, and are of class 7. -/
theorem doublePrecision : Obligations.DoublePrecision := by
  refine ⟨fun w => ?_, fun s k r w n hk hg hd i hi => ?_⟩
  · have h := specialResults_computes w
    simp only [specialResults, List.forall_mem_cons] at h
    obtain ⟨-, -, -, -, hadd, hmul, hfma, hdiv, hsqrt, -⟩ := h
    exact ⟨completesRounding_of_computes hadd, completesRounding_of_computes hmul, completesRounding_of_computes hfma,
      completesRounding_of_computes hdiv, completesRounding_of_computes hsqrt⟩
  · have hg' : some w.g.legal = some true := congrArg some hg
    simp only [List.mem_cons, List.not_mem_nil, or_false] at hi
    rcases hi with rfl | rfl | rfl | rfl | rfl | rfl
    · exact wordCause_extension hk (class_encR 7 _ (by omega) w) hg' hd
    · exact wordCause_extension hk (class_encR 7 _ (by omega) w) hg' hd
    · exact wordCause_extension hk (class_encR 7 _ (by omega) w) hg' hd
    · exact wordCause_extension hk (class_encR 7 _ (by omega) w) hg' hd
    · exact wordCause_extension hk (class_encR 7 _ (by omega) w) hg' hd
    · exact wordCause_extension hk (class_encR 7 _ (by omega) w) hg' hd
end

section
namespace Sys2Proof.Machine

/-! ## Conversions (R155, R156, R258) -/

/-- A format code is of an integer format or of a float format. -/
theorem floatFmt_none_of_intFmt {c w : Nat} {s : Bool} (h : intFmt c = some (w, s)) : floatFmt c = none := by
  refine List.getElem?_eq_none ?_
  show 11 ≤ c
  by_contra hlt
  interval_cases c <;> cases h

theorem intFmt_none_of_floatFmt {c : Nat} {f : FloatFmt} (h : floatFmt c = some f) : intFmt c = none := by
  cases hi : intFmt c with
  | none => rfl
  | some p => exact nomatch h.symm.trans (floatFmt_none_of_intFmt (w := p.1) (s := p.2) hi)

theorem intFmt_width {c w : Nat} {s : Bool} (h : intFmt c = some (w, s)) : w ≤ 64 := by
  unfold intFmt at h
  split at h <;> cases h <;> decide

theorem narrowTarget_of_floatFmt {c : Nat} {f : FloatFmt} (h : floatFmt c = some f) : narrowTarget c = decide (2 ≤ c) := by
  have hc : c < 11 := (List.getElem?_eq_some_iff.1 h).1
  simp [narrowTarget, show c ≤ 10 by omega]

/-- What a conversion does with an overflow (R155). -/
def convOverflow (d : Nat) (nan : Bool) : Overflow :=
  if narrowTarget d then (if nan then .narrowNan else .narrow) else .ieee

theorem convert_int_int {d s wd ws : Nat} {sd ss : Bool} (hd : intFmt d = some (wd, sd)) (hs : intFmt s = some (ws, ss))
    (r : Rounding) (nan sat ftz : Bool) (x : Nat) : (convert d s r nan sat ftz x : Int)
      = (if sat then clampView wd (!sd) (intValue ws ss x) else intValue ws ss x) % (2 : Int) ^ wd := by
  unfold convert
  simp only [floatFmt_none_of_intFmt hd, floatFmt_none_of_intFmt hs, hd, hs]
  rw [Int.toNat_of_nonneg (Int.emod_nonneg _ (by positivity))]
  cases sd <;> rfl

theorem convert_float_int {d s wd : Nat} {sd : Bool} {fs : FloatFmt} (hd : intFmt d = some (wd, sd))
    (hs : floatFmt s = some fs) (r : Rounding) (nan sat ftz : Bool) (x : Nat) : (convert d s r nan sat ftz x : Int)
      = (fs.decode ftz (x % 2 ^ (fs.width + fs.pad))).toRange r.mode r.d (viewMin wd (!sd)) (viewMax wd (!sd)) % (2 : Int) ^ wd := by
  unfold convert
  simp only [floatFmt_none_of_intFmt hd, hd, hs]
  rw [Int.toNat_of_nonneg (Int.emod_nonneg _ (by positivity))]
  cases sd <;> rfl

theorem convert_float {d s x : Nat} {f : FloatFmt} {v : Num} {nan sat ftz : Bool} {r : Rounding} (hd : floatFmt d = some f)
    (hv : (∃ fs, floatFmt s = some fs ∧ v = fs.decode ftz (x % 2 ^ (fs.width + fs.pad)))
      ∨ ∃ ws ss, intFmt s = some (ws, ss) ∧ v = Num.ofInt (intValue ws ss x)) :
    convert d s r nan sat ftz x = f.put (convOverflow d nan) r v := by
  unfold convert
  rcases hv with ⟨fs, hs, rfl⟩ | ⟨ws, ss, hs, rfl⟩
  · simp only [hd, hs]
    rfl
  · simp only [hd, floatFmt_none_of_intFmt hs, hs]
    rfl

/-! ### Rounding to an integer (R151, R156) -/

theorem mk'_fin {neg n more : Bool} {a m : Nat} {b e : Int} (h : Num.mk' neg a b = .fin n m e more) :
    0 < m ∧ more = false := by
  unfold Num.mk' at h
  split at h
  · cases h
  · cases h
    exact ⟨Nat.pos_of_ne_zero ‹_›, rfl⟩

/-- A finite encoding is an exact positive magnitude. -/
theorem decode_fin {f : FloatFmt} {ftz n more : Bool} {x m : Nat} {e : Int} (h : f.decode ftz x = .fin n m e more) :
    0 < m ∧ more = false := by
  unfold FloatFmt.decode at h
  dsimp only at h
  split at h
  · cases h
  split at h
  · cases h
  split at h
  · split at h
    · cases h
    · exact mk'_fin h
  · exact mk'_fin h

/-- The cut of a magnitude at 1. -/
theorem cutAt_zero_reads {m : Nat} (hm : 0 < m) (e : Int) : (cutAt m e false 0).Reads ((m : ℚ) * 2 ^ e) := by
  have h := cutAt_reads hm e 0
  rwa [zpow_zero, div_one] at h

/-- A magnitude of more than 128 bits rounds to at least 2^128. -/
theorem le_roundMag_of_large {m : Nat} (hm : 0 < m) {e : Int} (h : 128 < e + (bitLen m : Int)) (mode d : Nat) (n : Bool) :
    2 ^ 128 ≤ roundMag mode d n m e false := by
  refine le_trans ?_ (sig_le_rounded (cutAt m e false 0) mode d n)
  have hle : (2 : ℚ) ^ (128 : Int) ≤ (m : ℚ) * 2 ^ e :=
    (zpow_le_zpow_right₀ one_le_two (by omega)).trans (zpow_bitLen_le_mul_zpow hm e)
  have hfloor : ((2 ^ 128 : Nat) : Int) ≤ ⌊(m : ℚ) * 2 ^ e⌋ := Int.le_floor.2 (by exact_mod_cast hle)
  rw [← (cutAt_zero_reads hm e).sig] at hfloor
  exact_mod_cast hfloor

/-- A finite value is rounded to an integer and held to the range (R156). -/
theorem toRange_fin {m w : Nat} (hm : 0 < m) (hw : w ≤ 64) (u : Bool) (mode d : Nat) (n : Bool) (e : Int) :
    (Num.fin n m e false).toRange mode d (viewMin w u) (viewMax w u)
      = clampView w u (if n then -(roundMag mode d n m e false : Int) else (roundMag mode d n m e false : Int)) := by
  unfold Num.toRange
  dsimp only
  split
  · rename_i hbig
    have hmag := le_roundMag_of_large hm hbig mode d n
    have hpow : 2 ^ w ≤ 2 ^ 64 := Nat.pow_le_pow_right two_pos hw
    have hhalf : 2 ^ (w - 1) ≤ 2 ^ 64 := Nat.pow_le_pow_right two_pos (by omega)
    have hpow' : (2 : Int) ^ w ≤ 2 ^ 64 := by exact_mod_cast hpow
    have hhalf' : (2 : Int) ^ (w - 1) ≤ 2 ^ 64 := by exact_mod_cast hhalf
    have h0 : (0 : Int) < 2 ^ w := by positivity
    have h1 : (0 : Int) < 2 ^ (w - 1) := by positivity
    rw [clampView_eq_ite]
    cases n <;> cases u <;> simp only [viewMin, viewMax, Bool.false_eq_true, if_false, if_true] <;> split_ifs <;> omega
  · rfl

/-- What the modes make of a magnitude rounded to an integer (R150, R151). -/
theorem roundMag_modes {m : Nat} (hm : 0 < m) (d : Nat) (n : Bool) (e : Int) :
    NearestEven ((m : ℚ) * 2 ^ e) (roundMag 0 d n m e false) ∧ NearestAway ((m : ℚ) * 2 ^ e) (roundMag 4 d n m e false)
    ∧ (∀ mode, TowardZero mode n → (roundMag mode d n m e false : Int) = ⌊(m : ℚ) * 2 ^ e⌋)
    ∧ ∀ mode, AwayFromZero mode n → (roundMag mode d n m e false : Int) = ⌈(m : ℚ) * 2 ^ e⌉ := by
  have h := cutAt_zero_reads hm e
  exact ⟨h.nearestEven d n, h.nearestAway d n, fun _ => h.rounded_towardZero d n, fun _ => h.rounded_awayFromZero d n⟩

theorem floor_bounds {x : ℚ} {n : Nat} (h : (n : Int) = ⌊x⌋) : (n : ℚ) ≤ x ∧ x < n + 1 := by
  have h' := Int.floor_eq_iff.1 h.symm
  rwa [Int.cast_natCast] at h'

theorem ceil_bounds {x : ℚ} {n : Nat} (h : (n : Int) = ⌈x⌉) : x ≤ n ∧ (n : ℚ) < x + 1 := by
  obtain ⟨hlo, hhi⟩ := Int.ceil_eq_iff.1 h.symm
  rw [Int.cast_natCast] at hlo hhi
  exact ⟨hhi, by linarith⟩

end Sys2Proof.Machine

open Sys2Proof Sys2Proof.Machine

/-- Settles O11: a conversion puts, holds or cuts the value of its source; a magnitude rounded to an integer is one cut at 1. -/
theorem conversions : Obligations.Conversions := by
  refine ⟨fun w => ?words, fun d s wd ws x sd ss nan sat ftz r hd hs => ?intInt,
    fun d s wd x sd nan sat ftz r fs hd hs => ?floatInt, fun mode m d n e hm hmode => ?modes,
    fun d s x nan sat ftz r f v hd hv => ?toFloat, by decide⟩
  case words =>
    have h := formatResults_computes w
    have h' := specialResults_computes w
    simp only [formatResults, List.forall_mem_cons] at h
    simp only [specialResults, List.forall_mem_cons] at h'
    obtain ⟨-, -, -, -, -, hcvt, -⟩ := h
    obtain ⟨-, -, -, -, -, -, -, -, -, hdcvt, -⟩ := h'
    exact ⟨completesRounding_of_computes hcvt, completesRounding_of_computes hdcvt⟩
  case intInt =>
    intro v lo hi
    rw [convert_int_int hd hs, clampView_eq_ite]
    cases sd <;> rfl
  case floatInt =>
    intro lo hi y
    have hlo : lo = viewMin wd (!sd) := by cases sd <;> rfl
    have hhi : hi = viewMax wd (!sd) := by cases sd <;> rfl
    have hy : y = _ := convert_float_int hd hs r nan sat ftz x
    rw [hlo, hhi]
    cases hv : fs.decode ftz (x % 2 ^ (fs.width + fs.pad)) with
    | nan | zero => rw [hy, hv]; rfl
    | inf n => rw [hy, hv]; rfl
    | fin n m e more =>
      obtain ⟨hm, rfl⟩ := decode_fin hv
      rw [hy, hv, toRange_fin hm (intFmt_width hd), clampView_eq_ite]
  case modes =>
    intro x v down
    obtain ⟨heven, haway, hfloor, hceil⟩ := roundMag_modes hm d n e
    refine ⟨?_, ?_, ?_, fun hmem hdown => ?_, fun hmem hdown => ?_⟩
    · rintro (rfl | rfl)
      · exact heven.1
      · exact haway.1
    · rintro rfl
      exact heven.2
    · rintro rfl
      exact haway.2
    · refine floor_bounds (hfloor mode ?_)
      simpa [down, TowardZero, and_assoc, or_assoc] using hdown
    · refine ceil_bounds (hceil mode ?_)
      simp only [List.mem_cons, List.not_mem_nil, or_false] at hmem
      rcases hmem with rfl | rfl <;> cases n <;> simp [down, AwayFromZero] at hdown ⊢
  case toFloat =>
    intro y narrow canonical most
    have hy : y = f.put (convOverflow d nan) r v := convert_float hd hv
    have ho : convOverflow d nan = if narrow then (if nan then .narrowNan else .narrow) else .ieee := by
      rw [convOverflow, narrowTarget_of_floatFmt hd]
    rw [hy, ho]
    cases v with
    | nan => rfl
    | zero n => rfl
    | inf n => cases hn : narrow <;> cases nan <;> simp [FloatFmt.put, most, hn, canonical, FloatFmt.nanEnc]
    | fin n m e more =>
      refine ⟨fun sig q h => ?_, fun h hn => ?_, fun h hn => ?_⟩
      · simp only [FloatFmt.put, h]
      · simp only [FloatFmt.put, h, hn]
        cases nan <;> simp [most, hn, canonical, FloatFmt.overflowEnc, FloatFmt.nanEnc]
      · simp only [FloatFmt.put, h, hn, Bool.false_eq_true, if_false]
        split
        · exact overflowEnc_towardZero f ‹_›
        · exact overflowEnc_of_not_towardZero f ‹_›
end

section
namespace Sys2Proof.Machine

/-! ## L32 values and their encodings (R146 to R148) -/

theorem word_of_l32_parts (x : Word) : x = BitVec.ofBool (x.getLsbD 31) ++ x.extractLsb' 0 31 := by
  refine BitVec.eq_of_getLsbD_eq (fun i hi => ?_)
  rw [BitVec.getLsbD_append]
  by_cases h : i < 31
  · simp [h]
  · obtain rfl : i = 31 := by omega
    simp

/-- An L32 encoding from its sign and exponent. -/
theorem word_of_l32_exponent {x : Word} {e : Int} (h : (x.extractLsb' 0 31).toInt = e) :
    x = BitVec.ofBool (x.getLsbD 31) ++ BitVec.ofInt 31 e := by
  rw [← h, BitVec.ofInt_toInt]
  exact word_of_l32_parts x

theorem l32_exponent_bounds (x : Word) :
    -(2 : Int) ^ 30 ≤ (x.extractLsb' 0 31).toInt ∧ (x.extractLsb' 0 31).toInt ≤ 2 ^ 30 - 1 := by
  have hlo := BitVec.le_toInt (x.extractLsb' 0 31)
  have hhi := BitVec.toInt_lt (x := x.extractLsb' 0 31)
  constructor <;> omega

theorem enc_l32Of (x : Word) : L32.enc (l32Of x) = x ∨ l32Of x = .nan := by
  obtain ⟨hlo, hhi⟩ := l32_exponent_bounds x
  have hx := word_of_l32_exponent (x := x) rfl
  unfold l32Of
  dsimp only
  generalize (x.extractLsb' 0 31).toInt = e at *
  generalize x.getLsbD 31 = s at *
  subst hx
  split
  · subst e
    cases s <;> exact .inl rfl
  split
  · exact .inr rfl
  split
  · subst e
    cases s <;> exact .inl rfl
  · left
    rw [L32.enc, if_neg (by omega), if_neg (by omega)]

theorem l32Of_eq_nan_iff (x : Word) : l32Of x = .nan ↔ x = 0x40000001 ∨ x = 0xC0000001 := by
  constructor
  · intro h
    unfold l32Of at h
    dsimp only at h
    split at h
    · cases h
    split at h
    · have hx := word_of_l32_exponent ‹_›
      cases hs : x.getLsbD 31 <;> rw [hs] at hx
      · exact .inl hx
      · exact .inr hx
    split at h <;> cases h
  · rintro (rfl | rfl) <;> decide

theorem enc_fin_of_bounds (n : Bool) {e : Int} (hlo : -(2 : Int) ^ 30 + 2 ≤ e) (hhi : e ≤ (2 : Int) ^ 30 - 2) :
    L32.enc (.fin n e) = BitVec.ofBool n ++ BitVec.ofInt 31 e := by
  rw [L32.enc, if_neg (not_lt.2 hhi), if_neg (not_lt.2 hlo)]

theorem enc_fin_underflow (n : Bool) {e : Int} (h : e < -(2 : Int) ^ 30 + 2) : L32.enc (.fin n e) = L32.enc (.zero n) :=
  (if_neg (show ¬ (2 : Int) ^ 30 - 2 < e by omega)).trans (if_pos h)

theorem l32Of_enc_fin (n : Bool) {e : Int} (hlo : -(2 : Int) ^ 30 + 2 ≤ e) (hhi : e ≤ (2 : Int) ^ 30 - 2) :
    l32Of (L32.enc (.fin n e)) = .fin n e := by
  have hlow : (BitVec.ofBool n ++ BitVec.ofInt 31 e : Word).extractLsb' 0 31 = BitVec.ofInt 31 e := by
    refine BitVec.eq_of_getLsbD_eq (fun i hi => ?_)
    rw [BitVec.getLsbD_extractLsb', BitVec.getLsbD_append]
    simp [hi]
  have hsign : (BitVec.ofBool n ++ BitVec.ofInt 31 e : Word).getLsbD 31 = n := by
    rw [BitVec.getLsbD_append]
    simp
  have he : (BitVec.ofInt 31 e).toInt = e := BitVec.toInt_ofInt_eq_self (by decide) (by omega) (by omega)
  rw [enc_fin_of_bounds n hlo hhi]
  unfold l32Of
  dsimp only
  rw [hlow, hsign, he, if_neg (by omega), if_neg (by omega), if_neg (by omega)]

theorem root_fin (e : Int) (q : Nat) : (L32.fin false e).root q = if e = 0 then .fin false 0 else
    .fin false (if e < 0 then -(roundMag 0 0 (decide (e < 0)) e.natAbs (-(q : Int)) false : Int)
      else (roundMag 0 0 (decide (e < 0)) e.natAbs (-(q : Int)) false : Int)) := rfl

/-- The magnitude of an exponent is divided by 2^q to the nearest, ties to even. -/
theorem roundMag_root {e : Int} (h0 : e ≠ 0) (q : Nat) (n : Bool) :
    NearestEven (|(e : ℚ)| / 2 ^ q) (roundMag 0 0 n e.natAbs (-(q : Int)) false) := by
  have h := (roundMag_modes (Int.natAbs_pos.2 h0) 0 n (-(q : Int))).1
  rwa [zpow_neg, zpow_natCast, ← div_eq_mul_inv, Nat.cast_natAbs, Int.cast_abs] at h

/-- The root of a positive value is its exponent divided by 2^q to the nearest, ties to even (R148). -/
theorem root_fin_nearest (e : Int) (q : Nat) : ∃ v : Int, (L32.fin false e).root q = .fin false v
    ∧ |(e : ℚ) / 2 ^ q - v| ≤ 1 / 2 ∧ (|(e : ℚ) / 2 ^ q - v| = 1 / 2 → v % 2 = 0) := by
  rw [root_fin]
  by_cases h0 : e = 0
  · exact ⟨0, if_pos h0, by simp [h0], fun _ => rfl⟩
  rw [if_neg h0]
  obtain ⟨hdist, htie⟩ := roundMag_root h0 q (decide (e < 0))
  generalize roundMag 0 0 (decide (e < 0)) e.natAbs (-(q : Int)) false = v at *
  refine ⟨_, rfl, ?_⟩
  by_cases hneg : e < 0
  · have habs : |(e : ℚ) / 2 ^ q - ((-(v : Int) : Int) : ℚ)| = |(|(e : ℚ)| / 2 ^ q - v)| := by
      rw [abs_of_neg (show (e : ℚ) < 0 by exact_mod_cast hneg), ← abs_neg]
      congr 1
      push_cast
      ring
    rw [if_pos hneg, habs]
    exact ⟨hdist, fun h => by have := htie h; omega⟩
  · rw [abs_of_nonneg (show (0 : ℚ) ≤ e by exact_mod_cast not_lt.1 hneg)] at hdist htie
    rw [if_neg hneg, Int.cast_natCast]
    exact ⟨hdist, fun h => by have := htie h; omega⟩

/-! ### The tables of R148 -/

theorem l32_nan (y : L32) : L32.mul .nan y = .nan ∧ y.mul .nan = .nan ∧ L32.div .nan y = .nan ∧ y.div .nan = .nan := by
  cases y <;> exact ⟨rfl, rfl, rfl, rfl⟩

theorem l32_sign_eq (s : Bool) (n : Int) : (s && n % 2 != 0) = (s && decide (n % 2 = 1)) := by
  rcases Int.emod_two_eq n with h | h <;> simp [h]

theorem l32_pow_zero {s : Bool} {e : Int} : (L32.zero s).pow 0 = .fin false 0 ∧ (L32.inf s).pow 0 = .fin false 0
    ∧ (L32.fin s e).pow 0 = .fin false 0 := ⟨rfl, rfl, rfl⟩

theorem l32_pow_of_ne_zero {n : Int} (h : n ≠ 0) (s : Bool) (e : Int) :
    let sign := s && decide (n % 2 = 1)
    (L32.fin s e).pow n = .fin sign (e * n)
      ∧ (L32.zero s).pow n = (if 0 < n then .zero sign else .inf sign)
      ∧ (L32.inf s).pow n = (if 0 < n then .inf sign else .zero sign) := by
  simp only [L32.pow, if_neg h, l32_sign_eq, and_self]

end Sys2Proof.Machine
end

section
namespace Sys2Proof.Machine

/-! ## Powers of two in a format (R135, R149, R151) -/

section
variable {f : FloatFmt} {v : Int} (more : Bool)

/-- A power of two cut at a quantum not above it leaves nothing behind. -/
theorem cutAt_one {q : Int} (h : q ≤ v) : cutAt 1 v more q = ⟨2 ^ (v - q).toNat, 0, 0, more⟩ := by
  unfold cutAt
  dsimp only
  rw [if_pos (by omega), show -(q - v) = v - q by omega, Nat.one_shiftLeft]

theorem quantum_one (h : f.qmin ≤ v - ((f.m : Int) - 1)) : f.quantum 1 v = v - ((f.m : Int) - 1) := by
  have hlen : bitLen 1 = 1 := by decide
  unfold FloatFmt.quantum
  rw [hlen]
  omega

theorem cut_one (hf : f.Proper) (h : f.qmin ≤ v - ((f.m : Int) - 1)) :
    cutAt 1 v more (f.quantum 1 v) = ⟨2 ^ (f.m - 1), 0, 0, more⟩ := by
  have := hf.1
  rw [quantum_one h, cutAt_one more (by omega), show (v - (v - ((f.m : Int) - 1))).toNat = f.m - 1 by omega]

theorem two_pow_fraction_scaled (hf : f.Proper) (v : Int) :
    ((2 ^ (f.m - 1) : Nat) : ℚ) * 2 ^ (v - ((f.m : Int) - 1)) = 2 ^ v := by
  have := hf.1
  rw [Nat.cast_pow, Nat.cast_ofNat, ← zpow_natCast, ← zpow_add₀ two_ne_zero]
  congr 1
  omega

/-- A value that is a whole number of its quanta, within the format, is kept by every mode. -/
theorem round_exact {f : FloatFmt} (hf : f.Proper) {m : Nat} {e : Int} (hq : f.quantum m e ≤ e)
    (hle : (m : ℚ) * 2 ^ e ≤ f.largest) (r : Rounding) (s : Bool) :
    f.round r s m e false = .value (m * 2 ^ (e - f.quantum m e).toNat) (f.quantum m e) := by
  have hcut : f.cut m e = ⟨m * 2 ^ (e - f.quantum m e).toNat, 0, 0, false⟩ := by
    unfold FloatFmt.cut cutAt
    dsimp only
    rw [if_pos (by omega), Nat.shiftLeft_eq, neg_sub]
  have hwithin : ¬ f.above (m * 2 ^ (e - f.quantum m e).toNat) (f.quantum m e) = true := by
    rw [above_iff hf, Nat.cast_mul, mul_assoc, ← zpow_two_split hq]
    exact not_lt.2 hle
  by_cases h5 : r.mode = 5
  · simp only [round_of_five hf h5, hcut, rounded_of_whole, if_neg hwithin]
  · simp only [round_of_ne_five h5, hcut, rounded_of_whole, if_neg hwithin]

variable (hf : f.Proper) (hmin : f.qmin ≤ v - ((f.m : Int) - 1)) (r : Rounding) (s : Bool)
include hf hmin

/-- A power of two within the format rounds to itself in every mode. -/
theorem round_one (hmax : (2 : ℚ) ^ v ≤ f.largest) :
    f.round r s 1 v false = .value (2 ^ (f.m - 1)) (v - ((f.m : Int) - 1)) := by
  have := hf.1
  have hq := quantum_one hmin
  rw [round_exact hf (by omega) (by rwa [Nat.cast_one, one_mul]) r s, hq, one_mul,
    show (v - (v - ((f.m : Int) - 1))).toNat = f.m - 1 by omega]

theorem put_one (o : Overflow) (hmax : (2 : ℚ) ^ v ≤ f.largest) :
    f.put o r (.fin s 1 v false) = f.pack s (v + f.bias).toNat 0 := by
  have := two_pow_m hf
  have := Nat.two_pow_pos (f.m - 1)
  rw [put_of_value o (round_one hf hmin r s hmax), FloatFmt.encode, if_neg (by omega), if_neg (by omega),
    if_pos (by omega), Nat.sub_self, show v - ((f.m : Int) - 1) + f.bias + ((f.m : Int) - 1) = v + f.bias by omega]

/-- A power of two beyond the format overflows in every mode, whatever follows it (R151). -/
theorem round_one_overflow (hmax : f.largest < (2 : ℚ) ^ v) : f.round r s 1 v more = .overflow := by
  have habove (mode d : Nat) : f.above ((cutAt 1 v more (f.quantum 1 v)).rounded mode d s) (f.quantum 1 v) = true := by
    refine above_mono hf (sig_le_rounded _ mode d s) ?_
    rw [cut_one more hf hmin, above_iff hf, quantum_one hmin, two_pow_fraction_scaled hf]
    exact hmax
  unfold FloatFmt.round
  split
  · exact if_pos (habove 0 0)
  · exact if_pos (habove r.mode r.d)

end

theorem fp32_largest : fp32Fmt.largest = (2 ^ 24 - 1) * 2 ^ 104 := by
  have hq : fp32Fmt.maxQ = 104 := by decide
  have hsig : fp32Fmt.maxSig = 16777215 := rfl
  rw [FloatFmt.largest, hq, hsig]
  norm_num

theorem two_zpow_le_fp32_largest {v : Int} (h : v ≤ 127) : (2 : ℚ) ^ v ≤ fp32Fmt.largest := by
  refine (zpow_le_zpow_right₀ one_le_two h).trans ?_
  rw [fp32_largest]
  norm_num

theorem fp32_largest_lt_two_zpow {v : Int} (h : 128 ≤ v) : fp32Fmt.largest < (2 : ℚ) ^ v := by
  refine lt_of_lt_of_le ?_ (zpow_le_zpow_right₀ one_le_two h)
  rw [fp32_largest]
  norm_num

/-- The FP32 encoding of a power of two. -/
theorem fp32_put_one {v : Int} (hlo : -126 ≤ v) (hhi : v ≤ 127) (o : Overflow) (r : Rounding) (s : Bool) :
    fp32Fmt.put o r (.fin s 1 v false) = fp32Fmt.pack s (v + 127).toNat 0 :=
  put_one fp32Fmt_proper (show (-149 : Int) ≤ v - 23 by omega) r s o (two_zpow_le_fp32_largest hhi)

theorem fp32_put_overflow {v : Int} (h : 128 ≤ v) (r : Rounding) (more : Bool) :
    fp32Fmt.put .ieee r (.fin false 1 v more) = if r.mode = 1 ∨ r.mode = 2 then 0x7F7FFFFF else 0x7F800000 := by
  rw [FloatFmt.put, round_one_overflow more fp32Fmt_proper (show (-149 : Int) ≤ v - 23 by omega) r false
    (fp32_largest_lt_two_zpow h)]
  show fp32Fmt.overflowEnc .ieee r.mode false = _
  by_cases hd : TowardZero r.mode false
  · rw [overflowEnc_towardZero _ hd, if_pos (by simpa [TowardZero] using hd)]
    rfl
  · rw [overflowEnc_of_not_towardZero _ hd, if_neg (by simpa [TowardZero] using hd)]
    rfl

/-- A normal power of two decodes to its significand and quantum, `.ftz` or not. -/
theorem fp32_decode_pack_zero {k : Nat} (h1 : 1 ≤ k) (h2 : k ≤ 254) (ftz n : Bool) :
    fp32Fmt.decode ftz (fp32Fmt.pack n k 0) = .fin n (2 ^ 23) ((k : Int) - 150) false := by
  have hnan : fp32Fmt.isNanEnc k 0 = false := by simp [FloatFmt.isNanEnc, fp32Fmt]
  have hinf : fp32Fmt.isInfEnc k 0 = false := by simp [FloatFmt.isInfEnc, FloatFmt.hasInf, fp32Fmt]; omega
  rw [decode_pack n (by decide) (by decide) (show k < 2 ^ 8 by omega), hnan, hinf, if_neg Bool.false_ne_true,
    if_neg Bool.false_ne_true, if_neg (by omega)]
  show Num.fin n (2 ^ 23 + 0) ((k : Int) - 127 - (24 - 1)) false = _
  congr 1
  omega

/-- Only the low 32 bits are read. -/
theorem fp32_decode_mod (ftz : Bool) (x : Nat) : fp32Fmt.decode ftz (x % 2 ^ 32) = fp32Fmt.decode ftz x := by
  obtain ⟨hs, he, hf⟩ := fp32_parts x
  obtain ⟨hs', he', hf'⟩ := fp32_parts (x % 2 ^ 32)
  have hsign : fp32Fmt.sign (x % 2 ^ 32) = fp32Fmt.sign x := by
    rw [hs, hs', Nat.testBit_mod_two_pow]
    rfl
  have hexp : fp32Fmt.exp (x % 2 ^ 32) = fp32Fmt.exp x := by omega
  have hfrac : fp32Fmt.frac (x % 2 ^ 32) = fp32Fmt.frac x := by omega
  unfold FloatFmt.decode
  rw [hsign, hexp, hfrac]

/-- A value of at least 1 is no subnormal, so `.ftz` leaves it. -/
theorem fp32_decode_ftz {x m : Nat} {e : Int} {n more : Bool} (h : fp32Fmt.decode false x = .fin n m e more)
    (hge : 1 ≤ (m : ℚ) * 2 ^ e) (ftz : Bool) : fp32Fmt.decode ftz x = .fin n m e more := by
  have hexp : fp32Fmt.exp x ≠ 0 := by
    intro h0
    have hfrac : fp32Fmt.frac x < 2 ^ 23 := Nat.mod_lt _ (Nat.two_pow_pos _)
    have hdec : fp32Fmt.decode false x = .mk' (fp32Fmt.sign x) (fp32Fmt.frac x) (-149) := by
      unfold FloatFmt.decode
      rw [h0]
      rfl
    rw [hdec, Num.mk'] at h
    split at h <;> cases h
    have hlt : (fp32Fmt.frac x : ℚ) * 2 ^ (-149 : Int) < 2 ^ 23 * 2 ^ (-149 : Int) :=
      mul_lt_mul_of_pos_right (by exact_mod_cast hfrac) (zpow_two_pos _)
    norm_num at hlt hge
    linarith
  rw [← h]
  unfold FloatFmt.decode
  simp only [if_neg hexp]

/-! ## 2^x of an integer (R158) -/

/-- `2^x` is exact where `x` is an integer below 2^20. -/
theorem exp2Num_of_integer {neg : Bool} {m j : Nat} {e : Int} (hm : 0 < m) (hj : j < 2 ^ 20) (h : (m : ℚ) * 2 ^ e = j) :
    exp2Num neg m e = .inl (.fin false 1 (if neg then -(j : Int) else j) false) := by
  have hlen : ¬ 20 < e + (bitLen m : Int) := by
    intro hlt
    have h20 : (2 : ℚ) ^ (20 : Int) ≤ j := by
      rw [← h]
      exact (zpow_le_zpow_right₀ one_le_two (by omega)).trans (zpow_bitLen_le_mul_zpow hm e)
    have : 2 ^ 20 ≤ j := by exact_mod_cast h20
    omega
  unfold exp2Num
  rw [if_neg hlen]
  split
  · rename_i he
    have hv : m <<< e.toNat = j := by
      rw [Nat.shiftLeft_eq]
      have h' : (m : ℚ) * 2 ^ ((e.toNat : Nat) : Int) = j := by rwa [Int.toNat_of_nonneg he]
      exact_mod_cast h'
    simp only [hv]
  · rename_i he
    have hv : m = j * 2 ^ (-e).toNat := by
      have h' : (m : ℚ) = j * 2 ^ (((-e).toNat : Nat) : Int) := by
        rw [← h, Int.toNat_of_nonneg (by omega), mul_assoc, ← zpow_add₀ two_ne_zero, add_neg_cancel, zpow_zero, mul_one]
      exact_mod_cast h'
    rw [if_pos (by rw [hv, Nat.mul_mod_left])]
    rw [hv, Nat.mul_div_cancel _ (Nat.two_pow_pos _)]

end Sys2Proof.Machine
end

section
namespace Sys2Proof.Machine

/-! ## LOGC and EXPC (R149) -/

/-- A NaN is one under `.ftz` too. -/
theorem decode_nan {f : FloatFmt} {x : Nat} (h : f.decode false x = .nan) (ftz : Bool) : f.decode ftz x = .nan := by
  unfold FloatFmt.decode at h ⊢
  dsimp only at h ⊢
  by_cases hn : f.isNanEnc (f.exp x) (f.frac x) = true
  · exact if_pos hn
  · rw [if_neg hn] at h
    unfold Num.mk' at h
    split_ifs at h

theorem fp32_decode_inf (ftz n : Bool) :
    fp32Fmt.decode ftz (if n then 0xFF800000 else 0x7F800000 : Word).toNat = .inf n := by
  cases ftz <;> cases n <;> decide

theorem fp32_decode_zero (ftz n : Bool) :
    fp32Fmt.decode ftz (if n then 0x80000000 else 0 : Word).toNat = .zero n := by
  cases ftz <;> cases n <;> decide

theorem fp32_decode_ofNat_pack {k : Nat} (h1 : 1 ≤ k) (h2 : k ≤ 254) (ftz n : Bool) :
    fp32Fmt.decode ftz (BitVec.ofNat 32 (fp32Fmt.pack n k 0)).toNat = .fin n (2 ^ 23) ((k : Int) - 150) false := by
  rw [BitVec.toNat_ofNat, fp32_decode_mod, fp32_decode_pack_zero h1 h2]

theorem logc_nan {r : Rounding} {x : Word} (h : fp32Fmt.decode r.ftz x.toNat = .nan) : logc r x = 0x40000001 := by
  unfold logc
  rw [h]
  rfl

theorem logc_inf {r : Rounding} {x : Word} {n : Bool} (h : fp32Fmt.decode r.ftz x.toNat = .inf n) :
    logc r x = L32.enc (.inf n) := by
  unfold logc
  rw [h]

theorem logc_zero {r : Rounding} {x : Word} {n : Bool} (h : fp32Fmt.decode r.ftz x.toNat = .zero n) :
    logc r x = L32.enc (.zero n) := by
  unfold logc
  rw [h]

/-- The logarithm of a power of two of FP32 is its exponent in units of 2^-23. -/
theorem logc_two_pow {r : Rounding} {x : Word} {n : Bool} {e : Int} (h : fp32Fmt.decode r.ftz x.toNat = .fin n (2 ^ 23) e false)
    (hlo : -149 ≤ e) (hhi : e ≤ 104) : logc r x = L32.enc (.fin n ((e + 23) * 2 ^ 23)) := by
  have hlen : bitLen (2 ^ 23) = 24 := by decide
  unfold logc
  rw [h]
  dsimp only
  rw [hlen, if_pos rfl, show e + ((24 : Nat) : Int) - 1 = e + 23 by omega, if_neg (by omega), if_neg (by omega)]

theorem expc_nan (r : Rounding) {x : Word} (h : l32Of x = .nan) : expc r x = 0x7FC00000 := by
  unfold expc
  rw [h]
  rfl

theorem expc_inf (r : Rounding) (n : Bool) : expc r (L32.enc (.inf n)) = if n then 0xFF800000 else 0x7F800000 := by
  unfold expc
  rw [show l32Of (L32.enc (.inf n)) = .inf n by cases n <;> decide]
  cases n <;> rfl

theorem expc_zero (r : Rounding) (n : Bool) : expc r (L32.enc (.zero n)) = if n then 0x80000000 else 0 := by
  unfold expc
  rw [show l32Of (L32.enc (.zero n)) = .zero n by cases n <;> decide]
  cases n <;> rfl

/-- EXPC of a whole exponent is that power of two. -/
theorem expc_whole (r : Rounding) {x : Word} {n : Bool} {v : Int} (h : l32Of x = .fin n (v * 2 ^ 23)) (hlo : -126 ≤ v)
    (hhi : v ≤ 127) : expc r x = BitVec.ofNat 32 (fp32Fmt.pack n (v + 127).toNat 0) := by
  have hput := fp32_put_one hlo hhi .ieee r n
  unfold expc
  rw [h]
  dsimp only
  by_cases h0 : v = 0
  · rw [if_pos (by rw [h0, zero_mul]), ← hput, h0]
  · have hnum : exp2Num (decide (v * 2 ^ 23 < 0)) (v * 2 ^ 23).natAbs (-23) = .inl (.fin false 1 v false) := by
      have habs : (v * 2 ^ 23).natAbs = v.natAbs * 2 ^ 23 := by omega
      have hval : ((v.natAbs * 2 ^ 23 : Nat) : ℚ) * 2 ^ (-23 : Int) = v.natAbs := by
        push_cast
        norm_num [mul_assoc]
      rw [habs, exp2Num_of_integer (by omega) (by omega) hval]
      have hsign : (if decide (v * 2 ^ 23 < 0) = true then -(v.natAbs : Int) else v.natAbs) = v := by
        simp only [decide_eq_true_eq]
        split_ifs <;> omega
      rw [hsign]
    rw [if_neg (by omega), hnum, ← hput]
    cases n <;> rfl

/-! ## The function entries (R260) -/

/-- A function whose value is exact rounds it once. -/
theorem apply_of_value {f : Func} {r : Rounding} {x : Word} {v : Num}
    (h : f.value (fp32Fmt.decode r.ftz x.toNat) = .inl v) : f.apply r x = BitVec.ofNat 32 (fp32Fmt.put .ieee r v) := by
  unfold Func.apply
  rw [h]

theorem apply_nan (f : Func) {r : Rounding} {x : Word} (h : fp32Fmt.decode r.ftz x.toNat = .nan) : f.apply r x = 0x7FC00000 :=
  apply_of_value (v := .nan) (by rw [h]; cases f <;> rfl)

theorem apply_inf {f : Func} (r : Rounding) {n : Bool} {v : Num} (h : f.value (.inf n) = .inl v) :
    f.apply r (if n then 0xFF800000 else 0x7F800000) = BitVec.ofNat 32 (fp32Fmt.put .ieee r v) :=
  apply_of_value (by rw [fp32_decode_inf, h])

theorem apply_zero {f : Func} (r : Rounding) {n : Bool} {v : Num} (h : f.value (.zero n) = .inl v) :
    f.apply r (if n then 0x80000000 else 0) = BitVec.ofNat 32 (fp32Fmt.put .ieee r v) :=
  apply_of_value (by rw [fp32_decode_zero, h])

/-- Plus or minus 1, rounded. -/
theorem ofNat_put_unit (r : Rounding) (n : Bool) :
    BitVec.ofNat 32 (fp32Fmt.put .ieee r (.fin n 1 0 false)) = if n then 0xBF800000 else 0x3F800000 := by
  rw [fp32_put_one (by decide) (by decide)]
  cases n <;> rfl

theorem exp2_large (r : Rounding) {x : Word} (h : x ∈ [0x43000000#32, 0x44000000#32, 0x7F7FFFFF#32]) :
    Func.exp2.apply r x = if r.mode = 1 ∨ r.mode = 2 then 0x7F7FFFFF else 0x7F800000 := by
  obtain ⟨v, more, hv, hnum⟩ : ∃ (v : Int) (more : Bool), 128 ≤ v
      ∧ Func.exp2.value (fp32Fmt.decode r.ftz x.toNat) = .inl (.fin false 1 v more) := by
    simp only [List.mem_cons, List.not_mem_nil, or_false] at h
    rcases h with rfl | rfl | rfl
    · have hdec : fp32Fmt.decode r.ftz (0x43000000#32).toNat = .fin false (2 ^ 23) (-16) false := by
        cases r.ftz <;> decide
      exact ⟨128, false, by decide, hdec ▸ exp2Num_of_integer (j := 128) (by decide) (by decide) (by norm_num)⟩
    · have hdec : fp32Fmt.decode r.ftz (0x44000000#32).toNat = .fin false (2 ^ 23) (-14) false := by
        cases r.ftz <;> decide
      exact ⟨512, false, by decide, hdec ▸ exp2Num_of_integer (j := 512) (by decide) (by decide) (by norm_num)⟩
    · have hdec : fp32Fmt.decode r.ftz (0x7F7FFFFF#32).toNat = .fin false (2 ^ 24 - 1) 104 false := by
        cases r.ftz <;> decide
      have hnum : exp2Num false (2 ^ 24 - 1) 104 = .inl (.fin false 1 1048576 true) := if_pos (by decide)
      exact ⟨1048576, true, by decide, hdec ▸ hnum⟩
  rw [apply_of_value hnum, fp32_put_overflow hv]
  split <;> rfl

theorem fp32_quantum_le_zero {m : Nat} (h : m < 2 ^ 23) : fp32Fmt.quantum m 0 ≤ 0 := by
  have hlen := bitLen_le_of_lt h
  have hq : fp32Fmt.quantum m 0 = max (0 + (bitLen m : Int) - 1 - (24 - 1)) (-149) := rfl
  omega

/-- The FP32 encoding of a small integer decodes to its magnitude, `.ftz` or not. -/
theorem fp32_decode_put_int {j : Int} (h0 : j ≠ 0) (hj : j.natAbs < 2 ^ 23) (ftz : Bool) : ∃ (m : Nat) (e : Int), 0 < m
    ∧ (m : ℚ) * 2 ^ e = j.natAbs
    ∧ fp32Fmt.decode ftz (BitVec.ofNat 32 (fp32Fmt.put .ieee { mode := 0, d := 0, ftz := false } (Num.ofInt j))).toNat
        = .fin (decide (j < 0)) m e false := by
  have hpos : 0 < j.natAbs := Int.natAbs_pos.2 h0
  have hq := fp32_quantum_le_zero hj
  have hval : ((j.natAbs : Nat) : ℚ) * 2 ^ (0 : Int) = j.natAbs := by rw [zpow_zero, mul_one]
  have hle : ((j.natAbs : Nat) : ℚ) * 2 ^ (0 : Int) ≤ fp32Fmt.largest := by
    rw [hval]
    refine le_trans ?_ (two_zpow_le_fp32_largest (v := 23) (by decide))
    exact_mod_cast hj.le
  have hround := round_exact fp32Fmt_proper hq hle { mode := 0, d := 0, ftz := false } (decide (j < 0))
  obtain ⟨hsig, hmin, hnorm, hlarge⟩ := round_value_of_format fp32Fmt_proper hpos hround
  obtain ⟨m, e, hdec, hme⟩ := has_encode fp32Fmt_proper (decide (j < 0)) (by positivity) hsig hmin hnorm hlarge
  rw [Nat.cast_mul, mul_assoc, ← zpow_two_split hq, hval] at hme
  have hge : 1 ≤ (m : ℚ) * 2 ^ e := by
    rw [hme]
    exact_mod_cast hpos
  refine ⟨m, e, (decode_fin hdec).1, hme, ?_⟩
  rw [BitVec.toNat_ofNat, fp32_decode_mod, Num.ofInt, if_neg h0, put_of_value .ieee hround]
  exact fp32_decode_ftz hdec hge ftz

theorem exp2_integer (r : Rounding) {k : Nat} (h1 : 1 ≤ k) (h2 : k ≤ 254) : Func.exp2.apply r
    (BitVec.ofNat 32 (fp32Fmt.put .ieee { mode := 0, d := 0, ftz := false } (Num.ofInt ((k : Int) - 127))))
      = BitVec.ofNat 32 (fp32Fmt.pack false k 0) := by
  have hput := fp32_put_one (v := (k : Int) - 127) (by omega) (by omega) .ieee r false
  rw [show ((k : Int) - 127 + 127).toNat = k by omega] at hput
  rw [← hput]
  by_cases h0 : (k : Int) - 127 = 0
  · rw [h0]
    refine apply_of_value ?_
    exact congrArg Func.exp2.value (fp32_decode_zero r.ftz false)
  · obtain ⟨m, e, hm, hval, hdec⟩ := fp32_decode_put_int h0 (by omega) r.ftz
    refine apply_of_value ?_
    rw [hdec]
    show exp2Num _ m e = _
    rw [exp2Num_of_integer hm (by omega) hval]
    simp only [decide_eq_true_eq]
    split_ifs <;> congr 2 <;> omega

theorem decode_sign {f : FloatFmt} {ftz : Bool} {x : Nat} (h : f.sign x = true) : (f.decode ftz x).isNan = true
    ∨ (f.decode ftz x).neg = true := by
  have hmk (m : Nat) (e : Int) : (Num.mk' true m e).neg = true := by
    unfold Num.mk'
    split <;> rfl
  unfold FloatFmt.decode
  dsimp only
  rw [h]
  split_ifs
  · exact .inl rfl
  · exact .inr rfl
  · exact .inr rfl
  · exact .inr (hmk _ _)
  · exact .inr (hmk _ _)

/-- The logarithm of a negative value is a NaN. -/
theorem log2_negative {r : Rounding} {x : Word} (hs : x.getLsbD 31 = true)
    (h0 : fp32Fmt.decode r.ftz x.toNat ≠ .zero true) : Func.log2.apply r x = 0x7FC00000 := by
  refine apply_of_value (v := .nan) ?_
  have hneg := decode_sign (f := fp32Fmt) (ftz := r.ftz) (x := x.toNat) hs
  cases hv : fp32Fmt.decode r.ftz x.toNat with
  | nan => rfl
  | inf n =>
    rw [hv] at hneg
    cases n with
    | true => rfl
    | false => simp [Num.isNan, Num.neg] at hneg
  | zero n =>
    rw [hv] at hneg h0
    cases n with
    | true => exact absurd rfl h0
    | false => simp [Num.isNan, Num.neg] at hneg
  | fin n m e more =>
    rw [hv] at hneg
    cases n with
    | true => rfl
    | false => simp [Num.isNan, Num.neg] at hneg

theorem log2_one (r : Rounding) : Func.log2.apply r 0x3F800000 = 0 := by
  have hdec : fp32Fmt.decode r.ftz (0x3F800000 : Word).toNat = .fin false (2 ^ 23) (-23) false := by
    cases r.ftz <;> decide
  have hnum : Func.log2.value (.fin false (2 ^ 23) (-23) false) = .inl (.zero false) := by rfl
  exact apply_of_value (hdec ▸ hnum)

end Sys2Proof.Machine

open Sys2Proof Sys2Proof.Machine

/-- Settles O12: a power of two is kept by every rounding, 2^x of an integer is a power of two, and what is special is read from
its encoding. -/
theorem logDomainAndFunctions : Obligations.LogDomainAndFunctions := by
  refine ⟨fun w => ?words, fun s t e f y => ?tables, fun s e n => ?powers, fun s e q => ?roots, enc_l32Of, l32Of_eq_nan_iff, rfl,
    fun n => ?encodings, fun r x n => ?logs, fun r x f => ⟨fun h => apply_nan f (decode_nan h _), fun n => ?functions⟩⟩
  case words =>
    have h := formatResults_computes w
    simp only [formatResults, List.forall_mem_cons] at h
    obtain ⟨-, -, -, -, -, -, hlogc, hexpc, hlmul, hldiv, hlpow, hlroot, hfex2, hflg2, hfsin, hfcos, hftanh, hfsigm, -⟩ := h
    exact ⟨completesRounding_of_computes hlogc, completesRounding_of_computes hexpc, completesWith_of_gives hlmul,
      completesWith_of_gives hldiv, completesWith_of_gives hlpow, completesWith_of_gives hlroot,
      completesRounding_of_computes hfex2, completesRounding_of_computes hflg2, completesRounding_of_computes hfsin,
      completesRounding_of_computes hfcos, completesRounding_of_computes hftanh, completesRounding_of_computes hfsigm⟩
  case tables =>
    obtain ⟨h1, h2, h3, h4⟩ := l32_nan y
    exact ⟨h1, h2, h3, h4, rfl, rfl, rfl, rfl, rfl, rfl, rfl, rfl, rfl, rfl, rfl, rfl, rfl, rfl, rfl, rfl, rfl, rfl⟩
  case powers =>
    refine ⟨rfl, ?_, fun hn => l32_pow_of_ne_zero hn s e⟩
    rintro rfl
    exact l32_pow_zero
  case roots => exact ⟨rfl, rfl, rfl, rfl, rfl, root_fin_nearest e q⟩
  case encodings =>
    exact ⟨rfl, rfl, by cases n <;> decide, by cases n <;> decide, fun e => ⟨fun h => if_pos h, enc_fin_underflow n,
      l32Of_enc_fin n⟩⟩
  case logs =>
    refine ⟨fun h => logc_nan (decode_nan h _), logc_inf (fp32_decode_inf _ n), logc_zero (fp32_decode_zero _ n),
      fun k h1 h2 => ?_, fun h => expc_nan r h, expc_inf r n, expc_zero r n, fun k h1 h2 => ?_⟩
    · rw [logc_two_pow (fp32_decode_ofNat_pack h1 h2 _ n) (by omega) (by omega),
        show (k : Int) - 150 + 23 = k - 127 by omega]
    · rw [expc_whole r (l32Of_enc_fin n (by omega) (by omega)) (by omega) (by omega),
        show ((k : Int) - 127 + 127).toNat = k by omega]
  case functions =>
    intro inf zero
    refine ⟨(apply_inf r rfl).trans ?_, (apply_zero r rfl).trans (ofNat_put_unit r false), exp2_large r,
      fun k h1 h2 => exp2_integer r h1 h2, (apply_inf r rfl).trans ?_, apply_zero r (v := .inf true) rfl, log2_negative, log2_one r,
      apply_inf r (v := .nan) rfl, (apply_zero r rfl).trans ?_, apply_inf r (v := .nan) rfl, (apply_zero r rfl).trans (ofNat_put_unit r false),
      (apply_inf r rfl).trans (ofNat_put_unit r n), (apply_zero r rfl).trans ?_, (apply_inf r rfl).trans ?_,
      (apply_zero r rfl).trans ?_⟩
    · cases n <;> rfl
    · cases n <;> rfl
    · cases n <;> rfl
    · cases n <;> rfl
    · cases n with
      | true => rfl
      | false => exact ofNat_put_unit r false
    · rw [fp32_put_one (by decide) (by decide)]
      rfl
end

section
namespace Sys2Proof.Machine

/-! ## Branches (R202, R262) -/

section
variable {f : Rod → Lane → Except (Cause × DWord) Lane} {g : Lane → Lane} {s : State} {k : RodKey} {r : Rod} {i : Instr}
  {m : BitVec 32}

/-- Where every enabled lane has its target, a branch changes its rod alone. -/
theorem branchBody_of_ok (h : ∀ n : Fin 32, m.getLsbD n.val = true → actsOn i r.lanes[n] = true →
    f r r.lanes[n] = .ok (g r.lanes[n])) : branchBody f (mkIssue k r i m) s
      = s.setRod k (r.mapLanes m (fun _ x => if actsOn i x then g x else x.advance)) := by
  have hok (n : Fin 32) (hn : (mkIssue k r i m).enabled.getLsbD n.val = true) : f r r.lanes[n] = .ok (g r.lanes[n]) := by
    rw [enabled_eq, Bool.and_eq_true] at hn
    exact h n hn.1 hn.2
  unfold branchBody
  refine (takeFaults_nil _ _ _ (List.filterMap_eq_nil_iff.2 (fun a ha => ?_))).trans
    (congrArg (s.setRod k) (mapLanes_congr (r := r) (fun n hn => ?_)))
  · obtain ⟨ha, hn⟩ := mem_maskLanes.1 ha
    dsimp only [mkIssue] at hn ⊢
    rw [Rod.lane_lt r ha, hok ⟨a, ha⟩ hn]
  · have hon : (mkIssue k r i m).enabled.getLsbD n.val = actsOn i r.lanes[n] := by
      rw [enabled_eq, show m.getLsbD n.val = true from hn, Bool.true_and]
    rw [hon]
    by_cases ha : actsOn i r.lanes[n] = true
    · rw [if_pos ha, if_pos ha]
      dsimp only [mkIssue]
      rw [h n hn ha]
    · rw [if_neg ha, if_neg ha]

theorem exec_branch {l : Nat} (he : ∀ s, exec i s = issueWord i (branchBody f) s) (hi : IssuesFreely s k l r i)
    (h : ∀ n : Fin 32, (r.subRod l).getLsbD n.val = true → actsOn i r.lanes[n] = true → f r r.lanes[n] = .ok (g r.lanes[n])) :
    exec i s = .next (s.setRod k ((r.mapLanes (r.subRod l) (fun _ x =>
      if actsOn i x then g x else x.advance)).regroup (r.subRod l))) := by
  rw [he, issueWord_setRod hi (branchBody_of_ok h)]

/-- The only lane of a sub-rod has no target: its fault is all that the branch does. -/
theorem branchBody_of_error {l : Nat} {c : Cause} {a : DWord} (hi : IssuesAlone s k l r i)
    (hf : f r (r.lane l) = .error (c, a)) :
    branchBody f (mkIssue k r i (1#32 <<< l)) s = s.takeFault k (1#32 <<< l) (laneFault c (wordOf i) a) := by
  have hself : s.setRod k r = s := by
    show { s with rods := tableSet k r s.rods } = s
    rw [tableSet_of_find hi.2.1]
  unfold branchBody
  rw [hi.enabled, maskLanes_one hi.lane_lt]
  dsimp only [mkIssue]
  rw [mapLanes_fixed (r := r) (fun n hn => ?_), hself, List.filterMap_cons, hf]
  · rfl
  · have hnl : n.val = l := by rwa [getLsbD_one_shiftLeft, decide_eq_true_eq] at hn
    rw [if_pos hn, ← Rod.lane_eq, hnl, hf]

/-- It parks there under one record. -/
theorem exec_branch_parks {p : FrameId} {l n : Nat} {c : Cause} {a : DWord} (he : ∀ s, exec i s = issueWord i (branchBody f) s)
    (hi : IssuesAlone s (rodKey p n) l r i) (hf : f r (r.lane l) = .error (c, a)) :
    ∃ t q, exec i s = .next t ∧ t.rod? (rodKey p n) = some q ∧ (q.lane l).st = .parked ∧ (q.lane l).pc = (r.lane l).pc
      ∧ (t.frame p).records.getLast?.map (fun x => (x.cause, x.addr, x.lanes)) = some (c.code, a, 1#32 <<< l) := by
  have hlane := park_lane r (1#32 <<< l) (s.frame p).recSeq ⟨l, hi.lane_lt⟩
  rw [getLsbD_one_shiftLeft, decide_eq_true rfl, if_pos rfl, ← Rod.lane_lt, ← Rod.lane_lt] at hlane
  refine ⟨_, _, (he s).trans (issueWord_alone hi ((branchBody_of_error hi hf).trans (takeFault_rod hi.1.rod _ _))),
    State.rod?_setRod_same _ _ _, ?_, ?_, ?_⟩
  · rw [hlane]
  · rw [hlane]
  · rw [State.frame_setRod, State.frame_modFrame_same]
    simp [recordOf, laneFault]

end

/-! ### Targets -/

theorem fieldOperand_pair {r : Rod} {x : Lane} {v : BitVec 8} (h : r.holds v.toNat = true)
    (h1 : r.holds (v.toNat + 1) = true) : fieldOperand r x .pair v false 0 = .ok (.pair v.toNat) := by
  simp [fieldOperand, List.range_succ, h, h1]

/-- The low three bits of an aligned target are clear (R202). -/
theorem extractLsb_eq_zero_iff (t : DWord) : t.extractLsb' 0 3 = 0#3 ↔ t.toNat % 8 = 0 := by
  rw [← BitVec.toNat_inj, BitVec.extractLsb'_toNat]
  rfl

theorem indirectBranch_held {r : Rod} {x : Lane} {a : BitVec 8} (h : r.holds a.toNat = true)
    (h1 : r.holds (a.toNat + 1) = true) : indirectBranch a r x = if (x.pair a.toNat).toNat % 8 = 0 then
      .ok { x with pc := x.pair a.toNat } else .error (.misaligned, x.pair a.toNat) := by
  unfold indirectBranch
  rw [fieldOperand_pair h h1]
  simp only [bne_iff_ne, ne_eq, extractLsb_eq_zero_iff, ite_not]

/-- CALL on a lane without marks. -/
theorem callStep_held {w : BWord} {r : Rod} {x : Lane} (h : r.holds w.a.toNat = true) (h1 : r.holds (w.a.toNat + 1) = true)
    (hq : x.marked = []) : callStep w r x = .ok { x.setPair w.a.toNat (x.pc + 8) with pc := BWord.target w x.pc } := by
  have hm : (x.setPair w.a.toNat (x.pc + 8)).unmark [w.a.toNat, w.a.toNat + 1] = x.setPair w.a.toNat (x.pc + 8) := by
    have : (x.setPair w.a.toNat (x.pc + 8)).marked = [] := hq
    unfold Lane.unmark
    rw [this, List.filter_nil, ← this]
  unfold callStep
  rw [fieldOperand_pair h h1]
  dsimp only
  rw [hm]

theorem rodKey_of_slot {k : RodKey} {n : Nat} (h : k.slot = .rod n) : k = rodKey k.frame n := by
  obtain ⟨p, t⟩ := k
  cases h
  rfl

end Sys2Proof.Machine

open Sys2Proof Sys2Proof.Machine

/-- Settles O16: a branch whose enabled lanes all have their target changes its rod alone; a lane without one parks. -/
theorem branches : Obligations.Branches := by
  refine ⟨fun w s k l r h => ?_, fun w s k l r h ha ha1 => ?_, fun w i s k l r hi h ha ha1 hal => ?_,
    fun w i s k l n r hi h hk hm hg ha ha1 hmis => ?_⟩
  · exact exec_branch (g := fun x => { x with pc := BWord.target w x.pc }) (fun _ => rfl) h (fun _ _ _ => rfl)
  · exact exec_branch (g := fun x => { x.setPair w.a.toNat (x.pc + 8) with pc := BWord.target w x.pc }) (fun _ => rfl) h
      (fun n hn _ => callStep_held ha ha1 (h.2.1 n hn).2.1)
  · rcases hi with rfl | rfl
    · exact exec_branch (fun _ => rfl) h (fun n hn hg => (indirectBranch_held ha ha1).trans (if_pos (hal n hn hg)))
    · exact exec_branch (fun _ => rfl) h (fun n hn hg => (indirectBranch_held ha ha1).trans (if_pos (hal n hn hg)))
  · obtain hkey := rodKey_of_slot hk
    have hf : indirectBranch w.a r (r.lane l) = .error (.misaligned, (r.lane l).pair w.a.toNat) :=
      (indirectBranch_held ha ha1).trans (if_neg hmis)
    have hfind : tableFind k s.rods = some r := by
      have hr := h.rod
      rwa [State.rod?, hk] at hr
    rw [hkey] at h hfind ⊢
    rcases hi with rfl | rfl
    · exact exec_branch_parks (fun _ => rfl) ⟨h, hfind, hm, hg⟩ hf
    · exact exec_branch_parks (fun _ => rfl) ⟨h, hfind, hm, hg⟩ hf
end
section
namespace Sys2Proof.Machine

/-! ## Cross-lane words on a sub-rod of any number of items (R248, R249) -/

/-- Lanes of a list that change one after the other, each by itself, change as if at once. -/
theorem foldl_setLane {g : Nat → Lane → Lane} {ls : List Nat} (h : ls.Nodup) (q : Rod) :
    ls.foldl (fun q a => q.setLane a (g a (q.lane a))) q
      = q.mapLanes (maskOf (fun n => decide (n.val ∈ ls))) (fun n x => g n.val x) := by
  induction ls generalizing q with
  | nil => exact (mapLanes_fixed (fun n hn => by simp [maskOf] at hn)).symm
  | cons a ls ih =>
    obtain ⟨ha, hls⟩ := List.nodup_cons.1 h
    rw [List.foldl_cons, ih hls]
    simp only [Rod.mapLanes, Rod.setLane, Rod.mk.injEq, true_and, and_true]
    ext n hn
    by_cases hna : n = a
    · subst hna
      simp [maskOf, ha, Rod.lane_lt q hn]
    · simp [maskOf, hna]

theorem foldl_setLane_maskLanes (q : Rod) (m : BitVec 32) (g : Nat → Lane → Lane) :
    (maskLanes m).foldl (fun q a => q.setLane a (g a (q.lane a))) q = q.mapLanes m (fun n x => g n.val x) := by
  have hm : maskOf (fun n => decide (n.val ∈ maskLanes m)) = m :=
    BitVec.eq_of_getLsbD_eq (fun n hn => by simp [maskOf, mem_maskLanes, hn])
  rw [foldl_setLane (ls := maskLanes m) (List.nodup_range.filter _), hm]

/-- Two changes to the lanes of a rod, as one. -/
theorem mapLanes_twice {q : Rod} {e m : BitVec 32} {f g c : Fin 32 → Lane → Lane}
    (hc : ∀ n : Fin 32,
      (if m.getLsbD n.val then g n (if e.getLsbD n.val then f n q.lanes[n] else q.lanes[n])
        else if e.getLsbD n.val then f n q.lanes[n] else q.lanes[n])
      = if m.getLsbD n.val then c n q.lanes[n] else q.lanes[n]) :
    (q.mapLanes e f).mapLanes m g = q.mapLanes m c := by
  simp only [Rod.mapLanes, Rod.mk.injEq, true_and, and_true]
  ext n hn
  simp only [Vector.getElem_ofFn, Fin.getElem_fin]
  exact hc ⟨n, hn⟩

/-- The lanes of a sub-rod on which a word acts, in ascending order. -/
def actors (r : Rod) (m : BitVec 32) (i : Instr) : List (Fin 32) :=
  (List.finRange 32).filter (fun n => m.getLsbD n.val && actsOn i r.lanes[n])

theorem maskLanes_enabled (k : RodKey) (r : Rod) (i : Instr) (m : BitVec 32) :
    maskLanes (mkIssue k r i m).enabled = (actors r m i).map Fin.val := by
  unfold maskLanes actors
  rw [← List.map_coe_finRange_eq_range, List.filter_map]
  refine congrArg (List.map Fin.val) (List.filter_congr (fun n _ => ?_))
  exact enabled_eq k r i m n

/-- What the lanes of a list bring to a cross-lane word. -/
def crossInputs (s : State) (r : Rod) (i : Instr) (on : List (Fin 32)) : List (Nat × LaneIn) :=
  on.map (fun n => (n.val, (gathered s r i n.val).input))

section
variable {s : State} {k : RodKey} {l : Nat} {r : Rod} {i : Instr} {F : List (Nat × LaneIn) → LaneIn → LaneOut}

/-- A lane that took part without carries completes, and takes and publishes no generation. -/
theorem commitCross_plain {ps : List (Nat × LaneIn)} {a : Pass} {n : Nat} (hc : (planOf i).hasCarry = false)
    (ho : (laneOperands r (r.lane n) (planOf i)).isOk = true) :
    commitCross s F ps a (n, gathered s r i n) = { a with
      rod := a.rod.setLane n
        ((a.rod.lane n).complete (gathered s r i n).ops.dst (F ps (gathered s r i n).input)) } := by
  have hw : (gathered s r i n).ops.writeSlot = none := by
    cases h : laneOperands r (r.lane n) (planOf i) with
    | error c =>
      rw [h] at ho
      cases ho
    | ok o =>
      simp only [gathered, h, Except.toOption, Option.getD_some]
      exact (operands_of_no_carry hc h).2
  have hgot : (gathered s r i n).got = [] := rfl
  simp only [commitCross, commitLane, hgot, hw, List.foldl_nil]

theorem foldl_commitCross_plain {ps : List (Nat × LaneIn)} {ls : List Nat} (hc : (planOf i).hasCarry = false)
    (h : ∀ n ∈ ls, (laneOperands r (r.lane n) (planOf i)).isOk = true) (a : Pass) :
    (ls.map (fun n => (n, gathered s r i n))).foldl (commitCross s F ps) a = { a with
      rod := ls.foldl (fun q n => q.setLane n
        ((q.lane n).complete (gathered s r i n).ops.dst (F ps (gathered s r i n).input))) a.rod } := by
  induction ls generalizing a with
  | nil => rfl
  | cons n ls ih =>
    rw [List.map_cons, List.foldl_cons, commitCross_plain hc (h n List.mem_cons_self),
      ih (fun x hx => h x (List.mem_cons_of_mem _ hx)), List.foldl_cons]

/-- A word that names no carry publishes none of the slots it reads. -/
theorem circular_of_no_carry {is : Issue} {p : Plan} (hp : p.hasCarry = false) : circular s is p = false := by
  simp only [Plan.hasCarry, Bool.or_eq_false_iff] at hp
  obtain ⟨⟨⟨nd, -⟩, -⟩, -⟩ := hp
  simp only [circular, nd, Bool.false_and]

/-- The body of a cross-lane word without carries whose operands hold: the lanes on which it acts complete, the others go
on. -/
theorem crossBody_plain (hc : (planOf i).hasCarry = false) (ho : OperandsHold r (r.subRod l) i) :
    crossBody F (mkIssue k r i (r.subRod l)) s = s.setRod k (r.mapLanes (r.subRod l) (fun n x =>
      if actsOn i x then x.complete (gathered s r i n.val).ops.dst
        (F (crossInputs s r i (actors r (r.subRod l) i)) (gathered s r i n.val).input)
      else x.advance)) := by
  set is := mkIssue k r i (r.subRod l) with his
  have hok : ∀ n ∈ maskLanes is.enabled, (laneOperands r (r.lane n) (planOf i)).isOk = true := fun n hn => by
    obtain ⟨h1, h2⟩ := mem_maskLanes.1 hn
    have he := enabled_eq k r i (r.subRod l) ⟨n, h1⟩
    rw [← his, h2] at he
    obtain ⟨hm, ha⟩ := Bool.and_eq_true_iff.1 he.symm
    rw [Rod.lane_lt r h1]
    exact ho ⟨n, h1⟩ hm ha
  have hgather (ripple : Bool) : gatherAll s is (planOf i) ripple
      = { pass := is.pass s, took := (maskLanes is.enabled).map (fun n => (n, gathered s r i n)) } :=
    (foldl_gatherStep_plain (is := is) hc hok rfl).trans rfl
  have hin : CrossPass.inputs { pass := is.pass s, took := (maskLanes is.enabled).map (fun n => (n, gathered s r i n)) }
      = crossInputs s r i (actors r (r.subRod l) i) := by
    unfold CrossPass.inputs crossInputs
    rw [maskLanes_enabled, List.map_map, List.map_map]
    rfl
  unfold crossBody
  rw [show planOf is.instr = planOf i from rfl]
  dsimp only
  rw [circular_of_no_carry hc, if_neg Bool.false_ne_true, hgather, hin, foldl_commitCross_plain hc hok,
    finishPass_clean rfl rfl rfl rfl]
  dsimp only
  rw [foldl_setLane_maskLanes (is.pass s).rod is.enabled (fun n x => x.complete (gathered s r i n).ops.dst
    (F (crossInputs s r i (actors r (r.subRod l) i)) (gathered s r i n).input))]
  refine congrArg (s.setRod k) (mapLanes_twice (fun n => ?_))
  rw [show (is.pass s).rod = r from rfl, show is.active = r.subRod l from rfl, enabled_eq]
  cases (r.subRod l).getLsbD n.val <;> cases h : actsOn i r.lanes[n] <;> simp

/-- A cross-lane word without carries completes on every lane on which it acts. -/
theorem exec_of_crossOp {f : List (Nat × LaneIn) → LaneIn → LaneWrite}
    (he : ∀ s, exec i s = crossOp i (fun ps x => .of (f ps x)) s) (h : IssuesFreely s k l r i)
    (hc : (planOf i).hasCarry = false) (ho : OperandsHold r (r.subRod l) i) :
    exec i s = .next (s.setRod k (r.mapLanes (r.subRod l) (fun n x =>
      if actsOn i x then ((f (crossInputs s r i (actors r (r.subRod l) i)) (gathered s r i n.val).input).apply
        (gathered s r i n.val).ops.dst x).advance
      else x.advance))) := by
  have hbody := (crossBody_plain (s := s) (k := k) (F := fun ps x => .of (f ps x)) hc ho).trans (congrArg (s.setRod k)
    (mapLanes_congr (g := fun n x =>
      if actsOn i x then ((f (crossInputs s r i (actors r (r.subRod l) i)) (gathered s r i n.val).input).apply
        (gathered s r i n.val).ops.dst x).advance
      else x.advance) (fun n hn => by
        rw [complete_quiet (h.2.1 n hn).2.1]
        split
        · exact advance_rsCount_zero
        · rfl)))
  rw [he]
  refine (issueWord_setRod h hbody).trans ?_
  rw [regroup_advanced h.2.2 (fun n hn => ?_)]
  rw [mapLanes_lane, hn, if_pos rfl]
  split
  · obtain ⟨h1, h2, h3, h4⟩ := apply_outcome (f (crossInputs s r i (actors r (r.subRod l) i)) (gathered s r i n.val).input)
      (gathered s r i n.val).ops.dst r.lanes[n]
    rw [sameOutcome_iff]
    exact ⟨h1, congrArg (· + 8) h2, h3, h4⟩
  · exact sameOutcome_refl _

end

/-! ## The values of cross-lane words (R248) -/

section
variable {s : State} {r : Rod} {i : Instr} {on : List (Fin 32)}

theorem tableFind_crossInputs (t : Nat) :
    tableFind t (crossInputs s r i on)
      = (on.find? (fun o => decide (o.val = t))).map (fun o => (gathered s r i o.val).input) := by
  unfold crossInputs
  induction on with
  | nil => rfl
  | cons o on ih =>
    rw [List.map_cons, tableFind, List.find?_cons]
    by_cases h : o.val = t
    · simp [h]
    · simpa [h] using ih

/-- The source lane of LXCH by its mode, as a number that may lie outside the rod. -/
theorem lxchFn_crossInputs {mode : Nat} (hm : mode < 4) (x : LaneIn) :
    let b : Word := x.b.setWidth 32
    let t : Int := [(b.toNat : Int) % 32, (x.num : Int) + b.toInt, ((x.num : Int) + b.toNat) % 32,
      ((x.num ^^^ (b.toNat % 32) : Nat) : Int)].getD mode 0
    lxchFn mode (crossInputs s r i on) x
      = ((on.find? (fun o => (o.val : Int) = t)).map (fun o => (gathered s r i o.val).input.a)).getD x.a := by
  intro b t
  have hsome {u : Nat} (h : lxchSource mode x.num b = some u) (ht : t = u) : lxchFn mode (crossInputs s r i on) x
      = ((on.find? (fun o => (o.val : Int) = t)).map (fun o => (gathered s r i o.val).input.a)).getD x.a := by
    unfold lxchFn
    simp only [show lxchSource mode x.num (x.b.setWidth 32) = some u from h, tableFind_crossInputs, ht, Option.map_map,
      Nat.cast_inj]
    rfl
  obtain rfl | rfl | rfl | rfl : mode = 0 ∨ mode = 1 ∨ mode = 2 ∨ mode = 3 := by omega
  · exact hsome rfl (Int.natCast_mod _ _).symm
  · by_cases h : 0 ≤ t ∧ t < 32
    · exact hsome (u := t.toNat) (if_pos h) (Int.toNat_of_nonneg h.1).symm
    · have hn : on.find? (fun o => (o.val : Int) = t) = none := by
        rw [List.find?_eq_none]
        intro o _
        have := o.isLt
        simp only [decide_eq_true_eq]
        omega
      unfold lxchFn
      rw [show lxchSource 1 x.num (x.b.setWidth 32) = none from if_neg h, hn]
      rfl
  · exact hsome (u := (x.num + b.toNat) % 32) rfl (by simp [t])
  · exact hsome rfl rfl

theorem paggMask_crossInputs :
    paggMask (crossInputs s r i on) = BitVec.ofFnLE (fun o : Fin 32 =>
      decide (o ∈ on.filter (fun o => (gathered s r i o.val).input.a != 0))) := by
  refine congrArg BitVec.ofFnLE (funext fun o => ?_)
  rw [Bool.eq_iff_iff]
  simp only [crossInputs, List.any_map, List.any_eq_true, Function.comp_apply, Bool.and_eq_true, beq_iff_eq, decide_eq_true_eq,
    List.mem_filter]
  constructor
  · rintro ⟨x, hx, hxo, ha⟩
    rw [Fin.ext hxo] at hx ha
    exact ⟨hx, ha⟩
  · rintro ⟨ho, ha⟩
    exact ⟨o, ho, rfl, ha⟩

theorem paggFn_crossInputs (mode : Nat) :
    let set := on.filter (fun o => (gathered s r i o.val).input.a != 0)
    paggFn mode (crossInputs s r i on) = match mode with
      | 0 => .reg (BitVec.ofFnLE (fun o : Fin 32 => decide (o ∈ set)))
      | 1 => .reg (BitVec.ofNat 32 set.length)
      | 2 => .pred (decide (set = on))
      | 3 => .pred (decide (set ≠ []))
      | _ => .pred (decide (set = on ∨ set = [])) := by
  intro set
  have hall : (crossInputs s r i on).all (fun e => e.2.a != 0) = decide (set = on) := by
    rw [Bool.eq_iff_iff]
    simp [set, crossInputs, List.filter_eq_self]
  have hany : (crossInputs s r i on).any (fun e => e.2.a != 0) = decide (set ≠ []) := by
    rw [Bool.eq_iff_iff]
    simp [set, crossInputs, List.filter_eq_nil_iff]
  have hcount : ((crossInputs s r i on).filter (fun e => e.2.a != 0)).length = set.length := by
    simp [set, crossInputs, List.filter_map, Function.comp_def]
  unfold paggFn
  simp only [hall, hany, hcount, paggMask_crossInputs]
  match mode with
  | 0 | 1 | 2 | 3 => rfl
  | _ + 4 =>
    refine congrArg LaneWrite.pred ?_
    by_cases h : set = [] <;> simp [h]

end

/-! ## Reductions (R249) -/

/-- One step of a reduction of operation below 6 on values of n bits: the wrapped sum, the lesser, the greater, and, or,
exclusive or. -/
def redStep (n op : Nat) (u : Bool) (a b : BitVec n) : BitVec n :=
  [a + b, if (if u then b.ult a else b.slt a) then b else a, if (if u then a.ult b else a.slt b) then b else a,
    a &&& b, a ||| b, a ^^^ b].getD op a

theorem toNat_viewOf_emod {n : Nat} (u : Bool) (a : BitVec n) : (viewOf u a % (2 : Int) ^ n).toNat = a.toNat := by
  have h := congrArg BitVec.toNat (ofInt_viewOf u a)
  rw [BitVec.toNat_ofInt] at h
  exact_mod_cast h

theorem rredStep_zero (n : Nat) (u : Bool) (l : List Int) (a : Int) : l.foldl (rredStep 0 n u) a = a + l.sum := by
  induction l generalizing a with
  | nil => simp
  | cons x l ih =>
    rw [List.foldl_cons, ih, List.sum_cons]
    exact Int.add_assoc a x l.sum

/-- The comparison of bits in a view. -/
theorem lt_viewOf {n : Nat} (u : Bool) (a b : BitVec n) :
    (if u then a.ult b else a.slt b) = decide (viewOf u a < viewOf u b) := by
  cases u
  · rfl
  · simp [viewOf, BitVec.ult]

/-- A step that adds nothing up stays in the view's range. -/
theorem rredStep_viewOf {n op : Nat} (u : Bool) (a b : BitVec n) (h0 : 0 < op) (h6 : op < 6) :
    rredStep op n u (viewOf u a) (viewOf u b) = viewOf u (redStep n op u a b) := by
  match op with
  | 1 =>
    show min (viewOf u a) (viewOf u b) = viewOf u (if (if u then b.ult a else b.slt a) then b else a)
    rw [lt_viewOf]
    by_cases h : viewOf u b < viewOf u a
    · rw [decide_eq_true h, if_pos rfl, min_eq_right h.le]
    · rw [decide_eq_false h, if_neg Bool.false_ne_true, min_eq_left (not_lt.1 h)]
  | 2 =>
    show max (viewOf u a) (viewOf u b) = viewOf u (if (if u then a.ult b else a.slt b) then b else a)
    rw [lt_viewOf]
    by_cases h : viewOf u a < viewOf u b
    · rw [decide_eq_true h, if_pos rfl, max_eq_right h.le]
    · rw [decide_eq_false h, if_neg Bool.false_ne_true, max_eq_left (not_lt.1 h)]
  | 3 | 4 | 5 =>
    refine congrArg (viewOf u) ?_
    simp only [toNat_viewOf_emod, BitVec.ofInt_natCast]
    exact BitVec.eq_of_toNat_eq (by simp [redStep])

theorem foldl_rredStep_viewOf {n op : Nat} (u : Bool) (h0 : 0 < op) (h6 : op < 6) (l : List (BitVec n)) (a : BitVec n) :
    (l.map (viewOf u)).foldl (rredStep op n u) (viewOf u a) = viewOf u (l.foldl (redStep n op u) a) := by
  induction l generalizing a with
  | nil => rfl
  | cons x l ih => rw [List.map_cons, List.foldl_cons, rredStep_viewOf u a x h0 h6, ih, List.foldl_cons]

theorem ofInt_add_sum_viewOf {n : Nat} (u : Bool) (l : List (BitVec n)) (a : Int) :
    BitVec.ofInt n (a + (l.map (viewOf u)).sum) = l.foldl (redStep n 0 u) (BitVec.ofInt n a) := by
  induction l generalizing a with
  | nil => simp
  | cons x l ih =>
    rw [List.map_cons, List.sum_cons, ← Int.add_assoc, ih, List.foldl_cons, BitVec.ofInt_add, ofInt_viewOf]
    rfl

/-- A reduction without `.sat`, on the exact views, is the wrapped one on the bits. -/
theorem intResult_foldl_rredStep {n op : Nat} (u : Bool) (h : op < 6) (l : List (BitVec n)) (a : BitVec n) :
    intResult n false u ((l.map (viewOf u)).foldl (rredStep op n u) (viewOf u a)) = l.foldl (redStep n op u) a := by
  rw [intResult, if_neg Bool.false_ne_true]
  rcases Nat.eq_zero_or_pos op with rfl | h0
  · rw [rredStep_zero, ofInt_add_sum_viewOf, ofInt_viewOf]
  · rw [foldl_rredStep_viewOf u h0 h, ofInt_viewOf]

/-- A saturated sum is the exact sum held once to the view's range. -/
theorem intResult_sat_sum {n : Nat} (u : Bool) (l : List (BitVec n)) (a : BitVec n) :
    intResult n true u ((l.map (viewOf u)).foldl (rredStep 0 n u) (viewOf u a))
      = BitVec.ofInt n (clampView n u (((a :: l).map (viewOf u)).sum)) := by
  rw [rredStep_zero, List.map_cons, List.sum_cons]
  rfl

/-- A reduction in 32 bits reads the low words of its values. -/
theorem rredFn_narrow {op : Nat} (h : op ≠ 6) (u sat : Bool) (v : Word) (vs : List Word) :
    rredFn op false u sat ((v :: vs).map (fun x => x.setWidth 64))
      = (intResult 32 sat u ((vs.map (viewOf u)).foldl (rredStep op 32 u) (viewOf u v))).setWidth 64 := by
  simp only [rredFn, List.map_cons, if_neg h, Bool.false_eq_true, if_false, List.map_map, Function.comp_def,
    BitVec.setWidth_setWidth_of_le _ (show 32 ≤ 64 by omega), BitVec.setWidth_eq]

theorem rredFn_wide {op : Nat} (h : op ≠ 6) (u sat : Bool) (q : DWord) (qs : List DWord) :
    rredFn op true u sat (q :: qs) = intResult 64 sat u ((qs.map (viewOf u)).foldl (rredStep op 64 u) (viewOf u q)) := by
  simp only [rredFn, if_neg h, if_true]

theorem rredFn_fadd (u : Bool) (v : Word) (vs : List Word) :
    rredFn 6 false u false ((v :: vs).map (fun x => x.setWidth 64)) = (vs.foldl faddStep v).setWidth 64 := by
  simp only [rredFn, List.map_cons, if_true, List.map_map, Function.comp_def,
    BitVec.setWidth_setWidth_of_le _ (show 32 ≤ 64 by omega), BitVec.setWidth_eq, List.map_id']

end Sys2Proof.Machine

open Sys2Proof Sys2Proof.Machine

/-- Settles O23: the lanes that take part are gathered first, then each completes with its value of them all. -/
theorem crossLane : Obligations.CrossLane := by
  intro w s k l r i hi hc ho on opd av bv result
  have hin (n : Fin 32) : (gathered s r i n.val).ops = opd n ∧ (gathered s r i n.val).input.a = av n
      ∧ (gathered s r i n.val).input.b = bv n ∧ (gathered s r i n.val).input.num = n.val := by
    simp only [gathered, Rod.lane_eq]
    exact ⟨rfl, rfl, rfl, rfl⟩
  have hav (n : Fin 32) : (gathered s r i n.val).input.a = av n := (hin n).2.1
  have hcross (f : LaneIn → LaneWrite) (g : Fin 32 → LaneWrite) (hg : actsOn i = fun x => x.guard w.g)
      (hf : ∀ n : Fin 32, f (gathered s r i n.val).input = g n) :
      Host.Outcome.next (s.setRod k (r.mapLanes (r.subRod l) (fun n x =>
        if actsOn i x then ((f (gathered s r i n.val).input).apply (gathered s r i n.val).ops.dst x).advance
        else x.advance))) = (.next (s.setRod k (r.mapLanes (r.subRod l) (fun n x =>
        if x.guard w.g then ((g n).apply (opd n).dst x).advance else x.advance))) : Host.Outcome State Fault Refusal) := by
    simp only [hg, hf, (hin _).1]
  refine ⟨?_, ?_, ?_, fun u v vs q qs => ⟨fun op h => ⟨?_, ?_⟩, ?_, ?_, ?_⟩⟩
  · rintro rfl
    refine (exec_of_crossOp (fun _ => rfl) hi hc ho).trans (hcross _ _ rfl (fun n => ?_))
    obtain ⟨-, ha, hb, hn⟩ := hin n
    refine congrArg (LaneWrite.value _) ((lxchFn_crossInputs (Machine.bits_lt w.mod 8 2) _).trans ?_)
    rw [ha, hb, hn]
    simp only [hav, BitVec.setWidth_eq]
    rfl
  · rintro rfl
    refine (exec_of_crossOp (fun _ => rfl) hi hc ho).trans (hcross _ _ rfl (fun n => ?_))
    refine (paggFn_crossInputs _).trans ?_
    simp only [hav]
    rfl
  · rintro rfl
    refine (exec_of_crossOp (fun _ => rfl) hi hc ho).trans (hcross _ _ rfl (fun n => ?_))
    refine congrArg (fun vs => LaneWrite.value _ (rredFn _ _ _ _ vs)) ?_
    rw [crossInputs, List.map_map]
    exact List.map_congr_left (fun o _ => hav o)
  · rw [rredFn_narrow (by omega), intResult_foldl_rredStep u h]
    rfl
  · rw [rredFn_wide (by omega), intResult_foldl_rredStep u h]
    rfl
  · rw [rredFn_narrow (by omega), intResult_sat_sum, clampView_eq_ite]
    rfl
  · rw [rredFn_wide (by omega), intResult_sat_sum, clampView_eq_ite]
    rfl
  · exact rredFn_fadd u v vs
end
section
namespace Sys2Proof.Machine

/-! ## Reading memory leaves every rod as it is

What a returning load reads, through the translation, the caches and the directory, changes frames, dies, the hub and the
home's memory. One lemma for each operation, in the order of the model's files. -/

theorem foldl_rods {α : Type} {f : State → α → State} (h : ∀ s a, (f s a).rods = s.rods) :
    ∀ (l : List α) (s : State), (l.foldl f s).rods = s.rods
  | [], _ => rfl
  | a :: l, s => (foldl_rods h l (f s a)).trans (h s a)

@[simp] theorem State.draw_rods (s : State) : (s.draw).2.rods = s.rods := rfl

@[simp] theorem State.drawBytes_rods (s : State) (n : Nat) : (s.drawBytes n).2.rods = s.rods := rfl

@[simp] theorem State.notify_rods (s : State) (n : Nat) : (s.notify n).rods = s.rods := by
  unfold State.notify
  split <;> rfl

@[simp] theorem State.homeMerge_rods (s : State) (n : Nat) (mask : BitVec 64) (d : BitVec 512) :
    (s.homeMerge n mask d).rods = s.rods := State.notify_rods _ n

@[simp] theorem State.setFrameSector_rods (s : State) (p : FrameId) (x : Sector) :
    (s.setFrameSector p x).rods = s.rods := by
  unfold State.setFrameSector
  rw [State.modFrame_rods, foldl_rods]
  intro s f
  split
  · rfl
  · split <;> rfl

@[simp] theorem State.putDieSector_rods (s : State) (d : Nat) (x : Sector) : (s.putDieSector d x).rods = s.rods := rfl

@[simp] theorem State.dropFrameSector_rods (s : State) (p : FrameId) (n : Nat) (u : Bool) :
    (s.dropFrameSector p n u).rods = s.rods := by
  unfold State.dropFrameSector
  split <;> rfl

@[simp] theorem State.dropDieSector_rods (s : State) (d n : Nat) (u : Bool) : (s.dropDieSector d n u).rods = s.rods := rfl

@[simp] theorem State.flushFrame_rods (s : State) (p : FrameId) (n : Nat) (u : Bool) :
    (s.flushFrame p n u).rods = s.rods := by
  grind [State.flushFrame, State.setFrameSector_rods, State.putDieSector_rods]

@[simp] theorem State.flushDieFrames_rods (s : State) (d n : Nat) (u : Bool) : (s.flushDieFrames d n u).rods = s.rods :=
  foldl_rods (fun s p => s.flushFrame_rods p n u) _ s

@[simp] theorem State.dropDieFrames_rods (s : State) (d n : Nat) (u : Bool) : (s.dropDieFrames d n u).rods = s.rods :=
  foldl_rods (fun s p => s.dropFrameSector_rods p n u) _ s

@[simp] theorem State.evictFrame_rods (s : State) (p : FrameId) (n : Nat) (u : Bool) :
    (s.evictFrame p n u).rods = s.rods := by
  simp [State.evictFrame]

@[simp] theorem State.makeRoom_rods (s : State) (p : FrameId) (n : Nat) (u : Bool) : (s.makeRoom p n u).rods = s.rods := by
  unfold State.makeRoom
  dsimp only
  split
  · rfl
  · split
    · rfl
    · split
      · exact foldl_rods (fun s k => s.evictFrame_rods p _ _) _ _
      · rfl

@[simp] theorem State.putFrameSector_rods (s : State) (p : FrameId) (x : Sector) :
    (s.putFrameSector p x).rods = s.rods := by
  simp [State.putFrameSector]

@[simp] theorem State.putLine_rods (s : State) (n : Nat) (l : DirLine) : (s.putLine n l).rods = s.rods := rfl

@[simp] theorem State.putAgentSector_rods (s : State) (a : Nat) (x : Sector) : (s.putAgentSector a x).rods = s.rods := by
  unfold State.putAgentSector
  split <;> rfl

@[simp] theorem State.dropAgentSector_rods (s : State) (a n : Nat) : (s.dropAgentSector a n).rods = s.rods := by
  unfold State.dropAgentSector
  split <;> simp

@[simp] theorem State.gather_rods (s : State) (a n : Nat) : (s.gather a n).rods = s.rods := by
  unfold State.gather
  split <;> simp

@[simp] theorem State.mergeDirty_rods (s : State) (a n : Nat) : (s.mergeDirty a n).rods = s.rods := by
  grind [State.mergeDirty, State.gather_rods, State.homeMerge_rods]

@[simp] theorem State.snoopInvalidate_rods (s : State) (a n : Nat) : (s.snoopInvalidate a n).rods = s.rods := by
  simp [State.snoopInvalidate]

@[simp] theorem State.snoopClean_rods (s : State) (a n : Nat) : (s.snoopClean a n).rods = s.rods := by
  grind [State.snoopClean, State.mergeDirty_rods, State.putAgentSector_rods]

@[simp] theorem State.snoopShare_rods (s : State) (a n : Nat) : (s.snoopShare a n).rods = s.rods := by
  grind [State.snoopShare, State.gather_rods, State.putAgentSector_rods]

@[simp] theorem State.evictLine_rods (s : State) (line : Nat) (l : DirLine) : (s.evictLine line l).rods = s.rods := by
  rw [State.evictLine, State.putLine_rods]
  exact foldl_rods (fun s a => foldl_rods (fun s _ => s.snoopInvalidate_rods a _) _ s) _ s

@[simp] theorem State.evictWay_rods (s : State) (line : Nat) : (s.evictWay line).rods = s.rods := by
  grind [State.evictWay, State.draw_rods, State.evictLine_rods]

@[simp] theorem State.makeWay_rods (s : State) (line : Nat) : (s.makeWay line).rods = s.rods := by
  unfold State.makeWay
  split
  · rfl
  · exact foldl_rods (fun s _ => s.evictWay_rods line) _ s

@[simp] theorem State.claimLine_rods (s : State) (n a : Nat) : (s.claimLine n a).rods = s.rods := by
  refine foldl_rods (fun s k => ?_) _ s
  dsimp only
  split
  · simp
  · rfl

@[simp] theorem State.setDir_rods (s : State) (n : Nat) (g : DirSector) : (s.setDir n g).rods = s.rods := by
  grind [State.setDir, State.claimLine_rods, State.makeWay_rods, State.putLine_rods]

@[simp] theorem State.invalidateOthers_rods (s : State) (n : Nat) (keep : Option Nat) :
    (s.invalidateOthers n keep).rods = s.rods := by
  refine foldl_rods (fun s a => ?_) _ s
  split
  · rfl
  · exact s.snoopInvalidate_rods a n

@[simp] theorem State.grant_rods (s : State) (a n : Nat) (d : BitVec 512) (st : Moesi) (g : DirSector) :
    (s.grant a n d st g).rods = s.rods := by
  simp [State.grant]

@[simp] theorem State.readShared_rods (s : State) (a n : Nat) : (s.readShared a n).rods = s.rods := by
  grind [State.readShared, State.grant_rods, State.snoopShare_rods, State.gather_rods]

@[simp] theorem State.readUnique_rods (s : State) (a n : Nat) : (s.readUnique a n).rods = s.rods := by
  simp [State.readUnique]

@[simp] theorem State.upgrade_rods (s : State) (a n : Nat) : (s.upgrade a n).rods = s.rods := by
  grind [State.upgrade, State.invalidateOthers_rods, State.setDir_rods, State.putAgentSector_rods, State.readUnique_rods]

@[simp] theorem State.writeBackKeep_rods (s : State) (a n : Nat) : (s.writeBackKeep a n).rods = s.rods := by
  grind [State.writeBackKeep, State.mergeDirty_rods, State.putAgentSector_rods, State.setDir_rods]

@[simp] theorem State.untrackedRead_rods (s : State) (n : Nat) : (s.untrackedRead n).2.rods = s.rods := by
  grind [State.untrackedRead, State.setDir_rods, State.snoopClean_rods]

@[simp] theorem State.untrackedWrite_rods (s : State) (n : Nat) (mask : BitVec 64) (d : BitVec 512) :
    (s.untrackedWrite n mask d).rods = s.rods := by
  simp [State.untrackedWrite]

@[simp] theorem State.noteHome_rods (s : State) (d n : Nat) : (s.noteHome d n).rods = s.rods := rfl

@[simp] theorem State.dieFill_rods (s : State) (d n : Nat) (u : Bool) : (s.dieFill d n u).2.rods = s.rods := by
  grind [State.dieFill, State.noteHome_rods, State.putDieSector_rods, State.readShared_rods, State.untrackedRead_rods]

@[simp] theorem State.dieOwn_rods (s : State) (d n : Nat) : (s.dieOwn d n).2.rods = s.rods := by
  grind [State.dieOwn, State.dieFill_rods, State.noteHome_rods, State.upgrade_rods, State.readUnique_rods]

@[simp] theorem State.dieToHome_rods (s : State) (d n : Nat) (u : Bool) : (s.dieToHome d n u).rods = s.rods := by
  grind [State.dieToHome, State.flushDieFrames_rods, State.noteHome_rods, State.putDieSector_rods, State.homeMerge_rods,
    State.writeBackKeep_rods, State.untrackedWrite_rods]

@[simp] theorem State.readTower_rods (s : State) (p : FrameId) (pl : Place) (u : Bool) (n off len : Nat) :
    (s.readTower p pl u n off len).2.2.rods = s.rods := by
  unfold State.readTower
  cases pl <;>
    grind [State.dieFill_rods, State.dieOwn_rods, State.dieToHome_rods, State.untrackedRead_rods,
      State.putFrameSector_rods, State.flushDieFrames_rods, State.noteHome_rods]

@[simp] theorem State.readSeg_rods (s : State) (p : FrameId) (pl : Place) (u : Bool) (n off len : Nat) :
    (s.readSeg p pl u n off len).2.2.rods = s.rods := by
  grind [State.readSeg, State.readTower_rods]

@[simp] theorem State.acquireAt_rods (s : State) (p : FrameId) (scope : Nat) : (s.acquireAt p scope).rods = s.rods := by
  unfold State.acquireAt
  split
  · rfl
  · split
    · rfl
    · dsimp only
      split
      · rfl
      · exact foldl_rods (fun s f => s.modFrame_rods f _) _ _

@[simp] theorem State.readEntry_rods (s : State) (pa : Nat) : (s.readEntry pa).2.rods = s.rods := by
  grind [State.readEntry, State.untrackedRead_rods]

@[simp] theorem State.walkEntry_rods (s : State) (asid level table va : Nat) :
    (s.walkEntry asid level table va).2.rods = s.rods := by
  grind [State.walkEntry, State.readEntry_rods, State.modHub_rods]

@[simp] theorem State.walkFrom_rods (asid va : Nat) :
    ∀ (fuel table : Nat) (s : State), (State.walkFrom asid va fuel table s).2.rods = s.rods
  | 0, _, _ => rfl
  | fuel + 1, table, s => by
    grind [State.walkFrom, State.walkEntry_rods, State.walkFrom_rods asid va fuel]

@[simp] theorem State.readRun_rods (s : State) (table va : Nat) : (s.readRun table va).2.rods = s.rods := by
  unfold State.readRun
  refine List.foldlRecOn (motive := fun b : List DWord × State => b.2.rods = s.rods) _ _ rfl (fun b hb k _ => ?_)
  have := State.readEntry_rods b.2 (table + 8 * (levelIndex 3 va / 16 * 16 + k))
  split <;> simp_all

@[simp] theorem State.handOut_rods (s : State) (glob : Bool) (key holder e : Nat) :
    (s.handOut glob key holder e).rods = s.rods := rfl

@[simp] theorem State.giveOut_rods (s : State) (glob : Bool) (key : Nat) (x : Xlat) :
    (s.giveOut glob key x).rods = s.rods := rfl

@[simp] theorem State.runXlat_rods (s : State) (asid part va table : Nat) :
    (s.runXlat asid part va table).2.rods = s.rods := by
  grind [State.runXlat, State.readRun_rods, State.draw_rods]

@[simp] theorem State.walk_rods (s : State) (holder asid va : Nat) : (s.walk holder asid va).2.rods = s.rods := by
  grind [State.walk, State.walkFrom_rods, State.runXlat_rods, State.giveOut_rods, State.handOut_rods]

@[simp] theorem State.forget_rods (s : State) (q : Lookup) : (s.forget q).rods = s.rods := rfl

@[simp] theorem State.refill_rods (s : State) (q : Lookup) : (s.refill q).2.rods = s.rods := by
  grind [State.refill, State.walk_rods, State.modFrame_rods, State.modDie_rods]

@[simp] theorem State.lookup_rods (s : State) (q : Lookup) : (s.lookup q).2.rods = s.rods := by
  grind [State.lookup, State.modFrame_rods, State.refill_rods, State.forget_rods]

@[simp] theorem State.page_rods (s : State) (q : Lookup) (n : Need) : (s.page q n).2.rods = s.rods := by
  unfold State.page
  grind [State.lookup_rods, State.refill_rods, State.forget_rods]

@[simp] theorem State.pages_rods (p : FrameId) (asid : Nat) (n : Need) :
    ∀ (l : List Nat) (s : State), (s.pages p asid n l).2.rods = s.rods
  | [], _ => rfl
  | va :: l, s => by
    grind [State.pages, State.page_rods, State.pages_rods p asid n l]

@[simp] theorem State.readPieces_rods (p : FrameId) (scope : Nat) :
    ∀ (l : List Piece) (s : State), (State.readPieces p scope l s).2.2.rods = s.rods
  | [], _ => rfl
  | x :: l, s => (State.readPieces_rods p scope l _).trans (s.readSeg_rods p _ _ x.sector x.off x.len)

@[simp] theorem State.loadPages_rods (s : State) (k : RodKey) (r : Rod) (e : LoadEntry) :
    (s.loadPages k r e).2.rods = s.rods := by
  unfold State.loadPages
  split
  · rfl
  · exact State.pages_rods _ _ _ _ s

@[simp] theorem State.performLoad_rods (s : State) (k : RodKey) (r : Rod) (e : LoadEntry) :
    (s.performLoad k r e).2.rods = s.rods := by
  grind [State.performLoad, State.loadPages_rods, State.readPieces_rods, State.acquireAt_rods]

end Sys2Proof.Machine
end
section
namespace Sys2Proof.Machine

/-! ## The loads that a drain waits for (R54, R112, R237) -/

/-- No entry after the awaited ones satisfies the condition. -/
theorem lastWhere_spec {p : LoadEntry → Bool} {es : List LoadEntry} {e : LoadEntry} (h : e ∈ es.drop (lastWhere p es)) :
    p e = false := by
  unfold lastWhere at h
  cases hf : es.reverse.findIdx? p with
  | none =>
    rw [List.findIdx?_eq_none_iff] at hf
    exact hf e (List.mem_reverse.2 (List.mem_of_mem_drop h))
  | some n =>
    rw [hf] at h
    rw [List.findIdx?_eq_some_iff_getElem] at hf
    obtain ⟨hn, -, hbefore⟩ := hf
    rw [← List.reverse_reverse es, List.drop_reverse, List.length_reverse, List.mem_reverse, List.mem_take_iff_getElem] at h
    obtain ⟨j, hj, rfl⟩ := h
    simp only [List.length_reverse] at hn hj
    simpa using hbefore j (by omega)

/-- What a returning load changes of a lane beyond its registers and marks: the entry is gone. -/
theorem receive_loads (x : Lane) (e : LoadEntry) (v : Returned) (junk : Nat) : (x.receive e v junk).loads = x.loads := by
  have hset : ∀ (k n v : Nat) (x : Lane), (x.setRegs n v k).loads = x.loads := by
    intro k
    induction k with
    | zero => intro n v x; rfl
    | succ k ih =>
      intro n v x
      exact ih n v x
  cases v <;> exact hset _ _ _ x

theorem rod?_congr {s t : State} (h : t.rods = s.rods) (k : RodKey) : t.rod? k = s.rod? k := by
  unfold State.rod?
  rw [h]

/-- An entry that returns changes its own lane alone, and otherwise no rod. -/
theorem returnEntry_eq {s : State} {k : RodKey} {r : Rod} {l pos : Nat} {e : LoadEntry} (hr : s.rod? k = some r)
    (he : (r.lane l).loads[pos]? = some e) :
    ∃ (t : State) (y : Lane), s.returnEntry k l pos = t.setRod k (r.setLane l y)
      ∧ y.loads = (r.lane l).loads.eraseIdx pos := by
  unfold State.returnEntry
  simp only [hr, he]
  have hp := s.performLoad_rods k r e
  generalize s.performLoad k r e = o at hp
  obtain ⟨v, s1⟩ := o
  cases v with
  | value v =>
    rw [State.modRod_of_some ((rod?_congr hp k).trans hr)]
    refine ⟨s1, _, rfl, ?_⟩
    rw [receive_loads]
  | mark c =>
    rw [State.modRod_of_some ((rod?_congr ((s1.drawBytes_rods 16).trans hp) k).trans hr)]
    refine ⟨(s1.drawBytes 16).2, _, rfl, ?_⟩
    rw [receive_loads]

/-- A load that returns leaves the queue, and changes no other queue of its rod. -/
theorem rod?_returnEntry {s : State} {k : RodKey} {r : Rod} (hr : s.rod? k = some r) (l : Fin 32) :
    ∃ q, (s.returnEntry k l.val 0).rod? k = some q ∧ q.fast = r.fast ∧ q.slow = r.slow
      ∧ ∀ n : Fin 32, q.lanes[n].loads = if n = l then r.lanes[n].loads.drop 1 else r.lanes[n].loads := by
  cases hl : r.lanes[l].loads with
  | nil =>
    have hs : s.returnEntry k l.val 0 = s := by
      simp only [State.returnEntry, hr, Rod.lane_eq, hl, List.getElem?_nil]
    refine ⟨r, by rw [hs, hr], rfl, rfl, fun n => ?_⟩
    split
    · rename_i h
      rw [h, hl]
      rfl
    · rfl
  | cons e es =>
    obtain ⟨t, y, ht, hy⟩ := returnEntry_eq (l := l.val) (pos := 0) (e := e) hr (by rw [Rod.lane_eq, hl]; rfl)
    rw [ht]
    refine ⟨r.setLane l.val y, State.rod?_setRod_same _ _ _, r.setLane_fast _ y, r.setLane_slow _ y, fun n => ?_⟩
    rw [setLane_getElem]
    by_cases h : n = l
    · rw [if_pos h, if_pos (congrArg Fin.val h), hy, h, Rod.lane_eq, hl]
      rfl
    · rw [if_neg h, if_neg (fun e => h (Fin.ext e))]

theorem rod?_drainLane (l : Fin 32) {k : RodKey} (c : Nat) {s : State} {r : Rod} (hr : s.rod? k = some r) :
    ∃ q, (s.drainLane k l.val c).rod? k = some q ∧ q.fast = r.fast ∧ q.slow = r.slow
      ∧ ∀ n : Fin 32, q.lanes[n].loads = if n = l then r.lanes[n].loads.drop c else r.lanes[n].loads := by
  induction c generalizing s r with
  | zero => exact ⟨r, hr, rfl, rfl, fun n => by simp⟩
  | succ c ih =>
    obtain ⟨q, hq, hf, hs, hl⟩ := rod?_returnEntry hr l
    obtain ⟨q', hq', hf', hs', hl'⟩ := ih hq
    refine ⟨q', hq', hf'.trans hf, hs'.trans hs, fun n => ?_⟩
    rw [hl', hl]
    split
    · rw [List.drop_drop, Nat.add_comm]
    · rfl

/-- A lane's part of a drain whose condition asks for the entry alone. -/
def State.drainStep (k : RodKey) (p : LoadEntry → Bool) (s : State) (l : Nat) : State :=
  match s.rod? k with
  | none => s
  | some r => s.drainLane k l (lastWhere p (r.lane l).loads)

theorem drainWhere_eq_foldl (s : State) (k : RodKey) (m : BitVec 32) (p : LoadEntry → Bool) :
    s.drainWhere k m (fun _ => p) = (maskLanes m).foldl (State.drainStep k p) s := rfl

theorem rod?_foldl_drainStep {k : RodKey} {p : LoadEntry → Bool} (ls : List (Fin 32)) {s : State} {r : Rod}
    (hr : s.rod? k = some r) :
    ∃ q, ((ls.map Fin.val).foldl (State.drainStep k p) s).rod? k = some q ∧ q.fast = r.fast ∧ q.slow = r.slow
      ∧ ∀ n : Fin 32, n ∈ ls ∨ (∀ e ∈ r.lanes[n].loads, p e = false) → ∀ e ∈ q.lanes[n].loads, p e = false := by
  induction ls generalizing s r with
  | nil => exact ⟨r, hr, rfl, rfl, fun n h => h.resolve_left List.not_mem_nil⟩
  | cons a ls ih =>
    obtain ⟨q, hq, hf, hs, hl⟩ := rod?_drainLane a (lastWhere p r.lanes[a].loads) hr
    obtain ⟨q', hq', hf', hs', hl'⟩ := ih hq
    have hstep : State.drainStep k p s a.val = s.drainLane k a.val (lastWhere p r.lanes[a].loads) := by
      simp only [State.drainStep, hr, Rod.lane_eq]
    rw [List.map_cons, List.foldl_cons, hstep]
    refine ⟨q', hq', hf'.trans hf, hs'.trans hs, fun n h => hl' n ?_⟩
    rw [hl]
    by_cases hn : n = a
    · rw [if_pos hn, hn]
      exact .inr (fun e he => lastWhere_spec he)
    · rw [if_neg hn]
      exact h.imp_left (fun h => (List.mem_cons.1 h).resolve_left hn)

/-- After a drain of every lane, no load satisfies its condition. -/
theorem rod?_drainWhere {k : RodKey} (p : LoadEntry → Bool) {s : State} {r : Rod} (hr : s.rod? k = some r) :
    ∃ q, (s.drainWhere k 0xFFFFFFFF (fun _ => p)).rod? k = some q ∧ q.fast = r.fast ∧ q.slow = r.slow
      ∧ ∀ n : Fin 32, ∀ e ∈ q.lanes[n].loads, p e = false := by
  obtain ⟨q, hq, hf, hs, hl⟩ := rod?_foldl_drainStep (p := p) (List.finRange 32) hr
  exact ⟨q, hq, hf, hs, fun n => hl n (.inl (List.mem_finRange n))⟩

end Sys2Proof.Machine
end

section
namespace Sys2Proof.Machine

/-! ## Words that act once per issue: go on, or wait (R43, R204, R480) -/

/-- Every lane of a mask is at the next word. -/
def Rod.goesOn (r : Rod) (m : BitVec 32) : Rod := r.mapLanes m (fun _ x => x.advance)

theorem passOver_eq {s : State} {k : RodKey} {r q : Rod} (hq : s.rod? k = some q) (i : Instr) (m : BitVec 32) :
    passOver (mkIssue k r i m) s = s.setRod k (q.goesOn m) :=
  State.modRod_of_some hq _

theorem blockEnabled_eq {s : State} {k : RodKey} {r : Rod} (hr : s.rod? k = some r) (i : Instr) (m : BitVec 32) (w : Wait) :
    blockEnabled (mkIssue k r i m) w s = s.setRod k (r.mapLanes m (fun _ x =>
      if actsOn i x then { x with st := .blocked, wait := w } else x.advance)) := by
  refine (State.modRod_of_some hr _).trans (congrArg (s.setRod k) (mapLanes_congr (fun n hn => ?_)))
  rw [enabled_eq, show m.getLsbD n.val = true from hn, Bool.true_and]

section
variable {s : State} {k : RodKey} {l : Nat} {r : Rod} {i : Instr} {body : Issue → State → State}

theorem goesOn_lane (r : Rod) (m : BitVec 32) (n : Fin 32) :
    (r.goesOn m).lanes[n] = if m.getLsbD n.val then r.lanes[n].advance else r.lanes[n] :=
  mapLanes_lane r m _ n

theorem goesOn_sameOutcome {m : BitVec 32} {n : Fin 32} (hn : m.getLsbD n.val = true) :
    (r.goesOn m).lanes[n].sameOutcome r.lanes[n].advance = true := by
  rw [goesOn_lane, hn, if_pos rfl]
  exact sameOutcome_refl _

/-- A word that passes over its lanes, whatever else it changes, keeps the sub-rod together. -/
theorem issueWord_goesOn {t : State} {q : Rod} (h : IssuesFreely s k l r i) (hq : q.lanes = (r.goesOn (r.subRod l)).lanes)
    (hb : body (mkIssue k r i (r.subRod l)) s = t.setRod k q) : issueWord i body s = .next (t.setRod k q) :=
  issueWord_together h (fun n hn => by rw [hq]; exact goesOn_sameOutcome hn) hb

/-- A word of which an item is enabled that waits: its enabled lanes block, the others go on and part. -/
theorem issueWord_blocks {w : Wait} (h : IssuesFreely s k l r i)
    (hb : body (mkIssue k r i (r.subRod l)) s = blockEnabled (mkIssue k r i (r.subRod l)) w s) :
    issueWord i body s = .next (s.setRod k ((r.mapLanes (r.subRod l) (fun _ x =>
      if actsOn i x then { x with st := .blocked, wait := w } else x.advance)).regroup (r.subRod l))) :=
  issueWord_setRod h (hb.trans (blockEnabled_eq h.rod i _ w))

end

/-- YIELD with an item enabled leaves a rod that does not issue in the next cycle (R264). -/
theorem yieldBody_eq {s : State} {k : RodKey} {r : Rod} {i : Instr} {m : BitVec 32} (hr : s.rod? k = some r) :
    yieldBody (mkIssue k r i m) s = s.setRod k
      (if (mkIssue k r i m).enabled = 0 then r.goesOn m else { r.goesOn m with yielded := true }) := by
  unfold yieldBody
  rw [passOver_eq hr, show (mkIssue k r i m).key = k from rfl, State.modRod_of_some (State.rod?_setRod_same _ _ _),
    State.setRod_setRod]
  split <;> rfl

/-! ## GROW and SHRINK (R54, R55) -/

section
variable {s : State} {p : FrameId} {slot : Nat} {r : Rod} {i : Instr} {m : BitVec 32} {f sl : Nat}

theorem aboveCeiling_of_le {a b : Nat}
    (ha : (s.recordOfLaunch r.launch).teamRods * a ≤ Config.blocksOf p.die)
    (hb : (s.recordOfLaunch r.launch).teamRods * b ≤ Config.blocksOf p.die) :
    aboveCeiling s (mkIssue (rodKey p slot) r i m) a b = false := by
  refine Bool.or_eq_false_iff.2 ⟨decide_eq_false ?_, decide_eq_false ?_⟩
  · exact Nat.not_lt.2 ha
  · exact Nat.not_lt.2 hb

/-- A rod that already holds its blocks. -/
theorem Rod.with_blocks {q : Rod} (hf : f = q.fast) (hs : sl = q.slow) : ({ q with fast := f, slow := sl } : Rod) = q := by
  subst hf hs
  rfl

/-- GROW under the team ceiling: it holds its blocks already, or takes them, or waits for them. -/
theorem growBody_eq (hr : s.rod? (rodKey p slot) = some r) (hon : (mkIssue (rodKey p slot) r i m).enabled ≠ 0)
    (hf : (s.recordOfLaunch r.launch).teamRods * max r.fast f ≤ Config.blocksOf p.die)
    (hs : (s.recordOfLaunch r.launch).teamRods * max r.slow sl ≤ Config.blocksOf p.die) :
    growBody f sl (mkIssue (rodKey p slot) r i m) s =
      if max r.fast f = r.fast ∧ max r.slow sl = r.slow then s.setRod (rodKey p slot) (r.goesOn m)
      else if s.blocksFree p r.fast r.slow (max r.fast f) (max r.slow sl) && !(s.frame p).olderWaits (ageKey r) then
        s.setRod (rodKey p slot) { r.goesOn m with fast := max r.fast f, slow := max r.slow sl }
      else (s.setRod (rodKey p slot) (r.mapLanes m (fun _ x =>
          if actsOn i x then { x with st := .blocked, wait := .grow f sl } else x.advance))).modFrame p
        (fun q => q.addRequest
          { launch := r.launch, item0 := r.item0.toNat
            kind := .grow slot (lowest (mkIssue (rodKey p slot) r i m).enabled) f sl }) := by
  unfold growBody
  dsimp only
  rw [if_neg hon, show (mkIssue (rodKey p slot) r i m).rod = r from rfl, aboveCeiling_of_le hf hs,
    if_neg Bool.false_ne_true, passOver_eq hr, blockEnabled_eq hr,
    show (mkIssue (rodKey p slot) r i m).key = rodKey p slot from rfl, State.modRod_of_some (State.rod?_setRod_same _ _ _),
    State.setRod_setRod]
  rfl

end
/-- A change of the rod after a change of the frame, as if before it. -/
theorem State.modRod_modFrame_setRod (s : State) (k : RodKey) (q : Rod) (p : FrameId) (g : Frame → Frame) (h : Rod → Rod) :
    ((s.setRod k q).modFrame p g).modRod k h = (s.setRod k (h q)).modFrame p g := by
  rw [State.modRod_of_some (show ((s.setRod k q).modFrame p g).rod? k = some q from State.rod?_setRod_same s k q)]
  exact congrArg (fun t => State.modFrame t p g) (State.setRod_setRod s k q (h q))

theorem keepRegs_quiet {x : Lane} (hm : x.marked = []) (hj : x.joined = []) (keeps : Nat → Bool) :
    x.keepRegs keeps = { x with regs := x.regs.filter (fun e => keeps e.1) } := by
  unfold Lane.keepRegs
  rw [hm, hj, List.filter_nil, List.filter_nil]

theorem getLsbD_allLanes (n : Fin 32) : (0xFFFFFFFF : BitVec 32).getLsbD n.val = true := by
  revert n
  decide

section
variable {s : State} {k : RodKey} {r q : Rod} {i : Instr} {m : BitVec 32} {f sl : Nat}

/-- A lane that gave registers up holds no value and no mark there. -/
theorem keepRegs_gone {x : Lane} {keeps : Nat → Bool} {a : Nat} (h : keeps a = false) :
    (x.keepRegs keeps).reg a = 0 ∧ ∀ e ∈ (x.keepRegs keeps).marked, e.reg ≠ a := by
  constructor
  · exact (cellGet_filter_addr keeps a x.regs).trans (if_neg (by rw [h]; exact Bool.false_ne_true))
  · rintro e he rfl
    obtain ⟨-, hk⟩ := List.mem_filter.1 he
    rw [h] at hk
    cases hk

theorem keepRegs_loads (x : Lane) (keeps : Nat → Bool) : (x.keepRegs keeps).loads = x.loads := rfl

theorem shrinkTo_lane (r : Rod) (f sl : Nat) (n : Fin 32) :
    (r.shrinkTo f sl).lanes[n] = r.lanes[n].keepRegs (allocated (min r.fast f) (min r.slow sl)) := by
  unfold Rod.shrinkTo
  dsimp only
  rw [mapLanes_lane, getLsbD_allLanes, if_pos rfl]

theorem goesOn_fast (q : Rod) (m : BitVec 32) : (q.goesOn m).fast = q.fast := q.mapLanes_fast m _

theorem goesOn_slow (q : Rod) (m : BitVec 32) : (q.goesOn m).slow = q.slow := q.mapLanes_slow m _

theorem goesOn_loads (q : Rod) (m : BitVec 32) (n : Fin 32) : (q.goesOn m).lanes[n].loads = q.lanes[n].loads := by
  rw [goesOn_lane]
  split <;> rfl

theorem shrinkTo_sameOutcome {n : Fin 32} (hn : m.getLsbD n.val = true) :
    ((r.goesOn m).shrinkTo f sl).lanes[n].sameOutcome r.lanes[n].advance = true := by
  rw [shrinkTo_lane, goesOn_lane, hn, if_pos rfl]
  exact (sameOutcome_iff _ _).2 ⟨rfl, rfl, rfl, rfl⟩

/-- Parting changes no block count. -/
theorem regroup_fast (q : Rod) (m : BitVec 32) : (q.regroup m).fast = q.fast := by
  rcases regroup_cases q m with ⟨-, h⟩ | h <;> rw [h]
  simp only [Rod.mapLanes_fast]

theorem regroup_slow (q : Rod) (m : BitVec 32) : (q.regroup m).slow = q.slow := by
  rcases regroup_cases q m with ⟨-, h⟩ | h <;> rw [h]
  simp only [Rod.mapLanes_slow]

/-- Parting changes no register, mark or load. -/
theorem regroup_keeps (q : Rod) (m : BitVec 32) (n : Fin 32) :
    (q.regroup m).lanes[n].regs = q.lanes[n].regs ∧ (q.regroup m).lanes[n].marked = q.lanes[n].marked
      ∧ (q.regroup m).lanes[n].loads = q.lanes[n].loads := by
  have h := regroup_lane q m n 0
  have hregs := congrArg Lane.regs h
  have hmarked := congrArg Lane.marked h
  have hloads := congrArg Lane.loads h
  exact ⟨hregs, hmarked, hloads⟩

/-- Whether a load writes a register that a rod gives up. -/
def LoadEntry.leaves (f sl : Nat) (e : LoadEntry) : Bool := e.regs.any (fun n => !allocated f sl n)

/-- What a lane holds of a register that its rod gave up: nothing, no mark, and no load to come. -/
theorem regroup_shrinkTo_gone {n : Fin 32} {a : Nat} (ha : allocated (min q.fast f) (min q.slow sl) a = false)
    (hl : ∀ e ∈ q.lanes[n].loads, e.leaves (min q.fast f) (min q.slow sl) = false) :
    ((((q.goesOn m).shrinkTo f sl).regroup m).lanes[n].reg a = 0
      ∧ ∀ e ∈ (((q.goesOn m).shrinkTo f sl).regroup m).lanes[n].marked, e.reg ≠ a)
    ∧ ∀ e ∈ (((q.goesOn m).shrinkTo f sl).regroup m).lanes[n].loads, a ∉ e.regs := by
  obtain ⟨hregs, hmarked, hloads⟩ := regroup_keeps ((q.goesOn m).shrinkTo f sl) m n
  have hreg : (((q.goesOn m).shrinkTo f sl).regroup m).lanes[n].reg a = ((q.goesOn m).shrinkTo f sl).lanes[n].reg a :=
    congrArg (cellGet · a) hregs
  rw [hreg, hmarked, hloads, shrinkTo_lane, goesOn_fast, goesOn_slow]
  refine ⟨keepRegs_gone ha, fun e he hea => ?_⟩
  rw [keepRegs_loads, goesOn_loads] at he
  have hkept := hl e he
  rw [LoadEntry.leaves, List.any_eq_false] at hkept
  exact hkept a hea (by rw [ha]; rfl)

/-- SHRINK acts on the rod as its returned loads leave it. -/
theorem shrinkBody_eq (hon : (mkIssue k r i m).enabled ≠ 0)
    (hq : (s.drainWhere k 0xFFFFFFFF (fun _ => LoadEntry.leaves (min r.fast f) (min r.slow sl))).rod? k = some q) :
    shrinkBody f sl (mkIssue k r i m) s
      = (s.drainWhere k 0xFFFFFFFF (fun _ => LoadEntry.leaves (min r.fast f) (min r.slow sl))).setRod k
          ((q.goesOn m).shrinkTo f sl) := by
  unfold shrinkBody
  rw [if_neg hon]
  refine (congrArg (fun t => State.modRod t k (fun r => r.shrinkTo f sl)) (passOver_eq (r := r) hq i m)).trans ?_
  rw [State.modRod_of_some (State.rod?_setRod_same _ _ _), State.setRod_setRod]

/-- With no load, mark or reduction outstanding, SHRINK only takes the registers that are given up. -/
theorem goesOn_shrinkTo (h : ∀ n : Fin 32, r.lanes[n].marked = [] ∧ r.lanes[n].joined = []) :
    (r.goesOn m).shrinkTo f sl = { r.mapLanes 0xFFFFFFFF (fun n x =>
        let y := if m.getLsbD n.val then x.advance else x
        { y with regs := y.regs.filter (fun e => allocated (min r.fast f) (min r.slow sl) e.1) }) with
      fast := min r.fast f, slow := min r.slow sl } := by
  unfold Rod.shrinkTo Rod.goesOn
  rw [Rod.mapLanes_fast, Rod.mapLanes_slow]
  dsimp only
  rw [mapLanes_twice (c := fun n x =>
        let y := if m.getLsbD n.val then x.advance else x
        { y with regs := y.regs.filter (fun e => allocated (min r.fast f) (min r.slow sl) e.1) })]
  intro n
  obtain ⟨hm, hj⟩ := h n
  rw [getLsbD_allLanes, if_pos rfl, if_pos rfl]
  split
  · exact keepRegs_quiet (x := r.lanes[n].advance) hm hj _
  · exact keepRegs_quiet hm hj _

end

/-! ## JSET (R59, R62, R265) -/

theorem capHolds_reg {is : Issue} {a : BitVec 8} (hc : isCarry a.toNat = false) (hh : is.rod.holds a.toNat = true) :
    capHolds is .reg a = true := by
  simp [capHolds, fieldOperand, hc, hh]

/-- JSET in a team whose rods its mask names: it sets the members, or waits while something is pending. -/
theorem jsetBody_eq {is : Issue} {s : State} {t : Team} {a : BitVec 8} {j : Nat} (hcap : is.capOn = true)
    (hh : capHolds is .reg a = true) (ht : s.team? (teamKeyOf is.key is.rod) = some t) (hc : isCarry a.toNat = false)
    (hm : (decide (is.cap.reg a.toNat = 0) || (maskLanes (is.cap.reg a.toNat)).any (fun b =>
      decide ((s.recordOfLaunch is.rod.launch).teamRods ≤ b))) = false) :
    jsetBody j a is s = if (t.join j).pending ≠ [] then blockEnabled is (.jset j) s
      else (passOver is s).modTeam (teamKeyOf is.key is.rod) (fun t =>
        t.setJoin j { t.join j with mask := is.cap.reg a.toNat }) := by
  have hj : jsetMask is a s = some (is.cap.reg a.toNat, s) := by rw [jsetMask, hc, if_neg Bool.false_ne_true]
  unfold jsetBody
  simp only [hcap, hh, ht, hj, hm, Bool.not_true, Bool.false_eq_true, if_false]

/-- JWAIT goes on where no item is enabled or all that the rod signed has entered its queue. -/
theorem jwaitBody_eq {is : Issue} {s : State} {t : Team} {j : Nat} (ht : s.team? (teamKeyOf is.key is.rod) = some t) :
    jwaitBody j is s = if is.enabled = 0 ∨ is.rod.sigs.toList.getD j 0 ≤ (t.join j).base then passOver is s
      else blockEnabled is (.jwait j) s := by
  unfold jwaitBody
  simp only [ht, Bool.or_eq_true, decide_eq_true_eq]

end Sys2Proof.Machine

open Sys2Proof Sys2Proof.Machine

/-- Settles O19: each word's body passes over its sub-rod, or blocks its enabled lanes, with the one change of its own. -/
theorem plainControl : Obligations.PlainControl := by
  refine ⟨?_, ?_, ?_, ?_, ?_, ?_, ?_⟩
  · intro w s k l r h
    show issueWord (.nop w) passOver s = _
    exact issueWord_goesOn h (by rw [Rod.goesOn]) (passOver_eq h.rod _ _)
  · intro w s k l r h on next
    have hy : yieldBody (mkIssue k r (.yield w) (r.subRod l)) s
        = s.setRod k (if on = 0 then next else { next with yielded := true }) := yieldBody_eq h.rod
    show (_ → issueWord (.yield w) yieldBody s = _) ∧ (_ → issueWord (.yield w) yieldBody s = _)
    refine ⟨fun hon => ?_, fun hon => ?_⟩
    · exact issueWord_goesOn h (by dsimp only [next, Rod.goesOn]) (by rw [hy, if_neg hon])
    · exact issueWord_goesOn h (by dsimp only [next, Rod.goesOn]) (by rw [hy, if_pos hon])
  · intro w s p slot l r f g n h hon hf hg hfree hold
    show issueWord (.grow w) (growBody _ _) s = _
    refine issueWord_goesOn h (by dsimp only [Rod.goesOn]) ?_
    rw [growBody_eq (i := .grow w) (m := r.subRod l) h.rod hon hf hg]
    by_cases hsame : f = r.fast ∧ g = r.slow
    · refine (if_pos hsame).trans (congrArg (s.setRod _) (Rod.with_blocks (q := r.goesOn (r.subRod l)) ?_ ?_).symm)
      · exact hsame.1.trans (goesOn_fast r _).symm
      · exact hsame.2.trans (goesOn_slow r _).symm
    · rw [if_neg hsame, hfree, hold]
      rfl
  · intro w s p slot l r a b f g n on h hon hf hg
    show (_ → _ → issueWord (.grow w) (growBody a b) s = _) ∧ (_ → _ → issueWord (.grow w) (growBody a b) s = _)
    have hb := growBody_eq (i := .grow w) (m := r.subRod l) h.rod hon hf hg
    refine ⟨fun he1 he2 => ?_, fun hne hwait => ?_⟩
    · exact issueWord_goesOn h (by rw [Rod.goesOn]) (hb.trans (if_pos ⟨he1, he2⟩))
    · have hblock : (s.blocksFree p r.fast r.slow f g && !(s.frame p).olderWaits (ageKey r)) = false := by
        rcases hwait with h0 | h0 <;> rw [h0] <;> simp
      rw [issueWord_free h, hb, if_neg (fun h => hne.elim (· h.1) (· h.2)), hblock, if_neg Bool.false_ne_true,
        State.modRod_modFrame_setRod]
      rfl
  · intro w s k l r f g kept h hon
    show (_ → issueWord (.shrink w) (shrinkBody _ _) s = _) ∧ (∃ t q, issueWord (.shrink w) (shrinkBody _ _) s = _ ∧ _)
    have hb {q : Rod} := shrinkBody_eq (s := s) (k := k) (r := r) (q := q) (i := .shrink w) (m := r.subRod l)
      (f := RMod.bits w.mod 8 4) (sl := RMod.bits w.mod 12 3) hon
    refine ⟨fun hq => ?_, ?_⟩
    · have hd := drainWhere_quiet (m := 0xFFFFFFFF) h.rod (fun _ => LoadEntry.leaves f g) (fun n _ => (hq n).1)
      have hbody := hb (by rw [hd, h.rod])
      rw [hd] at hbody
      rw [issueWord_together h (fun n hn => shrinkTo_sameOutcome hn) hbody, goesOn_shrinkTo (fun n => (hq n).2)]
      rfl
    · obtain ⟨q, hq, hf, hs, hl⟩ := rod?_drainWhere (LoadEntry.leaves f g) h.rod
      rw [issueWord_free h, hb hq, State.modRod_of_some (State.rod?_setRod_same _ _ _), State.setRod_setRod]
      refine ⟨_, _, rfl, State.rod?_setRod_same _ _ _, ?_, ?_, fun n a ha => ?_⟩
      · rw [regroup_fast, Rod.shrinkTo, goesOn_fast, hf]
      · rw [regroup_slow, Rod.shrinkTo, goesOn_slow, hs]
      · refine regroup_shrinkTo_gone ?_ ?_
        · rw [hf, hs]
          exact ha
        · rw [hf, hs]
          exact hl n
  · intro w s k l r t cap m h ht hg hc hh hm hmask
    have hcap := h.capOn hg
    have hheld : capHolds (mkIssue k r (.jset w) (r.subRod l)) .reg w.a = true := capHolds_reg hc hh
    have hmem : (decide (m = 0) || (maskLanes m).any (fun b => decide ((s.recordOfLaunch r.launch).teamRods ≤ b))) = false := by
      rw [decide_eq_false hm, Bool.false_or, List.any_eq_false]
      intro b hb
      rw [decide_eq_true_eq, Nat.not_le]
      exact hmask b (mem_maskLanes.1 hb).2
    have hb := jsetBody_eq (j := w.dst.toNat) hcap hheld ht hc hmem
    show (_ → issueWord (.jset w) (jsetBody _ _) s = _) ∧ (_ → issueWord (.jset w) (jsetBody _ _) s = _)
    refine ⟨fun hp => ?_, fun hp => ?_⟩
    · rw [State.setTeam_setRod]
      refine issueWord_goesOn h (by rw [Rod.goesOn]) (hb.trans ?_)
      rw [if_neg (not_not.2 hp), passOver_eq h.rod]
      exact State.modTeam_of_some (s := s.setRod k _) ht _
    · exact issueWord_blocks h (hb.trans (if_pos hp))
  · intro w s k l r t h ht
    show (_ → issueWord (.jwait w) (jwaitBody _) s = _) ∧ (_ → _ → issueWord (.jwait w) (jwaitBody _) s = _)
    refine ⟨fun hle => ?_, fun hlt hon => ?_⟩
    · refine issueWord_goesOn h (by rw [Rod.goesOn]) ?_
      rw [jwaitBody_eq (is := mkIssue k r (.jwait w) (r.subRod l)) ht, if_pos (.inr hle)]
      exact passOver_eq h.rod _ _
    · refine issueWord_blocks h ?_
      rw [jwaitBody_eq (is := mkIssue k r (.jwait w) (r.subRod l)) ht, if_neg (fun h => h.elim hon (Nat.not_le.2 hlt))]
end
section
namespace Sys2Proof.Machine

/-! ## What settles after a retirement leaves carries and retired sets as they are (R37, R60, R297, R323) -/

/-- No carry slot changes, and no rod of a team retires. -/
structure State.Settles (s t : State) : Prop where
  carry : t.carry = s.carry
  retired : ∀ tk, (t.team? tk).map Team.retired = (s.team? tk).map Team.retired

theorem State.settles_refl (s : State) : s.Settles s := ⟨rfl, fun _ => rfl⟩

theorem State.settles_trans {s t u : State} (h : s.Settles t) (g : t.Settles u) : s.Settles u :=
  ⟨g.carry.trans h.carry, fun tk => (g.retired tk).trans (h.retired tk)⟩

theorem State.settles_foldl {α : Type} {f : State → α → State} (h : ∀ (s : State) a, s.Settles (f s a)) (l : List α)
    (s : State) : s.Settles (l.foldl f s) :=
  foldl_keeps State.settles_refl (fun _ _ _ => State.settles_trans) h l s

theorem State.settles_of_eq {s t : State} (hc : t.carry = s.carry) (ht : t.teams = s.teams) : s.Settles t :=
  ⟨hc, fun tk => by unfold State.team?; rw [ht]⟩

theorem State.settles_modRod (s : State) (k : RodKey) (g : Rod → Rod) : s.Settles (s.modRod k g) :=
  State.settles_of_eq (s.modRod_carry k g) (s.modRod_teams k g)

theorem State.settles_modFrame (s : State) (p : FrameId) (g : Frame → Frame) : s.Settles (s.modFrame p g) :=
  State.settles_of_eq rfl rfl

theorem State.settles_modTeam (s : State) {g : Team → Team} (h : ∀ t, (g t).retired = t.retired) (tk : TeamKey) :
    s.Settles (s.modTeam tk g) := by
  refine ⟨s.modTeam_carry tk g, fun k => ?_⟩
  unfold State.modTeam
  cases ht : s.team? tk with
  | none => rfl
  | some t =>
    dsimp only
    by_cases hk : k = tk
    · rw [hk, State.team?_setTeam_same, ht, Option.map_some, Option.map_some, h]
    · rw [State.team?_setTeam_ne s _ hk]

theorem State.settles_setTeam {s : State} {tk : TeamKey} {t u : Team} (ht : s.team? tk = some t) (h : u.retired = t.retired) :
    s.Settles (s.setTeam tk u) := by
  refine ⟨rfl, fun k => ?_⟩
  by_cases hk : k = tk
  · rw [hk, State.team?_setTeam_same, ht, Option.map_some, Option.map_some, h]
  · rw [State.team?_setTeam_ne s _ hk]

section
variable (s : State) (tk : TeamKey)

theorem settles_countFault (launch n : Nat) : s.Settles (s.countFault launch n) := State.settles_of_eq rfl rfl

theorem settles_modMember (launch team rod : Nat) (g : Rod → Rod) : s.Settles (s.modMember tk launch team rod g) := by
  unfold State.modMember
  split
  · exact s.settles_modRod _ g
  · exact s.settles_modFrame _ _

theorem settles_modSavedRod (launch team rod : Nat) (g : SavedRod → SavedRod) :
    s.Settles (s.modSavedRod tk launch team rod g) := by
  unfold State.modSavedRod
  split
  · exact s.settles_refl
  · exact s.settles_modFrame _ _

/-- A step on each rod of a team that is on the frame. -/
theorem settles_teamRods (g : Rod → Rod) (p : FrameId) (slot : Nat) (l : List (Nat × Rod)) :
    s.Settles (l.foldl (fun s e => if e.2.teamSlot = slot then s.modRod (rodKey p e.1) g else s) s) := by
  refine State.settles_foldl (fun s e => ?_) l s
  split
  · exact s.settles_modRod _ g
  · exact s.settles_refl

theorem settles_settleRows : s.Settles (s.settleRows tk) := by
  unfold State.settleRows
  split
  · exact s.settles_refl
  · rename_i t ht
    refine State.settles_trans ?_ (State.settles_foldl (fun s e => settles_modMember s tk _ _ _ _) _ _)
    exact State.settles_setTeam ht rfl

theorem settles_releaseRows (rod : Nat) (rows : List Nat) : s.Settles (s.releaseRows tk rod rows) := by
  unfold State.releaseRows
  split
  · exact s.settles_refl
  · refine State.settles_trans ?_ (settles_settleRows _ tk)
    refine State.settles_modTeam s (fun t => ?_) tk
    rfl

theorem settles_engineFaultTo (launch rod : Nat) (ef : EngineFault) : s.Settles (s.engineFaultTo tk launch rod ef) := by
  unfold State.engineFaultTo
  split
  · exact settles_countFault s launch 1
  split
  · exact settles_countFault s launch 1
  split
  · exact settles_modMember s tk _ _ _ _
  · refine State.settles_modTeam s (fun t => ?_) tk
    rfl

theorem settles_settleBarrier (n : Nat) : s.Settles (s.settleBarrier tk n) := by
  unfold State.settleBarrier
  split
  · exact s.settles_refl
  · rename_i t ht
    dsimp only
    split
    · exact s.settles_refl
    · refine State.settles_trans (State.settles_trans (State.settles_setTeam ht ?_) (settles_teamRods _ _ tk.frame tk.slot _))
        (State.settles_modFrame _ _ _)
      rfl

theorem settles_countSupplier (t : Team) (i : Instance) : s.Settles (s.countSupplier tk t i) := by
  unfold State.countSupplier
  split
  · exact s.settles_refl
  · refine State.settles_trans (State.settles_trans (State.settles_modTeam s (fun _ => ?_) tk)
      (settles_modMember _ tk _ _ _ _)) (settles_modSavedRod _ tk _ _ _ _)
    rfl

theorem settles_settleJoin (n : Nat) : ∀ (fuel : Nat) (s : State), s.Settles (State.settleJoin tk n fuel s)
  | 0, s => s.settles_refl
  | fuel + 1, s => by
    unfold State.settleJoin
    split
    · exact s.settles_refl
    rename_i t ht
    dsimp only
    split
    · exact s.settles_refl
    rename_i i rest hp
    split
    · exact s.settles_refl
    split
    · exact s.settles_refl
    refine State.settles_trans (State.settles_trans ?_ (settles_teamRods _ _ tk.frame tk.slot _))
      (settles_settleJoin n fuel _)
    have hsup (b : Bool) (j : Join) : s.Settles (if b then s.setTeam tk (t.setJoin n j)
        else (s.setTeam tk (t.setJoin n j)).countSupplier tk t i) := by
      have hset := State.settles_setTeam (u := t.setJoin n j) ht rfl
      split
      · exact hset
      · exact State.settles_trans hset (settles_countSupplier _ tk t i)
    split
    · exact State.settles_trans (hsup _ _) (State.settles_modFrame _ _ _)
    · exact State.settles_trans (hsup _ _) (settles_engineFaultTo _ tk _ _ _)

theorem settles_settleJoins : s.Settles (s.settleJoins tk) :=
  State.settles_foldl (fun s n => settles_settleJoin tk n 4 s) _ s

end

/-- A rod without a live item leaves its frame: its team counts it as retired, and no carry changes. -/
theorem retireRod_settles {s : State} {k : RodKey} {r : Rod} (hr : s.rod? k = some r) (h : r.liveMask = 0) :
    (s.retireRod k).carry = s.carry ∧ ((s.retireRod k).team? (teamKeyOf k r)).map Team.retired
      = (s.team? (teamKeyOf k r)).map (fun t => t.retired ||| (1#32 <<< r.rod)) := by
  unfold State.retireRod
  simp only [hr, h, ne_eq, not_true_eq_false, if_false]
  set g : Team → Team := fun t => { t with
    retired := t.retired ||| (1#32 <<< r.rod)
    bars := Vector.ofFn (fun b =>
      if r.arrived.getLsbD b.val then { t.bars[b] with gone := t.bars[b].gone + 1 } else t.bars[b]) } with hg
  set tk := teamKeyOf k r
  have hsettle : ((s.eraseRod k).modTeam tk g).Settles (((List.range 8).foldl (fun s n => s.settleBarrier tk n)
      (r.engineFaults.foldl (fun s ef => s.engineFaultTo tk r.launch r.rod ef)
        (((s.eraseRod k).modTeam tk g).releaseRows tk r.rod r.rows))).settleJoins tk) :=
    State.settles_trans (settles_releaseRows _ tk _ _)
      (State.settles_trans (State.settles_foldl (fun s ef => settles_engineFaultTo s tk r.launch r.rod ef) _ _)
        (State.settles_trans (State.settles_foldl (fun s n => settles_settleBarrier s tk n) _ _) (settles_settleJoins _ tk)))
  refine ⟨hsettle.carry.trans (State.modTeam_carry _ tk g), (hsettle.retired tk).trans ?_⟩
  rw [team?_modTeam_same, Option.map_map]
  rfl

/-! ## The slots of a retired item are closed (R78) -/

/-- One slot of an item closes, where the mask names it. -/
def closeSlot (launch item : Nat) (m : BitVec 8) (c : List (CarryKey × CarryBuf)) (n : Nat) : List (CarryKey × CarryBuf) :=
  if m.getLsbD n then
    tableSet { launch, item, slot := n } { tableGet CarryBuf.empty { launch, item, slot := n } c with closed := true } c
  else c

theorem closeSlots_eq_foldl (launch item : Nat) (m : BitVec 8) (c : List (CarryKey × CarryBuf)) :
    closeSlots launch item m c = (List.range 8).foldl (closeSlot launch item m) c := rfl

/-- A closed slot stays closed, and a slot that the mask names closes. -/
theorem closed_closeSlot {launch item n : Nat} {m : BitVec 8} {k : CarryKey} {c : List (CarryKey × CarryBuf)}
    (h : (tableGet CarryBuf.empty k c).closed = true ∨ k = { launch, item, slot := n } ∧ m.getLsbD n = true) :
    (tableGet CarryBuf.empty k (closeSlot launch item m c n)).closed = true := by
  unfold closeSlot
  by_cases hm : m.getLsbD n = true
  · rw [if_pos hm]
    by_cases hk : k = { launch, item, slot := n }
    · rw [hk]
      unfold tableGet
      rw [tableFind_tableSet_same]
      rfl
    · unfold tableGet at h ⊢
      rw [tableFind_tableSet_ne _ hk]
      exact h.resolve_right (fun h => hk h.1)
  · rw [if_neg hm]
    exact h.resolve_right (fun h => hm h.2)

theorem closed_foldl_closeSlot {launch item : Nat} {m : BitVec 8} {k : CarryKey} {ns : List Nat}
    {c : List (CarryKey × CarryBuf)} (h : (tableGet CarryBuf.empty k c).closed = true
      ∨ ∃ n ∈ ns, k = { launch, item, slot := n } ∧ m.getLsbD n = true) :
    (tableGet CarryBuf.empty k (ns.foldl (closeSlot launch item m) c)).closed = true := by
  induction ns generalizing c with
  | nil => exact h.resolve_right (by simp)
  | cons a ns ih =>
    rw [List.foldl_cons]
    refine ih ?_
    rcases h with h | ⟨n, hn, hk, hm⟩
    · exact .inl (closed_closeSlot (.inl h))
    · rcases List.mem_cons.1 hn with rfl | hn
      · exact .inl (closed_closeSlot (.inr ⟨hk, hm⟩))
      · exact .inr ⟨n, hn, hk, hm⟩

theorem getLsbD_allSlots (n : Fin 8) : (0xFF : BitVec 8).getLsbD n.val = true := by
  revert n
  decide

/-- Closing every slot of some items, one after the other, closes every slot of each of them. -/
theorem closed_foldl_closeSlots {launch : Nat} {item : Nat → Nat} {ls : List Nat} {l : Nat} {n : Fin 8}
    {c : List (CarryKey × CarryBuf)} (h : (carryBuf c launch (item l) n.val).closed = true ∨ l ∈ ls) :
    (carryBuf (ls.foldl (fun c a => closeSlots launch (item a) 0xFF c) c) launch (item l) n.val).closed = true := by
  induction ls generalizing c with
  | nil => exact h.resolve_right List.not_mem_nil
  | cons a ls ih =>
    rw [List.foldl_cons]
    refine ih ?_
    rcases h with h | h
    · exact .inl (closed_foldl_closeSlot (.inl h))
    · rcases List.mem_cons.1 h with rfl | h
      · exact .inl (closed_foldl_closeSlot (.inr ⟨n.val, List.mem_range.2 n.isLt, rfl, getLsbD_allSlots n⟩))
      · exact .inr h

/-! ## EXIT (R263, R274) -/

section
variable {s : State} {k : RodKey} {r : Rod} {i : Instr} {m : BitVec 32}

/-- The writes of some lanes have been waited for. -/
theorem settleWrites_eq {e : BitVec 32} (hr : tableFind k s.rods = some r) (hk : s.rod? k = some r) :
    s.settleWrites k e = s.setRod k (r.mapLanes e (fun _ x => { x with writes := [] })) := by
  unfold State.settleWrites
  simp only [hk]
  split
  · rename_i hall
    rw [mapLanes_fixed (fun n hn => ?_)]
    · unfold State.setRod
      rw [tableSet_of_find hr]
    · rw [List.all_eq_true] at hall
      have := hall n.val (mem_maskLanes.2 ⟨n.isLt, hn⟩)
      rw [Rod.lane_eq, List.isEmpty_iff] at this
      rw [← this]
  · rfl

/-- With no deferred write error, the enabled items only wait for their writes. -/
theorem takeDeferred_none (h : ∀ n : Fin 32, (mkIssue k r i m).enabled.getLsbD n.val = true → r.lanes[n].deferred = []) :
    takeDeferred (mkIssue k r i m) s
      = ((mkIssue k r i m).enabled, s.settleWrites k (mkIssue k r i m).enabled) := by
  have hbad : (maskLanes (mkIssue k r i m).enabled).filterMap (fun l =>
      (((mkIssue k r i m).rod.lane l).deferred.head?).map (fun d => (l, d.cause, d.addr))) = [] := by
    rw [List.filterMap_eq_nil_iff]
    intro a ha
    obtain ⟨h1, h2⟩ := mem_maskLanes.1 ha
    rw [show (mkIssue k r i m).rod = r from rfl, Rod.lane_lt r h1, h ⟨a, h1⟩ h2]
    rfl
  unfold takeDeferred
  dsimp only
  rw [hbad]
  rfl

/-- What EXIT leaves of a lane. -/
def Lane.exited (x : Lane) : Lane := { x.retire with writes := [] }

/-- The rod after EXIT: the items on which it acts have retired, the others of the sub-rod go on. -/
def Rod.exits (r : Rod) (i : Instr) (m : BitVec 32) : Rod :=
  r.mapLanes m (fun _ x => if actsOn i x then x.exited else x.advance)

/-- The items that EXIT retires, with their outcomes. -/
def exitOutcomes (r : Rod) (on : BitVec 32) : List (Nat × ItemOutcome) :=
  (maskLanes on).map (fun n => ((r.lane n).item.toNat, exitOutcome (r.lane n)))

/-- What the retirement of items makes of their team: their draws are frozen, their writes ordered. -/
def Rod.exitTeam (r : Rod) (on : BitVec 32) (t : Team) : Team :=
  (t.freezeDraws ((maskLanes on).map (fun n => ((r.lane n).item, (r.lane n).rsCount)))).ordered
    ((maskLanes on).map (fun n => (r.lane n).item))

/-- What EXIT makes of the team, of the launch and of the carries. -/
def State.exitRecords (s : State) (k : RodKey) (r : Rod) (on : BitVec 32) : State :=
  { ((s.modTeam (teamKeyOf k r) (r.exitTeam on)).modLaunch r.launch (fun y =>
          y.withOutcomes (exitOutcomes r on) (s.frameTime k.frame))) with
    carry := (maskLanes on).foldl (fun c n => closeSlots r.launch (r.lane n).item.toNat 0xFF c) s.carry }

/-- The records do not hang on the rod's lanes: they may be written after the rod. -/
theorem exitRecords_setRod (s : State) (k : RodKey) (r q : Rod) (on : BitVec 32) :
    { (((s.setRod k q).modTeam (teamKeyOf k r) (r.exitTeam on)).modLaunch r.launch (fun y =>
          y.withOutcomes (exitOutcomes r on) (s.frameTime k.frame))) with
      carry := (maskLanes on).foldl (fun c n => closeSlots r.launch (r.lane n).item.toNat 0xFF c) s.carry }
      = (s.exitRecords k r on).setRod k q := by
  unfold State.exitRecords State.modTeam
  rw [show (s.setRod k q).team? (teamKeyOf k r) = s.team? (teamKeyOf k r) from rfl]
  cases s.team? (teamKeyOf k r) <;> rfl

/-- Three changes to the lanes of a rod, each on its own mask, as one. -/
theorem mapLanes_three {q : Rod} {a b d e : BitVec 32} {f g h c : Fin 32 → Lane → Lane}
    (hc : ∀ n : Fin 32,
      let y := if a.getLsbD n.val then f n q.lanes[n] else q.lanes[n]
      let z := if b.getLsbD n.val then g n y else y
      (if d.getLsbD n.val then h n z else z) = if e.getLsbD n.val then c n q.lanes[n] else q.lanes[n]) :
    ((q.mapLanes a f).mapLanes b g).mapLanes d h = q.mapLanes e c := by
  simp only [Rod.mapLanes, Rod.mk.injEq, true_and, and_true]
  ext n hn
  simp only [Vector.getElem_ofFn, Fin.getElem_fin]
  exact hc ⟨n, hn⟩

/-- The rod as its enabled items have waited for their writes and the others of the sub-rod have gone on. -/
def Rod.waited (r : Rod) (on off : BitVec 32) : Rod :=
  (r.mapLanes on (fun _ x => { x with writes := [] })).mapLanes off (fun _ x => x.advance)

theorem waited_lane {on : BitVec 32} {a : Nat} (ha : a ∈ maskLanes on) :
    (r.waited on (m &&& ~~~on)).lane a = { r.lane a with writes := [] } := by
  obtain ⟨h1, h2⟩ := mem_maskLanes.1 ha
  unfold Rod.waited
  rw [Rod.lane_lt _ h1, Rod.lane_lt _ h1, mapLanes_lane, mapLanes_lane, if_pos h2, if_neg]
  rw [BitVec.getLsbD_and, BitVec.getLsbD_not, h2]
  simp

/-- The items that have waited retire. -/
theorem waited_retire : (r.waited (mkIssue k r i m).enabled (m &&& ~~~(mkIssue k r i m).enabled)).mapLanes
    (mkIssue k r i m).enabled (fun _ => Lane.retire) = r.exits i m := by
  refine mapLanes_three (fun n => ?_)
  rw [BitVec.getLsbD_and, BitVec.getLsbD_not, enabled_eq]
  cases m.getLsbD n.val <;> cases actsOn i r.lanes[n] <;>
    simp only [n.isLt, Bool.false_and, Bool.true_and, Bool.and_false, Bool.not_true, Bool.not_false, decide_true,
      Bool.false_eq_true, if_true, if_false]
  rfl

theorem retireLanes_waited {on : BitVec 32} :
    (s.setRod k (r.waited on (m &&& ~~~on))).retireLanes k on exitOutcome
      = (s.exitRecords k r on).setRod k ((r.waited on (m &&& ~~~on)).mapLanes on (fun _ => Lane.retire)) := by
  have hl {α : Type} (g : Lane → α) (hg : ∀ x : Lane, g { x with writes := [] } = g x) :
      (maskLanes on).map (fun a => g ((r.waited on (m &&& ~~~on)).lane a)) = (maskLanes on).map (fun a => g (r.lane a)) :=
    List.map_congr_left (fun a ha => by rw [waited_lane ha, hg])
  have hdone := hl (fun x => (x.item.toNat, exitOutcome x)) (fun x => rfl)
  have hdraws := hl (fun x => (x.item, x.rsCount)) (fun x => rfl)
  have hitems := hl (fun x => x.item) (fun x => rfl)
  have hlaunch : (r.waited on (m &&& ~~~on)).launch = r.launch := by
    rw [Rod.waited, Rod.mapLanes_launch, Rod.mapLanes_launch]
  have hteam : teamKeyOf k (r.waited on (m &&& ~~~on)) = teamKeyOf k r := by
    rw [teamKeyOf, Rod.waited, Rod.mapLanes_teamSlot, Rod.mapLanes_teamSlot]
    rfl
  unfold State.retireLanes
  rw [State.rod?_setRod_same]
  dsimp only
  rw [hdone, hdraws, hitems, hlaunch, hteam, State.setRod_setRod, List.foldl_map]
  exact exitRecords_setRod s k r _ on

theorem exitBody_eq (hr : tableFind k s.rods = some r) (hk : s.rod? k = some r)
    (h : ∀ n : Fin 32, (mkIssue k r i m).enabled.getLsbD n.val = true → r.lanes[n].deferred = []) :
    exitBody (mkIssue k r i m) s
      = ((s.exitRecords k r (mkIssue k r i m).enabled).setRod k (r.exits i m)).retireRod k := by
  unfold exitBody
  rw [takeDeferred_none h]
  dsimp only
  rw [settleWrites_eq hr hk, show (mkIssue k r i m).key = k from rfl, show (mkIssue k r i m).active = m from rfl,
    State.modRod_of_some (State.rod?_setRod_same _ _ _), State.setRod_setRod]
  refine congrArg (fun t => State.retireRod t k) ?_
  rw [show (r.mapLanes (mkIssue k r i m).enabled (fun _ x => { x with writes := [] })).mapLanes
    (m &&& ~~~(mkIssue k r i m).enabled) (fun _ x => x.advance) = r.waited _ _ from rfl,
    retireLanes_waited, waited_retire]

/-- The items that live on are those on which EXIT did not act. -/
theorem exits_liveMask : (r.exits i m).liveMask = r.liveMask &&& ~~~(mkIssue k r i m).enabled := by
  refine BitVec.eq_of_getLsbD_eq (fun n hn => ?_)
  rw [BitVec.getLsbD_and, BitVec.getLsbD_not, enabled_eq k r i m ⟨n, hn⟩,
    show (r.exits i m).liveMask.getLsbD n = _ from maskWhere_getLsbD _ Lane.live ⟨n, hn⟩,
    show r.liveMask.getLsbD n = _ from maskWhere_getLsbD _ Lane.live ⟨n, hn⟩, Rod.exits, mapLanes_lane]
  cases m.getLsbD n with
  | false => simp [hn]
  | true =>
    cases actsOn i r.lanes[n] with
    | false => simp [hn, (Lane.advance_keeps _).live]
    | true => simp [Lane.exited, Lane.retire, Lane.live]

theorem retireRod_live {q : Rod} (hq : s.rod? k = some q) (h : q.liveMask ≠ 0) : s.retireRod k = s := by
  unfold State.retireRod
  simp only [hq, h, ne_eq, not_false_eq_true, if_true]

end

/-! ### What EXIT records -/

section
variable {s : State} {k : RodKey} {r : Rod} {on : BitVec 32}

theorem exitRecords_mem : (s.exitRecords k r on).mem = s.mem := State.modTeam_mem s _ _

theorem exitRecords_closed {n : Fin 32} (hn : on.getLsbD n.val = true) (c : Fin 8) :
    (carryBuf (s.exitRecords k r on).carry r.launch r.lanes[n].item.toNat c.val).closed = true := by
  have h := closed_foldl_closeSlots (launch := r.launch) (item := fun a => (r.lane a).item.toNat) (n := c) (c := s.carry)
    (.inr (mem_maskLanes.2 ⟨n.isLt, hn⟩))
  rwa [Rod.lane_eq] at h

theorem exitRecords_outcome {n : Fin 32} (hn : on.getLsbD n.val = true) {x : Launch} (hx : s.launch? r.launch = some x) :
    ∃ y, (s.exitRecords k r on).launch? r.launch = some y
      ∧ (r.lanes[n].item.toNat, exitOutcome r.lanes[n]) ∈ y.outcomes := by
  have hseq : x.seq = r.launch := by simpa using List.find?_some hx
  refine ⟨x.withOutcomes (exitOutcomes r on) (s.frameTime k.frame), ?_, List.mem_append_right _ ?_⟩
  · refine (State.launch?_modLaunch (s.modTeam (teamKeyOf k r) (r.exitTeam on))
      (g := fun y => y.withOutcomes (exitOutcomes r on) (s.frameTime k.frame)) (fun _ => rfl) r.launch r.launch).trans ?_
    rw [State.launch?, State.modTeam_hub, show s.hub.launches.find? (fun l => l.seq == r.launch) = some x from hx,
      Option.map_some, if_pos hseq]
  · refine List.mem_map.2 ⟨n.val, mem_maskLanes.2 ⟨n.isLt, hn⟩, ?_⟩
    rw [Rod.lane_eq]

theorem freezeDraws_retired (l : List (DWord × BitVec 20)) (t : Team) : (t.freezeDraws l).retired = t.retired := by
  induction l generalizing t with
  | nil => rfl
  | cons e l ih => exact ih _

theorem exitRecords_retired (tk : TeamKey) :
    ((s.exitRecords k r on).team? tk).map Team.retired = (s.team? tk).map Team.retired :=
  (State.settles_modTeam s (g := r.exitTeam on) (fun t => freezeDraws_retired _ t) (teamKeyOf k r)).retired tk

theorem exitOutcome_eq (x : Lane) :
    exitOutcome x = if x.phase then (if x.valid then .wrappedValid else .wrappedInvalid) else .normal := by
  unfold exitOutcome
  cases x.phase <;> rfl

end

theorem modRod_of_none {s : State} {k : RodKey} (h : s.rod? k = none) (g : Rod → Rod) : s.modRod k g = s := by
  simp only [State.modRod, h]

/-- EXIT as one change: its records, and the rod with its items retired, which leaves its frame where none lives on. -/
theorem exec_exit {w : RWord} {s : State} {p : FrameId} {slot l : Nat} {r : Rod}
    (h : IssuesFreely s (rodKey p slot) l r (.exit w))
    (hdef : ∀ n : Fin 32, (mkIssue (rodKey p slot) r (.exit w) (r.subRod l)).enabled.getLsbD n.val = true →
      r.lanes[n].deferred = []) :
    exec (.exit w) s = .next ((((s.exitRecords (rodKey p slot) r
      (mkIssue (rodKey p slot) r (.exit w) (r.subRod l)).enabled).setRod (rodKey p slot)
        (r.exits (.exit w) (r.subRod l))).retireRod (rodKey p slot)).modRod (rodKey p slot)
          (fun q => q.regroup (r.subRod l))) := by
  show issueWord (.exit w) exitBody s = _
  rw [issueWord_free h, exitBody_eq h.rod h.rod hdef]

end Sys2Proof.Machine

open Sys2Proof Sys2Proof.Machine

/-- Settles O18: EXIT records and retires its items, and a rod without a live item leaves its frame. -/
theorem itemsExit : Obligations.ItemsExit := by
  intro w s p slot l r k on what h _ hdef
  have hexec := exec_exit h hdef
  have hlive := exits_liveMask (k := k) (r := r) (i := .exit w) (m := r.subRod l)
  have hwhat : exitOutcome = what := funext exitOutcome_eq
  set e := s.exitRecords k r (mkIssue k r (.exit w) (r.subRod l)).enabled with he
  set q := r.exits (.exit w) (r.subRod l) with hq
  have hrod : (e.setRod k q).rod? k = some q := State.rod?_setRod_same _ _ _
  have hstays (hne : r.liveMask &&& ~~~on ≠ 0) : exec (.exit w) s = .next (e.setRod k (q.regroup (r.subRod l))) := by
    rw [hexec, retireRod_live hrod (by rw [hlive]; exact hne), State.modRod_of_some hrod, State.setRod_setRod]
  refine ⟨?_, fun hne => ?_⟩
  · by_cases hne : r.liveMask &&& ~~~on = 0
    · obtain ⟨hfades, hgone⟩ := retireRod_gone (e.setRod k q) hrod (by rw [hlive]; exact hne)
      obtain ⟨hcarry, hteam⟩ := retireRod_settles hrod (by rw [hlive]; exact hne)
      have hteamKey : teamKeyOf k q = teamKeyOf k r := by rw [teamKeyOf, hq, Rod.exits, Rod.mapLanes_teamSlot]; rfl
      refine ⟨_, hexec.trans (congrArg Host.Outcome.next (modRod_of_none hgone _)), ?_,
        fun n hn => ⟨fun x hx => ?_, fun c => ?_⟩, fun _ => ⟨hgone, fun tm htm => ?_⟩⟩
      · exact hfades.mem.trans (exitRecords_mem (k := k) (r := r))
      · obtain ⟨y, hy, hmem⟩ := exitRecords_outcome (k := k) hn hx
        obtain ⟨y', hy', hkeeps⟩ := hfades.launch _ y hy
        rw [← hwhat]
        exact ⟨y', hy', hkeeps.outcomes _ hmem⟩
      · rw [hcarry]
        exact exitRecords_closed (k := k) hn c
      · have hrecords := exitRecords_retired (s := s) (k := k) (r := r)
          (on := (mkIssue k r (.exit w) (r.subRod l)).enabled) (teamKeyOf k r)
        rw [htm, Option.map_some] at hrecords
        obtain ⟨u, hu, hretired⟩ := Option.map_eq_some_iff.1 hrecords
        rw [hteamKey, show (e.setRod k q).team? (teamKeyOf k r) = some u from hu, Option.map_some, hretired, hq, Rod.exits,
          Rod.mapLanes_rod] at hteam
        exact Option.map_eq_some_iff.1 hteam
    · refine ⟨_, hstays hne, exitRecords_mem (k := k) (r := r), fun n hn => ⟨fun x hx => ?_, fun c => ?_⟩,
        fun h0 => absurd h0 hne⟩
      · rw [← hwhat]
        exact exitRecords_outcome hn hx
      · exact exitRecords_closed (k := k) hn c
  · rw [hstays hne, he, ← exitRecords_setRod]
    unfold exitOutcomes
    rw [hwhat]
    rfl
end
